-- ==== Sys2Proof/Word.lean ====
section
/-! DEFINITION. The word types of the S96: bytes, 32-bit lanes, 64-bit scalars, lane masks (R2, R3, R39). -/

namespace Sys2Proof

/-- One byte of any memory (R3). -/
abbrev Byte := BitVec 8

/-- An instruction word, a lane element, FMT, or a lane mask (R25, R39). -/
abbrev Word := BitVec 32

/-- A scalar register or an address (R39, R86). -/
abbrev DWord := BitVec 64

/-- A lane mask: bit l stands for lane l (R27, R202). -/
abbrev Mask := BitVec 32

/-- One entry of an accumulator tile (R76). -/
abbrev Acc := BitVec 96

end Sys2Proof
end

