-- ==== Sys2Proof/Messages.lean ====
section
/-! DEFINITION. What units of the module send one another: writes and operations at slices, bucket operations, parity
deltas and fabric packets; and the events of spec/opcode_table.json as data, which an agenda or a schedule can hold. -/

namespace Sys2Proof

/-- Who made a write or an operation at a slice, and so who learns of a refusal (R128, R136, R142, R352). -/
inductive Origin where
  /-- a gang, by its identity -/
  | gang (id : Nat)
  /-- a collective of the copy engine, by its identity -/
  | coll (id : Nat)
  /-- a host write through CXL.mem -/
  | host
  /-- the resident on a control core -/
  | resident
  /-- a peer module, with the tag of its packet -/
  | peer (module tag : Nat)
  /-- the device itself (status words, log records) -/
  | device
  deriving DecidableEq, Repr

/-- A write that a slice commits as one (R114, R123): the bytes it names, by local address, and what it carries. -/
structure SliceWrite where
  /-- the bytes named, with their local addresses -/
  cells : List (Nat × Byte)
  /-- watched status of the write (R122) -/
  watched : Bool
  /-- protected status of the write (R122) -/
  prot : Bool
  /-- the depth the change carries (R352) -/
  depth : Nat
  /-- the source kind (R354): 0 local store, 1 copy, 2 remote module, 3 host, 4 resident -/
  skind : Nat
  /-- the context of the writer -/
  ctx : Nat
  org : Origin
  /-- its hint.cache policy, which decides what its slice allocates (R35, R115) -/
  policy : Nat
  deriving DecidableEq, Repr

/-- One near-memory operation sent to a slice (R132). -/
structure NearReq where
  tag : Nat
  /-- local address of the slot -/
  addr : Nat
  /-- 64-bit form (W = 1) -/
  wide : Bool
  /-- element of an fxadd contribution (R84): 0 FP32, 1 FP16, 2 BF16, 3 .s32, 4 .s64 -/
  elem : Nat
  /-- the contribution carries poison (R84) -/
  poison : Bool
  /-- operand, compare operand, and two more words for rinit -/
  x : DWord
  y : DWord
  z : DWord
  w : DWord
  watched : Bool
  prot : Bool
  depth : Nat
  skind : Nat
  ctx : Nat
  org : Origin
  deriving DecidableEq, Repr

/-- One bucket operation sent to a retrieval unit (R298), with the slot contents and translations captured at its
issue (R309, R452). -/
structure BucketReq where
  /-- local address of the bucket -/
  bucket : Nat
  /-- the row id -/
  row : BitVec 32
  /-- overflow policy (R299) -/
  policy : Nat
  /-- virtual address of overflow-pool bucket 0 -/
  pool : Nat
  pooln : Nat
  /-- local address of the descriptor -/
  desc : Nat
  /-- the descriptor's page is protected -/
  descProt : Bool
  /-- translations captured at issue: virtual base, size, domain physical base, leaf -/
  xl : List (Nat × Nat × Nat × Nat)
  /-- protected status of the bucket's page -/
  prot : Bool
  ctx : Nat
  org : Origin
  /-- the cluster of the core that asks, whose L1 it passes by (R155) -/
  cluster : Nat
  deriving DecidableEq, Repr

/-- A parity delta message (R129): target, stripe, position of the data, originator tag and the changed bytes. -/
structure DeltaMsg where
  target : Nat
  stripe : Nat
  pos : Nat
  tag : Nat
  src : Nat
  /-- byte offset in the half-line and its delta, for the non-zero bytes in ascending order -/
  bytes : List (Nat × Byte)
  deriving DecidableEq, Repr

/-- A fabric packet (R419, R420). The bodies the reference gives no byte layout for (atomics, statuses) are fields. -/
structure Packet where
  kind : Nat
  ctx : Nat
  depth : Nat
  skind : Nat
  scope : Nat
  ord : Nat
  src : Nat
  dst : Nat
  tag : Nat
  watched : Bool
  prot : Bool
  addr : Nat
  /-- payload bytes -/
  data : List Byte
  /-- LEN: payload bytes; of a read, bytes asked for -/
  len : Nat
  /-- of an answer to a write or an atomic: deltas that its home slice sent for it; of the word that a half-line has been
  rebuilt: the replacement -/
  count : Nat
  /-- the port that it leaves on (R421); none while no port is UP -/
  port : Option Nat
  /-- which payload bytes a write names, which 32-byte sectors a read; empty: all -/
  mask : List Bool
  /-- a refusal or poison status: 0 none, else the cause code -/
  status : Nat
  /-- operations of one slot, in the order in which they are performed (R234) -/
  near : List NearReq
  /-- operation of an atomic, flags of its answer; what a write, a rebuild query or an exchange is for: 0 unless a rule
  says otherwise -/
  op : Nat
  delta : Option DeltaMsg
  /-- refusals that an answer returns: cause and domain physical address; of data, its poisoned half-lines -/
  refusals : List (Nat × Nat)
  deriving DecidableEq, Repr

/-- The events of the table: what happens at a unit of the module without an instruction word. -/
inductive Event where
  | joinArrival (g k : Nat)
  | reconvergenceRefill (g k : Nat)
  | yieldExpiry (g k : Nat)
  | tableWalk (cluster ctx va : Nat)
  | loadComplete (tag : Nat)
  | wcbIdleDrain (g line : Nat)
  | sliceWriteCommit (w : SliceWrite)
  | sliceRead (tag addr n : Nat)
  | watchCacheFill (die page : Nat)
  | spillRefill (ctx watch : Nat)
  | nearSwap (q : NearReq)
  | nearCas (q : NearReq)
  | nearAdd (q : NearReq)
  | nearAnd (q : NearReq)
  | nearOr (q : NearReq)
  | nearXor (q : NearReq)
  | nearSmin (q : NearReq)
  | nearSmax (q : NearReq)
  | nearUmin (q : NearReq)
  | nearUmax (q : NearReq)
  | nearFadd (q : NearReq)
  | nearFxadd (q : NearReq)
  | nearClaim (q : NearReq)
  | nearRinit (q : NearReq)
  | insert (q : BucketReq)
  | delete (q : BucketReq)
  | bucketRead (tag addr : Nat)
  | delta (d : DeltaMsg)
  | deltaAck (tag : Nat) (refused : Bool)
  | scrub (addr : Nat)
  | sweepPeriodExpiry (slice : Nat)
  | sliceStatusWrite (slice : Nat)
  | bankStatusWrite (cluster bank : Nat)
  | bankRoleChange (cluster bank : Nat)
  | bankReencode (cluster bank : Nat)
  | padFill (crew page : Nat)
  | padEvacuate (crew page : Nat)
  | copySliceAssemble (g : Nat)
  | collectiveStart (crew q : Nat)
  | copyByteRead (coll : Nat)
  | copyByteLanded (coll : Nat)
  | trowelPass (core : Nat)
  | mmaStart (core : Nat)
  | mmaRetire (core : Nat)
  | mdrainStart (core : Nat)
  | mdrainRetire (core : Nat)
  | leaseEstablish (task : Nat)
  | faultRecordWrite
  | hubConsider (die : Nat)
  | taskAging (task : Nat)
  | coreReservation (task : Nat)
  | hubSpillRefill (die : Nat)
  | detectorScan (die : Nat)
  | crewRestore (crew : Nat)
  | preemptSaveDone (crew : Nat)
  | forerunnerTimeout (g : Nat)
  | skimVisit (die : Nat)
  | skimScanDone (core : Nat) (pass : Bool)
  | rebuildStripe (record stripe : Nat)
  | islctl (island : Nat) (x : BitVec 64)
  | operatingPointChangeDone (island : Nat)
  | powerStepDown
  | powerStepUp (die : Nat)
  | thermalStep (island : Nat)
  | thermalRecover (island : Nat)
  | thermalTrip
  | wfeTimeout (cc : Nat)
  | hostWrite (dec h : Nat) (data : List Byte)
  | hostRead (dec h n : Nat)
  | hostSnoop (line : Nat) (invalidate : Bool)
  | hostAtomicCompletion (tag : Nat) (data : List Byte)
  | read (p : Packet)
  | readData (p : Packet)
  | write (p : Packet)
  | writeAck (p : Packet)
  | atomic (p : Packet)
  | atomicData (p : Packet)
  | leaseRecord (p : Packet)
  | leaseReply (seq : Nat) (code : Nat)
  | rebuildQuery (p : Packet)
  | rebuildAnswer (p : Packet)
  | drainToken (p : Packet)
  | tokenReturn (p : Packet)
  | groupExchange (p : Packet)
  | heartbeat (p : Packet) (port : Nat)
  | reservedPacketKind (p : Packet) (port : Nat)
  | heartbeatTimer
  | flitRetransmit (port : Nat)
  | portDown (port : Nat)
  | peerLostTimeout (peer : Nat)
  | selfFenceTimeout
  | coldStart
  | warmStart
  | attreq (x : BitVec 64)
  | registerWrite (off : Nat) (x : BitVec 64)
  | clusterTlbHit (core ctx va : Nat)
  | mzeroRetire (core : Nat)
  | tilePortRetire (core : Nat)
  | hostWriteCompletion (tag : Nat)
  | cxlCacheOwnership (tag : Nat) (data : List Byte)
  | hostLinkTraining (width rate : Nat) (support : BitVec 6)
  | bootWindowWrite (off : Nat) (data : List Byte)
  | attestationReport (report : List Byte)
  | startStepComplete (ok : Bool) (ports : BitVec 48)
  | powerLoss
  deriving DecidableEq, Repr

end Sys2Proof
end

