-- ==== Sys2Proof/Syntax.lean ====
section
/-! DEFINITION. The steps of the machine: every instruction and hint word of Keaca (R25 to R38), and every event of
spec/opcode_table.json, as one inductive. An instruction's arguments are the fields of its word, under the letters of
the table; an event's arguments name the unit it happens at and what it brings. -/

namespace Sys2Proof

/-- Every row of the opcode table: instructions, hint words and events. -/
inductive Instr where
  /-- ADD (R246). Scalar add of two registers modulo 2^64. -/
  | add (d : BitVec 6) (a : BitVec 6) (b : BitVec 6)
  /-- SUB (R246). Scalar subtract of two registers modulo 2^64. -/
  | sub (d : BitVec 6) (a : BitVec 6) (b : BitVec 6)
  /-- AND (R246). Scalar bitwise AND. -/
  | and (d : BitVec 6) (a : BitVec 6) (b : BitVec 6)
  /-- OR (R246). Scalar bitwise OR. -/
  | or (d : BitVec 6) (a : BitVec 6) (b : BitVec 6)
  /-- XOR (R246). Scalar bitwise XOR. -/
  | xor (d : BitVec 6) (a : BitVec 6) (b : BitVec 6)
  /-- ANDN (R246). Scalar AND with the complement of the second operand. -/
  | andn (d : BitVec 6) (a : BitVec 6) (b : BitVec 6)
  /-- SLL (R246). Scalar shift left by a register amount. -/
  | sll (d : BitVec 6) (a : BitVec 6) (b : BitVec 6)
  /-- SRL (R246). Scalar logical shift right by a register amount. -/
  | srl (d : BitVec 6) (a : BitVec 6) (b : BitVec 6)
  /-- SRA (R246). Scalar arithmetic shift right by a register amount. -/
  | sra (d : BitVec 6) (a : BitVec 6) (b : BitVec 6)
  /-- ROL (R246). Scalar rotate left. -/
  | rol (d : BitVec 6) (a : BitVec 6) (b : BitVec 6)
  /-- ROR (R246). Scalar rotate right. -/
  | ror (d : BitVec 6) (a : BitVec 6) (b : BitVec 6)
  /-- SLT (R246). Scalar signed less-than comparison giving 0 or 1. -/
  | slt (d : BitVec 6) (a : BitVec 6) (b : BitVec 6)
  /-- SLTZ (R246). Scalar unsigned less-than comparison giving 0 or 1. -/
  | sltz (d : BitVec 6) (a : BitVec 6) (b : BitVec 6)
  /-- SEQ (R246). Scalar equality comparison giving 0 or 1. -/
  | seq (d : BitVec 6) (a : BitVec 6) (b : BitVec 6)
  /-- MIN_S (R246). Scalar signed minimum. -/
  | minS (d : BitVec 6) (a : BitVec 6) (b : BitVec 6)
  /-- MAX_S (R246). Scalar signed maximum. -/
  | maxS (d : BitVec 6) (a : BitVec 6) (b : BitVec 6)
  /-- MIN_Z (R246). Scalar unsigned minimum. -/
  | minZ (d : BitVec 6) (a : BitVec 6) (b : BitVec 6)
  /-- MAX_Z (R246). Scalar unsigned maximum. -/
  | maxZ (d : BitVec 6) (a : BitVec 6) (b : BitVec 6)
  /-- MUL (R246). Scalar multiply, low 64 bits. -/
  | mul (d : BitVec 6) (a : BitVec 6) (b : BitVec 6)
  /-- MULH_S (R246). Scalar signed multiply, high 64 bits. -/
  | mulhS (d : BitVec 6) (a : BitVec 6) (b : BitVec 6)
  /-- MULH_Z (R246). Scalar unsigned multiply, high 64 bits. -/
  | mulhZ (d : BitVec 6) (a : BitVec 6) (b : BitVec 6)
  /-- DIV_S (R247). Scalar signed division that never traps. -/
  | divS (d : BitVec 6) (a : BitVec 6) (b : BitVec 6)
  /-- DIV_Z (R247). Scalar unsigned division that never traps. -/
  | divZ (d : BitVec 6) (a : BitVec 6) (b : BitVec 6)
  /-- REM_S (R247). Scalar signed remainder. -/
  | remS (d : BitVec 6) (a : BitVec 6) (b : BitVec 6)
  /-- REM_Z (R247). Scalar unsigned remainder. -/
  | remZ (d : BitVec 6) (a : BitVec 6) (b : BitVec 6)
  /-- CLZ (R246). Count of leading zero bits of a scalar. -/
  | clz (d : BitVec 6) (a : BitVec 6)
  /-- CTZ (R246). Count of trailing zero bits of a scalar. -/
  | ctz (d : BitVec 6) (a : BitVec 6)
  /-- POPC (R246). Count of one bits of a scalar. -/
  | popc (d : BitVec 6) (a : BitVec 6)
  /-- BREV (R246). Bit reversal of a scalar. -/
  | brev (d : BitVec 6) (a : BitVec 6)
  /-- BSWAP (R246). Byte reversal of a scalar. -/
  | bswap (d : BitVec 6) (a : BitVec 6)
  /-- SEXT_S8 (R246). Sign extension of the low 8 bits. -/
  | sextS8 (d : BitVec 6) (a : BitVec 6)
  /-- SEXT_S16 (R246). Sign extension of the low 16 bits. -/
  | sextS16 (d : BitVec 6) (a : BitVec 6)
  /-- SEXT_S32 (R246). Sign extension of the low 32 bits. -/
  | sextS32 (d : BitVec 6) (a : BitVec 6)
  /-- ZEXT_Z32 (R246). Zero extension of the low 32 bits. -/
  | zextZ32 (d : BitVec 6) (a : BitVec 6)
  /-- ADD_W (R246). 32-bit add, sign-extended. -/
  | addW (d : BitVec 6) (a : BitVec 6) (b : BitVec 6)
  /-- SUB_W (R246). 32-bit subtract, sign-extended. -/
  | subW (d : BitVec 6) (a : BitVec 6) (b : BitVec 6)
  /-- MUL_W (R246). 32-bit multiply, sign-extended. -/
  | mulW (d : BitVec 6) (a : BitVec 6) (b : BitVec 6)
  /-- ADDI (R248). Scalar add of a sign-extended immediate. -/
  | addi (d : BitVec 6) (a : BitVec 6) (i : BitVec 14)
  /-- ANDI (R248). Scalar AND with an immediate. -/
  | andi (d : BitVec 6) (a : BitVec 6) (i : BitVec 14)
  /-- ORI (R248). Scalar OR with an immediate. -/
  | ori (d : BitVec 6) (a : BitVec 6) (i : BitVec 14)
  /-- XORI (R248). Scalar XOR with an immediate. -/
  | xori (d : BitVec 6) (a : BitVec 6) (i : BitVec 14)
  /-- SLTI (R248). Signed less-than against an immediate. -/
  | slti (d : BitVec 6) (a : BitVec 6) (i : BitVec 14)
  /-- SLTIZ (R248). Unsigned less-than against an immediate. -/
  | sltiz (d : BitVec 6) (a : BitVec 6) (i : BitVec 14)
  /-- SLLI (R249). 64-bit shift left by an immediate. -/
  | slli (d : BitVec 6) (a : BitVec 6) (h : BitVec 6)
  /-- SRLI (R249). 64-bit logical shift right by an immediate. -/
  | srli (d : BitVec 6) (a : BitVec 6) (h : BitVec 6)
  /-- SRAI (R249). 64-bit arithmetic shift right by an immediate. -/
  | srai (d : BitVec 6) (a : BitVec 6) (h : BitVec 6)
  /-- RORI (R249). 64-bit rotate right by an immediate. -/
  | rori (d : BitVec 6) (a : BitVec 6) (h : BitVec 6)
  /-- SLLI_W (R249). 32-bit shift left by an immediate, sign-extended. -/
  | slliW (d : BitVec 6) (a : BitVec 6) (h : BitVec 5)
  /-- SRLI_W (R249). 32-bit logical shift right by an immediate, sign-extended. -/
  | srliW (d : BitVec 6) (a : BitVec 6) (h : BitVec 5)
  /-- SRAI_W (R249). 32-bit arithmetic shift right by an immediate, sign-extended. -/
  | sraiW (d : BitVec 6) (a : BitVec 6) (h : BitVec 5)
  /-- RORI_W (R249). 32-bit rotate right by an immediate, sign-extended. -/
  | roriW (d : BitVec 6) (a : BitVec 6) (h : BitVec 5)
  /-- LUI (R250). Loads a sign-extended immediate shifted left by 12. -/
  | lui (d : BitVec 6) (i : BitVec 20)
  /-- ADDPC (R43). Adds an immediate to the address of the addpc word. -/
  | addpc (d : BitVec 6) (i : BitVec 20)
  /-- ADDCB (R43). Adds an immediate to the context base cb. -/
  | addcb (d : BitVec 6) (i : BitVec 20)
  /-- LD (R221). Scalar load of 1 to 8 bytes, zero- or sign-extended. -/
  | ld (d : BitVec 6) (a : BitVec 6) (z : BitVec 2) (x : BitVec 1) (o : BitVec 11)
  /-- ST (R221). Scalar store of 1 to 8 bytes through the write-combining buffer. -/
  | st (d : BitVec 6) (a : BitVec 6) (z : BitVec 2) (o : BitVec 11)
  /-- BEQZ (R210). Uniform branch when a scalar is zero. -/
  | beqz (r : BitVec 6) (o : BitVec 16)
  /-- BNEZ (R210). Uniform branch when a scalar is non-zero. -/
  | bnez (r : BitVec 6) (o : BitVec 16)
  /-- BLTZ (R210). Uniform branch when a scalar is negative. -/
  | bltz (r : BitVec 6) (o : BitVec 16)
  /-- BGEZ (R210). Uniform branch when a scalar is non-negative. -/
  | bgez (r : BitVec 6) (o : BitVec 16)
  /-- BGTZ (R210). Uniform branch when a scalar is positive. -/
  | bgtz (r : BitVec 6) (o : BitVec 16)
  /-- BLEZ (R210). Uniform branch when a scalar is zero or negative. -/
  | blez (r : BitVec 6) (o : BitVec 16)
  /-- BANY (R211). Uniform branch when any active lane's predicate bit is set. -/
  | bany (p : BitVec 3) (o : BitVec 16)
  /-- BALL (R211). Uniform branch when every active lane's predicate bit is set. -/
  | ball (p : BitVec 3) (o : BitVec 16)
  /-- BNONE (R211). Uniform branch when no active lane's predicate bit is set. -/
  | bnone (p : BitVec 3) (o : BitVec 16)
  /-- BNALL (R211). Uniform branch when not every active lane's predicate bit is set. -/
  | bnall (p : BitVec 3) (o : BitVec 16)
  /-- BRA_D (R204). Divergent branch that splits the lanes and pushes a reconvergence entry. -/
  | braD (g : BitVec 4) (t : BitVec 11) (j : BitVec 11)
  /-- JMP (R212). Uniform jump by a word offset. -/
  | jmp (o : BitVec 26)
  /-- CALL (R212). Uniform call that writes the return address to lk. -/
  | call (o : BitVec 26)
  /-- NOP (R214). Does nothing. -/
  | nop
  /-- JR (R214). Jumps to the address in a scalar register. -/
  | jr (a : BitVec 6)
  /-- JR_L (R214). Jumps to a register address and writes the link address. -/
  | jrL (a : BitVec 6) (d : BitVec 6)
  /-- RET (R214). Returns through s63. -/
  | ret
  /-- EXIT (R207). Removes the guard-selected lanes after a release at .dom, or takes a pending deferred cause. -/
  | exit (g : BitVec 4)
  /-- TRAP (R214). Raises software trap 0x10 for the guard-selected lanes. -/
  | trap (c : BitVec 12) (g : BitVec 4)
  /-- BRK (R214). Raises breakpoint 0x0F for the active lanes. -/
  | brk (c : BitVec 12)
  /-- YIELD (R214). Makes the split not ready for 32 clocks. -/
  | yield
  /-- SETFMT (R214). Sets the split's FMT from a scalar register. -/
  | setfmt (a : BitVec 6)
  /-- GETFMT (R214). Reads the split's FMT into a scalar register. -/
  | getfmt (d : BitVec 6)
  /-- SAFEPT (R215). Marks a forerunner-mode pre-emption point with a live map. -/
  | safept (o : BitVec 18)
  /-- BAR_INIT (R192). Binds a barrier name to a pad offset and writes a new barrier object. -/
  | barInit (n : BitVec 4) (a : BitVec 6) (b : BitVec 6)
  /-- BAR_ARRIVE (R186). Arrives at a barrier with the guard-selected lanes. -/
  | barArrive (n : BitVec 4) (d : BitVec 6) (g : BitVec 4)
  /-- BAR_WAIT (R192). Waits until the barrier's generation differs from a given value. -/
  | barWait (n : BitVec 4) (a : BitVec 6)
  /-- BAR_SYNC (R192). Arrives at a barrier and waits on the generation it arrived in. -/
  | barSync (n : BitVec 4) (d : BitVec 6) (g : BitVec 4)
  /-- BAR_GEN (R192). Reads the barrier's generation without waiting. -/
  | barGen (n : BitVec 4) (d : BitVec 6)
  /-- BAR_OBS (R187). Registers the gang as the barrier's observer. -/
  | barObs (n : BitVec 4)
  /-- BAR_DROP (R187). Ends the observer registration and releases a deferred completion. -/
  | barDrop (n : BitVec 4)
  /-- CJOIN (R200). Moves the gang into another crew on the same core. -/
  | cjoin (a : BitVec 6)
  /-- CLEAVE (R200). Makes the gang a crew of one. -/
  | cleave (d : BitVec 6)
  /-- CMASK (R199). Returns the slot mask of the gang's crew members. -/
  | cmask (d : BitVec 6)
  /-- CRANK (R199). Returns the gang's rank and the member count of its crew. -/
  | crank (d : BitVec 6)
  /-- VFADD (R253). Vector floating-point add, FP32 or packed narrow by the P bit. -/
  | vfadd (d : BitVec 6) (a : BitVec 6) (b : BitVec 6) (p : BitVec 1) (g : BitVec 4)
  /-- VFSUB (R253). Vector floating-point subtract. -/
  | vfsub (d : BitVec 6) (a : BitVec 6) (b : BitVec 6) (p : BitVec 1) (g : BitVec 4)
  /-- VFMUL (R253). Vector floating-point multiply. -/
  | vfmul (d : BitVec 6) (a : BitVec 6) (b : BitVec 6) (p : BitVec 1) (g : BitVec 4)
  /-- VFDIV (R253). Vector floating-point divide. -/
  | vfdiv (d : BitVec 6) (a : BitVec 6) (b : BitVec 6) (p : BitVec 1) (g : BitVec 4)
  /-- VFMIN (R254). Vector floating-point minimum. -/
  | vfmin (d : BitVec 6) (a : BitVec 6) (b : BitVec 6) (p : BitVec 1) (g : BitVec 4)
  /-- VFMAX (R254). Vector floating-point maximum. -/
  | vfmax (d : BitVec 6) (a : BitVec 6) (b : BitVec 6) (p : BitVec 1) (g : BitVec 4)
  /-- VFABS (R253). Clears the sign bit of each element. -/
  | vfabs (d : BitVec 6) (a : BitVec 6) (p : BitVec 1) (g : BitVec 4)
  /-- VFNEG (R253). Inverts the sign bit of each element. -/
  | vfneg (d : BitVec 6) (a : BitVec 6) (p : BitVec 1) (g : BitVec 4)
  /-- VFFMA (R255). Fused a × b + d, rounded once. -/
  | vffma (d : BitVec 6) (a : BitVec 6) (b : BitVec 6) (p : BitVec 1) (g : BitVec 4)
  /-- VFFMS (R255). Fused a × b − d, rounded once. -/
  | vffms (d : BitVec 6) (a : BitVec 6) (b : BitVec 6) (p : BitVec 1) (g : BitVec 4)
  /-- VFNMA (R255). Fused −(a × b) + d, rounded once. -/
  | vfnma (d : BitVec 6) (a : BitVec 6) (b : BitVec 6) (p : BitVec 1) (g : BitVec 4)
  /-- VFNMS (R255). Fused −(a × b) − d, rounded once. -/
  | vfnms (d : BitVec 6) (a : BitVec 6) (b : BitVec 6) (p : BitVec 1) (g : BitVec 4)
  /-- VFSQRT (R256). FP32 square root on the special-function unit. -/
  | vfsqrt (d : BitVec 6) (a : BitVec 6) (g : BitVec 4)
  /-- VFRCP (R256). FP32 reciprocal. -/
  | vfrcp (d : BitVec 6) (a : BitVec 6) (g : BitVec 4)
  /-- VFRSQ (R256). FP32 reciprocal square root. -/
  | vfrsq (d : BitVec 6) (a : BitVec 6) (g : BitVec 4)
  /-- VFEXP (R256). FP32 base-two exponential on [−1, 1]. -/
  | vfexp (d : BitVec 6) (a : BitVec 6) (g : BitVec 4)
  /-- VFLOG2 (R256). FP32 base-two logarithm. -/
  | vflog2 (d : BitVec 6) (a : BitVec 6) (g : BitVec 4)
  /-- VFCMP_EQ (R257). FP32 equal comparison into a predicate. -/
  | vfcmpEq (d : BitVec 6) (a : BitVec 6) (b : BitVec 6) (g : BitVec 4)
  /-- VFCMP_NE (R257). FP32 not-equal comparison into a predicate. -/
  | vfcmpNe (d : BitVec 6) (a : BitVec 6) (b : BitVec 6) (g : BitVec 4)
  /-- VFCMP_LT (R257). FP32 less-than comparison into a predicate. -/
  | vfcmpLt (d : BitVec 6) (a : BitVec 6) (b : BitVec 6) (g : BitVec 4)
  /-- VFCMP_LE (R257). FP32 less-or-equal comparison into a predicate. -/
  | vfcmpLe (d : BitVec 6) (a : BitVec 6) (b : BitVec 6) (g : BitVec 4)
  /-- VFCMP_GT (R257). FP32 greater-than comparison into a predicate. -/
  | vfcmpGt (d : BitVec 6) (a : BitVec 6) (b : BitVec 6) (g : BitVec 4)
  /-- VFCMP_GE (R257). FP32 greater-or-equal comparison into a predicate. -/
  | vfcmpGe (d : BitVec 6) (a : BitVec 6) (b : BitVec 6) (g : BitVec 4)
  /-- VFCMP_UN (R257). FP32 unordered test into a predicate. -/
  | vfcmpUn (d : BitVec 6) (a : BitVec 6) (b : BitVec 6) (g : BitVec 4)
  /-- VFCMP_ORD (R257). FP32 ordered test into a predicate. -/
  | vfcmpOrd (d : BitVec 6) (a : BitVec 6) (b : BitVec 6) (g : BitVec 4)
  /-- VFRINT_NE (R258). Rounds to an integral value, ties to even. -/
  | vfrintNe (d : BitVec 6) (a : BitVec 6) (g : BitVec 4)
  /-- VFRINT_Z (R258). Rounds to an integral value toward zero. -/
  | vfrintZ (d : BitVec 6) (a : BitVec 6) (g : BitVec 4)
  /-- VFRINT_DN (R258). Rounds to an integral value toward minus infinity. -/
  | vfrintDn (d : BitVec 6) (a : BitVec 6) (g : BitVec 4)
  /-- VFRINT_UP (R258). Rounds to an integral value toward plus infinity. -/
  | vfrintUp (d : BitVec 6) (a : BitVec 6) (g : BitVec 4)
  /-- VFSCALE (R258). Multiplies by a power of two and rounds once. -/
  | vfscale (d : BitVec 6) (a : BitVec 6) (b : BitVec 6) (g : BitVec 4)
  /-- VFRINT (R258). Rounds to an integral value by FMT.RM. -/
  | vfrint (d : BitVec 6) (a : BitVec 6) (g : BitVec 4)
  /-- VCVT_S_F32 (R259). Converts FP32 to a signed integer of the coded width. -/
  | vcvtSF32 (d : BitVec 6) (a : BitVec 6) (c : BitVec 2) (g : BitVec 4)
  /-- VCVT_Z_F32 (R259). Converts FP32 to an unsigned integer of the coded width. -/
  | vcvtZF32 (d : BitVec 6) (a : BitVec 6) (c : BitVec 2) (g : BitVec 4)
  /-- VCVT_F32_S (R259). Converts a signed integer to FP32. -/
  | vcvtF32S (d : BitVec 6) (a : BitVec 6) (c : BitVec 2) (g : BitVec 4)
  /-- VCVT_F32_Z (R259). Converts an unsigned integer to FP32. -/
  | vcvtF32Z (d : BitVec 6) (a : BitVec 6) (c : BitVec 2) (g : BitVec 4)
  /-- VCVT_NF_F32 (R259). Converts FP32 into packed narrow element k. -/
  | vcvtNfF32 (d : BitVec 6) (a : BitVec 6) (k : BitVec 2) (g : BitVec 4)
  /-- VCVT_F32_NF (R259). Converts packed narrow element k to FP32 exactly. -/
  | vcvtF32Nf (d : BitVec 6) (a : BitVec 6) (k : BitVec 2) (g : BitVec 4)
  /-- VADD (R261). Vector 32-bit integer add. -/
  | vadd (d : BitVec 6) (a : BitVec 6) (b : BitVec 6) (g : BitVec 4)
  /-- VSUB (R261). Vector 32-bit integer subtract. -/
  | vsub (d : BitVec 6) (a : BitVec 6) (b : BitVec 6) (g : BitVec 4)
  /-- VMUL (R261). Vector 32-bit multiply, low bits. -/
  | vmul (d : BitVec 6) (a : BitVec 6) (b : BitVec 6) (g : BitVec 4)
  /-- VMULH_S32 (R261). Vector signed multiply, high bits. -/
  | vmulhS32 (d : BitVec 6) (a : BitVec 6) (b : BitVec 6) (g : BitVec 4)
  /-- VMULH_Z32 (R261). Vector unsigned multiply, high bits. -/
  | vmulhZ32 (d : BitVec 6) (a : BitVec 6) (b : BitVec 6) (g : BitVec 4)
  /-- VAND (R261). Vector bitwise AND. -/
  | vand (d : BitVec 6) (a : BitVec 6) (b : BitVec 6) (g : BitVec 4)
  /-- VOR (R261). Vector bitwise OR. -/
  | vor (d : BitVec 6) (a : BitVec 6) (b : BitVec 6) (g : BitVec 4)
  /-- VXOR (R261). Vector bitwise XOR. -/
  | vxor (d : BitVec 6) (a : BitVec 6) (b : BitVec 6) (g : BitVec 4)
  /-- VSLL (R261). Vector shift left by lane amounts. -/
  | vsll (d : BitVec 6) (a : BitVec 6) (b : BitVec 6) (g : BitVec 4)
  /-- VSRL (R261). Vector logical shift right by lane amounts. -/
  | vsrl (d : BitVec 6) (a : BitVec 6) (b : BitVec 6) (g : BitVec 4)
  /-- VSRA (R261). Vector arithmetic shift right by lane amounts. -/
  | vsra (d : BitVec 6) (a : BitVec 6) (b : BitVec 6) (g : BitVec 4)
  /-- VMIN_S32 (R261). Vector signed minimum. -/
  | vminS32 (d : BitVec 6) (a : BitVec 6) (b : BitVec 6) (g : BitVec 4)
  /-- VMAX_S32 (R261). Vector signed maximum. -/
  | vmaxS32 (d : BitVec 6) (a : BitVec 6) (b : BitVec 6) (g : BitVec 4)
  /-- VMIN_Z32 (R261). Vector unsigned minimum. -/
  | vminZ32 (d : BitVec 6) (a : BitVec 6) (b : BitVec 6) (g : BitVec 4)
  /-- VMAX_Z32 (R261). Vector unsigned maximum. -/
  | vmaxZ32 (d : BitVec 6) (a : BitVec 6) (b : BitVec 6) (g : BitVec 4)
  /-- VADDSAT_S32 (R261). Vector signed saturating add. -/
  | vaddsatS32 (d : BitVec 6) (a : BitVec 6) (b : BitVec 6) (g : BitVec 4)
  /-- VCMP_EQ_Z32 (R262). Vector integer equal comparison into a predicate. -/
  | vcmpEqZ32 (d : BitVec 6) (a : BitVec 6) (b : BitVec 6) (g : BitVec 4)
  /-- VCMP_NE_Z32 (R262). Vector integer not-equal comparison. -/
  | vcmpNeZ32 (d : BitVec 6) (a : BitVec 6) (b : BitVec 6) (g : BitVec 4)
  /-- VCMP_LT_S32 (R262). Vector signed less-than comparison. -/
  | vcmpLtS32 (d : BitVec 6) (a : BitVec 6) (b : BitVec 6) (g : BitVec 4)
  /-- VCMP_LE_S32 (R262). Vector signed less-or-equal comparison. -/
  | vcmpLeS32 (d : BitVec 6) (a : BitVec 6) (b : BitVec 6) (g : BitVec 4)
  /-- VCMP_GT_S32 (R262). Vector signed greater-than comparison. -/
  | vcmpGtS32 (d : BitVec 6) (a : BitVec 6) (b : BitVec 6) (g : BitVec 4)
  /-- VCMP_GE_S32 (R262). Vector signed greater-or-equal comparison. -/
  | vcmpGeS32 (d : BitVec 6) (a : BitVec 6) (b : BitVec 6) (g : BitVec 4)
  /-- VCMP_LT_Z32 (R262). Vector unsigned less-than comparison. -/
  | vcmpLtZ32 (d : BitVec 6) (a : BitVec 6) (b : BitVec 6) (g : BitVec 4)
  /-- VCMP_LE_Z32 (R262). Vector unsigned less-or-equal comparison. -/
  | vcmpLeZ32 (d : BitVec 6) (a : BitVec 6) (b : BitVec 6) (g : BitVec 4)
  /-- VCMP_GT_Z32 (R262). Vector unsigned greater-than comparison. -/
  | vcmpGtZ32 (d : BitVec 6) (a : BitVec 6) (b : BitVec 6) (g : BitVec 4)
  /-- VCMP_GE_Z32 (R262). Vector unsigned greater-or-equal comparison. -/
  | vcmpGeZ32 (d : BitVec 6) (a : BitVec 6) (b : BitVec 6) (g : BitVec 4)
  /-- VTEST (R262). Sets a predicate bit where a AND b is non-zero. -/
  | vtest (d : BitVec 6) (a : BitVec 6) (b : BitVec 6) (g : BitVec 4)
  /-- VADD_SCALAR (R263). Vector add of a broadcast scalar. -/
  | vaddScalar (d : BitVec 6) (a : BitVec 6) (s : BitVec 6) (g : BitVec 4)
  /-- VSUB_SCALAR (R263). Vector subtract of a broadcast scalar. -/
  | vsubScalar (d : BitVec 6) (a : BitVec 6) (s : BitVec 6) (g : BitVec 4)
  /-- VMUL_SCALAR (R263). Vector multiply by a broadcast scalar. -/
  | vmulScalar (d : BitVec 6) (a : BitVec 6) (s : BitVec 6) (g : BitVec 4)
  /-- VAND_SCALAR (R263). Vector AND with a broadcast scalar. -/
  | vandScalar (d : BitVec 6) (a : BitVec 6) (s : BitVec 6) (g : BitVec 4)
  /-- VOR_SCALAR (R263). Vector OR with a broadcast scalar. -/
  | vorScalar (d : BitVec 6) (a : BitVec 6) (s : BitVec 6) (g : BitVec 4)
  /-- VXOR_SCALAR (R263). Vector XOR with a broadcast scalar. -/
  | vxorScalar (d : BitVec 6) (a : BitVec 6) (s : BitVec 6) (g : BitVec 4)
  /-- VSLL_SCALAR (R263). Vector shift left by a scalar amount. -/
  | vsllScalar (d : BitVec 6) (a : BitVec 6) (s : BitVec 6) (g : BitVec 4)
  /-- VSRL_SCALAR (R263). Vector logical shift right by a scalar amount. -/
  | vsrlScalar (d : BitVec 6) (a : BitVec 6) (s : BitVec 6) (g : BitVec 4)
  /-- VSRA_SCALAR (R263). Vector arithmetic shift right by a scalar amount. -/
  | vsraScalar (d : BitVec 6) (a : BitVec 6) (s : BitVec 6) (g : BitVec 4)
  /-- VFADD_SCALAR (R263). FP32 add of a broadcast scalar. -/
  | vfaddScalar (d : BitVec 6) (a : BitVec 6) (s : BitVec 6) (g : BitVec 4)
  /-- VFMUL_SCALAR (R263). FP32 multiply by a broadcast scalar. -/
  | vfmulScalar (d : BitVec 6) (a : BitVec 6) (s : BitVec 6) (g : BitVec 4)
  /-- VFFMA_SCALAR (R263). FP32 fused multiply-add with a broadcast scalar. -/
  | vffmaScalar (d : BitVec 6) (a : BitVec 6) (s : BitVec 6) (g : BitVec 4)
  /-- VMOV_SCALAR (R263). Broadcasts a scalar into each active lane. -/
  | vmovScalar (d : BitVec 6) (s : BitVec 6) (g : BitVec 4)
  /-- VCMP_EQ_SCALAR (R263). Compares lanes with a scalar for equality into a predicate. -/
  | vcmpEqScalar (d : BitVec 6) (a : BitVec 6) (s : BitVec 6) (g : BitVec 4)
  /-- VCMP_LT_S32_SCALAR (R263). Signed less-than against a scalar into a predicate. -/
  | vcmpLtS32Scalar (d : BitVec 6) (a : BitVec 6) (s : BitVec 6) (g : BitVec 4)
  /-- VCMP_LT_Z32_SCALAR (R263). Unsigned less-than against a scalar into a predicate. -/
  | vcmpLtZ32Scalar (d : BitVec 6) (a : BitVec 6) (s : BitVec 6) (g : BitVec 4)
  /-- VADD_IMM (R264). Vector add of an immediate. -/
  | vaddImm (d : BitVec 6) (a : BitVec 6) (i : BitVec 10) (g : BitVec 4)
  /-- VLI (R264). Loads an immediate into each active lane. -/
  | vli (d : BitVec 6) (i : BitVec 10) (g : BitVec 4)
  /-- VPERM (R266). Permutes lanes by per-lane indices. -/
  | vperm (d : BitVec 6) (a : BitVec 6) (b : BitVec 6) (g : BitVec 4)
  /-- VSCAN_Z32 (R268). Inclusive integer scan in ascending lane order. -/
  | vscanZ32 (d : BitVec 6) (a : BitVec 6) (g : BitVec 4)
  /-- VSCAN_F32 (R268). Inclusive FP32 scan in ascending lane order. -/
  | vscanF32 (d : BitVec 6) (a : BitVec 6) (g : BitVec 4)
  /-- VSCANX_Z32 (R268). Exclusive integer scan. -/
  | vscanxZ32 (d : BitVec 6) (a : BitVec 6) (g : BitVec 4)
  /-- VRED_Z32 (R268). Integer sum of all contributors. -/
  | vredZ32 (d : BitVec 6) (a : BitVec 6) (g : BitVec 4)
  /-- VRED_F32 (R268). FP32 sum of all contributors in ascending lane order. -/
  | vredF32 (d : BitVec 6) (a : BitVec 6) (g : BitVec 4)
  /-- VSGN (R269). Packs the sign bits of active lanes into a mask. -/
  | vsgn (d : BitVec 6) (a : BitVec 6) (g : BitVec 4)
  /-- VGET (R266). Reads one lane of a vector into a scalar. -/
  | vget (d : BitVec 6) (a : BitVec 6) (b : BitVec 6)
  /-- VINS (R266). Inserts a scalar into one active lane. -/
  | vins (d : BitVec 6) (a : BitVec 6) (b : BitVec 6) (g : BitVec 4)
  /-- VLANE (R266). Writes each active lane's number. -/
  | vlane (d : BitVec 6) (g : BitVec 4)
  /-- VPOPC (R266). Counts one bits in each lane. -/
  | vpopc (d : BitVec 6) (a : BitVec 6) (g : BitVec 4)
  /-- VCLZ (R266). Counts leading zero bits in each lane. -/
  | vclz (d : BitVec 6) (a : BitVec 6) (g : BitVec 4)
  /-- PAND (R265). Predicate AND within the split's mask. -/
  | pand (d : BitVec 3) (a : BitVec 3) (b : BitVec 3)
  /-- POR (R265). Predicate OR within the split's mask. -/
  | por (d : BitVec 3) (a : BitVec 3) (b : BitVec 3)
  /-- PXOR (R265). Predicate XOR within the split's mask. -/
  | pxor (d : BitVec 3) (a : BitVec 3) (b : BitVec 3)
  /-- PANDN (R265). Predicate AND-NOT within the split's mask. -/
  | pandn (d : BitVec 3) (a : BitVec 3) (b : BitVec 3)
  /-- PNOT (R265). Predicate complement within the split's mask. -/
  | pnot (d : BitVec 3) (a : BitVec 3)
  /-- PMOV (R265). Writes a predicate from a scalar. -/
  | pmov (d : BitVec 3) (s : BitVec 6)
  /-- PRD (R265). Reads a predicate into a scalar. -/
  | prd (a : BitVec 3) (s : BitVec 6)
  /-- PACT (R265). Reads the split's active mask into a scalar. -/
  | pact (s : BitVec 6)
  /-- PCNT (R265). Counts active predicate bits into a scalar. -/
  | pcnt (a : BitVec 3) (s : BitVec 6)
  /-- PFIRST (R265). Finds the lowest active set predicate lane. -/
  | pfirst (a : BitVec 3) (s : BitVec 6)
  /-- VSEL (R270). Selects lanes from two vectors by predicate pk. -/
  | vsel (d : BitVec 6) (a : BitVec 6) (b : BitVec 6) (k : BitVec 3) (g : BitVec 4)
  /-- VCONF (R271). Writes per-lane conflict masks of equal keys. -/
  | vconf (d : BitVec 6) (a : BitVec 6) (g : BitVec 4)
  /-- VKADD_Z32 (R272). Key-segmented integer sum into leader lanes. -/
  | vkaddZ32 (d : BitVec 6) (a : BitVec 6) (b : BitVec 6) (g : BitVec 4)
  /-- VKADD_F32 (R272). Key-segmented FP32 sum in ascending lane order. -/
  | vkaddF32 (d : BitVec 6) (a : BitVec 6) (b : BitVec 6) (g : BitVec 4)
  /-- REBAL (R273). Merge-path assignment of item indices to rows. -/
  | rebal (d : BitVec 6) (a : BitVec 6) (b : BitVec 6) (g : BitVec 4)
  /-- VLD (R223). Vector load in one of four addressing modes. -/
  | vld (d : BitVec 6) (a : BitVec 6) (b : BitVec 6) (z : BitVec 2) (m : BitVec 2) (g : BitVec 4)
  /-- VST (R223). Vector store in one of four addressing modes. -/
  | vst (d : BitVec 6) (a : BitVec 6) (b : BitVec 6) (z : BitVec 2) (m : BitVec 2) (g : BitVec 4)
  /-- VATSWAP (R234). Vector atomic swap at the home slice. -/
  | vatswap (d : BitVec 6) (a : BitVec 6) (b : BitVec 5) (w : BitVec 1) (g : BitVec 4)
  /-- VATCAS (R234). Vector atomic compare-and-swap. -/
  | vatcas (d : BitVec 6) (a : BitVec 6) (b : BitVec 5) (w : BitVec 1) (g : BitVec 4)
  /-- VATADD (R234). Vector atomic integer add. -/
  | vatadd (d : BitVec 6) (a : BitVec 6) (b : BitVec 5) (w : BitVec 1) (g : BitVec 4)
  /-- VATAND (R234). Vector atomic AND. -/
  | vatand (d : BitVec 6) (a : BitVec 6) (b : BitVec 5) (w : BitVec 1) (g : BitVec 4)
  /-- VATOR (R234). Vector atomic OR. -/
  | vator (d : BitVec 6) (a : BitVec 6) (b : BitVec 5) (w : BitVec 1) (g : BitVec 4)
  /-- VATXOR (R234). Vector atomic XOR. -/
  | vatxor (d : BitVec 6) (a : BitVec 6) (b : BitVec 5) (w : BitVec 1) (g : BitVec 4)
  /-- VATSMIN (R234). Vector atomic signed minimum. -/
  | vatsmin (d : BitVec 6) (a : BitVec 6) (b : BitVec 5) (w : BitVec 1) (g : BitVec 4)
  /-- VATSMAX (R234). Vector atomic signed maximum. -/
  | vatsmax (d : BitVec 6) (a : BitVec 6) (b : BitVec 5) (w : BitVec 1) (g : BitVec 4)
  /-- VATUMIN (R234). Vector atomic unsigned minimum. -/
  | vatumin (d : BitVec 6) (a : BitVec 6) (b : BitVec 5) (w : BitVec 1) (g : BitVec 4)
  /-- VATUMAX (R234). Vector atomic unsigned maximum. -/
  | vatumax (d : BitVec 6) (a : BitVec 6) (b : BitVec 5) (w : BitVec 1) (g : BitVec 4)
  /-- VATFADD (R234). Vector atomic FP32 add rounded at the slice. -/
  | vatfadd (d : BitVec 6) (a : BitVec 6) (b : BitVec 5) (g : BitVec 4)
  /-- VATFXADD (R234). Vector FX96 accumulation of FP32 or .s64 contributions. -/
  | vatfxadd (d : BitVec 6) (a : BitVec 6) (b : BitVec 5) (w : BitVec 1) (g : BitVec 4)
  /-- VATFXADD_S32 (R234). Vector FX96 accumulation of .s32 contributions. -/
  | vatfxaddS32 (d : BitVec 6) (a : BitVec 6) (b : BitVec 5) (g : BitVec 4)
  /-- VATFXADD_F16 (R234). Vector FX96 accumulation of FP16 contributions. -/
  | vatfxaddF16 (d : BitVec 6) (a : BitVec 6) (b : BitVec 5) (g : BitVec 4)
  /-- VATFXADD_BF16 (R234). Vector FX96 accumulation of BF16 contributions. -/
  | vatfxaddBf16 (d : BitVec 6) (a : BitVec 6) (b : BitVec 5) (g : BitVec 4)
  /-- ATSWAP (R234). Scalar atomic swap. -/
  | atswap (d : BitVec 6) (a : BitVec 6) (w : BitVec 1)
  /-- ATCAS (R234). Scalar atomic compare-and-swap. -/
  | atcas (d : BitVec 6) (a : BitVec 6) (b : BitVec 6) (w : BitVec 1)
  /-- ATADD (R234). Scalar atomic integer add. -/
  | atadd (d : BitVec 6) (a : BitVec 6) (w : BitVec 1)
  /-- ATAND (R234). Scalar atomic AND. -/
  | atand (d : BitVec 6) (a : BitVec 6) (w : BitVec 1)
  /-- ATOR (R234). Scalar atomic OR. -/
  | ator (d : BitVec 6) (a : BitVec 6) (w : BitVec 1)
  /-- ATXOR (R234). Scalar atomic XOR. -/
  | atxor (d : BitVec 6) (a : BitVec 6) (w : BitVec 1)
  /-- ATSMIN (R234). Scalar atomic signed minimum. -/
  | atsmin (d : BitVec 6) (a : BitVec 6) (w : BitVec 1)
  /-- ATSMAX (R234). Scalar atomic signed maximum. -/
  | atsmax (d : BitVec 6) (a : BitVec 6) (w : BitVec 1)
  /-- ATUMIN (R234). Scalar atomic unsigned minimum. -/
  | atumin (d : BitVec 6) (a : BitVec 6) (w : BitVec 1)
  /-- ATUMAX (R234). Scalar atomic unsigned maximum. -/
  | atumax (d : BitVec 6) (a : BitVec 6) (w : BitVec 1)
  /-- ATFADD (R234). Scalar atomic FP32 add. -/
  | atfadd (d : BitVec 6) (a : BitVec 6)
  /-- ATFXADD (R234). Scalar FX96 accumulation of FP32 or .s64. -/
  | atfxadd (d : BitVec 6) (a : BitVec 6) (w : BitVec 1)
  /-- ATFXADD_S32 (R234). Scalar FX96 accumulation of .s32. -/
  | atfxaddS32 (d : BitVec 6) (a : BitVec 6)
  /-- ATFXADD_F16 (R234). Scalar FX96 accumulation of FP16. -/
  | atfxaddF16 (d : BitVec 6) (a : BitVec 6)
  /-- ATFXADD_BF16 (R234). Scalar FX96 accumulation of BF16. -/
  | atfxaddBf16 (d : BitVec 6) (a : BitVec 6)
  /-- FENCE_ACQ (R331). Acquire fence at a scope. -/
  | fenceAcq (s : BitVec 3)
  /-- FENCE_REL (R331). Release fence at a scope. -/
  | fenceRel (s : BitVec 3)
  /-- FENCE_FULL (R331). Full fence at a scope, also ordering unordered pages. -/
  | fenceFull (s : BitVec 3)
  /-- FENCE_SV (R339). Full fence at .dom that waits for earlier protected stores to be survivable or lost. -/
  | fenceSv (d : BitVec 6)
  /-- FENCE_REMOTE (R332). Promotes a victim cluster's gangs of the context with cuts. -/
  | fenceRemote (a : BitVec 6)
  /-- QFENCE (R178). Orders collectives of the named copy queues and the retrieval queue. -/
  | qfence (q : BitVec 5)
  /-- SEAL (R342). Seals the valid leaves of a range, clearing their write right. -/
  | sealPages (a : BitVec 6) (b : BitVec 6)
  /-- UNSEAL (R343). Restores write rights of sealed leaves and drops marked lines. -/
  | unsealPages (a : BitVec 6) (b : BitVec 6)
  /-- DRYSYNC (R344). Blocks until every core in service passes a later skim pass. -/
  | drysync (d : BitVec 6)
  /-- PF (R239). Prefetches one line by scalar address. -/
  | pf (a : BitVec 6) (o : BitVec 12)
  /-- VPF (R239). Prefetches one line per active lane. -/
  | vpf (a : BitVec 6) (b : BitVec 6) (g : BitVec 4)
  /-- FPUSH (R164). Pushes a vector register into a cluster FIFO. -/
  | fpush (f : BitVec 4) (s : BitVec 6) (g : BitVec 4)
  /-- FPOP (R164). Pops a FIFO entry into a vector register. -/
  | fpop (f : BitVec 4) (d : BitVec 6) (g : BitVec 4)
  /-- COPY (R174). Supplies a slice of a collective copy. -/
  | copy (a : BitVec 6) (q : BitVec 2) (e : BitVec 1) (d : BitVec 4) (f : BitVec 1) (s : BitVec 4) (v : BitVec 1)
  /-- COPY_ACC (R175). Supplies a slice that accumulates elements into FX96 slots. -/
  | copyAcc (a : BitVec 6) (q : BitVec 2) (e : BitVec 1) (d : BitVec 4) (f : BitVec 1) (s : BitVec 4) (v : BitVec 1)
  /-- COPY_CHK (R184). Supplies a chunked copy slice counted chunk by chunk. -/
  | copyChk (a : BitVec 6) (q : BitVec 2) (e : BitVec 1) (d : BitVec 4) (f : BitVec 1) (s : BitVec 4) (v : BitVec 1)
  /-- COPY_MC (R174). Supplies a multicast slice into several crews' pads. -/
  | copyMc (a : BitVec 6) (q : BitVec 2) (e : BitVec 1) (d : BitVec 4) (f : BitVec 1) (s : BitVec 4)
  /-- MMA (R285). Issues a matrix multiply-accumulate into an accumulator tile. -/
  | mma (c : BitVec 2) (s : BitVec 1) (a : BitVec 6) (t : BitVec 1) (b : BitVec 6) (x : BitVec 6)
  /-- MMA_P (R282). Issues a paired matrix multiply across a core pair. -/
  | mmaP (c : BitVec 2) (s : BitVec 1) (a : BitVec 6) (t : BitVec 1) (b : BitVec 6) (x : BitVec 6)
  /-- MZERO (R286). Writes ACC96 zero to every entry of a tile. -/
  | mzero (c : BitVec 2)
  /-- MDRAIN (R287). Issues a drain of an accumulator tile to the direct copy. -/
  | mdrain (c : BitVec 2) (k : BitVec 2) (d : BitVec 6) (x : BitVec 6)
  /-- MDRAIN_T (R287). Issues a drain writing direct and transposed copies. -/
  | mdrainT (c : BitVec 2) (k : BitVec 2) (d : BitVec 6) (t : BitVec 6) (x : BitVec 6)
  /-- MTAKE (R281). Takes or waits for the trowel with OPEN clear. -/
  | mtake
  /-- MTAKE_F (R281). Takes or waits for the trowel with OPEN set. -/
  | mtakeF
  /-- MGIVE (R281). Releases the trowel to the next waiting gang in ring order. -/
  | mgive
  /-- ZLD (R289). Loads tile registers from memory or pad. -/
  | zld (z : BitVec 4) (n : BitVec 4) (k : BitVec 1) (s : BitVec 6)
  /-- ZST (R289). Stores tile registers to memory or pad. -/
  | zst (z : BitVec 4) (n : BitVec 4) (k : BitVec 1) (s : BitVec 6)
  /-- RFAM (R311). Installs a table descriptor into a hash-family slot. -/
  | rfam (h : BitVec 3) (a : BitVec 6)
  /-- RPROBE (R302). Probes buckets and writes a capped candidate list to the pad. -/
  | rprobe (h : BitVec 3) (d : BitVec 6) (k : BitVec 6) (a : BitVec 6)
  /-- RINS (R305). Inserts row ids into buckets. -/
  | rins (h : BitVec 3) (a : BitVec 6) (k : BitVec 6) (g : BitVec 4)
  /-- RDEL (R305). Deletes row ids from buckets. -/
  | rdel (h : BitVec 3) (a : BitVec 6) (k : BitVec 6) (g : BitVec 4)
  /-- RMOVE (R306). Rehashes rows by insert into the new bucket then delete from the old. -/
  | rmove (h : BitVec 3) (a : BitVec 6) (k : BitVec 5) (g : BitVec 4)
  /-- RGATH (R304). Gathers candidate weight rows into a pad B operand. -/
  | rgath (l : BitVec 6) (s : BitVec 5) (e : BitVec 5)
  /-- RSTAT (R312). Reads a slot, counter or bucket value. -/
  | rstat (h : BitVec 3) (d : BitVec 6) (a : BitVec 6) (s : BitVec 3)
  /-- WATCH (R347). Installs a watch descriptor for the context. -/
  | watch (d : BitVec 6) (a : BitVec 6)
  /-- UNWATCH (R357). Removes a watch and its pending triggers. -/
  | unwatch (d : BitVec 6) (a : BitVec 6)
  /-- WSTAT (R358). Reads a watch's state by selector. -/
  | wstat (d : BitVec 6) (a : BitVec 6) (s : BitVec 4)
  /-- QPOST (R361). Posts a task descriptor to the hub. -/
  | qpost (d : BitVec 6) (a : BitVec 6) (b : BitVec 6)
  /-- CLAIM (R368). Claims a chunk from a range counter. -/
  | claim (d : BitVec 5) (a : BitVec 6)
  /-- RINIT (R369). Writes all four fields of a range counter. -/
  | rinit (a : BitVec 6) (b : BitVec 4)
  /-- SYSRD (R383). Reads a system register. -/
  | sysrd (d : BitVec 6) (n : BitVec 12)
  /-- SYSWR (R383). Writes a system register. -/
  | syswr (a : BitVec 6) (n : BitVec 12)
  /-- TRET_R (R384). Ends handler mode by retrying the faulting group. -/
  | tretR
  /-- TRET_S (R384). Ends handler mode by skipping the faulting instruction. -/
  | tretS
  /-- LEASE (R405). Establishes a standing lease for a context. -/
  | lease (d : BitVec 6) (a : BitVec 6) (b : BitVec 6)
  /-- UNLEASE (R405). Revokes leases over a range, pre-empting crews that hold them. -/
  | unlease (a : BitVec 6) (b : BitVec 6)
  /-- TLBINV (R405). Drops translations of a range from every TLB and cache. -/
  | tlbinv (a : BitVec 6) (b : BitVec 6)
  /-- CTXKILL (R398). Ends a context with a guarantee that none of its writes lands later. -/
  | ctxkill (d : BitVec 6) (a : BitVec 6)
  /-- HALT (R405). Kills every context but 0 and stops the module. -/
  | halt
  /-- WFE (R405). Waits for the control core's event flag or a CLOCK deadline. -/
  | wfe (a : BitVec 6)
  /-- SIGNAL (R405). Raises a host MSI-X or sets a control core's event flag. -/
  | signal (a : BitVec 6) (b : BitVec 6)
  /-- PREEMPT (R405). Pre-empts a named live crew. -/
  | preempt (d : BitVec 6) (a : BitVec 6)
  /-- RBLD (R402). Starts this module's share of a rebuild of a lost module. -/
  | rbld (d : BitVec 6) (a : BitVec 6) (b : BitVec 6)
  /-- HINT_IMM (R34). Lends 22 immediate bits to the next instruction. -/
  | hintImm (i : BitVec 22)
  /-- HINT_ORD (R35). Lends a memory order to the next access. -/
  | hintOrd (o : BitVec 3)
  /-- HINT_SCOPE (R35). Lends a scope to the next ordered access or atomic. -/
  | hintScope (s : BitVec 3)
  /-- HINT_CACHE (R35). Lends an allocation policy to the next access. -/
  | hintCache (c : BitVec 3)
  /-- HINT_SCHED (R35). Demotes or holds the split after the next instruction. -/
  | hintSched (p : BitVec 2)
  /-- HINT_BND (R35). Lends a per-lane bounds limit register to the next vector access. -/
  | hintBnd (r : BitVec 6)
  /-- JOIN_ARRIVAL (R205). A split reaching its top entry's join address arrives and the entry settles. -/
  | joinArrival (g k : Nat)
  /-- RECONVERGENCE_REFILL (R203). A spilled reconvergence entry is refilled for the split that needs it. -/
  | reconvergenceRefill (g k : Nat)
  /-- YIELD_EXPIRY (R214). A yielded split becomes ready again after 32 clocks. -/
  | yieldExpiry (g k : Nat)
  /-- TABLE_WALK (R107). A cluster walker completes a walk and the instruction's pages are translated. -/
  | tableWalk (cluster ctx va : Nat)
  /-- LOAD_COMPLETE (R223). Returned lines complete a load and its destination lanes are written. -/
  | loadComplete (tag : Nat)
  /-- WCB_IDLE_DRAIN (R156). An entry untouched for 256 clocks drains on its own. -/
  | wcbIdleDrain (g line : Nat)
  /-- SLICE_WRITE_COMMIT (R123). A write commits at its slice, is compared, and triggers and forms deltas. -/
  | sliceWriteCommit (w : SliceWrite)
  /-- SLICE_READ (R114). A read is performed at its slice in the line's commit order. -/
  | sliceRead (tag addr n : Nat)
  /-- WATCH_CACHE_FILL (R348). A watch cache miss is filled from the watch index. -/
  | watchCacheFill (die page : Nat)
  /-- SPILL_REFILL (R351). The record at SHEAD moves on chip when its home slice has room. -/
  | spillRefill (ctx watch : Nat)
  /-- NEAR_SWAP (R132). Slice swap operation. -/
  | nearSwap (q : NearReq)
  /-- NEAR_CAS (R132). Slice compare-and-swap operation. -/
  | nearCas (q : NearReq)
  /-- NEAR_ADD (R132). Slice integer add operation. -/
  | nearAdd (q : NearReq)
  /-- NEAR_AND (R132). Slice AND operation. -/
  | nearAnd (q : NearReq)
  /-- NEAR_OR (R132). Slice OR operation. -/
  | nearOr (q : NearReq)
  /-- NEAR_XOR (R132). Slice XOR operation. -/
  | nearXor (q : NearReq)
  /-- NEAR_SMIN (R132). Slice signed minimum operation. -/
  | nearSmin (q : NearReq)
  /-- NEAR_SMAX (R132). Slice signed maximum operation. -/
  | nearSmax (q : NearReq)
  /-- NEAR_UMIN (R132). Slice unsigned minimum operation. -/
  | nearUmin (q : NearReq)
  /-- NEAR_UMAX (R132). Slice unsigned maximum operation. -/
  | nearUmax (q : NearReq)
  /-- NEAR_FADD (R133). Slice FP32 add rounded to nearest. -/
  | nearFadd (q : NearReq)
  /-- NEAR_FXADD (R136). Slice FX96 accumulation, refused when no region governs the slot. -/
  | nearFxadd (q : NearReq)
  /-- NEAR_CLAIM (R368). Slice range-counter claim returning a chunk. -/
  | nearClaim (q : NearReq)
  /-- NEAR_RINIT (R369). Slice write of all four range-counter fields. -/
  | nearRinit (q : NearReq)
  /-- INSERT (R298). A retrieval unit inserts a row into a bucket under the overflow policy. -/
  | insert (q : BucketReq)
  /-- DELETE (R298). A retrieval unit deletes a row from a bucket and its overflow bucket. -/
  | delete (q : BucketReq)
  /-- BUCKET_READ (R302). A retrieval unit reads one bucket for a probe. -/
  | bucketRead (tag addr : Nat)
  /-- DELTA (R130). A parity member applies a delta to its parity half-line and acknowledges. -/
  | delta (d : DeltaMsg)
  /-- DELTA_ACK (R130). A delta acknowledgement reaches its originator, possibly marked refused. -/
  | deltaAck (tag : Nat) (refused : Bool)
  /-- SCRUB (R144). The scrubber reads and corrects a line on an idle queue cycle. -/
  | scrub (addr : Nat)
  /-- SWEEP_PERIOD_EXPIRY (R144). A DRAM sweep passes its period unfinished and LAG is set. -/
  | sweepPeriodExpiry (slice : Nat)
  /-- SLICE_STATUS_WRITE (R121). A slice writes its status record and logs errors or refusals. -/
  | sliceStatusWrite (slice : Nat)
  /-- BANK_STATUS_WRITE (R148). A cluster writes a bank status word. -/
  | bankStatusWrite (cluster bank : Nat)
  /-- BANK_ROLE_CHANGE (R149). A bank finishes leaving its role and enters the requested one. -/
  | bankRoleChange (cluster bank : Nat)
  /-- BANK_REENCODE (R150). A bank's re-encoding after an ECC change completes. -/
  | bankReencode (cluster bank : Nat)
  /-- PAD_FILL (R159). A pad page fill into a frame completes. -/
  | padFill (crew page : Nat)
  /-- PAD_EVACUATE (R159). A pad page's dirty parts are written to its backing. -/
  | padEvacuate (crew page : Nat)
  /-- COPY_SLICE_ASSEMBLE (R170). A slice moves from the pending-copy slot into its collective. -/
  | copySliceAssemble (g : Nat)
  /-- COLLECTIVE_START (R177). A complete collective starts once its queue predecessor has landed. -/
  | collectiveStart (crew q : Nat)
  /-- COPY_BYTE_READ (R183). The engine reads source bytes and subtracts them from OUTB. -/
  | copyByteRead (coll : Nat)
  /-- COPY_BYTE_LANDED (R183). Destination bytes land and are subtracted from INB. -/
  | copyByteLanded (coll : Nat)
  /-- TROWEL_PASS (R281). The trowel reaches the next waiting gang 2 clocks after release. -/
  | trowelPass (core : Nat)
  /-- MMA_START (R275). The array starts an mma once operands are ready and it is free. -/
  | mmaStart (core : Nat)
  /-- MMA_RETIRE (R285). An mma retires and sets its flags in FST. -/
  | mmaRetire (core : Nat)
  /-- MDRAIN_START (R276). The drain unit starts a drain when its tile is free. -/
  | mdrainStart (core : Nat)
  /-- MDRAIN_RETIRE (R276). A drain retires after its writes are in place. -/
  | mdrainRetire (core : Nat)
  /-- LEASE_ESTABLISH (R98). The lease unit reads the lease set and walks and pins its pages. -/
  | leaseEstablish (task : Nat)
  /-- FAULT_RECORD_WRITE (R100). A lease fault record lands in the home module's queue when its slot is free. -/
  | faultRecordWrite
  /-- HUB_CONSIDER (R364). The hub considers the next task and places, hands over or drops it. -/
  | hubConsider (die : Nat)
  /-- TASK_AGING (R364). A task waiting 64 µs moves up one class. -/
  | taskAging (task : Nat)
  /-- CORE_RESERVATION (R366). A large task waiting 256 µs reserves a core. -/
  | coreReservation (task : Nat)
  /-- HUB_SPILL_REFILL (R363). Spilled descriptors return on chip as room frees. -/
  | hubSpillRefill (die : Nat)
  /-- DETECTOR_SCAN (R372). The wait-for detector scans blocked gangs and declares deadlocks. -/
  | detectorScan (die : Nat)
  /-- CREW_RESTORE (R396). A pre-empted crew is restored to its core and slots. -/
  | crewRestore (crew : Nat)
  /-- PREEMPT_SAVE_DONE (R395). Saving a pre-empted crew completes and a 0x23 record is logged. -/
  | preemptSaveDone (crew : Nat)
  /-- FORERUNNER_TIMEOUT (R397). A forerunner gang reaching no safept within 10 ms is taken at its next boundary. -/
  | forerunnerTimeout (g : Nat)
  /-- SKIM_VISIT (R399). The skim controller closes and drains the next core. -/
  | skimVisit (die : Nat)
  /-- SKIM_SCAN_DONE (R400). A 25 µs scan ends and the core passes or fails. -/
  | skimScanDone (core : Nat) (pass : Bool)
  /-- REBUILD_STRIPE (R403). A rebuilder reconstructs a stripe's lost half-lines under a consistent cut. -/
  | rebuildStripe (record stripe : Nat)
  /-- ISLCTL (R19). A write to an island's ISLCTL requests an operating point. -/
  | islctl (island : Nat) (x : BitVec 64)
  /-- OPERATING_POINT_CHANGE_DONE (R19). An island's change of operating point completes. -/
  | operatingPointChangeDone (island : Nat)
  /-- POWER_STEP_DOWN (R22). Over the feed limit for 100 µs, a die's islands step down. -/
  | powerStepDown
  /-- POWER_STEP_UP (R22). Below 15.5 kW, CUR rises one point toward REQ every 1 ms. -/
  | powerStepUp (die : Nat)
  /-- THERMAL_STEP (R24). An island above 100 °C steps down every 100 µs. -/
  | thermalStep (island : Nat)
  /-- THERMAL_RECOVER (R24). An island below 95 °C returns toward REQ. -/
  | thermalRecover (island : Nat)
  /-- THERMAL_TRIP (R24). Above 110 °C the module stops every clock and sets thermal trip. -/
  | thermalTrip
  /-- WFE_TIMEOUT (R405). A wfe deadline is reached on CLOCK. -/
  | wfeTimeout (cc : Nat)
  /-- HOST_WRITE (R407). A CXL.mem host write commits at its slice. -/
  | hostWrite (dec h : Nat) (data : List Byte)
  /-- HOST_READ (R407). A CXL.mem host read of device memory. -/
  | hostRead (dec h n : Nat)
  /-- HOST_SNOOP (R409). The link agent answers a host snoop from its agent cache. -/
  | hostSnoop (line : Nat) (invalidate : Bool)
  /-- HOST_ATOMIC_COMPLETION (R237). A CXL.io completion with data: an AtomicOp's, which continues the link agent's loop, or a read's. -/
  | hostAtomicCompletion (tag : Nat) (data : List Byte)
  /-- READ (R420). Fabric read packet performed at the home slice. -/
  | read (p : Packet)
  /-- READ_DATA (R420). Fabric read data packet returns to the requester. -/
  | readData (p : Packet)
  /-- WRITE (R420). Fabric write packet committed at the home slice. -/
  | write (p : Packet)
  /-- WRITE_ACK (R420). Fabric write acknowledgement, carrying any refusal. -/
  | writeAck (p : Packet)
  /-- ATOMIC (R420). Fabric atomic packet performed at the home slice. -/
  | atomic (p : Packet)
  /-- ATOMIC_DATA (R420). Fabric atomic reply with old value or status. -/
  | atomicData (p : Packet)
  /-- LEASE_RECORD (R100). A lease fault record packet arrives at the home module. -/
  | leaseRecord (p : Packet)
  /-- LEASE_REPLY (R101). A reply word reaches the lease unit, causing a re-walk or discard. -/
  | leaseReply (seq : Nat) (code : Nat)
  /-- REBUILD_QUERY (R403). A rebuilder queries a surviving data slice for a half-line. -/
  | rebuildQuery (p : Packet)
  /-- REBUILD_ANSWER (R403). A surviving slice answers a rebuild query. -/
  | rebuildAnswer (p : Packet)
  /-- DRAIN_TOKEN (R398). A drain token is forwarded behind the context's packets. -/
  | drainToken (p : Packet)
  /-- TOKEN_RETURN (R398). A drain token returns to ctxkill. -/
  | tokenReturn (p : Packet)
  /-- GROUP_EXCHANGE (R417). A group record is exchanged with members during formation. -/
  | groupExchange (p : Packet)
  /-- HEARTBEAT (R422). A heartbeat packet is received from a peer. -/
  | heartbeat (p : Packet) (port : Nat)
  /-- RESERVED_PACKET_KIND (R420). A packet of reserved kind is dropped and counted. -/
  | reservedPacketKind (p : Packet) (port : Nat)
  /-- HEARTBEAT_TIMER (R422). Every UP port sends a heartbeat at least every 10 µs. -/
  | heartbeatTimer
  /-- FLIT_RETRANSMIT (R418). A flit whose CRC fails is retransmitted from the retry buffer. -/
  | flitRetransmit (port : Nat)
  /-- PORT_DOWN (R421). A port goes down and its packets are resent on the next UP port. -/
  | portDown (port : Nat)
  /-- PEER_LOST_TIMEOUT (R422). A peer silent for 1 ms is declared lost and degraded mode entered. -/
  | peerLostTimeout (peer : Nat)
  /-- SELF_FENCE_TIMEOUT (R422). A module hearing nothing for 500 µs stops sending and halts. -/
  | selfFenceTimeout
  /-- COLD_START (R423). MCTL START 1 begins a cold start. -/
  | coldStart
  /-- WARM_START (R423). MCTL START 2 begins a warm start. -/
  | warmStart
  /-- ATTREQ (R427). A write of 1 requests a signed attestation report. -/
  | attreq (x : BitVec 64)
  /-- REGISTER_WRITE (R413). A write to a management register with no row of its own. -/
  | registerWrite (off : Nat) (x : BitVec 64)
  /-- CLUSTER_TLB_HIT (R107). The cluster TLB answers a core TLB miss with a hit within 20 clocks and the instruction's page is translated. -/
  | clusterTlbHit (core ctx va : Nat)
  /-- MZERO_RETIRE (R276). An mzero occupies the accumulator tile store for 4 clocks and retires 4 clocks after it starts. -/
  | mzeroRetire (core : Nat)
  /-- TILE_PORT_RETIRE (R289). A zld or zst finishes moving its bytes through the core's tile port and retires. -/
  | tilePortRetire (core : Nat)
  /-- HOST_WRITE_COMPLETION (R335). A completion for a device store to host memory returns to the link agent. -/
  | hostWriteCompletion (tag : Nat)
  /-- CXL_CACHE_OWNERSHIP (R236). The host grants the link agent exclusive ownership of a coherent line through CXL.cache, and the agent performs the pending atomic. -/
  | cxlCacheOwnership (tag : Nat) (data : List Byte)
  /-- HOST_LINK_TRAINING (R414). The CXL host link trains, fixing its width and rate and writing completer support into agent status. -/
  | hostLinkTraining (width rate : Nat) (support : BitVec 6)
  /-- BOOT_WINDOW_WRITE (R410). The host writes into the 64 MiB boot window of BAR0, staging the image that step 2 verifies. -/
  | bootWindowWrite (off : Nat) (data : List Byte)
  /-- ATTESTATION_REPORT (R427). The signed attestation report is written at 0x1000 and ATTREQ returns to 0. -/
  | attestationReport (signature : List Byte)
  /-- START_STEP_COMPLETE (R423). A step of a cold or warm start finishes or fails, so MSTAT.STEP advances or the start fails or falls back. -/
  | startStepComplete (ok : Bool) (ports : BitVec 48)
  /-- POWER_LOSS (R413). The module loses its power feed, losing MCFG and the group configuration, and returns in state off. -/
  | powerLoss
  deriving DecidableEq, Repr

end Sys2Proof
end

