-- ==== Sys2Proof/Machine/Events.lean ====
section
/-! DEFINITION. An event as the row of the table that it is. -/

namespace Sys2Proof

/-- The row of spec/opcode_table.json that an event is. -/
noncomputable def Event.toInstr (e : Event) : Instr :=
  match e with
  | .joinArrival x1 x2 => .joinArrival x1 x2
  | .reconvergenceRefill x1 x2 => .reconvergenceRefill x1 x2
  | .yieldExpiry x1 x2 => .yieldExpiry x1 x2
  | .tableWalk x1 x2 x3 => .tableWalk x1 x2 x3
  | .loadComplete x1 => .loadComplete x1
  | .wcbIdleDrain x1 x2 => .wcbIdleDrain x1 x2
  | .sliceWriteCommit x1 => .sliceWriteCommit x1
  | .sliceRead x1 x2 x3 => .sliceRead x1 x2 x3
  | .watchCacheFill x1 x2 => .watchCacheFill x1 x2
  | .spillRefill x1 x2 => .spillRefill x1 x2
  | .nearSwap x1 => .nearSwap x1
  | .nearCas x1 => .nearCas x1
  | .nearAdd x1 => .nearAdd x1
  | .nearAnd x1 => .nearAnd x1
  | .nearOr x1 => .nearOr x1
  | .nearXor x1 => .nearXor x1
  | .nearSmin x1 => .nearSmin x1
  | .nearSmax x1 => .nearSmax x1
  | .nearUmin x1 => .nearUmin x1
  | .nearUmax x1 => .nearUmax x1
  | .nearFadd x1 => .nearFadd x1
  | .nearFxadd x1 => .nearFxadd x1
  | .nearClaim x1 => .nearClaim x1
  | .nearRinit x1 => .nearRinit x1
  | .insert x1 => .insert x1
  | .delete x1 => .delete x1
  | .bucketRead x1 x2 => .bucketRead x1 x2
  | .delta x1 => .delta x1
  | .deltaAck x1 x2 => .deltaAck x1 x2
  | .scrub x1 => .scrub x1
  | .sweepPeriodExpiry x1 => .sweepPeriodExpiry x1
  | .sliceStatusWrite x1 => .sliceStatusWrite x1
  | .bankStatusWrite x1 x2 => .bankStatusWrite x1 x2
  | .bankRoleChange x1 x2 => .bankRoleChange x1 x2
  | .bankReencode x1 x2 => .bankReencode x1 x2
  | .padFill x1 x2 => .padFill x1 x2
  | .padEvacuate x1 x2 => .padEvacuate x1 x2
  | .copySliceAssemble x1 => .copySliceAssemble x1
  | .collectiveStart x1 x2 => .collectiveStart x1 x2
  | .copyByteRead x1 => .copyByteRead x1
  | .copyByteLanded x1 => .copyByteLanded x1
  | .trowelPass x1 => .trowelPass x1
  | .mmaStart x1 => .mmaStart x1
  | .mmaRetire x1 => .mmaRetire x1
  | .mdrainStart x1 => .mdrainStart x1
  | .mdrainRetire x1 => .mdrainRetire x1
  | .leaseEstablish x1 => .leaseEstablish x1
  | .faultRecordWrite => .faultRecordWrite
  | .hubConsider x1 => .hubConsider x1
  | .taskAging x1 => .taskAging x1
  | .coreReservation x1 => .coreReservation x1
  | .hubSpillRefill x1 => .hubSpillRefill x1
  | .detectorScan x1 => .detectorScan x1
  | .crewRestore x1 => .crewRestore x1
  | .preemptSaveDone x1 => .preemptSaveDone x1
  | .forerunnerTimeout x1 => .forerunnerTimeout x1
  | .skimVisit x1 => .skimVisit x1
  | .skimScanDone x1 x2 => .skimScanDone x1 x2
  | .rebuildStripe x1 x2 => .rebuildStripe x1 x2
  | .islctl x1 x2 => .islctl x1 x2
  | .operatingPointChangeDone x1 => .operatingPointChangeDone x1
  | .powerStepDown => .powerStepDown
  | .powerStepUp x1 => .powerStepUp x1
  | .thermalStep x1 => .thermalStep x1
  | .thermalRecover x1 => .thermalRecover x1
  | .thermalTrip => .thermalTrip
  | .wfeTimeout x1 => .wfeTimeout x1
  | .hostWrite x1 x2 x3 => .hostWrite x1 x2 x3
  | .hostRead x1 x2 x3 => .hostRead x1 x2 x3
  | .hostSnoop x1 x2 => .hostSnoop x1 x2
  | .hostAtomicCompletion x1 x2 => .hostAtomicCompletion x1 x2
  | .read x1 => .read x1
  | .readData x1 => .readData x1
  | .write x1 => .write x1
  | .writeAck x1 => .writeAck x1
  | .atomic x1 => .atomic x1
  | .atomicData x1 => .atomicData x1
  | .leaseRecord x1 => .leaseRecord x1
  | .leaseReply x1 x2 => .leaseReply x1 x2
  | .rebuildQuery x1 => .rebuildQuery x1
  | .rebuildAnswer x1 => .rebuildAnswer x1
  | .drainToken x1 => .drainToken x1
  | .tokenReturn x1 => .tokenReturn x1
  | .groupExchange x1 => .groupExchange x1
  | .heartbeat x1 x2 => .heartbeat x1 x2
  | .reservedPacketKind x1 x2 => .reservedPacketKind x1 x2
  | .heartbeatTimer => .heartbeatTimer
  | .flitRetransmit x1 => .flitRetransmit x1
  | .portDown x1 => .portDown x1
  | .peerLostTimeout x1 => .peerLostTimeout x1
  | .selfFenceTimeout => .selfFenceTimeout
  | .coldStart => .coldStart
  | .warmStart => .warmStart
  | .attreq x1 => .attreq x1
  | .registerWrite x1 x2 => .registerWrite x1 x2
  | .clusterTlbHit x1 x2 x3 => .clusterTlbHit x1 x2 x3
  | .mzeroRetire x1 => .mzeroRetire x1
  | .tilePortRetire x1 => .tilePortRetire x1
  | .hostWriteCompletion x1 => .hostWriteCompletion x1
  | .cxlCacheOwnership x1 x2 => .cxlCacheOwnership x1 x2
  | .hostLinkTraining x1 x2 x3 => .hostLinkTraining x1 x2 x3
  | .bootWindowWrite x1 x2 => .bootWindowWrite x1 x2
  | .attestationReport x1 => .attestationReport x1
  | .startStepComplete x1 x2 => .startStepComplete x1 x2
  | .powerLoss => .powerLoss

end Sys2Proof
end

