-- ==== Sys2Proof/WellFormed.lean ====
section
/-! DEFINITION. Which instruction words are legal by their fields alone (R27, R28, R30 and the check lists of the
chapters): what no gang's counts and no FMT can change. Events have no word and are always well formed. -/

namespace Sys2Proof

/-- A guard other than the illegal 0b1000 (R27). -/
def guardOk (g : BitVec 4) : Bool := g != 0b1000#4

/-- A register number is even: the lower register of a pair (R219, R241). -/
def evenReg {n : Nat} (r : BitVec n) : Bool := r.toNat % 2 == 0

/-- A predicate register number in a 6-bit field (R28). -/
def predReg (r : BitVec 6) : Bool := r.toNat < 8

/-- An operand field of major 0x2B: a z number, or an even scalar register when the operand is in the pad (R283). -/
def tileOrPair (pad : Bool) (r : BitVec 6) : Bool := if pad then evenReg r else r.toNat < 16

/-- The system register numbers that R42 defines. -/
def sysregDefined (n : BitVec 12) : Bool :=
  n.toNat ≤ 0x00A || (0x010 ≤ n.toNat && n.toNat ≤ 0x014) || (0x400 ≤ n.toNat && n.toNat ≤ 0x43F)

/-- The fields of an instruction are legal (R30). -/
def Instr.wellFormed (i : Instr) : Bool :=
  match i with
  | .add .. | .sub .. | .and .. | .or .. | .xor .. | .andn .. | .sll .. | .srl .. | .sra .. | .rol .. | .ror ..
  | .slt .. | .sltz .. | .seq .. | .minS .. | .maxS .. | .minZ .. | .maxZ .. | .mul .. | .mulhS .. | .mulhZ ..
  | .divS .. | .divZ .. | .remS .. | .remZ .. | .clz .. | .ctz .. | .popc .. | .brev .. | .bswap .. | .sextS8 ..
  | .sextS16 .. | .sextS32 .. | .zextZ32 .. | .addW .. | .subW .. | .mulW .. | .addi .. | .andi .. | .ori ..
  | .xori .. | .slti .. | .sltiz .. | .slli .. | .srli .. | .srai .. | .rori .. | .slliW .. | .srliW .. | .sraiW ..
  | .roriW .. | .lui .. | .addpc .. | .addcb .. | .ld .. | .st .. | .beqz .. | .bnez .. | .bltz .. | .bgez ..
  | .bgtz .. | .blez .. | .bany .. | .ball .. | .bnone .. | .bnall .. => true
  | .braD g _ _ => guardOk g
  | .jmp .. | .call .. | .nop | .jr .. | .jrL .. | .ret => true
  | .exit g => guardOk g
  | .trap _ g => guardOk g
  | .brk .. | .yield | .setfmt .. | .getfmt .. | .safept .. | .barInit .. => true
  | .barArrive _ _ g => guardOk g
  | .barWait .. => true
  | .barSync _ _ g => guardOk g
  | .barGen .. | .barObs .. | .barDrop .. | .cjoin .. | .cleave .. | .cmask .. | .crank .. => true
  | .vfadd _ _ _ _ g => guardOk g
  | .vfsub _ _ _ _ g => guardOk g
  | .vfmul _ _ _ _ g => guardOk g
  | .vfdiv _ _ _ _ g => guardOk g
  | .vfmin _ _ _ _ g => guardOk g
  | .vfmax _ _ _ _ g => guardOk g
  | .vfabs _ _ _ g => guardOk g
  | .vfneg _ _ _ g => guardOk g
  | .vffma _ _ _ _ g => guardOk g
  | .vffms _ _ _ _ g => guardOk g
  | .vfnma _ _ _ _ g => guardOk g
  | .vfnms _ _ _ _ g => guardOk g
  | .vfsqrt _ _ g => guardOk g
  | .vfrcp _ _ g => guardOk g
  | .vfrsq _ _ g => guardOk g
  | .vfexp _ _ g => guardOk g
  | .vflog2 _ _ g => guardOk g
  | .vfcmpEq d _ _ g => guardOk g && predReg d
  | .vfcmpNe d _ _ g => guardOk g && predReg d
  | .vfcmpLt d _ _ g => guardOk g && predReg d
  | .vfcmpLe d _ _ g => guardOk g && predReg d
  | .vfcmpGt d _ _ g => guardOk g && predReg d
  | .vfcmpGe d _ _ g => guardOk g && predReg d
  | .vfcmpUn d _ _ g => guardOk g && predReg d
  | .vfcmpOrd d _ _ g => guardOk g && predReg d
  | .vfrintNe _ _ g => guardOk g
  | .vfrintZ _ _ g => guardOk g
  | .vfrintDn _ _ g => guardOk g
  | .vfrintUp _ _ g => guardOk g
  | .vfscale _ _ _ g => guardOk g
  | .vfrint _ _ g => guardOk g
  | .vcvtSF32 d _ c g => guardOk g && (c != 3 || evenReg d)
  | .vcvtZF32 d _ c g => guardOk g && (c != 3 || evenReg d)
  | .vcvtF32S _ a c g => guardOk g && (c != 3 || evenReg a)
  | .vcvtF32Z _ a c g => guardOk g && (c != 3 || evenReg a)
  | .vcvtNfF32 _ _ _ g => guardOk g
  | .vcvtF32Nf _ _ _ g => guardOk g
  | .vadd _ _ _ g => guardOk g
  | .vsub _ _ _ g => guardOk g
  | .vmul _ _ _ g => guardOk g
  | .vmulhS32 _ _ _ g => guardOk g
  | .vmulhZ32 _ _ _ g => guardOk g
  | .vand _ _ _ g => guardOk g
  | .vor _ _ _ g => guardOk g
  | .vxor _ _ _ g => guardOk g
  | .vsll _ _ _ g => guardOk g
  | .vsrl _ _ _ g => guardOk g
  | .vsra _ _ _ g => guardOk g
  | .vminS32 _ _ _ g => guardOk g
  | .vmaxS32 _ _ _ g => guardOk g
  | .vminZ32 _ _ _ g => guardOk g
  | .vmaxZ32 _ _ _ g => guardOk g
  | .vaddsatS32 _ _ _ g => guardOk g
  | .vcmpEqZ32 d _ _ g => guardOk g && predReg d
  | .vcmpNeZ32 d _ _ g => guardOk g && predReg d
  | .vcmpLtS32 d _ _ g => guardOk g && predReg d
  | .vcmpLeS32 d _ _ g => guardOk g && predReg d
  | .vcmpGtS32 d _ _ g => guardOk g && predReg d
  | .vcmpGeS32 d _ _ g => guardOk g && predReg d
  | .vcmpLtZ32 d _ _ g => guardOk g && predReg d
  | .vcmpLeZ32 d _ _ g => guardOk g && predReg d
  | .vcmpGtZ32 d _ _ g => guardOk g && predReg d
  | .vcmpGeZ32 d _ _ g => guardOk g && predReg d
  | .vtest d _ _ g => guardOk g && predReg d
  | .vaddScalar _ _ _ g => guardOk g
  | .vsubScalar _ _ _ g => guardOk g
  | .vmulScalar _ _ _ g => guardOk g
  | .vandScalar _ _ _ g => guardOk g
  | .vorScalar _ _ _ g => guardOk g
  | .vxorScalar _ _ _ g => guardOk g
  | .vsllScalar _ _ _ g => guardOk g
  | .vsrlScalar _ _ _ g => guardOk g
  | .vsraScalar _ _ _ g => guardOk g
  | .vfaddScalar _ _ _ g => guardOk g
  | .vfmulScalar _ _ _ g => guardOk g
  | .vffmaScalar _ _ _ g => guardOk g
  | .vmovScalar _ _ g => guardOk g
  | .vcmpEqScalar d _ _ g => guardOk g && predReg d
  | .vcmpLtS32Scalar d _ _ g => guardOk g && predReg d
  | .vcmpLtZ32Scalar d _ _ g => guardOk g && predReg d
  | .vaddImm _ _ _ g => guardOk g
  | .vli _ _ g => guardOk g
  | .vperm _ _ _ g => guardOk g
  | .vscanZ32 _ _ g => guardOk g
  | .vscanF32 _ _ g => guardOk g
  | .vscanxZ32 _ _ g => guardOk g
  | .vredZ32 _ _ g => guardOk g
  | .vredF32 _ _ g => guardOk g
  | .vsgn _ _ g => guardOk g
  | .vget .. => true
  | .vins _ _ _ g => guardOk g
  | .vlane _ g => guardOk g
  | .vpopc _ _ g => guardOk g
  | .vclz _ _ g => guardOk g
  | .pand .. | .por .. | .pxor .. | .pandn .. | .pnot .. | .pmov .. | .prd .. | .pact .. | .pcnt .. | .pfirst .. => true
  | .vsel _ _ _ _ g => guardOk g
  | .vconf _ _ g => guardOk g
  | .vkaddZ32 _ _ _ g => guardOk g
  | .vkaddF32 _ _ _ g => guardOk g
  | .rebal d _ _ g => guardOk g && evenReg d
  | .vld d _ b z m g => guardOk g && (m.toNat % 2 == 0 || b == 0) && (z != 3 || evenReg d)
  | .vst d _ b z m g => guardOk g && (m.toNat % 2 == 0 || b == 0) && (z != 3 || evenReg d)
  | .vatswap d _ _ w g => guardOk g && (w == 0 || evenReg d)
  | .vatcas d _ _ w g => guardOk g && evenReg d && (w == 0 || d.toNat % 4 == 0)
  | .vatadd d _ _ w g => guardOk g && (w == 0 || evenReg d)
  | .vatand d _ _ w g => guardOk g && (w == 0 || evenReg d)
  | .vator d _ _ w g => guardOk g && (w == 0 || evenReg d)
  | .vatxor d _ _ w g => guardOk g && (w == 0 || evenReg d)
  | .vatsmin d _ _ w g => guardOk g && (w == 0 || evenReg d)
  | .vatsmax d _ _ w g => guardOk g && (w == 0 || evenReg d)
  | .vatumin d _ _ w g => guardOk g && (w == 0 || evenReg d)
  | .vatumax d _ _ w g => guardOk g && (w == 0 || evenReg d)
  | .vatfadd _ _ _ g => guardOk g
  | .vatfxadd d _ _ w g => guardOk g && (w == 0 || evenReg d)
  | .vatfxaddS32 _ _ _ g => guardOk g
  | .vatfxaddF16 _ _ _ g => guardOk g
  | .vatfxaddBf16 _ _ _ g => guardOk g
  | .atswap .. | .atcas .. | .atadd .. | .atand .. | .ator .. | .atxor .. | .atsmin .. | .atsmax .. | .atumin ..
  | .atumax .. | .atfadd .. | .atfxadd .. | .atfxaddS32 .. | .atfxaddF16 .. | .atfxaddBf16 .. => true
  | .fenceAcq s => decide (s.toNat ≤ 5)
  | .fenceRel s => decide (s.toNat ≤ 5)
  | .fenceFull s => decide (s.toNat ≤ 5)
  | .fenceSv .. | .fenceRemote .. => true
  | .qfence q => q != 0
  | .sealPages .. | .unsealPages .. | .drysync .. | .pf .. => true
  | .vpf _ _ g => guardOk g
  | .fpush _ _ g => guardOk g
  | .fpop _ _ g => guardOk g
  | .copy a _ e d f s _ => a.toNat % 4 == 0 && (e != 0 || d == 0) && (f != 0 || s == 0)
  | .copyAcc a _ e d f s _ => a.toNat % 4 == 0 && (e != 0 || d == 0) && (f != 0 || s == 0)
  | .copyChk a _ e d f s _ => a.toNat % 4 == 0 && (e != 0 || d == 0) && (f != 0 || s == 0)
  | .copyMc a _ e d f s => a.toNat % 4 == 0 && (e != 0 || d == 0) && (f != 0 || s == 0)
  | .mma _ s a t b _ => tileOrPair (s == 1) a && tileOrPair (t == 1) b
  | .mmaP _ s a t b _ => tileOrPair (s == 1) a && tileOrPair (t == 1) b
  | .mzero .. => true
  | .mdrain _ k d _ => k != 3 && tileOrPair (k != 0) d
  | .mdrainT _ k d t _ => k != 3 && tileOrPair (k != 0) d && tileOrPair (k != 0) t
  | .mtake | .mtakeF | .mgive => true
  | .zld z n _ s => evenReg s && decide (z.toNat + n.toNat ≤ 15)
  | .zst z n _ s => evenReg s && decide (z.toNat + n.toNat ≤ 15)
  | .rfam .. | .rprobe .. => true
  | .rins _ _ _ g => guardOk g
  | .rdel _ _ _ g => guardOk g
  | .rmove _ _ _ g => guardOk g
  | .rgath .. => true
  | .rstat _ _ a s => s != 7 && (s == 4 || a == 0)
  | .watch .. | .unwatch .. => true
  | .wstat _ _ s => decide (s.toNat ≤ 6)
  | .qpost .. | .claim .. | .rinit .. => true
  | .sysrd _ n => sysregDefined n
  | .syswr _ n => sysregDefined n
  | .tretR | .tretS | .lease .. | .unlease .. | .tlbinv .. | .ctxkill .. | .halt | .wfe .. | .signal .. | .preempt ..
  | .rbld .. | .hintImm .. => true
  | .hintOrd o => decide (1 ≤ o.toNat ∧ o.toNat ≤ 3)
  | .hintScope s => decide (s.toNat ≤ 6)
  | .hintCache c => decide (c.toNat ≤ 4)
  | .hintSched p => decide (p.toNat ≤ 2)
  | .hintBnd .. | .joinArrival .. | .reconvergenceRefill .. | .yieldExpiry .. | .tableWalk .. | .loadComplete ..
  | .wcbIdleDrain .. | .sliceWriteCommit .. | .sliceRead .. | .watchCacheFill .. | .spillRefill .. | .nearSwap ..
  | .nearCas .. | .nearAdd .. | .nearAnd .. | .nearOr .. | .nearXor .. | .nearSmin .. | .nearSmax .. | .nearUmin ..
  | .nearUmax .. | .nearFadd .. | .nearFxadd .. | .nearClaim .. | .nearRinit .. | .insert .. | .delete ..
  | .bucketRead .. | .delta .. | .deltaAck .. | .scrub .. | .sweepPeriodExpiry .. | .sliceStatusWrite ..
  | .bankStatusWrite .. | .bankRoleChange .. | .bankReencode .. | .padFill .. | .padEvacuate ..
  | .copySliceAssemble .. | .collectiveStart .. | .copyByteRead .. | .copyByteLanded .. | .trowelPass ..
  | .mmaStart .. | .mmaRetire .. | .mdrainStart .. | .mdrainRetire .. | .leaseEstablish .. | .faultRecordWrite
  | .hubConsider .. | .taskAging .. | .coreReservation .. | .hubSpillRefill .. | .detectorScan .. | .crewRestore ..
  | .preemptSaveDone .. | .forerunnerTimeout .. | .skimVisit .. | .skimScanDone .. | .rebuildStripe .. | .islctl ..
  | .operatingPointChangeDone .. | .powerStepDown | .powerStepUp .. | .thermalStep .. | .thermalRecover ..
  | .thermalTrip | .wfeTimeout .. | .hostWrite .. | .hostRead .. | .hostSnoop .. | .hostAtomicCompletion ..
  | .read .. | .readData .. | .write .. | .writeAck .. | .atomic .. | .atomicData .. | .leaseRecord ..
  | .leaseReply .. | .rebuildQuery .. | .rebuildAnswer .. | .drainToken .. | .tokenReturn .. | .groupExchange ..
  | .heartbeat .. | .reservedPacketKind .. | .heartbeatTimer | .flitRetransmit .. | .portDown ..
  | .peerLostTimeout .. | .selfFenceTimeout | .coldStart | .warmStart | .attreq .. | .registerWrite ..
  | .clusterTlbHit .. | .mzeroRetire .. | .tilePortRetire .. | .hostWriteCompletion .. | .cxlCacheOwnership ..
  | .hostLinkTraining .. | .bootWindowWrite .. | .attestationReport .. | .startStepComplete .. | .powerLoss => true

end Sys2Proof
end

