-- ==== Sys2Proof/Decode.lean ====
section
/-! DEFINITION. The decoder of Keaca words (R25 to R34 and the layouts of each major's chapter), and after it the
encoder written from the same layouts. A word with a reserved code, a must-be-zero field that is not zero, or a field
that `WellFormed` refuses decodes to nothing: it raises 0x01 (R30). -/

namespace Sys2Proof

/-- Bits lo + len − 1 to lo of n (R2). -/
def fld (n lo len : Nat) : BitVec len := BitVec.ofNat len (n >>> lo)

/-- The field x placed below the bits hi. -/
def snoc {k : Nat} (hi : Nat) (x : BitVec k) : Nat := hi * 2 ^ k + x.toNat

/-- Instructions of the majors from 0x29, as the decoder first reads them. Compiled code can hold no constructor of
`Instr` beyond the 245th, so these have a type of their own until `High.toInstr`. -/
inductive High where
  | pf (a : BitVec 6) (o : BitVec 12)
  | vpf (a : BitVec 6) (b : BitVec 6) (g : BitVec 4)
  | fpush (f : BitVec 4) (s : BitVec 6) (g : BitVec 4)
  | fpop (f : BitVec 4) (d : BitVec 6) (g : BitVec 4)
  | copy (a : BitVec 6) (q : BitVec 2) (e : BitVec 1) (d : BitVec 4) (f : BitVec 1) (s : BitVec 4) (v : BitVec 1)
  | copyAcc (a : BitVec 6) (q : BitVec 2) (e : BitVec 1) (d : BitVec 4) (f : BitVec 1) (s : BitVec 4) (v : BitVec 1)
  | copyChk (a : BitVec 6) (q : BitVec 2) (e : BitVec 1) (d : BitVec 4) (f : BitVec 1) (s : BitVec 4) (v : BitVec 1)
  | copyMc (a : BitVec 6) (q : BitVec 2) (e : BitVec 1) (d : BitVec 4) (f : BitVec 1) (s : BitVec 4)
  | mma (c : BitVec 2) (s : BitVec 1) (a : BitVec 6) (t : BitVec 1) (b : BitVec 6) (x : BitVec 6)
  | mmaP (c : BitVec 2) (s : BitVec 1) (a : BitVec 6) (t : BitVec 1) (b : BitVec 6) (x : BitVec 6)
  | mzero (c : BitVec 2)
  | mdrain (c : BitVec 2) (k : BitVec 2) (d : BitVec 6) (x : BitVec 6)
  | mdrainT (c : BitVec 2) (k : BitVec 2) (d : BitVec 6) (t : BitVec 6) (x : BitVec 6)
  | mtake
  | mtakeF
  | mgive
  | zld (z : BitVec 4) (n : BitVec 4) (k : BitVec 1) (s : BitVec 6)
  | zst (z : BitVec 4) (n : BitVec 4) (k : BitVec 1) (s : BitVec 6)
  | rfam (h : BitVec 3) (a : BitVec 6)
  | rprobe (h : BitVec 3) (d : BitVec 6) (k : BitVec 6) (a : BitVec 6)
  | rins (h : BitVec 3) (a : BitVec 6) (k : BitVec 6) (g : BitVec 4)
  | rdel (h : BitVec 3) (a : BitVec 6) (k : BitVec 6) (g : BitVec 4)
  | rmove (h : BitVec 3) (a : BitVec 6) (k : BitVec 5) (g : BitVec 4)
  | rgath (l : BitVec 6) (s : BitVec 5) (e : BitVec 5)
  | rstat (h : BitVec 3) (d : BitVec 6) (a : BitVec 6) (s : BitVec 3)
  | watch (d : BitVec 6) (a : BitVec 6)
  | unwatch (d : BitVec 6) (a : BitVec 6)
  | wstat (d : BitVec 6) (a : BitVec 6) (s : BitVec 4)
  | qpost (d : BitVec 6) (a : BitVec 6) (b : BitVec 6)
  | claim (d : BitVec 5) (a : BitVec 6)
  | rinit (a : BitVec 6) (b : BitVec 4)
  | sysrd (d : BitVec 6) (n : BitVec 12)
  | syswr (a : BitVec 6) (n : BitVec 12)
  | tretR
  | tretS
  | lease (d : BitVec 6) (a : BitVec 6) (b : BitVec 6)
  | unlease (a : BitVec 6) (b : BitVec 6)
  | tlbinv (a : BitVec 6) (b : BitVec 6)
  | ctxkill (d : BitVec 6) (a : BitVec 6)
  | halt
  | wfe (a : BitVec 6)
  | signal (a : BitVec 6) (b : BitVec 6)
  | preempt (d : BitVec 6) (a : BitVec 6)
  | rbld (d : BitVec 6) (a : BitVec 6) (b : BitVec 6)
  | hintImm (i : BitVec 22)
  | hintOrd (o : BitVec 3)
  | hintScope (s : BitVec 3)
  | hintCache (c : BitVec 3)
  | hintSched (p : BitVec 2)
  | hintBnd (r : BitVec 6)
  deriving DecidableEq, Repr

/-- The instruction itself. -/
noncomputable def High.toInstr (h : High) : Instr :=
  match h with
  | .pf a o => .pf a o
  | .vpf a b g => .vpf a b g
  | .fpush f s g => .fpush f s g
  | .fpop f d g => .fpop f d g
  | .copy a q e d f s v => .copy a q e d f s v
  | .copyAcc a q e d f s v => .copyAcc a q e d f s v
  | .copyChk a q e d f s v => .copyChk a q e d f s v
  | .copyMc a q e d f s => .copyMc a q e d f s
  | .mma c s a t b x => .mma c s a t b x
  | .mmaP c s a t b x => .mmaP c s a t b x
  | .mzero c => .mzero c
  | .mdrain c k d x => .mdrain c k d x
  | .mdrainT c k d t x => .mdrainT c k d t x
  | .mtake => .mtake
  | .mtakeF => .mtakeF
  | .mgive => .mgive
  | .zld z n k s => .zld z n k s
  | .zst z n k s => .zst z n k s
  | .rfam h a => .rfam h a
  | .rprobe h d k a => .rprobe h d k a
  | .rins h a k g => .rins h a k g
  | .rdel h a k g => .rdel h a k g
  | .rmove h a k g => .rmove h a k g
  | .rgath l s e => .rgath l s e
  | .rstat h d a s => .rstat h d a s
  | .watch d a => .watch d a
  | .unwatch d a => .unwatch d a
  | .wstat d a s => .wstat d a s
  | .qpost d a b => .qpost d a b
  | .claim d a => .claim d a
  | .rinit a b => .rinit a b
  | .sysrd d n => .sysrd d n
  | .syswr a n => .syswr a n
  | .tretR => .tretR
  | .tretS => .tretS
  | .lease d a b => .lease d a b
  | .unlease a b => .unlease a b
  | .tlbinv a b => .tlbinv a b
  | .ctxkill d a => .ctxkill d a
  | .halt => .halt
  | .wfe a => .wfe a
  | .signal a b => .signal a b
  | .preempt d a => .preempt d a
  | .rbld d a b => .rbld d a b
  | .hintImm i => .hintImm i
  | .hintOrd o => .hintOrd o
  | .hintScope s => .hintScope s
  | .hintCache c => .hintCache c
  | .hintSched p => .hintSched p
  | .hintBnd r => .hintBnd r

/-- Major 0x01. -/
def decAlu (n : Nat) : Option Instr :=
  match (fld n 0 8).toNat with
  | 0 => some (.add (fld n 20 6) (fld n 14 6) (fld n 8 6))
  | 1 => some (.sub (fld n 20 6) (fld n 14 6) (fld n 8 6))
  | 2 => some (.and (fld n 20 6) (fld n 14 6) (fld n 8 6))
  | 3 => some (.or (fld n 20 6) (fld n 14 6) (fld n 8 6))
  | 4 => some (.xor (fld n 20 6) (fld n 14 6) (fld n 8 6))
  | 5 => some (.andn (fld n 20 6) (fld n 14 6) (fld n 8 6))
  | 6 => some (.sll (fld n 20 6) (fld n 14 6) (fld n 8 6))
  | 7 => some (.srl (fld n 20 6) (fld n 14 6) (fld n 8 6))
  | 8 => some (.sra (fld n 20 6) (fld n 14 6) (fld n 8 6))
  | 9 => some (.rol (fld n 20 6) (fld n 14 6) (fld n 8 6))
  | 10 => some (.ror (fld n 20 6) (fld n 14 6) (fld n 8 6))
  | 11 => some (.slt (fld n 20 6) (fld n 14 6) (fld n 8 6))
  | 12 => some (.sltz (fld n 20 6) (fld n 14 6) (fld n 8 6))
  | 13 => some (.seq (fld n 20 6) (fld n 14 6) (fld n 8 6))
  | 14 => some (.minS (fld n 20 6) (fld n 14 6) (fld n 8 6))
  | 15 => some (.maxS (fld n 20 6) (fld n 14 6) (fld n 8 6))
  | 16 => some (.minZ (fld n 20 6) (fld n 14 6) (fld n 8 6))
  | 17 => some (.maxZ (fld n 20 6) (fld n 14 6) (fld n 8 6))
  | 18 => some (.mul (fld n 20 6) (fld n 14 6) (fld n 8 6))
  | 19 => some (.mulhS (fld n 20 6) (fld n 14 6) (fld n 8 6))
  | 20 => some (.mulhZ (fld n 20 6) (fld n 14 6) (fld n 8 6))
  | 21 => some (.divS (fld n 20 6) (fld n 14 6) (fld n 8 6))
  | 22 => some (.divZ (fld n 20 6) (fld n 14 6) (fld n 8 6))
  | 23 => some (.remS (fld n 20 6) (fld n 14 6) (fld n 8 6))
  | 24 => some (.remZ (fld n 20 6) (fld n 14 6) (fld n 8 6))
  | 25 => if fld n 8 6 = 0#6 then some (.clz (fld n 20 6) (fld n 14 6)) else none
  | 26 => if fld n 8 6 = 0#6 then some (.ctz (fld n 20 6) (fld n 14 6)) else none
  | 27 => if fld n 8 6 = 0#6 then some (.popc (fld n 20 6) (fld n 14 6)) else none
  | 28 => if fld n 8 6 = 0#6 then some (.brev (fld n 20 6) (fld n 14 6)) else none
  | 29 => if fld n 8 6 = 0#6 then some (.bswap (fld n 20 6) (fld n 14 6)) else none
  | 30 => if fld n 8 6 = 0#6 then some (.sextS8 (fld n 20 6) (fld n 14 6)) else none
  | 31 => if fld n 8 6 = 0#6 then some (.sextS16 (fld n 20 6) (fld n 14 6)) else none
  | 32 => if fld n 8 6 = 0#6 then some (.sextS32 (fld n 20 6) (fld n 14 6)) else none
  | 33 => if fld n 8 6 = 0#6 then some (.zextZ32 (fld n 20 6) (fld n 14 6)) else none
  | 34 => some (.addW (fld n 20 6) (fld n 14 6) (fld n 8 6))
  | 35 => some (.subW (fld n 20 6) (fld n 14 6) (fld n 8 6))
  | 36 => some (.mulW (fld n 20 6) (fld n 14 6) (fld n 8 6))
  | _ => none

/-- Major 0x08. -/
def decShift (n : Nat) : Option Instr :=
  match (fld n 11 3).toNat with
  | 0 => if fld n 6 5 = 0#5 then some (.slli (fld n 20 6) (fld n 14 6) (fld n 0 6)) else none
  | 2 => if fld n 6 5 = 0#5 then some (.srli (fld n 20 6) (fld n 14 6) (fld n 0 6)) else none
  | 4 => if fld n 6 5 = 0#5 then some (.srai (fld n 20 6) (fld n 14 6) (fld n 0 6)) else none
  | 6 => if fld n 6 5 = 0#5 then some (.rori (fld n 20 6) (fld n 14 6) (fld n 0 6)) else none
  | 1 => if fld n 5 6 = 0#6 then some (.slliW (fld n 20 6) (fld n 14 6) (fld n 0 5)) else none
  | 3 => if fld n 5 6 = 0#6 then some (.srliW (fld n 20 6) (fld n 14 6) (fld n 0 5)) else none
  | 5 => if fld n 5 6 = 0#6 then some (.sraiW (fld n 20 6) (fld n 14 6) (fld n 0 5)) else none
  | 7 => if fld n 5 6 = 0#6 then some (.roriW (fld n 20 6) (fld n 14 6) (fld n 0 5)) else none
  | _ => none

/-- Major 0x0E. -/
def decBranchScalar (n : Nat) : Option Instr :=
  match (fld n 22 4).toNat with
  | 0 => some (.beqz (fld n 16 6) (fld n 0 16))
  | 1 => some (.bnez (fld n 16 6) (fld n 0 16))
  | 2 => some (.bltz (fld n 16 6) (fld n 0 16))
  | 3 => some (.bgez (fld n 16 6) (fld n 0 16))
  | 4 => some (.bgtz (fld n 16 6) (fld n 0 16))
  | 5 => some (.blez (fld n 16 6) (fld n 0 16))
  | _ => none

/-- Major 0x0F. -/
def decBranchPred (n : Nat) : Option Instr :=
  match (fld n 22 4).toNat with
  | 0 => if fld n 19 3 = 0#3 then some (.bany (fld n 16 3) (fld n 0 16)) else none
  | 1 => if fld n 19 3 = 0#3 then some (.ball (fld n 16 3) (fld n 0 16)) else none
  | 2 => if fld n 19 3 = 0#3 then some (.bnone (fld n 16 3) (fld n 0 16)) else none
  | 3 => if fld n 19 3 = 0#3 then some (.bnall (fld n 16 3) (fld n 0 16)) else none
  | _ => none

/-- Major 0x13. -/
def decControl (n : Nat) : Option Instr :=
  match (fld n 22 4).toNat with
  | 0 => if fld n 0 22 = 0#22 then some (.nop) else none
  | 1 =>
    match (fld n 9 1).toNat with
    | 0 => if fld n 10 6 = 0#6 ∧ fld n 0 9 = 0#9 then some (.jr (fld n 16 6)) else none
    | _ => if fld n 0 9 = 0#9 then some (.jrL (fld n 16 6) (fld n 10 6)) else none
  | 2 => if fld n 0 22 = 0#22 then some (.ret) else none
  | 3 => if fld n 4 18 = 0#18 then some (.exit (fld n 0 4)) else none
  | 4 => if fld n 16 6 = 0#6 then some (.trap (fld n 4 12) (fld n 0 4)) else none
  | 5 => if fld n 16 6 = 0#6 ∧ fld n 0 4 = 0#4 then some (.brk (fld n 4 12)) else none
  | 6 => if fld n 0 22 = 0#22 then some (.yield) else none
  | 7 => if fld n 0 16 = 0#16 then some (.setfmt (fld n 16 6)) else none
  | 8 => if fld n 16 6 = 0#6 ∧ fld n 0 10 = 0#10 then some (.getfmt (fld n 10 6)) else none
  | 9 => if fld n 0 4 = 0#4 then some (.safept (fld n 4 18)) else none
  | _ => none

/-- Major 0x14. -/
def decCrew (n : Nat) : Option Instr :=
  match (fld n 22 4).toNat with
  | 0 => if fld n 0 6 = 0#6 then some (.barInit (fld n 18 4) (fld n 12 6) (fld n 6 6)) else none
  | 1 => if fld n 4 8 = 0#8 then some (.barArrive (fld n 18 4) (fld n 12 6) (fld n 0 4)) else none
  | 2 => if fld n 0 12 = 0#12 then some (.barWait (fld n 18 4) (fld n 12 6)) else none
  | 3 => if fld n 4 8 = 0#8 then some (.barSync (fld n 18 4) (fld n 12 6) (fld n 0 4)) else none
  | 4 => if fld n 0 12 = 0#12 then some (.barGen (fld n 18 4) (fld n 12 6)) else none
  | 5 => if fld n 0 18 = 0#18 then some (.barObs (fld n 18 4)) else none
  | 6 => if fld n 0 18 = 0#18 then some (.barDrop (fld n 18 4)) else none
  | 8 => if fld n 0 16 = 0#16 then some (.cjoin (fld n 16 6)) else none
  | 9 => if fld n 0 16 = 0#16 then some (.cleave (fld n 16 6)) else none
  | 10 => if fld n 0 16 = 0#16 then some (.cmask (fld n 16 6)) else none
  | 11 => if fld n 0 16 = 0#16 then some (.crank (fld n 16 6)) else none
  | _ => none

/-- Major 0x15. -/
def decFloat (n : Nat) : Option Instr :=
  match (fld n 4 3).toNat with
  | 0 => some (.vfadd (fld n 20 6) (fld n 14 6) (fld n 8 6) (fld n 7 1) (fld n 0 4))
  | 1 => some (.vfsub (fld n 20 6) (fld n 14 6) (fld n 8 6) (fld n 7 1) (fld n 0 4))
  | 2 => some (.vfmul (fld n 20 6) (fld n 14 6) (fld n 8 6) (fld n 7 1) (fld n 0 4))
  | 3 => some (.vfdiv (fld n 20 6) (fld n 14 6) (fld n 8 6) (fld n 7 1) (fld n 0 4))
  | 4 => some (.vfmin (fld n 20 6) (fld n 14 6) (fld n 8 6) (fld n 7 1) (fld n 0 4))
  | 5 => some (.vfmax (fld n 20 6) (fld n 14 6) (fld n 8 6) (fld n 7 1) (fld n 0 4))
  | 6 => if fld n 8 6 = 0#6 then some (.vfabs (fld n 20 6) (fld n 14 6) (fld n 7 1) (fld n 0 4)) else none
  | 7 => if fld n 8 6 = 0#6 then some (.vfneg (fld n 20 6) (fld n 14 6) (fld n 7 1) (fld n 0 4)) else none
  | _ => none

/-- Major 0x16. -/
def decFused (n : Nat) : Option Instr :=
  match (fld n 4 3).toNat with
  | 0 => some (.vffma (fld n 20 6) (fld n 14 6) (fld n 8 6) (fld n 7 1) (fld n 0 4))
  | 1 => some (.vffms (fld n 20 6) (fld n 14 6) (fld n 8 6) (fld n 7 1) (fld n 0 4))
  | 2 => some (.vfnma (fld n 20 6) (fld n 14 6) (fld n 8 6) (fld n 7 1) (fld n 0 4))
  | 3 => some (.vfnms (fld n 20 6) (fld n 14 6) (fld n 8 6) (fld n 7 1) (fld n 0 4))
  | _ => none

/-- Major 0x17. -/
def decSpecial (n : Nat) : Option Instr :=
  match (fld n 4 4).toNat with
  | 0 => if fld n 8 6 = 0#6 then some (.vfsqrt (fld n 20 6) (fld n 14 6) (fld n 0 4)) else none
  | 1 => if fld n 8 6 = 0#6 then some (.vfrcp (fld n 20 6) (fld n 14 6) (fld n 0 4)) else none
  | 2 => if fld n 8 6 = 0#6 then some (.vfrsq (fld n 20 6) (fld n 14 6) (fld n 0 4)) else none
  | 3 => if fld n 8 6 = 0#6 then some (.vfexp (fld n 20 6) (fld n 14 6) (fld n 0 4)) else none
  | 4 => if fld n 8 6 = 0#6 then some (.vflog2 (fld n 20 6) (fld n 14 6) (fld n 0 4)) else none
  | _ => none

/-- Major 0x18. -/
def decFloatCompare (n : Nat) : Option Instr :=
  match (fld n 4 4).toNat with
  | 0 => some (.vfcmpEq (fld n 20 6) (fld n 14 6) (fld n 8 6) (fld n 0 4))
  | 1 => some (.vfcmpNe (fld n 20 6) (fld n 14 6) (fld n 8 6) (fld n 0 4))
  | 2 => some (.vfcmpLt (fld n 20 6) (fld n 14 6) (fld n 8 6) (fld n 0 4))
  | 3 => some (.vfcmpLe (fld n 20 6) (fld n 14 6) (fld n 8 6) (fld n 0 4))
  | 4 => some (.vfcmpGt (fld n 20 6) (fld n 14 6) (fld n 8 6) (fld n 0 4))
  | 5 => some (.vfcmpGe (fld n 20 6) (fld n 14 6) (fld n 8 6) (fld n 0 4))
  | 6 => some (.vfcmpUn (fld n 20 6) (fld n 14 6) (fld n 8 6) (fld n 0 4))
  | 7 => some (.vfcmpOrd (fld n 20 6) (fld n 14 6) (fld n 8 6) (fld n 0 4))
  | _ => none

/-- Major 0x19. -/
def decRange (n : Nat) : Option Instr :=
  match (fld n 4 4).toNat with
  | 0 => if fld n 8 6 = 0#6 then some (.vfrintNe (fld n 20 6) (fld n 14 6) (fld n 0 4)) else none
  | 1 => if fld n 8 6 = 0#6 then some (.vfrintZ (fld n 20 6) (fld n 14 6) (fld n 0 4)) else none
  | 2 => if fld n 8 6 = 0#6 then some (.vfrintDn (fld n 20 6) (fld n 14 6) (fld n 0 4)) else none
  | 3 => if fld n 8 6 = 0#6 then some (.vfrintUp (fld n 20 6) (fld n 14 6) (fld n 0 4)) else none
  | 4 => some (.vfscale (fld n 20 6) (fld n 14 6) (fld n 8 6) (fld n 0 4))
  | 5 => if fld n 8 6 = 0#6 then some (.vfrint (fld n 20 6) (fld n 14 6) (fld n 0 4)) else none
  | _ => none

/-- Major 0x1A. -/
def decConvert (n : Nat) : Option Instr :=
  match (fld n 4 4).toNat with
  | 0 => if fld n 10 4 = 0#4 then some (.vcvtSF32 (fld n 20 6) (fld n 14 6) (fld n 8 2) (fld n 0 4)) else none
  | 1 => if fld n 10 4 = 0#4 then some (.vcvtZF32 (fld n 20 6) (fld n 14 6) (fld n 8 2) (fld n 0 4)) else none
  | 2 => if fld n 10 4 = 0#4 then some (.vcvtF32S (fld n 20 6) (fld n 14 6) (fld n 8 2) (fld n 0 4)) else none
  | 3 => if fld n 10 4 = 0#4 then some (.vcvtF32Z (fld n 20 6) (fld n 14 6) (fld n 8 2) (fld n 0 4)) else none
  | 4 => if fld n 10 4 = 0#4 then some (.vcvtNfF32 (fld n 20 6) (fld n 14 6) (fld n 8 2) (fld n 0 4)) else none
  | 5 => if fld n 10 4 = 0#4 then some (.vcvtF32Nf (fld n 20 6) (fld n 14 6) (fld n 8 2) (fld n 0 4)) else none
  | _ => none

/-- Major 0x1B. -/
def decInteger (n : Nat) : Option Instr :=
  match (fld n 4 4).toNat with
  | 0 => some (.vadd (fld n 20 6) (fld n 14 6) (fld n 8 6) (fld n 0 4))
  | 1 => some (.vsub (fld n 20 6) (fld n 14 6) (fld n 8 6) (fld n 0 4))
  | 2 => some (.vmul (fld n 20 6) (fld n 14 6) (fld n 8 6) (fld n 0 4))
  | 3 => some (.vmulhS32 (fld n 20 6) (fld n 14 6) (fld n 8 6) (fld n 0 4))
  | 4 => some (.vmulhZ32 (fld n 20 6) (fld n 14 6) (fld n 8 6) (fld n 0 4))
  | 5 => some (.vand (fld n 20 6) (fld n 14 6) (fld n 8 6) (fld n 0 4))
  | 6 => some (.vor (fld n 20 6) (fld n 14 6) (fld n 8 6) (fld n 0 4))
  | 7 => some (.vxor (fld n 20 6) (fld n 14 6) (fld n 8 6) (fld n 0 4))
  | 8 => some (.vsll (fld n 20 6) (fld n 14 6) (fld n 8 6) (fld n 0 4))
  | 9 => some (.vsrl (fld n 20 6) (fld n 14 6) (fld n 8 6) (fld n 0 4))
  | 10 => some (.vsra (fld n 20 6) (fld n 14 6) (fld n 8 6) (fld n 0 4))
  | 11 => some (.vminS32 (fld n 20 6) (fld n 14 6) (fld n 8 6) (fld n 0 4))
  | 12 => some (.vmaxS32 (fld n 20 6) (fld n 14 6) (fld n 8 6) (fld n 0 4))
  | 13 => some (.vminZ32 (fld n 20 6) (fld n 14 6) (fld n 8 6) (fld n 0 4))
  | 14 => some (.vmaxZ32 (fld n 20 6) (fld n 14 6) (fld n 8 6) (fld n 0 4))
  | 15 => some (.vaddsatS32 (fld n 20 6) (fld n 14 6) (fld n 8 6) (fld n 0 4))
  | _ => none

/-- Major 0x1C. -/
def decIntegerCompare (n : Nat) : Option Instr :=
  match (fld n 4 4).toNat with
  | 0 => some (.vcmpEqZ32 (fld n 20 6) (fld n 14 6) (fld n 8 6) (fld n 0 4))
  | 1 => some (.vcmpNeZ32 (fld n 20 6) (fld n 14 6) (fld n 8 6) (fld n 0 4))
  | 2 => some (.vcmpLtS32 (fld n 20 6) (fld n 14 6) (fld n 8 6) (fld n 0 4))
  | 3 => some (.vcmpLeS32 (fld n 20 6) (fld n 14 6) (fld n 8 6) (fld n 0 4))
  | 4 => some (.vcmpGtS32 (fld n 20 6) (fld n 14 6) (fld n 8 6) (fld n 0 4))
  | 5 => some (.vcmpGeS32 (fld n 20 6) (fld n 14 6) (fld n 8 6) (fld n 0 4))
  | 6 => some (.vcmpLtZ32 (fld n 20 6) (fld n 14 6) (fld n 8 6) (fld n 0 4))
  | 7 => some (.vcmpLeZ32 (fld n 20 6) (fld n 14 6) (fld n 8 6) (fld n 0 4))
  | 8 => some (.vcmpGtZ32 (fld n 20 6) (fld n 14 6) (fld n 8 6) (fld n 0 4))
  | 9 => some (.vcmpGeZ32 (fld n 20 6) (fld n 14 6) (fld n 8 6) (fld n 0 4))
  | 10 => some (.vtest (fld n 20 6) (fld n 14 6) (fld n 8 6) (fld n 0 4))
  | _ => none

/-- Major 0x1D. -/
def decWithScalar (n : Nat) : Option Instr :=
  match (fld n 4 4).toNat with
  | 0 => some (.vaddScalar (fld n 20 6) (fld n 14 6) (fld n 8 6) (fld n 0 4))
  | 1 => some (.vsubScalar (fld n 20 6) (fld n 14 6) (fld n 8 6) (fld n 0 4))
  | 2 => some (.vmulScalar (fld n 20 6) (fld n 14 6) (fld n 8 6) (fld n 0 4))
  | 3 => some (.vandScalar (fld n 20 6) (fld n 14 6) (fld n 8 6) (fld n 0 4))
  | 4 => some (.vorScalar (fld n 20 6) (fld n 14 6) (fld n 8 6) (fld n 0 4))
  | 5 => some (.vxorScalar (fld n 20 6) (fld n 14 6) (fld n 8 6) (fld n 0 4))
  | 6 => some (.vsllScalar (fld n 20 6) (fld n 14 6) (fld n 8 6) (fld n 0 4))
  | 7 => some (.vsrlScalar (fld n 20 6) (fld n 14 6) (fld n 8 6) (fld n 0 4))
  | 8 => some (.vsraScalar (fld n 20 6) (fld n 14 6) (fld n 8 6) (fld n 0 4))
  | 9 => some (.vfaddScalar (fld n 20 6) (fld n 14 6) (fld n 8 6) (fld n 0 4))
  | 10 => some (.vfmulScalar (fld n 20 6) (fld n 14 6) (fld n 8 6) (fld n 0 4))
  | 11 => some (.vffmaScalar (fld n 20 6) (fld n 14 6) (fld n 8 6) (fld n 0 4))
  | 12 => if fld n 14 6 = 0#6 then some (.vmovScalar (fld n 20 6) (fld n 8 6) (fld n 0 4)) else none
  | 13 => some (.vcmpEqScalar (fld n 20 6) (fld n 14 6) (fld n 8 6) (fld n 0 4))
  | 14 => some (.vcmpLtS32Scalar (fld n 20 6) (fld n 14 6) (fld n 8 6) (fld n 0 4))
  | 15 => some (.vcmpLtZ32Scalar (fld n 20 6) (fld n 14 6) (fld n 8 6) (fld n 0 4))
  | _ => none

/-- Major 0x20. -/
def decLane (n : Nat) : Option Instr :=
  match (fld n 4 4).toNat with
  | 0 => some (.vperm (fld n 20 6) (fld n 14 6) (fld n 8 6) (fld n 0 4))
  | 1 => if fld n 8 6 = 0#6 then some (.vscanZ32 (fld n 20 6) (fld n 14 6) (fld n 0 4)) else none
  | 2 => if fld n 8 6 = 0#6 then some (.vscanF32 (fld n 20 6) (fld n 14 6) (fld n 0 4)) else none
  | 3 => if fld n 8 6 = 0#6 then some (.vscanxZ32 (fld n 20 6) (fld n 14 6) (fld n 0 4)) else none
  | 4 => if fld n 8 6 = 0#6 then some (.vredZ32 (fld n 20 6) (fld n 14 6) (fld n 0 4)) else none
  | 5 => if fld n 8 6 = 0#6 then some (.vredF32 (fld n 20 6) (fld n 14 6) (fld n 0 4)) else none
  | 6 => if fld n 8 6 = 0#6 then some (.vsgn (fld n 20 6) (fld n 14 6) (fld n 0 4)) else none
  | 7 => if fld n 0 4 = 0#4 then some (.vget (fld n 20 6) (fld n 14 6) (fld n 8 6)) else none
  | 8 => some (.vins (fld n 20 6) (fld n 14 6) (fld n 8 6) (fld n 0 4))
  | 9 => if fld n 8 12 = 0#12 then some (.vlane (fld n 20 6) (fld n 0 4)) else none
  | 10 => if fld n 8 6 = 0#6 then some (.vpopc (fld n 20 6) (fld n 14 6) (fld n 0 4)) else none
  | 11 => if fld n 8 6 = 0#6 then some (.vclz (fld n 20 6) (fld n 14 6) (fld n 0 4)) else none
  | _ => none

/-- Major 0x21. -/
def decPredicate (n : Nat) : Option Instr :=
  match (fld n 22 4).toNat with
  | 0 => if fld n 0 13 = 0#13 then some (.pand (fld n 19 3) (fld n 16 3) (fld n 13 3)) else none
  | 1 => if fld n 0 13 = 0#13 then some (.por (fld n 19 3) (fld n 16 3) (fld n 13 3)) else none
  | 2 => if fld n 0 13 = 0#13 then some (.pxor (fld n 19 3) (fld n 16 3) (fld n 13 3)) else none
  | 3 => if fld n 0 13 = 0#13 then some (.pandn (fld n 19 3) (fld n 16 3) (fld n 13 3)) else none
  | 4 => if fld n 0 16 = 0#16 then some (.pnot (fld n 19 3) (fld n 16 3)) else none
  | 5 => if fld n 13 6 = 0#6 ∧ fld n 0 7 = 0#7 then some (.pmov (fld n 19 3) (fld n 7 6)) else none
  | 6 => if fld n 19 3 = 0#3 ∧ fld n 13 3 = 0#3 ∧ fld n 0 7 = 0#7 then some (.prd (fld n 16 3) (fld n 7 6)) else none
  | 7 => if fld n 13 9 = 0#9 ∧ fld n 0 7 = 0#7 then some (.pact (fld n 7 6)) else none
  | 8 => if fld n 19 3 = 0#3 ∧ fld n 13 3 = 0#3 ∧ fld n 0 7 = 0#7 then some (.pcnt (fld n 16 3) (fld n 7 6)) else none
  | 9 => if fld n 19 3 = 0#3 ∧ fld n 13 3 = 0#3 ∧ fld n 0 7 = 0#7 then some (.pfirst (fld n 16 3) (fld n 7 6)) else none
  | _ => none

/-- Major 0x22. -/
def decSelect (n : Nat) : Option Instr :=
  match (fld n 7 1).toNat with
  | 0 => some (.vsel (fld n 20 6) (fld n 14 6) (fld n 8 6) (fld n 4 3) (fld n 0 4))
  | _ =>
    match (fld n 4 3).toNat with
    | 0 => if fld n 8 6 = 0#6 then some (.vconf (fld n 20 6) (fld n 14 6) (fld n 0 4)) else none
    | 1 => some (.vkaddZ32 (fld n 20 6) (fld n 14 6) (fld n 8 6) (fld n 0 4))
    | 2 => some (.vkaddF32 (fld n 20 6) (fld n 14 6) (fld n 8 6) (fld n 0 4))
    | 3 => some (.rebal (fld n 20 6) (fld n 14 6) (fld n 8 6) (fld n 0 4))
    | _ => none

/-- Major 0x26. -/
def decVectorAtomic (n : Nat) : Option Instr :=
  match (fld n 4 4).toNat with
  | 0 => some (.vatswap (fld n 20 6) (fld n 14 6) (fld n 9 5) (fld n 8 1) (fld n 0 4))
  | 1 => some (.vatcas (fld n 20 6) (fld n 14 6) (fld n 9 5) (fld n 8 1) (fld n 0 4))
  | 2 => some (.vatadd (fld n 20 6) (fld n 14 6) (fld n 9 5) (fld n 8 1) (fld n 0 4))
  | 3 => some (.vatand (fld n 20 6) (fld n 14 6) (fld n 9 5) (fld n 8 1) (fld n 0 4))
  | 4 => some (.vator (fld n 20 6) (fld n 14 6) (fld n 9 5) (fld n 8 1) (fld n 0 4))
  | 5 => some (.vatxor (fld n 20 6) (fld n 14 6) (fld n 9 5) (fld n 8 1) (fld n 0 4))
  | 6 => some (.vatsmin (fld n 20 6) (fld n 14 6) (fld n 9 5) (fld n 8 1) (fld n 0 4))
  | 7 => some (.vatsmax (fld n 20 6) (fld n 14 6) (fld n 9 5) (fld n 8 1) (fld n 0 4))
  | 8 => some (.vatumin (fld n 20 6) (fld n 14 6) (fld n 9 5) (fld n 8 1) (fld n 0 4))
  | 9 => some (.vatumax (fld n 20 6) (fld n 14 6) (fld n 9 5) (fld n 8 1) (fld n 0 4))
  | 10 => if fld n 8 1 = 0#1 then some (.vatfadd (fld n 20 6) (fld n 14 6) (fld n 9 5) (fld n 0 4)) else none
  | 11 => some (.vatfxadd (fld n 20 6) (fld n 14 6) (fld n 9 5) (fld n 8 1) (fld n 0 4))
  | 12 => if fld n 8 1 = 0#1 then some (.vatfxaddS32 (fld n 20 6) (fld n 14 6) (fld n 9 5) (fld n 0 4)) else none
  | 13 => if fld n 8 1 = 0#1 then some (.vatfxaddF16 (fld n 20 6) (fld n 14 6) (fld n 9 5) (fld n 0 4)) else none
  | 14 => if fld n 8 1 = 0#1 then some (.vatfxaddBf16 (fld n 20 6) (fld n 14 6) (fld n 9 5) (fld n 0 4)) else none
  | _ => none

/-- Major 0x27. -/
def decScalarAtomic (n : Nat) : Option Instr :=
  match (fld n 4 4).toNat with
  | 0 => if fld n 8 6 = 0#6 ∧ fld n 0 3 = 0#3 then some (.atswap (fld n 20 6) (fld n 14 6) (fld n 3 1)) else none
  | 1 => if fld n 0 3 = 0#3 then some (.atcas (fld n 20 6) (fld n 14 6) (fld n 8 6) (fld n 3 1)) else none
  | 2 => if fld n 8 6 = 0#6 ∧ fld n 0 3 = 0#3 then some (.atadd (fld n 20 6) (fld n 14 6) (fld n 3 1)) else none
  | 3 => if fld n 8 6 = 0#6 ∧ fld n 0 3 = 0#3 then some (.atand (fld n 20 6) (fld n 14 6) (fld n 3 1)) else none
  | 4 => if fld n 8 6 = 0#6 ∧ fld n 0 3 = 0#3 then some (.ator (fld n 20 6) (fld n 14 6) (fld n 3 1)) else none
  | 5 => if fld n 8 6 = 0#6 ∧ fld n 0 3 = 0#3 then some (.atxor (fld n 20 6) (fld n 14 6) (fld n 3 1)) else none
  | 6 => if fld n 8 6 = 0#6 ∧ fld n 0 3 = 0#3 then some (.atsmin (fld n 20 6) (fld n 14 6) (fld n 3 1)) else none
  | 7 => if fld n 8 6 = 0#6 ∧ fld n 0 3 = 0#3 then some (.atsmax (fld n 20 6) (fld n 14 6) (fld n 3 1)) else none
  | 8 => if fld n 8 6 = 0#6 ∧ fld n 0 3 = 0#3 then some (.atumin (fld n 20 6) (fld n 14 6) (fld n 3 1)) else none
  | 9 => if fld n 8 6 = 0#6 ∧ fld n 0 3 = 0#3 then some (.atumax (fld n 20 6) (fld n 14 6) (fld n 3 1)) else none
  | 10 => if fld n 8 6 = 0#6 ∧ fld n 0 4 = 0#4 then some (.atfadd (fld n 20 6) (fld n 14 6)) else none
  | 11 => if fld n 8 6 = 0#6 ∧ fld n 0 3 = 0#3 then some (.atfxadd (fld n 20 6) (fld n 14 6) (fld n 3 1)) else none
  | 12 => if fld n 8 6 = 0#6 ∧ fld n 0 4 = 0#4 then some (.atfxaddS32 (fld n 20 6) (fld n 14 6)) else none
  | 13 => if fld n 8 6 = 0#6 ∧ fld n 0 4 = 0#4 then some (.atfxaddF16 (fld n 20 6) (fld n 14 6)) else none
  | 14 => if fld n 8 6 = 0#6 ∧ fld n 0 4 = 0#4 then some (.atfxaddBf16 (fld n 20 6) (fld n 14 6)) else none
  | _ => none

/-- Major 0x28. -/
def decOrder (n : Nat) : Option Instr :=
  match (fld n 22 4).toNat with
  | 0 => if fld n 10 12 = 0#12 ∧ fld n 0 7 = 0#7 then some (.fenceAcq (fld n 7 3)) else none
  | 1 => if fld n 10 12 = 0#12 ∧ fld n 0 7 = 0#7 then some (.fenceRel (fld n 7 3)) else none
  | 2 => if fld n 10 12 = 0#12 ∧ fld n 0 7 = 0#7 then some (.fenceFull (fld n 7 3)) else none
  | 3 => if fld n 16 6 = 0#6 ∧ fld n 0 10 = 0#10 then some (.fenceSv (fld n 10 6)) else none
  | 4 => if fld n 0 16 = 0#16 then some (.fenceRemote (fld n 16 6)) else none
  | 5 => if fld n 7 15 = 0#15 ∧ fld n 0 2 = 0#2 then some (.qfence (fld n 2 5)) else none
  | 6 => if fld n 0 10 = 0#10 then some (.sealPages (fld n 16 6) (fld n 10 6)) else none
  | 7 => if fld n 0 10 = 0#10 then some (.unsealPages (fld n 16 6) (fld n 10 6)) else none
  | 8 => if fld n 16 6 = 0#6 ∧ fld n 0 10 = 0#10 then some (.drysync (fld n 10 6)) else none
  | _ => none

/-- Major 0x29. -/
def decPrefetch (n : Nat) : Option High :=
  match (fld n 22 4).toNat with
  | 0 => if fld n 0 4 = 0#4 then some (.pf (fld n 16 6) (fld n 4 12)) else none
  | 1 => if fld n 4 6 = 0#6 then some (.vpf (fld n 16 6) (fld n 10 6) (fld n 0 4)) else none
  | 2 => if fld n 4 8 = 0#8 then some (.fpush (fld n 18 4) (fld n 12 6) (fld n 0 4)) else none
  | 3 => if fld n 4 8 = 0#8 then some (.fpop (fld n 18 4) (fld n 12 6) (fld n 0 4)) else none
  | _ => none

/-- Major 0x2A. -/
def decCopy (n : Nat) : Option High :=
  match (fld n 22 4).toNat with
  | 0 => if fld n 0 3 = 0#3 then some (.copy (fld n 16 6) (fld n 14 2) (fld n 13 1) (fld n 9 4) (fld n 8 1) (fld n 4 4) (fld n 3 1)) else none
  | 1 => if fld n 0 3 = 0#3 then some (.copyAcc (fld n 16 6) (fld n 14 2) (fld n 13 1) (fld n 9 4) (fld n 8 1) (fld n 4 4) (fld n 3 1)) else none
  | 2 => if fld n 0 3 = 0#3 then some (.copyChk (fld n 16 6) (fld n 14 2) (fld n 13 1) (fld n 9 4) (fld n 8 1) (fld n 4 4) (fld n 3 1)) else none
  | 3 => if fld n 0 4 = 0#4 then some (.copyMc (fld n 16 6) (fld n 14 2) (fld n 13 1) (fld n 9 4) (fld n 8 1) (fld n 4 4)) else none
  | _ => none

/-- Major 0x2B. -/
def decMatrix (n : Nat) : Option High :=
  match (fld n 22 4).toNat with
  | 0 => some (.mma (fld n 20 2) (fld n 19 1) (fld n 13 6) (fld n 12 1) (fld n 6 6) (fld n 0 6))
  | 1 => some (.mmaP (fld n 20 2) (fld n 19 1) (fld n 13 6) (fld n 12 1) (fld n 6 6) (fld n 0 6))
  | 2 => if fld n 0 20 = 0#20 then some (.mzero (fld n 20 2)) else none
  | 3 => if fld n 6 6 = 0#6 then some (.mdrain (fld n 20 2) (fld n 18 2) (fld n 12 6) (fld n 0 6)) else none
  | 4 => some (.mdrainT (fld n 20 2) (fld n 18 2) (fld n 12 6) (fld n 6 6) (fld n 0 6))
  | 5 =>
    match (fld n 21 1).toNat with
    | 0 => if fld n 0 21 = 0#21 then some (.mtake) else none
    | _ => if fld n 0 21 = 0#21 then some (.mtakeF) else none
  | 6 => if fld n 0 22 = 0#22 then some (.mgive) else none
  | 7 => if fld n 0 7 = 0#7 then some (.zld (fld n 18 4) (fld n 14 4) (fld n 13 1) (fld n 7 6)) else none
  | 8 => if fld n 0 7 = 0#7 then some (.zst (fld n 18 4) (fld n 14 4) (fld n 13 1) (fld n 7 6)) else none
  | _ => none

/-- Major 0x2C. -/
def decRetrieval (n : Nat) : Option High :=
  match (fld n 22 4).toNat with
  | 0 => if fld n 0 13 = 0#13 then some (.rfam (fld n 19 3) (fld n 13 6)) else none
  | 1 => if fld n 0 1 = 0#1 then some (.rprobe (fld n 19 3) (fld n 13 6) (fld n 7 6) (fld n 1 6)) else none
  | 2 => if fld n 4 3 = 0#3 then some (.rins (fld n 19 3) (fld n 13 6) (fld n 7 6) (fld n 0 4)) else none
  | 3 => if fld n 4 3 = 0#3 then some (.rdel (fld n 19 3) (fld n 13 6) (fld n 7 6) (fld n 0 4)) else none
  | 4 => if fld n 4 4 = 0#4 then some (.rmove (fld n 19 3) (fld n 13 6) (fld n 8 5) (fld n 0 4)) else none
  | 5 => if fld n 10 1 = 0#1 ∧ fld n 0 5 = 0#5 then some (.rgath (fld n 16 6) (fld n 11 5) (fld n 5 5)) else none
  | 6 => if fld n 0 4 = 0#4 then some (.rstat (fld n 19 3) (fld n 13 6) (fld n 7 6) (fld n 4 3)) else none
  | _ => none

/-- Major 0x2D. -/
def decTrigger (n : Nat) : Option High :=
  match (fld n 22 4).toNat with
  | 0 => if fld n 0 10 = 0#10 then some (.watch (fld n 16 6) (fld n 10 6)) else none
  | 1 => if fld n 0 10 = 0#10 then some (.unwatch (fld n 16 6) (fld n 10 6)) else none
  | 2 => if fld n 4 6 = 0#6 then some (.wstat (fld n 16 6) (fld n 10 6) (fld n 0 4)) else none
  | 3 => if fld n 0 4 = 0#4 then some (.qpost (fld n 16 6) (fld n 10 6) (fld n 4 6)) else none
  | 4 => if fld n 16 1 = 0#1 ∧ fld n 0 10 = 0#10 then some (.claim (fld n 17 5) (fld n 10 6)) else none
  | 5 => if fld n 16 6 = 0#6 ∧ fld n 0 6 = 0#6 then some (.rinit (fld n 10 6) (fld n 6 4)) else none
  | _ => none

/-- Major 0x2E. -/
def decSystem (n : Nat) : Option High :=
  match (fld n 22 4).toNat with
  | 0 => if fld n 0 4 = 0#4 then some (.sysrd (fld n 16 6) (fld n 4 12)) else none
  | 1 => if fld n 0 4 = 0#4 then some (.syswr (fld n 16 6) (fld n 4 12)) else none
  | 2 =>
    match (fld n 21 1).toNat with
    | 0 => if fld n 0 21 = 0#21 then some (.tretR) else none
    | _ => if fld n 0 21 = 0#21 then some (.tretS) else none
  | 3 => if fld n 0 4 = 0#4 then some (.lease (fld n 16 6) (fld n 10 6) (fld n 4 6)) else none
  | 4 => if fld n 0 10 = 0#10 then some (.unlease (fld n 16 6) (fld n 10 6)) else none
  | 5 => if fld n 0 10 = 0#10 then some (.tlbinv (fld n 16 6) (fld n 10 6)) else none
  | 6 => if fld n 0 10 = 0#10 then some (.ctxkill (fld n 16 6) (fld n 10 6)) else none
  | 7 => if fld n 0 22 = 0#22 then some (.halt) else none
  | 8 => if fld n 0 16 = 0#16 then some (.wfe (fld n 16 6)) else none
  | 9 => if fld n 0 10 = 0#10 then some (.signal (fld n 16 6) (fld n 10 6)) else none
  | 10 => if fld n 0 10 = 0#10 then some (.preempt (fld n 16 6) (fld n 10 6)) else none
  | 11 => if fld n 0 4 = 0#4 then some (.rbld (fld n 16 6) (fld n 10 6) (fld n 4 6)) else none
  | _ => none

/-- Major 0x3F. -/
def decHint (n : Nat) : Option High :=
  match (fld n 22 4).toNat with
  | 0 => some (.hintImm (fld n 0 22))
  | 1 => if fld n 3 19 = 0#19 then some (.hintOrd (fld n 0 3)) else none
  | 2 => if fld n 3 19 = 0#19 then some (.hintScope (fld n 0 3)) else none
  | 3 => if fld n 3 19 = 0#19 then some (.hintCache (fld n 0 3)) else none
  | 4 => if fld n 2 20 = 0#20 then some (.hintSched (fld n 0 2)) else none
  | 5 => if fld n 0 16 = 0#16 then some (.hintBnd (fld n 16 6)) else none
  | _ => none

/-- The instruction whose fields the word n holds, for the majors below 0x29 (R29), before the rules of `WellFormed`. -/
def decodeLow (n : Nat) : Option Instr :=
  match (fld n 26 6).toNat with
  | 1 => decAlu n
  | 2 => some (.addi (fld n 20 6) (fld n 14 6) (fld n 0 14))
  | 3 => some (.andi (fld n 20 6) (fld n 14 6) (fld n 0 14))
  | 4 => some (.ori (fld n 20 6) (fld n 14 6) (fld n 0 14))
  | 5 => some (.xori (fld n 20 6) (fld n 14 6) (fld n 0 14))
  | 6 => some (.slti (fld n 20 6) (fld n 14 6) (fld n 0 14))
  | 7 => some (.sltiz (fld n 20 6) (fld n 14 6) (fld n 0 14))
  | 8 => decShift n
  | 9 => some (.lui (fld n 20 6) (fld n 0 20))
  | 10 => some (.addpc (fld n 20 6) (fld n 0 20))
  | 11 => some (.addcb (fld n 20 6) (fld n 0 20))
  | 12 => some (.ld (fld n 20 6) (fld n 14 6) (fld n 12 2) (fld n 11 1) (fld n 0 11))
  | 13 => if fld n 11 1 = 0#1 then some (.st (fld n 20 6) (fld n 14 6) (fld n 12 2) (fld n 0 11)) else none
  | 14 => decBranchScalar n
  | 15 => decBranchPred n
  | 16 => some (.braD (fld n 22 4) (fld n 11 11) (fld n 0 11))
  | 17 => some (.jmp (fld n 0 26))
  | 18 => some (.call (fld n 0 26))
  | 19 => decControl n
  | 20 => decCrew n
  | 21 => decFloat n
  | 22 => decFused n
  | 23 => decSpecial n
  | 24 => decFloatCompare n
  | 25 => decRange n
  | 26 => decConvert n
  | 27 => decInteger n
  | 28 => decIntegerCompare n
  | 29 => decWithScalar n
  | 30 => some (.vaddImm (fld n 20 6) (fld n 14 6) (fld n 4 10) (fld n 0 4))
  | 31 => if fld n 14 6 = 0#6 then some (.vli (fld n 20 6) (fld n 4 10) (fld n 0 4)) else none
  | 32 => decLane n
  | 33 => decPredicate n
  | 34 => decSelect n
  | 36 => some (.vld (fld n 20 6) (fld n 14 6) (fld n 8 6) (fld n 6 2) (fld n 4 2) (fld n 0 4))
  | 37 => some (.vst (fld n 20 6) (fld n 14 6) (fld n 8 6) (fld n 6 2) (fld n 4 2) (fld n 0 4))
  | 38 => decVectorAtomic n
  | 39 => decScalarAtomic n
  | 40 => decOrder n
  | _ => none

/-- The same for the majors from 0x29. -/
def decodeHigh (n : Nat) : Option High :=
  match (fld n 26 6).toNat with
  | 41 => decPrefetch n
  | 42 => decCopy n
  | 43 => decMatrix n
  | 44 => decRetrieval n
  | 45 => decTrigger n
  | 46 => decSystem n
  | 63 => decHint n
  | _ => none

/-- The instruction whose fields the word n holds, by its major opcode (R29), before the rules of `WellFormed`. -/
noncomputable def decodeRow (n : Nat) : Option Instr :=
  match decodeHigh n with
  | some h => some h.toInstr
  | none => decodeLow n

/-- The word of an instruction, from its encoding in the reference; 0, an illegal word, for an event. -/
def encodeNat (i : Instr) : Nat :=
  match i with
  | .add d a b => snoc (snoc (snoc (snoc (snoc 0 1#6) d) a) b) 0#8
  | .sub d a b => snoc (snoc (snoc (snoc (snoc 0 1#6) d) a) b) 1#8
  | .and d a b => snoc (snoc (snoc (snoc (snoc 0 1#6) d) a) b) 2#8
  | .or d a b => snoc (snoc (snoc (snoc (snoc 0 1#6) d) a) b) 3#8
  | .xor d a b => snoc (snoc (snoc (snoc (snoc 0 1#6) d) a) b) 4#8
  | .andn d a b => snoc (snoc (snoc (snoc (snoc 0 1#6) d) a) b) 5#8
  | .sll d a b => snoc (snoc (snoc (snoc (snoc 0 1#6) d) a) b) 6#8
  | .srl d a b => snoc (snoc (snoc (snoc (snoc 0 1#6) d) a) b) 7#8
  | .sra d a b => snoc (snoc (snoc (snoc (snoc 0 1#6) d) a) b) 8#8
  | .rol d a b => snoc (snoc (snoc (snoc (snoc 0 1#6) d) a) b) 9#8
  | .ror d a b => snoc (snoc (snoc (snoc (snoc 0 1#6) d) a) b) 10#8
  | .slt d a b => snoc (snoc (snoc (snoc (snoc 0 1#6) d) a) b) 11#8
  | .sltz d a b => snoc (snoc (snoc (snoc (snoc 0 1#6) d) a) b) 12#8
  | .seq d a b => snoc (snoc (snoc (snoc (snoc 0 1#6) d) a) b) 13#8
  | .minS d a b => snoc (snoc (snoc (snoc (snoc 0 1#6) d) a) b) 14#8
  | .maxS d a b => snoc (snoc (snoc (snoc (snoc 0 1#6) d) a) b) 15#8
  | .minZ d a b => snoc (snoc (snoc (snoc (snoc 0 1#6) d) a) b) 16#8
  | .maxZ d a b => snoc (snoc (snoc (snoc (snoc 0 1#6) d) a) b) 17#8
  | .mul d a b => snoc (snoc (snoc (snoc (snoc 0 1#6) d) a) b) 18#8
  | .mulhS d a b => snoc (snoc (snoc (snoc (snoc 0 1#6) d) a) b) 19#8
  | .mulhZ d a b => snoc (snoc (snoc (snoc (snoc 0 1#6) d) a) b) 20#8
  | .divS d a b => snoc (snoc (snoc (snoc (snoc 0 1#6) d) a) b) 21#8
  | .divZ d a b => snoc (snoc (snoc (snoc (snoc 0 1#6) d) a) b) 22#8
  | .remS d a b => snoc (snoc (snoc (snoc (snoc 0 1#6) d) a) b) 23#8
  | .remZ d a b => snoc (snoc (snoc (snoc (snoc 0 1#6) d) a) b) 24#8
  | .clz d a => snoc (snoc (snoc (snoc (snoc 0 1#6) d) a) 0#6) 25#8
  | .ctz d a => snoc (snoc (snoc (snoc (snoc 0 1#6) d) a) 0#6) 26#8
  | .popc d a => snoc (snoc (snoc (snoc (snoc 0 1#6) d) a) 0#6) 27#8
  | .brev d a => snoc (snoc (snoc (snoc (snoc 0 1#6) d) a) 0#6) 28#8
  | .bswap d a => snoc (snoc (snoc (snoc (snoc 0 1#6) d) a) 0#6) 29#8
  | .sextS8 d a => snoc (snoc (snoc (snoc (snoc 0 1#6) d) a) 0#6) 30#8
  | .sextS16 d a => snoc (snoc (snoc (snoc (snoc 0 1#6) d) a) 0#6) 31#8
  | .sextS32 d a => snoc (snoc (snoc (snoc (snoc 0 1#6) d) a) 0#6) 32#8
  | .zextZ32 d a => snoc (snoc (snoc (snoc (snoc 0 1#6) d) a) 0#6) 33#8
  | .addW d a b => snoc (snoc (snoc (snoc (snoc 0 1#6) d) a) b) 34#8
  | .subW d a b => snoc (snoc (snoc (snoc (snoc 0 1#6) d) a) b) 35#8
  | .mulW d a b => snoc (snoc (snoc (snoc (snoc 0 1#6) d) a) b) 36#8
  | .addi d a i => snoc (snoc (snoc (snoc 0 2#6) d) a) i
  | .andi d a i => snoc (snoc (snoc (snoc 0 3#6) d) a) i
  | .ori d a i => snoc (snoc (snoc (snoc 0 4#6) d) a) i
  | .xori d a i => snoc (snoc (snoc (snoc 0 5#6) d) a) i
  | .slti d a i => snoc (snoc (snoc (snoc 0 6#6) d) a) i
  | .sltiz d a i => snoc (snoc (snoc (snoc 0 7#6) d) a) i
  | .slli d a h => snoc (snoc (snoc (snoc (snoc (snoc 0 8#6) d) a) 0#3) 0#5) h
  | .srli d a h => snoc (snoc (snoc (snoc (snoc (snoc 0 8#6) d) a) 2#3) 0#5) h
  | .srai d a h => snoc (snoc (snoc (snoc (snoc (snoc 0 8#6) d) a) 4#3) 0#5) h
  | .rori d a h => snoc (snoc (snoc (snoc (snoc (snoc 0 8#6) d) a) 6#3) 0#5) h
  | .slliW d a h => snoc (snoc (snoc (snoc (snoc (snoc 0 8#6) d) a) 1#3) 0#6) h
  | .srliW d a h => snoc (snoc (snoc (snoc (snoc (snoc 0 8#6) d) a) 3#3) 0#6) h
  | .sraiW d a h => snoc (snoc (snoc (snoc (snoc (snoc 0 8#6) d) a) 5#3) 0#6) h
  | .roriW d a h => snoc (snoc (snoc (snoc (snoc (snoc 0 8#6) d) a) 7#3) 0#6) h
  | .lui d i => snoc (snoc (snoc 0 9#6) d) i
  | .addpc d i => snoc (snoc (snoc 0 10#6) d) i
  | .addcb d i => snoc (snoc (snoc 0 11#6) d) i
  | .ld d a z x o => snoc (snoc (snoc (snoc (snoc (snoc 0 12#6) d) a) z) x) o
  | .st d a z o => snoc (snoc (snoc (snoc (snoc (snoc 0 13#6) d) a) z) 0#1) o
  | .beqz r o => snoc (snoc (snoc (snoc 0 14#6) 0#4) r) o
  | .bnez r o => snoc (snoc (snoc (snoc 0 14#6) 1#4) r) o
  | .bltz r o => snoc (snoc (snoc (snoc 0 14#6) 2#4) r) o
  | .bgez r o => snoc (snoc (snoc (snoc 0 14#6) 3#4) r) o
  | .bgtz r o => snoc (snoc (snoc (snoc 0 14#6) 4#4) r) o
  | .blez r o => snoc (snoc (snoc (snoc 0 14#6) 5#4) r) o
  | .bany p o => snoc (snoc (snoc (snoc (snoc 0 15#6) 0#4) 0#3) p) o
  | .ball p o => snoc (snoc (snoc (snoc (snoc 0 15#6) 1#4) 0#3) p) o
  | .bnone p o => snoc (snoc (snoc (snoc (snoc 0 15#6) 2#4) 0#3) p) o
  | .bnall p o => snoc (snoc (snoc (snoc (snoc 0 15#6) 3#4) 0#3) p) o
  | .braD g t j => snoc (snoc (snoc (snoc 0 16#6) g) t) j
  | .jmp o => snoc (snoc 0 17#6) o
  | .call o => snoc (snoc 0 18#6) o
  | .nop => snoc (snoc (snoc 0 19#6) 0#4) 0#22
  | .jr a => snoc (snoc (snoc (snoc (snoc (snoc 0 19#6) 1#4) a) 0#6) 0#1) 0#9
  | .jrL a d => snoc (snoc (snoc (snoc (snoc (snoc 0 19#6) 1#4) a) d) 1#1) 0#9
  | .ret => snoc (snoc (snoc 0 19#6) 2#4) 0#22
  | .exit g => snoc (snoc (snoc (snoc 0 19#6) 3#4) 0#18) g
  | .trap c g => snoc (snoc (snoc (snoc (snoc 0 19#6) 4#4) 0#6) c) g
  | .brk c => snoc (snoc (snoc (snoc (snoc 0 19#6) 5#4) 0#6) c) 0#4
  | .yield => snoc (snoc (snoc 0 19#6) 6#4) 0#22
  | .setfmt a => snoc (snoc (snoc (snoc 0 19#6) 7#4) a) 0#16
  | .getfmt d => snoc (snoc (snoc (snoc (snoc 0 19#6) 8#4) 0#6) d) 0#10
  | .safept o => snoc (snoc (snoc (snoc 0 19#6) 9#4) o) 0#4
  | .barInit n a b => snoc (snoc (snoc (snoc (snoc (snoc 0 20#6) 0#4) n) a) b) 0#6
  | .barArrive n d g => snoc (snoc (snoc (snoc (snoc (snoc 0 20#6) 1#4) n) d) 0#8) g
  | .barWait n a => snoc (snoc (snoc (snoc (snoc 0 20#6) 2#4) n) a) 0#12
  | .barSync n d g => snoc (snoc (snoc (snoc (snoc (snoc 0 20#6) 3#4) n) d) 0#8) g
  | .barGen n d => snoc (snoc (snoc (snoc (snoc 0 20#6) 4#4) n) d) 0#12
  | .barObs n => snoc (snoc (snoc (snoc 0 20#6) 5#4) n) 0#18
  | .barDrop n => snoc (snoc (snoc (snoc 0 20#6) 6#4) n) 0#18
  | .cjoin a => snoc (snoc (snoc (snoc 0 20#6) 8#4) a) 0#16
  | .cleave d => snoc (snoc (snoc (snoc 0 20#6) 9#4) d) 0#16
  | .cmask d => snoc (snoc (snoc (snoc 0 20#6) 10#4) d) 0#16
  | .crank d => snoc (snoc (snoc (snoc 0 20#6) 11#4) d) 0#16
  | .vfadd d a b p g => snoc (snoc (snoc (snoc (snoc (snoc (snoc 0 21#6) d) a) b) p) 0#3) g
  | .vfsub d a b p g => snoc (snoc (snoc (snoc (snoc (snoc (snoc 0 21#6) d) a) b) p) 1#3) g
  | .vfmul d a b p g => snoc (snoc (snoc (snoc (snoc (snoc (snoc 0 21#6) d) a) b) p) 2#3) g
  | .vfdiv d a b p g => snoc (snoc (snoc (snoc (snoc (snoc (snoc 0 21#6) d) a) b) p) 3#3) g
  | .vfmin d a b p g => snoc (snoc (snoc (snoc (snoc (snoc (snoc 0 21#6) d) a) b) p) 4#3) g
  | .vfmax d a b p g => snoc (snoc (snoc (snoc (snoc (snoc (snoc 0 21#6) d) a) b) p) 5#3) g
  | .vfabs d a p g => snoc (snoc (snoc (snoc (snoc (snoc (snoc 0 21#6) d) a) 0#6) p) 6#3) g
  | .vfneg d a p g => snoc (snoc (snoc (snoc (snoc (snoc (snoc 0 21#6) d) a) 0#6) p) 7#3) g
  | .vffma d a b p g => snoc (snoc (snoc (snoc (snoc (snoc (snoc 0 22#6) d) a) b) p) 0#3) g
  | .vffms d a b p g => snoc (snoc (snoc (snoc (snoc (snoc (snoc 0 22#6) d) a) b) p) 1#3) g
  | .vfnma d a b p g => snoc (snoc (snoc (snoc (snoc (snoc (snoc 0 22#6) d) a) b) p) 2#3) g
  | .vfnms d a b p g => snoc (snoc (snoc (snoc (snoc (snoc (snoc 0 22#6) d) a) b) p) 3#3) g
  | .vfsqrt d a g => snoc (snoc (snoc (snoc (snoc (snoc 0 23#6) d) a) 0#6) 0#4) g
  | .vfrcp d a g => snoc (snoc (snoc (snoc (snoc (snoc 0 23#6) d) a) 0#6) 1#4) g
  | .vfrsq d a g => snoc (snoc (snoc (snoc (snoc (snoc 0 23#6) d) a) 0#6) 2#4) g
  | .vfexp d a g => snoc (snoc (snoc (snoc (snoc (snoc 0 23#6) d) a) 0#6) 3#4) g
  | .vflog2 d a g => snoc (snoc (snoc (snoc (snoc (snoc 0 23#6) d) a) 0#6) 4#4) g
  | .vfcmpEq d a b g => snoc (snoc (snoc (snoc (snoc (snoc 0 24#6) d) a) b) 0#4) g
  | .vfcmpNe d a b g => snoc (snoc (snoc (snoc (snoc (snoc 0 24#6) d) a) b) 1#4) g
  | .vfcmpLt d a b g => snoc (snoc (snoc (snoc (snoc (snoc 0 24#6) d) a) b) 2#4) g
  | .vfcmpLe d a b g => snoc (snoc (snoc (snoc (snoc (snoc 0 24#6) d) a) b) 3#4) g
  | .vfcmpGt d a b g => snoc (snoc (snoc (snoc (snoc (snoc 0 24#6) d) a) b) 4#4) g
  | .vfcmpGe d a b g => snoc (snoc (snoc (snoc (snoc (snoc 0 24#6) d) a) b) 5#4) g
  | .vfcmpUn d a b g => snoc (snoc (snoc (snoc (snoc (snoc 0 24#6) d) a) b) 6#4) g
  | .vfcmpOrd d a b g => snoc (snoc (snoc (snoc (snoc (snoc 0 24#6) d) a) b) 7#4) g
  | .vfrintNe d a g => snoc (snoc (snoc (snoc (snoc (snoc 0 25#6) d) a) 0#6) 0#4) g
  | .vfrintZ d a g => snoc (snoc (snoc (snoc (snoc (snoc 0 25#6) d) a) 0#6) 1#4) g
  | .vfrintDn d a g => snoc (snoc (snoc (snoc (snoc (snoc 0 25#6) d) a) 0#6) 2#4) g
  | .vfrintUp d a g => snoc (snoc (snoc (snoc (snoc (snoc 0 25#6) d) a) 0#6) 3#4) g
  | .vfscale d a b g => snoc (snoc (snoc (snoc (snoc (snoc 0 25#6) d) a) b) 4#4) g
  | .vfrint d a g => snoc (snoc (snoc (snoc (snoc (snoc 0 25#6) d) a) 0#6) 5#4) g
  | .vcvtSF32 d a c g => snoc (snoc (snoc (snoc (snoc (snoc (snoc 0 26#6) d) a) 0#4) c) 0#4) g
  | .vcvtZF32 d a c g => snoc (snoc (snoc (snoc (snoc (snoc (snoc 0 26#6) d) a) 0#4) c) 1#4) g
  | .vcvtF32S d a c g => snoc (snoc (snoc (snoc (snoc (snoc (snoc 0 26#6) d) a) 0#4) c) 2#4) g
  | .vcvtF32Z d a c g => snoc (snoc (snoc (snoc (snoc (snoc (snoc 0 26#6) d) a) 0#4) c) 3#4) g
  | .vcvtNfF32 d a k g => snoc (snoc (snoc (snoc (snoc (snoc (snoc 0 26#6) d) a) 0#4) k) 4#4) g
  | .vcvtF32Nf d a k g => snoc (snoc (snoc (snoc (snoc (snoc (snoc 0 26#6) d) a) 0#4) k) 5#4) g
  | .vadd d a b g => snoc (snoc (snoc (snoc (snoc (snoc 0 27#6) d) a) b) 0#4) g
  | .vsub d a b g => snoc (snoc (snoc (snoc (snoc (snoc 0 27#6) d) a) b) 1#4) g
  | .vmul d a b g => snoc (snoc (snoc (snoc (snoc (snoc 0 27#6) d) a) b) 2#4) g
  | .vmulhS32 d a b g => snoc (snoc (snoc (snoc (snoc (snoc 0 27#6) d) a) b) 3#4) g
  | .vmulhZ32 d a b g => snoc (snoc (snoc (snoc (snoc (snoc 0 27#6) d) a) b) 4#4) g
  | .vand d a b g => snoc (snoc (snoc (snoc (snoc (snoc 0 27#6) d) a) b) 5#4) g
  | .vor d a b g => snoc (snoc (snoc (snoc (snoc (snoc 0 27#6) d) a) b) 6#4) g
  | .vxor d a b g => snoc (snoc (snoc (snoc (snoc (snoc 0 27#6) d) a) b) 7#4) g
  | .vsll d a b g => snoc (snoc (snoc (snoc (snoc (snoc 0 27#6) d) a) b) 8#4) g
  | .vsrl d a b g => snoc (snoc (snoc (snoc (snoc (snoc 0 27#6) d) a) b) 9#4) g
  | .vsra d a b g => snoc (snoc (snoc (snoc (snoc (snoc 0 27#6) d) a) b) 10#4) g
  | .vminS32 d a b g => snoc (snoc (snoc (snoc (snoc (snoc 0 27#6) d) a) b) 11#4) g
  | .vmaxS32 d a b g => snoc (snoc (snoc (snoc (snoc (snoc 0 27#6) d) a) b) 12#4) g
  | .vminZ32 d a b g => snoc (snoc (snoc (snoc (snoc (snoc 0 27#6) d) a) b) 13#4) g
  | .vmaxZ32 d a b g => snoc (snoc (snoc (snoc (snoc (snoc 0 27#6) d) a) b) 14#4) g
  | .vaddsatS32 d a b g => snoc (snoc (snoc (snoc (snoc (snoc 0 27#6) d) a) b) 15#4) g
  | .vcmpEqZ32 d a b g => snoc (snoc (snoc (snoc (snoc (snoc 0 28#6) d) a) b) 0#4) g
  | .vcmpNeZ32 d a b g => snoc (snoc (snoc (snoc (snoc (snoc 0 28#6) d) a) b) 1#4) g
  | .vcmpLtS32 d a b g => snoc (snoc (snoc (snoc (snoc (snoc 0 28#6) d) a) b) 2#4) g
  | .vcmpLeS32 d a b g => snoc (snoc (snoc (snoc (snoc (snoc 0 28#6) d) a) b) 3#4) g
  | .vcmpGtS32 d a b g => snoc (snoc (snoc (snoc (snoc (snoc 0 28#6) d) a) b) 4#4) g
  | .vcmpGeS32 d a b g => snoc (snoc (snoc (snoc (snoc (snoc 0 28#6) d) a) b) 5#4) g
  | .vcmpLtZ32 d a b g => snoc (snoc (snoc (snoc (snoc (snoc 0 28#6) d) a) b) 6#4) g
  | .vcmpLeZ32 d a b g => snoc (snoc (snoc (snoc (snoc (snoc 0 28#6) d) a) b) 7#4) g
  | .vcmpGtZ32 d a b g => snoc (snoc (snoc (snoc (snoc (snoc 0 28#6) d) a) b) 8#4) g
  | .vcmpGeZ32 d a b g => snoc (snoc (snoc (snoc (snoc (snoc 0 28#6) d) a) b) 9#4) g
  | .vtest d a b g => snoc (snoc (snoc (snoc (snoc (snoc 0 28#6) d) a) b) 10#4) g
  | .vaddScalar d a s g => snoc (snoc (snoc (snoc (snoc (snoc 0 29#6) d) a) s) 0#4) g
  | .vsubScalar d a s g => snoc (snoc (snoc (snoc (snoc (snoc 0 29#6) d) a) s) 1#4) g
  | .vmulScalar d a s g => snoc (snoc (snoc (snoc (snoc (snoc 0 29#6) d) a) s) 2#4) g
  | .vandScalar d a s g => snoc (snoc (snoc (snoc (snoc (snoc 0 29#6) d) a) s) 3#4) g
  | .vorScalar d a s g => snoc (snoc (snoc (snoc (snoc (snoc 0 29#6) d) a) s) 4#4) g
  | .vxorScalar d a s g => snoc (snoc (snoc (snoc (snoc (snoc 0 29#6) d) a) s) 5#4) g
  | .vsllScalar d a s g => snoc (snoc (snoc (snoc (snoc (snoc 0 29#6) d) a) s) 6#4) g
  | .vsrlScalar d a s g => snoc (snoc (snoc (snoc (snoc (snoc 0 29#6) d) a) s) 7#4) g
  | .vsraScalar d a s g => snoc (snoc (snoc (snoc (snoc (snoc 0 29#6) d) a) s) 8#4) g
  | .vfaddScalar d a s g => snoc (snoc (snoc (snoc (snoc (snoc 0 29#6) d) a) s) 9#4) g
  | .vfmulScalar d a s g => snoc (snoc (snoc (snoc (snoc (snoc 0 29#6) d) a) s) 10#4) g
  | .vffmaScalar d a s g => snoc (snoc (snoc (snoc (snoc (snoc 0 29#6) d) a) s) 11#4) g
  | .vmovScalar d s g => snoc (snoc (snoc (snoc (snoc (snoc 0 29#6) d) 0#6) s) 12#4) g
  | .vcmpEqScalar d a s g => snoc (snoc (snoc (snoc (snoc (snoc 0 29#6) d) a) s) 13#4) g
  | .vcmpLtS32Scalar d a s g => snoc (snoc (snoc (snoc (snoc (snoc 0 29#6) d) a) s) 14#4) g
  | .vcmpLtZ32Scalar d a s g => snoc (snoc (snoc (snoc (snoc (snoc 0 29#6) d) a) s) 15#4) g
  | .vaddImm d a i g => snoc (snoc (snoc (snoc (snoc 0 30#6) d) a) i) g
  | .vli d i g => snoc (snoc (snoc (snoc (snoc 0 31#6) d) 0#6) i) g
  | .vperm d a b g => snoc (snoc (snoc (snoc (snoc (snoc 0 32#6) d) a) b) 0#4) g
  | .vscanZ32 d a g => snoc (snoc (snoc (snoc (snoc (snoc 0 32#6) d) a) 0#6) 1#4) g
  | .vscanF32 d a g => snoc (snoc (snoc (snoc (snoc (snoc 0 32#6) d) a) 0#6) 2#4) g
  | .vscanxZ32 d a g => snoc (snoc (snoc (snoc (snoc (snoc 0 32#6) d) a) 0#6) 3#4) g
  | .vredZ32 d a g => snoc (snoc (snoc (snoc (snoc (snoc 0 32#6) d) a) 0#6) 4#4) g
  | .vredF32 d a g => snoc (snoc (snoc (snoc (snoc (snoc 0 32#6) d) a) 0#6) 5#4) g
  | .vsgn d a g => snoc (snoc (snoc (snoc (snoc (snoc 0 32#6) d) a) 0#6) 6#4) g
  | .vget d a b => snoc (snoc (snoc (snoc (snoc (snoc 0 32#6) d) a) b) 7#4) 0#4
  | .vins d a b g => snoc (snoc (snoc (snoc (snoc (snoc 0 32#6) d) a) b) 8#4) g
  | .vlane d g => snoc (snoc (snoc (snoc (snoc 0 32#6) d) 0#12) 9#4) g
  | .vpopc d a g => snoc (snoc (snoc (snoc (snoc (snoc 0 32#6) d) a) 0#6) 10#4) g
  | .vclz d a g => snoc (snoc (snoc (snoc (snoc (snoc 0 32#6) d) a) 0#6) 11#4) g
  | .pand d a b => snoc (snoc (snoc (snoc (snoc (snoc 0 33#6) 0#4) d) a) b) 0#13
  | .por d a b => snoc (snoc (snoc (snoc (snoc (snoc 0 33#6) 1#4) d) a) b) 0#13
  | .pxor d a b => snoc (snoc (snoc (snoc (snoc (snoc 0 33#6) 2#4) d) a) b) 0#13
  | .pandn d a b => snoc (snoc (snoc (snoc (snoc (snoc 0 33#6) 3#4) d) a) b) 0#13
  | .pnot d a => snoc (snoc (snoc (snoc (snoc 0 33#6) 4#4) d) a) 0#16
  | .pmov d s => snoc (snoc (snoc (snoc (snoc (snoc 0 33#6) 5#4) d) 0#6) s) 0#7
  | .prd a s => snoc (snoc (snoc (snoc (snoc (snoc (snoc 0 33#6) 6#4) 0#3) a) 0#3) s) 0#7
  | .pact s => snoc (snoc (snoc (snoc (snoc 0 33#6) 7#4) 0#9) s) 0#7
  | .pcnt a s => snoc (snoc (snoc (snoc (snoc (snoc (snoc 0 33#6) 8#4) 0#3) a) 0#3) s) 0#7
  | .pfirst a s => snoc (snoc (snoc (snoc (snoc (snoc (snoc 0 33#6) 9#4) 0#3) a) 0#3) s) 0#7
  | .vsel d a b k g => snoc (snoc (snoc (snoc (snoc (snoc (snoc 0 34#6) d) a) b) 0#1) k) g
  | .vconf d a g => snoc (snoc (snoc (snoc (snoc (snoc (snoc 0 34#6) d) a) 0#6) 1#1) 0#3) g
  | .vkaddZ32 d a b g => snoc (snoc (snoc (snoc (snoc (snoc (snoc 0 34#6) d) a) b) 1#1) 1#3) g
  | .vkaddF32 d a b g => snoc (snoc (snoc (snoc (snoc (snoc (snoc 0 34#6) d) a) b) 1#1) 2#3) g
  | .rebal d a b g => snoc (snoc (snoc (snoc (snoc (snoc (snoc 0 34#6) d) a) b) 1#1) 3#3) g
  | .vld d a b z m g => snoc (snoc (snoc (snoc (snoc (snoc (snoc 0 36#6) d) a) b) z) m) g
  | .vst d a b z m g => snoc (snoc (snoc (snoc (snoc (snoc (snoc 0 37#6) d) a) b) z) m) g
  | .vatswap d a b w g => snoc (snoc (snoc (snoc (snoc (snoc (snoc 0 38#6) d) a) b) w) 0#4) g
  | .vatcas d a b w g => snoc (snoc (snoc (snoc (snoc (snoc (snoc 0 38#6) d) a) b) w) 1#4) g
  | .vatadd d a b w g => snoc (snoc (snoc (snoc (snoc (snoc (snoc 0 38#6) d) a) b) w) 2#4) g
  | .vatand d a b w g => snoc (snoc (snoc (snoc (snoc (snoc (snoc 0 38#6) d) a) b) w) 3#4) g
  | .vator d a b w g => snoc (snoc (snoc (snoc (snoc (snoc (snoc 0 38#6) d) a) b) w) 4#4) g
  | .vatxor d a b w g => snoc (snoc (snoc (snoc (snoc (snoc (snoc 0 38#6) d) a) b) w) 5#4) g
  | .vatsmin d a b w g => snoc (snoc (snoc (snoc (snoc (snoc (snoc 0 38#6) d) a) b) w) 6#4) g
  | .vatsmax d a b w g => snoc (snoc (snoc (snoc (snoc (snoc (snoc 0 38#6) d) a) b) w) 7#4) g
  | .vatumin d a b w g => snoc (snoc (snoc (snoc (snoc (snoc (snoc 0 38#6) d) a) b) w) 8#4) g
  | .vatumax d a b w g => snoc (snoc (snoc (snoc (snoc (snoc (snoc 0 38#6) d) a) b) w) 9#4) g
  | .vatfadd d a b g => snoc (snoc (snoc (snoc (snoc (snoc (snoc 0 38#6) d) a) b) 0#1) 10#4) g
  | .vatfxadd d a b w g => snoc (snoc (snoc (snoc (snoc (snoc (snoc 0 38#6) d) a) b) w) 11#4) g
  | .vatfxaddS32 d a b g => snoc (snoc (snoc (snoc (snoc (snoc (snoc 0 38#6) d) a) b) 0#1) 12#4) g
  | .vatfxaddF16 d a b g => snoc (snoc (snoc (snoc (snoc (snoc (snoc 0 38#6) d) a) b) 0#1) 13#4) g
  | .vatfxaddBf16 d a b g => snoc (snoc (snoc (snoc (snoc (snoc (snoc 0 38#6) d) a) b) 0#1) 14#4) g
  | .atswap d a w => snoc (snoc (snoc (snoc (snoc (snoc (snoc 0 39#6) d) a) 0#6) 0#4) w) 0#3
  | .atcas d a b w => snoc (snoc (snoc (snoc (snoc (snoc (snoc 0 39#6) d) a) b) 1#4) w) 0#3
  | .atadd d a w => snoc (snoc (snoc (snoc (snoc (snoc (snoc 0 39#6) d) a) 0#6) 2#4) w) 0#3
  | .atand d a w => snoc (snoc (snoc (snoc (snoc (snoc (snoc 0 39#6) d) a) 0#6) 3#4) w) 0#3
  | .ator d a w => snoc (snoc (snoc (snoc (snoc (snoc (snoc 0 39#6) d) a) 0#6) 4#4) w) 0#3
  | .atxor d a w => snoc (snoc (snoc (snoc (snoc (snoc (snoc 0 39#6) d) a) 0#6) 5#4) w) 0#3
  | .atsmin d a w => snoc (snoc (snoc (snoc (snoc (snoc (snoc 0 39#6) d) a) 0#6) 6#4) w) 0#3
  | .atsmax d a w => snoc (snoc (snoc (snoc (snoc (snoc (snoc 0 39#6) d) a) 0#6) 7#4) w) 0#3
  | .atumin d a w => snoc (snoc (snoc (snoc (snoc (snoc (snoc 0 39#6) d) a) 0#6) 8#4) w) 0#3
  | .atumax d a w => snoc (snoc (snoc (snoc (snoc (snoc (snoc 0 39#6) d) a) 0#6) 9#4) w) 0#3
  | .atfadd d a => snoc (snoc (snoc (snoc (snoc (snoc 0 39#6) d) a) 0#6) 10#4) 0#4
  | .atfxadd d a w => snoc (snoc (snoc (snoc (snoc (snoc (snoc 0 39#6) d) a) 0#6) 11#4) w) 0#3
  | .atfxaddS32 d a => snoc (snoc (snoc (snoc (snoc (snoc 0 39#6) d) a) 0#6) 12#4) 0#4
  | .atfxaddF16 d a => snoc (snoc (snoc (snoc (snoc (snoc 0 39#6) d) a) 0#6) 13#4) 0#4
  | .atfxaddBf16 d a => snoc (snoc (snoc (snoc (snoc (snoc 0 39#6) d) a) 0#6) 14#4) 0#4
  | .fenceAcq s => snoc (snoc (snoc (snoc (snoc 0 40#6) 0#4) 0#12) s) 0#7
  | .fenceRel s => snoc (snoc (snoc (snoc (snoc 0 40#6) 1#4) 0#12) s) 0#7
  | .fenceFull s => snoc (snoc (snoc (snoc (snoc 0 40#6) 2#4) 0#12) s) 0#7
  | .fenceSv d => snoc (snoc (snoc (snoc (snoc 0 40#6) 3#4) 0#6) d) 0#10
  | .fenceRemote a => snoc (snoc (snoc (snoc 0 40#6) 4#4) a) 0#16
  | .qfence q => snoc (snoc (snoc (snoc (snoc 0 40#6) 5#4) 0#15) q) 0#2
  | .sealPages a b => snoc (snoc (snoc (snoc (snoc 0 40#6) 6#4) a) b) 0#10
  | .unsealPages a b => snoc (snoc (snoc (snoc (snoc 0 40#6) 7#4) a) b) 0#10
  | .drysync d => snoc (snoc (snoc (snoc (snoc 0 40#6) 8#4) 0#6) d) 0#10
  | .pf a o => snoc (snoc (snoc (snoc (snoc 0 41#6) 0#4) a) o) 0#4
  | .vpf a b g => snoc (snoc (snoc (snoc (snoc (snoc 0 41#6) 1#4) a) b) 0#6) g
  | .fpush f s g => snoc (snoc (snoc (snoc (snoc (snoc 0 41#6) 2#4) f) s) 0#8) g
  | .fpop f d g => snoc (snoc (snoc (snoc (snoc (snoc 0 41#6) 3#4) f) d) 0#8) g
  | .copy a q e d f s v => snoc (snoc (snoc (snoc (snoc (snoc (snoc (snoc (snoc (snoc 0 42#6) 0#4) a) q) e) d) f) s) v) 0#3
  | .copyAcc a q e d f s v => snoc (snoc (snoc (snoc (snoc (snoc (snoc (snoc (snoc (snoc 0 42#6) 1#4) a) q) e) d) f) s) v) 0#3
  | .copyChk a q e d f s v => snoc (snoc (snoc (snoc (snoc (snoc (snoc (snoc (snoc (snoc 0 42#6) 2#4) a) q) e) d) f) s) v) 0#3
  | .copyMc a q e d f s => snoc (snoc (snoc (snoc (snoc (snoc (snoc (snoc (snoc 0 42#6) 3#4) a) q) e) d) f) s) 0#4
  | .mma c s a t b x => snoc (snoc (snoc (snoc (snoc (snoc (snoc (snoc 0 43#6) 0#4) c) s) a) t) b) x
  | .mmaP c s a t b x => snoc (snoc (snoc (snoc (snoc (snoc (snoc (snoc 0 43#6) 1#4) c) s) a) t) b) x
  | .mzero c => snoc (snoc (snoc (snoc 0 43#6) 2#4) c) 0#20
  | .mdrain c k d x => snoc (snoc (snoc (snoc (snoc (snoc (snoc 0 43#6) 3#4) c) k) d) 0#6) x
  | .mdrainT c k d t x => snoc (snoc (snoc (snoc (snoc (snoc (snoc 0 43#6) 4#4) c) k) d) t) x
  | .mtake => snoc (snoc (snoc (snoc 0 43#6) 5#4) 0#1) 0#21
  | .mtakeF => snoc (snoc (snoc (snoc 0 43#6) 5#4) 1#1) 0#21
  | .mgive => snoc (snoc (snoc 0 43#6) 6#4) 0#22
  | .zld z n k s => snoc (snoc (snoc (snoc (snoc (snoc (snoc 0 43#6) 7#4) z) n) k) s) 0#7
  | .zst z n k s => snoc (snoc (snoc (snoc (snoc (snoc (snoc 0 43#6) 8#4) z) n) k) s) 0#7
  | .rfam h a => snoc (snoc (snoc (snoc (snoc 0 44#6) 0#4) h) a) 0#13
  | .rprobe h d k a => snoc (snoc (snoc (snoc (snoc (snoc (snoc 0 44#6) 1#4) h) d) k) a) 0#1
  | .rins h a k g => snoc (snoc (snoc (snoc (snoc (snoc (snoc 0 44#6) 2#4) h) a) k) 0#3) g
  | .rdel h a k g => snoc (snoc (snoc (snoc (snoc (snoc (snoc 0 44#6) 3#4) h) a) k) 0#3) g
  | .rmove h a k g => snoc (snoc (snoc (snoc (snoc (snoc (snoc 0 44#6) 4#4) h) a) k) 0#4) g
  | .rgath l s e => snoc (snoc (snoc (snoc (snoc (snoc (snoc 0 44#6) 5#4) l) s) 0#1) e) 0#5
  | .rstat h d a s => snoc (snoc (snoc (snoc (snoc (snoc (snoc 0 44#6) 6#4) h) d) a) s) 0#4
  | .watch d a => snoc (snoc (snoc (snoc (snoc 0 45#6) 0#4) d) a) 0#10
  | .unwatch d a => snoc (snoc (snoc (snoc (snoc 0 45#6) 1#4) d) a) 0#10
  | .wstat d a s => snoc (snoc (snoc (snoc (snoc (snoc 0 45#6) 2#4) d) a) 0#6) s
  | .qpost d a b => snoc (snoc (snoc (snoc (snoc (snoc 0 45#6) 3#4) d) a) b) 0#4
  | .claim d a => snoc (snoc (snoc (snoc (snoc (snoc 0 45#6) 4#4) d) 0#1) a) 0#10
  | .rinit a b => snoc (snoc (snoc (snoc (snoc (snoc 0 45#6) 5#4) 0#6) a) b) 0#6
  | .sysrd d n => snoc (snoc (snoc (snoc (snoc 0 46#6) 0#4) d) n) 0#4
  | .syswr a n => snoc (snoc (snoc (snoc (snoc 0 46#6) 1#4) a) n) 0#4
  | .tretR => snoc (snoc (snoc (snoc 0 46#6) 2#4) 0#1) 0#21
  | .tretS => snoc (snoc (snoc (snoc 0 46#6) 2#4) 1#1) 0#21
  | .lease d a b => snoc (snoc (snoc (snoc (snoc (snoc 0 46#6) 3#4) d) a) b) 0#4
  | .unlease a b => snoc (snoc (snoc (snoc (snoc 0 46#6) 4#4) a) b) 0#10
  | .tlbinv a b => snoc (snoc (snoc (snoc (snoc 0 46#6) 5#4) a) b) 0#10
  | .ctxkill d a => snoc (snoc (snoc (snoc (snoc 0 46#6) 6#4) d) a) 0#10
  | .halt => snoc (snoc (snoc 0 46#6) 7#4) 0#22
  | .wfe a => snoc (snoc (snoc (snoc 0 46#6) 8#4) a) 0#16
  | .signal a b => snoc (snoc (snoc (snoc (snoc 0 46#6) 9#4) a) b) 0#10
  | .preempt d a => snoc (snoc (snoc (snoc (snoc 0 46#6) 10#4) d) a) 0#10
  | .rbld d a b => snoc (snoc (snoc (snoc (snoc (snoc 0 46#6) 11#4) d) a) b) 0#4
  | .hintImm i => snoc (snoc (snoc 0 63#6) 0#4) i
  | .hintOrd o => snoc (snoc (snoc (snoc 0 63#6) 1#4) 0#19) o
  | .hintScope s => snoc (snoc (snoc (snoc 0 63#6) 2#4) 0#19) s
  | .hintCache c => snoc (snoc (snoc (snoc 0 63#6) 3#4) 0#19) c
  | .hintSched p => snoc (snoc (snoc (snoc 0 63#6) 4#4) 0#20) p
  | .hintBnd r => snoc (snoc (snoc (snoc 0 63#6) 5#4) r) 0#16
  | .joinArrival _ _ => 0
  | .reconvergenceRefill _ _ => 0
  | .yieldExpiry _ _ => 0
  | .tableWalk _ _ _ => 0
  | .loadComplete _ => 0
  | .wcbIdleDrain _ _ => 0
  | .sliceWriteCommit _ => 0
  | .sliceRead _ _ _ => 0
  | .watchCacheFill _ _ => 0
  | .spillRefill _ _ => 0
  | .nearSwap _ => 0
  | .nearCas _ => 0
  | .nearAdd _ => 0
  | .nearAnd _ => 0
  | .nearOr _ => 0
  | .nearXor _ => 0
  | .nearSmin _ => 0
  | .nearSmax _ => 0
  | .nearUmin _ => 0
  | .nearUmax _ => 0
  | .nearFadd _ => 0
  | .nearFxadd _ => 0
  | .nearClaim _ => 0
  | .nearRinit _ => 0
  | .insert _ => 0
  | .delete _ => 0
  | .bucketRead _ _ => 0
  | .delta _ => 0
  | .deltaAck _ _ => 0
  | .scrub _ => 0
  | .sweepPeriodExpiry _ => 0
  | .sliceStatusWrite _ => 0
  | .bankStatusWrite _ _ => 0
  | .bankRoleChange _ _ => 0
  | .bankReencode _ _ => 0
  | .padFill _ _ => 0
  | .padEvacuate _ _ => 0
  | .copySliceAssemble _ => 0
  | .collectiveStart _ _ => 0
  | .copyByteRead _ => 0
  | .copyByteLanded _ => 0
  | .trowelPass _ => 0
  | .mmaStart _ => 0
  | .mmaRetire _ => 0
  | .mdrainStart _ => 0
  | .mdrainRetire _ => 0
  | .leaseEstablish _ => 0
  | .faultRecordWrite => 0
  | .hubConsider _ => 0
  | .taskAging _ => 0
  | .coreReservation _ => 0
  | .hubSpillRefill _ => 0
  | .detectorScan _ => 0
  | .crewRestore _ => 0
  | .preemptSaveDone _ => 0
  | .forerunnerTimeout _ => 0
  | .skimVisit _ => 0
  | .skimScanDone _ _ => 0
  | .rebuildStripe _ _ => 0
  | .islctl _ _ => 0
  | .operatingPointChangeDone _ => 0
  | .powerStepDown => 0
  | .powerStepUp _ => 0
  | .thermalStep _ => 0
  | .thermalRecover _ => 0
  | .thermalTrip => 0
  | .wfeTimeout _ => 0
  | .hostWrite _ _ _ => 0
  | .hostRead _ _ _ => 0
  | .hostSnoop _ _ => 0
  | .hostAtomicCompletion _ _ => 0
  | .read _ => 0
  | .readData _ => 0
  | .write _ => 0
  | .writeAck _ => 0
  | .atomic _ => 0
  | .atomicData _ => 0
  | .leaseRecord _ => 0
  | .leaseReply _ _ => 0
  | .rebuildQuery _ => 0
  | .rebuildAnswer _ => 0
  | .drainToken _ => 0
  | .tokenReturn _ => 0
  | .groupExchange _ => 0
  | .heartbeat _ _ => 0
  | .reservedPacketKind _ _ => 0
  | .heartbeatTimer => 0
  | .flitRetransmit _ => 0
  | .portDown _ => 0
  | .peerLostTimeout _ => 0
  | .selfFenceTimeout => 0
  | .coldStart => 0
  | .warmStart => 0
  | .attreq _ => 0
  | .registerWrite _ _ => 0
  | .clusterTlbHit _ _ _ => 0
  | .mzeroRetire _ => 0
  | .tilePortRetire _ => 0
  | .hostWriteCompletion _ => 0
  | .cxlCacheOwnership _ _ => 0
  | .hostLinkTraining _ _ _ => 0
  | .bootWindowWrite _ _ => 0
  | .attestationReport _ => 0
  | .startStepComplete _ _ => 0
  | .powerLoss => 0

/-- The word of an instruction. -/
def encodeWord (i : Instr) : Word := BitVec.ofNat 32 (encodeNat i)

/-- The legal instruction a word holds (R30, R31), if any. -/
noncomputable def decodeWord (w : Word) : Option Instr :=
  match decodeRow w.toNat with
  | some i => if i.wellFormed then some i else none
  | none => none

/-- The little-endian word at the head of a list of bytes (R3, R25). -/
def wordOfBytes (b : List Byte) : Word :=
  BitVec.ofNat 32 (b.take 4 |>.foldr (fun x acc => x.toNat + 256 * acc) 0)

/-- The bytes of a word as memory holds them (R3). -/
def bytesOfWord (w : Word) : List Byte := [fld w.toNat 0 8, fld w.toNat 8 8, fld w.toNat 16 8, fld w.toNat 24 8]

/-- Decoding a byte list: one 32-bit word, and the rest (R25). -/
noncomputable def decode (b : List Byte) : Option (Instr × List Byte) :=
  if b.length < 4 then none else (decodeWord (wordOfBytes b)).map fun i => (i, b.drop 4)

/-- The instruction the decoder reads from the bits of a row of the opcode table: one little-endian word. -/
noncomputable def decodeTableWord (_nbits w : Nat) : Option Instr :=
  (decode (bytesOfWord (BitVec.ofNat 32 w))).map (·.1)

end Sys2Proof
end

