-- ==== Sys2Proof/Config.lean ====
section
/-! DEFINITION. What is fixed for the RNS-96M module (R5, R6, R10, R107, R115, R349) and the values that the
reference leaves open. -/

namespace Sys2Proof.Config

/-- Cores on the module; a control core n is held at core number `cores + n`. -/
def cores : Nat := 2304

/-- Clusters, and so control cores, on the module. -/
def clusters : Nat := 576

/-- Entries of a core TLB (R107). -/
def coreTlb : Nat := 256

/-- Entries of a cluster TLB (R107). -/
def clusterTlb : Nat := 4096

/-- Barrier slots of a core (R182). -/
def barrierSlots : Nat := 32

/-- Places of a cluster's transfer queue, and transfers that its datapath has in flight (R168). -/
def transfers : Nat := 64

/-- Entries of a trigger unit's pending table (R349). -/
def pendingTable : Nat := 64

/-- Page records the watch index holds (R345). -/
def watchIndex : Nat := 63488

/-- Entries of a lease unit's pinned-range table (R99). -/
def pinnedTable : Nat := 1024

/-- A byte that a copy reads where its source and destination overlap holds its value before the collective or a value
that the collective writes there (R174): how many times to take the latter is drawn here, by the model's own counter.
DESIGN CHOICE (safe), log entry 38. -/
opaque overlapHops : Nat → Nat

/-- Such a written value, where it comes from outside the module. DESIGN CHOICE (safe), log entry 38. -/
opaque overlapByte : Nat → BitVec 8

/-- SRAM errors that a sector's code does not correct and is not sure to detect (R143): whether they pass unseen. The
argument is drawn from the model's own counter. DESIGN CHOICE (safe), log entry 102. -/
opaque passesUnseen : Nat → Bool

/-- A byte of a sector whose errors passed unseen. DESIGN CHOICE (safe), log entry 102. -/
opaque strayByte : Nat → BitVec 8

/-- A check symbol of the code that protects 64 data bytes in DRAM (R139): of six, the one of a number. The reference names
the field and the lengths of the code, not its generator. DESIGN CHOICE (safe), log entry 102. -/
opaque checkSymbol : List (BitVec 8) → Nat → BitVec 8

/-- What the decoder makes of 72 bytes with errors in three or more pin groups (R140): nothing when it detects them, else
the 64 data bytes that it delivers. DESIGN CHOICE (safe), log entry 102. -/
opaque decodesTo : List (BitVec 8) → Option (List (BitVec 8))

/-- SHAKE256 with 64 bytes of output (R426), which the reference names and does not give. DESIGN CHOICE (safe), log entry 124. -/
opaque shake256 : List (BitVec 8) → List (BitVec 8)

/-- An ML-DSA-65 signature holds: of a public key, over a message (R426). The reference names the scheme and does not give it.
DESIGN CHOICE (safe), log entry 124. -/
opaque mlDsa65 : List (BitVec 8) → List (BitVec 8) → List (BitVec 8) → Bool

/-- The set of its slice's SRAM, of 2,048, that a line maps to (R115). The reference does not say which address bits
choose it. DESIGN CHOICE (safe), log entry 102. -/
opaque sliceSet : Nat → Fin 2048

/-- Place of the reply word that the lease unit names in the fault record of a sequence number (R100), in units of 8
bytes. -/
opaque replyWord : Nat → BitVec 48

end Sys2Proof.Config
end

