-- ==== Sys2Proof/Machine/State.lean ====
section
/-! DEFINITION. The state of one RNS-96M module as plain data: its memories, its gangs and crews, its engines, its
hubs, its link agent and ports, and its management registers. Each structure cites the rules that name what it holds.
Sparse arrays are lists of key and value pairs in one canonical form (`Store`). -/

namespace Sys2Proof.Machine

/-- A sparse array: keys strictly rising, no entry equal to what an unlisted key reads as. -/
abbrev Store (α : Type) := List (Nat × α)

/-- Why `exec` stops. Raised by no step of a run: `step` selects a live split before it executes. -/
inductive Fault where
  /-- An instruction was to be executed although `cur` names no live split of a gang (safe: the hardware has no such
  situation; only a state that no step reaches raises it). -/
  | noIssuer
  deriving DecidableEq, Repr

/-- Why `exec` has no meaning for a step. -/
inductive Refusal where
  /-- The instruction is not modelled; raised by the dispatch alone (safe). -/
  | notModelled (mnemonic : String)
  deriving DecidableEq, Repr

/-- The hint words a split has executed since the last instruction (R32 to R37). -/
structure Hints where
  /-- hint words so far -/
  words : Nat
  /-- address of the first word of the group -/
  first : DWord
  /-- hint.imm payloads in program order -/
  imms : List (BitVec 22)
  ord : Option Nat
  scope : Option Nat
  cache : Option Nat
  sched : Option Nat
  /-- hint.bnd: the scalar register that holds the limit -/
  bnd : Option Nat
  /-- that register and its poison mark as the bounded instruction found them when it first issued (R230) -/
  limit : Option (DWord × Bool)
  deriving DecidableEq, Repr

/-- What a blocked split waits for (R371). A split whose wait is over issues its word again.
DESIGN CHOICE (safe), log entry 71. -/
inductive Wait where
  /-- an unbound barrier name (R182) -/
  | name (b : Nat)
  /-- the generation of barrier b to move on from gen; the register bar.sync writes (R192) -/
  | gen (b gen : Nat) (dest : Option Nat)
  /-- a barrier slot of the core, for the object at an offset (R182) -/
  | slot (off : Nat)
  /-- nothing: the phase it waited for has completed (R185) -/
  | released
  /-- the trowel, by mtake, or by mtake.f when open (R281) -/
  | trowel (f : Bool)
  /-- the follower's open trowel, by mma.p (R282) -/
  | follower
  /-- the pending-copy slot (R170, R200) -/
  | copySlot
  | fifoPush (f : Nat)
  | fifoPop (f : Nat)
  /-- data of a load, atomic or gather from a peer module or the host -/
  | reply (tag : Nat)
  /-- acknowledgements of earlier stores and atomics to peers and the host, and earlier matrix and retrieval work
  (R329) -/
  | drain
  /-- earlier matrix and retrieval instructions of the gang (R290, R312) -/
  | matrix
  /-- survivability of earlier protected stores (R339) -/
  | survive
  /-- the skim passes a drysync counts (R344); the cores still to pass -/
  | skim (cores : List Nat) (failed : Bool)
  /-- the event flag or the deadline (R405) -/
  | event (deadline : Nat)
  /-- the accesses of a remote fence's victims, by tag (R332) -/
  | cut (tags : List Nat)
  /-- writes of a context to a range that is being sealed (R342) -/
  | quiet (ctx base len : Nat)
  /-- drain tokens (R398) -/
  | tokens (ctx : Nat)
  /-- crews that are being pre-empted (R405) -/
  | saved (crews : List Nat)
  /-- n free entries of a die's pinned-range table (R99) -/
  | pins (die n : Nat)
  /-- a third mma at the array (R275), or a ninth rprobe (R316) -/
  | unit
  /-- room for n line reads at the request collector of the core (R225) -/
  | lines (n : Nat)
  /-- a control core that no signal has started (R424) -/
  | start
  deriving DecidableEq, Repr

/-- A split of a gang (R202), with its own FMT (R71) and trap registers (R380). -/
structure Split where
  pc : DWord
  mask : Mask
  fmt : Word
  /-- the innermost reconvergence entry it belongs to -/
  top : Option Nat
  hints : Hints
  blocked : Option Wait
  /-- not ready for the rest of 32 clocks after yield (R214) -/
  yielded : Bool
  /-- demoted until it next issues (R35) -/
  demoted : Bool
  /-- instructions left in a run of holds (R35) -/
  held : Nat
  /-- stamp of its last issue (R367) -/
  stamp : Nat
  /-- its yield is over: it competes as the least recently issued split until it issues (R214) -/
  rested : Bool
  /-- clocks of its pipe that it has been ready without issuing (R367) -/
  age : Nat
  /-- lanes that tret.r performs again, while the retried group runs (R384) -/
  retry : Option Mask
  /-- the word fetched from a peer module or the host, with its address -/
  word : Option (DWord × Word)
  /-- TRAPCAUSE.HM: handler mode -/
  hm : Bool
  /-- TRAPCAUSE.GLEN: words of the faulting group minus one -/
  glen : Nat
  cause : BitVec 8
  trapPc : DWord
  trapLanes : Mask
  trapAddr : DWord
  deriving DecidableEq, Repr

/-- A reconvergence entry in use (R203). -/
structure RcEntry where
  idx : Nat
  /-- push stamp: entries of a gang in order of their pushes -/
  order : Nat
  join : DWord
  ppc : DWord
  mask : Mask
  arr : Mask
  pmask : Mask
  fmt : Word
  link : Option Nat
  pv : Bool
  /-- the split that pushed it, whose trap registers a parked path takes (R380) -/
  pusher : Split
  /-- spilled to the gang's area of the context save area -/
  spilled : Bool
  deriving DecidableEq, Repr

/-- An entry of a gang's write-combining buffer (R156): one line, with the bytes pending, keyed by domain physical
address. -/
structure WcbEntry where
  line : Nat
  cells : List (Nat × Byte)
  watched : Bool
  prot : Bool
  /-- hint.cache policy of its latest store (R35) -/
  policy : Nat
  deriving DecidableEq, Repr

/-- A gang's part of a collective copy or qfence (R169, R172), with what was captured at issue. -/
structure CopySlice where
  gang : Nat
  crew : Nat
  ctx : Nat
  /-- 0 copy, 1 copy.acc, 2 copy.chk, 3 copy.mc, 4 qfence -/
  op : Nat
  /-- the queues it enters -/
  queues : List Nat
  dbar : Option Nat
  sbar : Option Nat
  sv : Bool
  dst : Nat
  src : Nat
  rows : Nat
  dk : Nat
  sk : Nat
  code : Nat
  len : Nat
  dpitch : Nat
  spitch : Nat
  /-- TDEPTH at issue (R174) -/
  depth : Nat
  /-- its hint.cache policy at the slices (R35) -/
  policy : Nat
  /-- moves nothing (R172, R176) -/
  empty : Bool
  /-- copy.mc: destination crew and barrier object offset of each destination (R173) -/
  dests : List (Nat × Option Nat)
  /-- pad offsets of the objects whose INB and OUTB it has been added to (R183) -/
  dobj : Option Nat
  sobj : Option Nat
  /-- refused at issue, its gang told (R176) -/
  void : Bool
  /-- translations taken at issue: virtual base, size, domain physical base, leaf attributes -/
  xl : List (Nat × Nat × Nat × Nat)
  /-- the word and the image of sa to sa + 3, for the pending-copy slot of the gang block (R394) -/
  word : Word
  image : List DWord
  deriving DecidableEq, Repr

/-- A part of a lane's element: its lane, its first byte in the element, its address and length (R106, R218). -/
structure Part where
  lane : Nat
  first : Nat
  va : Nat
  len : Nat
  deriving DecidableEq, Repr

/-- A part with its domain physical address and leaf; `sealed`: a write to a sealed page (R342). -/
structure Located where
  part : Part
  phys : Nat
  leaf : Nat
  isSealed : Bool
  deriving DecidableEq, Repr

/-- A read of a peer's line in flight for a cluster (R154, R225): the grain and the seal mark of its page, the allocation
policy, and the sectors it names from its base on. -/
structure LineRead where
  cluster : Nat
  grain : Nat
  mark : Bool
  policy : Nat
  sectors : List Bool
  /-- the reply fills the L1: nothing has made it stale since it was asked for (R320 to R322) -/
  allocate : Bool
  deriving DecidableEq, Repr

/-- A reply awaited for part of a load or atomic; several parts may await one reply. -/
structure Await where
  tag : Nat
  lane : Nat
  /-- first byte of the element, and how many, that the reply supplies -/
  first : Nat
  count : Nat
  /-- bytes of the reply before them -/
  skip : Nat
  /-- domain physical address of the reply's first byte; of an atomic, the virtual address of its slot -/
  base : Nat
  /-- a read of a peer's line by a gang, held by the first part that awaits it -/
  line : Option LineRead
  deriving DecidableEq, Repr

/-- A line of a strongly ordered store that waits for the line before it to commit (R226). -/
structure StrongLine where
  /-- bytes by domain physical address -/
  cells : List (Nat × Byte)
  watched : Bool
  prot : Bool
  ord : Nat
  scope : Nat
  policy : Nat
  deriving DecidableEq, Repr

/-- A store or accumulation sent to a peer module and not acknowledged. -/
structure PeerStore where
  tag : Nat
  org : Origin
  dest : Nat
  prot : Bool
  /-- the cluster whose L1 its bytes pass (R155) -/
  cluster : Option Nat
  /-- bytes stored, by domain physical address -/
  cells : List (Nat × Byte)
  /-- an accumulation: the slot whose unit leaves that L1 (R155) -/
  slot : Option Nat
  deriving DecidableEq, Repr

/-- A gang's state for one barrier name (R182): lane arrival mask, its generation tag, observer bit. -/
structure Arrival where
  mask : Mask
  gen : Nat
  obs : Bool
  deriving DecidableEq, Repr

/-- A load, atomic or gather whose data comes from a peer module or the host. -/
structure PendLoad where
  tag : Nat
  gang : Nat
  split : Nat
  /-- destination: 0 scalar, or a pair for 16 bytes, 1 vector, 2 none, 3 gathered rows to a pad, 4 tile registers of the
  matrix job `reg`, 5 an instruction word, 6 the check of watch, 7 the descriptor of qpost for context `size`, 8 and 9 the
  header and the entries of the lease set of task `reg`, 10 and 11 those of a standing lease's for context `size`, 12 a
  live map, 13 and 14 none, of a vector's and of a scalar's accumulations whose answers are awaited, 15 the group at TRAPPC
  for tret.s, of which `size` bytes are read; of the device: 16 reconvergence entry `reg`, 17 the spilled descriptor of task `size`
  of die `reg`, 18 a slot of the log of context `reg`, 19 the areas of the saved crew `reg` -/
  kind : Nat
  reg : Nat
  size : Nat
  signed : Bool
  /-- lanes to write -/
  lanes : Mask
  /-- bytes gathered so far, by lane × 256 + byte -/
  got : Store Byte
  /-- lanes found poisoned -/
  poison : Mask
  await : List Await
  /-- per-lane faults found so far: lanes, cause, address -/
  faults : List (Nat × Nat × Nat)
  /-- acts as an acquire once performed: its scope -/
  acquire : Option Nat
  /-- rgath: pad base and pitch of its lines, bytes of a line, and lines (R304) -/
  lines : Nat × Nat × Nat × Nat
  /-- parts on strongly ordered pages that are performed once what is awaited has come (R226) -/
  rest : List Located
  /-- of an atomic: its operation, width and element, and its operands by lane -/
  near : Option (Nat × Bool × Nat)
  operands : List (Nat × Nat × Nat)
  /-- order and scope that its requests carry (R335) -/
  ord : Nat
  scope : Nat
  deriving DecidableEq, Repr

/-- A fault log record (R377) on its way to the log of a context; CLK is filled in as it is written. -/
structure LogRec where
  ctx : Nat
  cause : Nat
  kind : Nat
  aux : Nat
  who : Nat
  info : Nat
  crewv : Nat
  lanes : Nat
  pc : Nat
  addr : Nat
  deriving DecidableEq, Repr

/-- A gang: its registers (R39), its splits and reconvergence stack (R202, R203), its buffers and pending state. A
control core is held as a gang of its own core number. -/
structure Gang where
  id : Nat
  /-- CNUM (R196); 2304 + n for control core n -/
  core : Nat
  slot : Nat
  tidx : Nat
  ctx : Nat
  /-- value of its crew's CREW register (R196) -/
  crew : Nat
  /-- its task, which names its lease (R102) -/
  task : Nat
  nregs : Nat
  s : Store DWord
  /-- poison marks of s0 to s63 (R243) -/
  sPoison : DWord
  /-- lane l of register r at key 32 r + l -/
  v : Store Word
  /-- poison marks of the lanes of register r at key r (R243) -/
  vPoison : Store Mask
  /-- p1 to p7 -/
  p : Store Mask
  fst : Word
  /-- splits 0 to 3 -/
  splits : List (Option Split)
  rc : List RcEntry
  rcOrder : Nat
  wcb : List WcbEntry
  copySlot : Option CopySlice
  /-- by barrier name -/
  arrivals : Store Arrival
  tdepth : Nat
  /-- issue class (R364, R367) -/
  cls : Nat
  /-- stamp of its last acquire (R309) -/
  acquired : Nat
  /-- pending deferred causes 0x09, 0x13, 0x0A with their TRAPADDR (R353) -/
  d09 : Option DWord
  d13 : Option DWord
  d0a : Option DWord
  /-- parity deltas not yet acknowledged (R130) -/
  unacked : Nat
  /-- a protected store was lost since fence.sv last wrote (R339) -/
  lostStore : Bool
  /-- stores and atomics to peers and host not yet acknowledged (R329) -/
  pendingAcks : Nat
  /-- lines of strongly ordered stores still to be performed, in order (R226) -/
  strong : List StrongLine
  /-- the trowel to take back before the restored gang issues, with its OPEN bit (R291) -/
  retake : Option Bool
  /-- taken by a pre-emption in forerunner mode: the scalar, vector and predicate registers that live on (R215, R397) -/
  taken : Option (Nat × Nat × Nat)
  deriving DecidableEq, Repr

/-- State of a pad page (R159). -/
inductive PadState where
  | initial
  | backed
  | pinned
  | unpinned
  | evacuating
  deriving DecidableEq, Repr

/-- A frame of a cluster's pad-role banks that holds a page of a crew (R149, R159): its number, 32 to a bank, and the stamp
of the page's last use. -/
structure Frame where
  page : Nat
  frame : Nat
  used : Nat
  deriving DecidableEq, Repr

/-- What a checkpoint copies (R389): gangs and tiles at once, a pad page before the first write to it. -/
structure Shadow where
  gangs : List Gang
  /-- pad pages written since: their bytes before, and the poisoned pad addresses among them -/
  pages : List (Nat × List Byte × List Nat)
  acc : List (Store Acc)
  z : Store Byte
  zPoison : List Nat
  bind : Store Nat
  deriving DecidableEq, Repr

/-- A crew: what its gangs share (chapter 08, "What a gang holds and what a crew holds"). -/
structure Crew where
  /-- CREW value: CNUM, EPOCH, NUM (R196) -/
  val : Nat
  ctx : Nat
  core : Nat
  pads : Nat
  accs : Nat
  zregs : Nat
  /-- entry offset it was created for, which names its pad template (R50) -/
  entry : Nat
  pad : Store Byte
  /-- poisoned pad bytes (R386) -/
  padPoison : List Nat
  /-- by page; `initial` where unlisted -/
  padStates : Store PadState
  /-- dirty 128-byte parts of frames (R159) -/
  padDirty : List Nat
  /-- barrier name to pad offset (R182) -/
  bind : Store Nat
  /-- byte b of register z at key 8192 z + b -/
  z : Store Byte
  /-- poisoned 128-byte parts: 64 z + part (R289) -/
  zPoison : List Nat
  /-- acc0 to acc3: entry (i, j) at key 64 i + j -/
  acc : List (Store Acc)
  /-- place in the core's trowel ring (R280) -/
  ring : Nat
  /-- pad offsets of barrier objects whose completion is deferred for their observer (R187) -/
  deferred : List Nat
  /-- pad offsets of barrier objects whose phase is over and whose checkpoint waits for the members (R389) -/
  ckpts : List Nat
  /-- backing base of its pad, assigned at its admission (R158) -/
  base : Nat
  frames : List Frame
  preempted : Bool
  /-- gangs saved at pre-emption (R395) -/
  saved : List Gang
  shadow : Option Shadow
  /-- the interval since the shadow is replayable (R390) -/
  replayable : Bool
  /-- rollbacks taken from the shadow (R391) -/
  rollbacks : Nat
  /-- the pre-emption asked for waits for safepoints (R397) -/
  preempting : Bool
  /-- CLOCK at which it was asked for (R397) -/
  asked : Nat
  /-- a skim drain asked for it: no 0x23 is logged (R395) -/
  drain : Bool
  deriving DecidableEq, Repr

/-- A run of bytes of a slice's byte sequence: the slice's place in its collective, the first byte, and how many. -/
structure Seg where
  slice : Nat
  pos : Nat
  len : Nat
  deriving DecidableEq, Repr

/-- A transfer of the copy engine in flight (R168): the bytes of a collective that one destination half-line takes, or
one element of copy.acc; read or being read, and landed once its write is in place and every acknowledgement it waits for
has come. -/
structure Xfer where
  segs : List Seg
  /-- replies awaited from peer modules or the host -/
  await : List Await
  /-- the bytes of its runs, one after another -/
  bytes : List Byte
  /-- a byte it read is poisoned: the half-line of the first one met, 0 for one of a pad frame (R388) -/
  poison : Option Nat
  wrote : Bool
  /-- tags of writes and deltas still to be acknowledged -/
  acks : List Nat
  deriving DecidableEq, Repr

/-- A collective (R169): its slices, the gangs it still awaits, and its progress. -/
structure Collective where
  id : Nat
  crew : Nat
  ctx : Nat
  op : Nat
  queues : List Nat
  slices : List CopySlice
  awaited : List Nat
  /-- in the transfer queue of its cluster (R168) -/
  complete : Bool
  started : Bool
  /-- bytes read so far, over the slices in order -/
  read : Nat
  /-- runs beyond them that have been read with a half-line's other bytes -/
  ahead : List Seg
  inflight : List Xfer
  /-- every byte has landed: it holds no queue any longer, and stays for chunks still to be armed (R184) and for parity
  deltas still to be acknowledged (R130) -/
  done : Bool
  /-- chunks whose bytes have entered INB (R184) -/
  armed : Nat
  /-- by chunk: destination bytes that landed before the chunk entered INB (R184) -/
  early : Store Nat
  /-- bytes of its sources that it has overwritten, as they were before: place and byte (R174) -/
  before : List ((Nat × Nat) × Byte)
  /-- its crew as it was when it ended, whose pad it may still read (R180) -/
  ended : Option Crew
  deriving DecidableEq, Repr

/-- One range of a lease set (R97). -/
structure LeaseRange where
  base : Nat
  len : Nat
  rights : Nat
  deriving DecidableEq, Repr

/-- The lease of a task with live gangs (R102). -/
structure Lease where
  task : Nat
  /-- die of the lease unit that established it -/
  die : Nat
  ctx : Nat
  ranges : List LeaseRange
  /-- ranges whose pins unlease has released; a restore needs them again (R103, R396) -/
  loose : List LeaseRange
  deriving DecidableEq, Repr

/-- A range of a lease unit's pinned-range table (R99). -/
structure Pinned where
  die : Nat
  ctx : Nat
  range : LeaseRange
  pins : Nat
  deriving DecidableEq, Repr

/-- Where a task came from (R363). -/
inductive TaskSource where
  | post
  | resident
  /-- a trigger entry of a slice: watch of the context, granule, depth, source kind -/
  | trigger (slice watch gidx depth kind : Nat)
  /-- restore of a pre-empted crew (R396) -/
  | restore (crew : Nat)
  deriving DecidableEq, Repr

/-- Progress of a task's lease (R98 to R101). -/
inductive LeaseState where
  | none
  /-- the lease set is being read from another module -/
  | reading
  /-- the set has been read; replies with these sequence numbers are awaited, each for a page that failed with a
  kind, or with none left, room in the pinned-range table -/
  | waiting (ranges : List LeaseRange) (seqs : List (Nat × Nat × Nat))
  | ready (ranges : List LeaseRange)
  deriving DecidableEq, Repr

/-- A task at a hub (R363). -/
structure HubTask where
  id : Nat
  die : Nat
  ctx : Nat
  source : TaskSource
  entry : Nat
  args : List DWord
  shape : Nat
  leaseVa : Nat
  tdepth : Nat
  cls : Nat
  arrival : Nat
  /-- CLOCK at which it entered its class (R364) -/
  since : Nat
  lease : LeaseState
  /-- the context that posted it, whose hub spill region it may go to (R363) -/
  poster : Nat
  /-- its place in that region, when it is not on chip -/
  spilled : Option Nat
  /-- it stays on chip because its write to that region failed (R451) -/
  unwritten : Bool
  deriving DecidableEq, Repr

/-- Where a hub stands in its rounds, class by class: context and placements in this round (R364). -/
structure HubSt where
  rounds : Store (Nat × Nat)
  /-- the core of the die, 0 to 143, that its skim controller visits next (R399) -/
  skim : Nat
  deriving DecidableEq, Repr

/-- An installed watch (R346, R347): its configuration and the frames it bound. -/
structure Watch where
  ctx : Nat
  id : Nat
  /-- virtual and local address of the descriptor -/
  descVa : Nat
  desc : Nat
  base : Nat
  len : Nat
  glog : Nat
  quota : Nat
  dlim : Nat
  filter : Nat
  shape : Nat
  arg : Nat
  entry : Nat
  spill : Nat
  spilln : Nat
  lease : Nat
  /-- pages bound: virtual base, size, local base -/
  pages : List (Nat × Nat × Nat)
  /-- the fields marked D, as the device holds them -/
  lostn : Nat
  fired : Nat
  stail : Nat
  shead : Nat
  lostf : Bool
  deriving DecidableEq, Repr

/-- A pending entry of a trigger unit (R349). -/
structure Pending where
  slice : Nat
  ctx : Nat
  watch : Nat
  gidx : Nat
  depth : Nat
  kind : Nat
  /-- already offered to the hub as a task -/
  offered : Bool
  deriving DecidableEq, Repr

/-- The contents that an rfam gave a hash-family slot (R292, R309): the descriptor address and the configuration copied. -/
structure HashSlot where
  ctx : Nat
  h : Nat
  /-- the gang that installed it, and the stamp of its rfam -/
  gang : Nat
  stamp : Nat
  /-- stamp of that gang's first release since (R309) -/
  released : Option Nat
  descVa : Nat
  desc : Nat
  config : List DWord
  /-- it left the slot empty: rfam of address 0 (R311) -/
  empty : Bool
  deriving DecidableEq, Repr

/-- Where a matrix instruction reads or writes lines (R277, R278, R288): kind 0 tile registers, 1 pad, 2 memory; the
address of line 0, the line pitch, and the address of the scale stream. -/
structure Operand where
  kind : Nat
  base : Nat
  pitch : Nat
  scale : Nat
  deriving DecidableEq, Repr

/-- A matrix instruction on its way (R275, R276, R290), with what was captured at issue. -/
structure MatJob where
  id : Nat
  gang : Nat
  crew : Nat
  /-- 0 mma, 1 mma.p, 2 mzero, 3 mdrain, 4 mdrain.t, 5 zld, 6 zst -/
  op : Nat
  acc : Nat
  /-- A operand; direct destination of a drain; the other side of a zld or zst, with the row length as `scale` -/
  a : Operand
  /-- B operand; transposed destination of a drain -/
  b : Operand
  /-- zld, zst: first register and count -/
  z : Nat
  cnt : Nat
  me : Nat
  ne : Nat
  ke : Nat
  fmt : Word
  /-- first word of its group, and the active lanes -/
  first : DWord
  lanes : Mask
  /-- translations taken at issue: virtual base, size, domain physical base, leaf -/
  xl : List (Nat × Nat × Nat × Nat)
  started : Bool
  /-- its effect has taken place, and it retires once the writes of these tags have committed (R276) -/
  acks : Option (List Nat)
  /-- its hint.cache policy at the slices it stores to (R35) -/
  policy : Nat
  /-- the follower's crew, for mma.p -/
  crew2 : Nat
  /-- what it names, for R290: crew, and z number or 16 + accumulator number -/
  tiles : List (Nat × Nat)
  deriving DecidableEq, Repr

/-- A core: its trowel (R280), its matrix work, and its skim state (R399, R400). -/
structure CoreSt where
  /-- holder and OPEN -/
  trowel : Option (Nat × Bool)
  /-- the last holder's ring place and slot, from which the trowel passes on -/
  last : Nat × Nat
  /-- the gang to which the trowel is on its way (R281) -/
  passing : Option Nat
  jobs : List MatJob
  closed : Bool
  outOfService : Bool
  /-- CLOCK at the start of the last passed pass -/
  lastPass : Nat
  /-- start of the pass in progress -/
  passStart : Nat
  /-- passes completed -/
  passes : Nat
  reserved : Option Nat
  /-- EPOCH of each crew number (R196) -/
  epochs : Store Nat
  deriving DecidableEq, Repr

/-- An entry of a FIFO bank (R163, R164). -/
inductive FifoEntry where
  | reserved (gang : Nat)
  | filled (lanes : List Word)
  | void
  deriving DecidableEq, Repr

/-- A role that a bank is asked to take, with the context and number of a FIFO (R147). -/
structure BankReq where
  role : Nat
  ctx : Nat
  fnum : Nat
  deriving DecidableEq, Repr

/-- A 32-byte sector of SRAM some of whose bits have flipped since it was written (R143). It comes from outside the
model. DESIGN CHOICE (unsafe), log entry 74. -/
structure SectorFlaw where
  /-- number of the sector in its bank, or its local address in a slice -/
  sector : Nat
  /-- strength under which its check bits were formed: 0 SECDED, 1 DEC-TED -/
  code : Nat
  /-- its three tag bits as they stand -/
  tags : BitVec 3
  /-- bits of data and check bits that have flipped -/
  flips : Nat
  deriving DecidableEq, Repr

/-- A bank of cluster SRAM (R147 to R151). -/
structure BankSt where
  /-- role in force, and the FIFO it serves -/
  cur : Nat
  ctx : Nat
  fnum : Nat
  /-- the change of role in progress -/
  change : Option BankReq
  /-- the newest request made during it (R150) -/
  next : Option BankReq
  err : Bool
  ecc : Nat
  reenc : Bool
  sue : Nat
  sce : Nat
  fifo : List FifoEntry
  /-- FIFO entry at the head of the list: the head index, modulo 1,024 (R164) -/
  head : Nat
  /-- pushes and pops that wait, in order of arrival: gang and split (R164) -/
  waiting : List (Nat × Nat)
  flaws : List SectorFlaw
  /-- strength that the sectors not listed in `codes` are encoded under, and those written under another since ECC changed:
  0 SECDED, 1 DEC-TED (R143, R150) -/
  code : Nat
  codes : Store Nat
  deriving DecidableEq, Repr

/-- A change of role is in progress (R149). -/
def BankSt.busy (k : BankSt) : Bool := k.change.isSome

/-- A line of a cluster L1 (R153, R154), keyed by domain physical address. -/
structure L1Line where
  cluster : Nat
  /-- the cache-role bank that is its way (R153) -/
  way : Nat
  line : Nat
  data : List Byte
  sectors : BitVec 4
  grain : Nat
  sealed : Bool
  /-- filled under hint.cache policy 4: the last candidate (R153) -/
  keep : Bool
  deriving DecidableEq, Repr

/-- A TLB entry (R107): cluster or core TLB, context, page base and size, leaf. -/
structure TlbEntry where
  /-- true: the core TLB of `unit`; false: the cluster TLB of `unit` -/
  inCore : Bool
  unit : Nat
  ctx : Nat
  va : Nat
  size : Nat
  leaf : DWord
  deriving DecidableEq, Repr

/-- A valid pointer entry that a cluster's walker holds (R90, R107): the base of the region that it governs, by its level. -/
structure PtrEntry where
  unit : Nat
  ctx : Nat
  level : Nat
  va : Nat
  entry : Nat
  deriving DecidableEq, Repr

/-- Counters of a slice's status record (R121). -/
structure SliceSt where
  dce : Nat
  due : Nat
  sce : Nat
  sue : Nat
  lcregen : Nat
  lcbad : Nat
  poisonw : Nat
  rmiss : Nat
  lag : Bool
  reenc : Bool
  prefuse : Nat
  sweeps : Nat
  /-- settings in force from its control record (R120) -/
  ecc : Nat
  sscrub : Nat
  dscrub : Nat
  /-- lines of its SRAM still to be encoded under the strength in force (R145) -/
  walk : List Nat
  /-- lines of the DRAM sweep in progress that have been read, in order, and the CLOCK at which it began (R144) -/
  swept : Nat
  since : Nat
  deriving DecidableEq, Repr

/-- The request queue of a slice (R116). -/
structure SliceQueue where
  /-- requests admitted and not yet performed, at most 32 -/
  queue : List Event
  /-- requests that wait in their senders' interfaces, with their classes, in the order of arrival -/
  waiting : List (Nat × Event)
  /-- class of the last request admitted, 1 to 4; 0 before the first -/
  last : Nat
  deriving DecidableEq, Repr

/-- A queue that has held nothing. -/
def SliceQueue.empty : SliceQueue := { queue := [], waiting := [], last := 0 }

/-- A line in the SRAM of its slice (R115, R143). -/
structure SramLine where
  line : Nat
  /-- sectors that are valid -/
  valid : BitVec 4
  /-- bytes written since they came from DRAM -/
  dirty : BitVec 128
  /-- the code under which each sector is held: 0 SECDED, 1 DEC-TED -/
  code : BitVec 4
  /-- filled under hint.cache policy 4: chosen last -/
  keep : Bool
  deriving DecidableEq, Repr

/-- A parity delta sent and not yet acknowledged (R130, R341). -/
structure PendDelta where
  tag : Nat
  /-- context of the write -/
  ctx : Nat
  org : Origin
  dest : Nat
  /-- 0 for P, 1 for Q -/
  parity : Nat
  /-- of a store homed on a peer: `src` is that peer, `dest` too -/
  msg : DeltaMsg
  /-- held because its member is lost -/
  held : Bool
  /-- the rebuilt parity of the lost member includes it: it counts as acknowledged once that frame is written (R341) -/
  covered : Bool
  deriving DecidableEq, Repr

/-- A transaction of the link agent with the host (R236, R409). -/
inductive HostTx where
  | read (tag addr n : Nat)
  /-- bytes by host physical address -/
  | write (tag : Nat) (cells : List (Nat × Byte))
  | cas (tag addr : Nat) (wide : Bool) (compare swap : DWord)
  /-- one CXL.io AtomicOp: 0 swap, 1 cas, 2 fetch and add -/
  | atomic (tag addr op : Nat) (wide : Bool) (x y : DWord)
  /-- a line asked for through CXL.cache, by host physical address -/
  | own (tag line : Nat) (exclusive : Bool)
  | msix (vector : Nat)
  /-- data returned to a host read of device memory (R407), and whether it is poisoned -/
  | reply (addr : Nat) (data : List Byte) (poison : Bool)
  /-- answer to a snoop: line by host physical address, and the bytes when the agent held it -/
  | snoop (line : Nat) (data : Option (List Byte))
  deriving DecidableEq, Repr

/-- What the link agent is doing for one access of a gang or an engine to host memory (R236, R237, R409). -/
inductive HostJob where
  /-- a load of n bytes -/
  | load (n : Nat)
  /-- a store: offsets from the address, and bytes -/
  | store (cells : List (Nat × Byte))
  /-- an atomic: code of R132, width, operands -/
  | atomic (op : Nat) (wide : Bool) (x y : DWord)
  deriving DecidableEq, Repr

/-- An access to host memory in progress at the link agent (R236, R237, R409). -/
structure HostAtomic where
  tag : Nat
  /-- context of the access -/
  ctx : Nat
  org : Origin
  lane : Nat
  /-- local address in the host port window -/
  addr : Nat
  job : HostJob
  old : DWord
  /-- 0 waits for a line through CXL.cache, 1 for one request's completion, 2 for the first read of the loop, 3 for a
  CAS of the loop, 4 queued behind an earlier lane at the same address -/
  phase : Nat
  attempts : Nat
  deriving DecidableEq, Repr

/-- Data that a slice returned for a request of an event (R114). -/
structure Reply where
  tag : Nat
  data : List Byte
  poison : Bool
  flags : Word
  deriving DecidableEq, Repr

/-- An island's operating point (R17 to R22). -/
structure IslSt where
  req : Nat
  cur : Nat
  busy : Bool
  /-- where the change in progress ends -/
  goal : Nat
  err : Bool
  /-- the point that the power rules hold it at, and the point that the thermal rules hold it at (R22, R24) -/
  power : Nat
  thermal : Nat
  /-- the rule that stepped it down last, the thermal one if true, and when: a step that the other rule calls for within the
  same 100 µs is served by that one (R24) -/
  stepped : Option (Bool × Nat)
  /-- on the way to GATED: cores whose skim pass is due, n + 4096 while a pass begun before is in progress (R20) -/
  due : List Nat
  deriving DecidableEq, Repr

/-- The power controller (R22). DEDUCED (unsafe), log entry 31. -/
structure PowerSt where
  /-- the die whose islands 0 to 2, and the one whose island 3, it steps down next -/
  next : Nat
  next3 : Nat
  /-- the die that it raises next -/
  rise : Nat
  /-- it has stepped since the draw last fell -/
  active : Bool
  /-- it holds every island at its lowest point -/
  capped : Bool
  deriving DecidableEq, Repr

/-- A Berog port (R415, R421). -/
structure PortSt where
  up : Bool
  trained : Bool
  peer : Nat
  retry : Nat
  /-- packets sent on it whose receipt the far end has acknowledged: the others are in its retry buffer (R421) -/
  acked : Nat
  deriving DecidableEq, Repr

/-- The management block (R410 to R413) and the start in progress (R423). -/
structure Mgmt where
  fail : Nat
  step : Nat
  kind : Nat
  fell : Bool
  kept : Bool
  halted : Bool
  ttrip : Bool
  state : Nat
  rsrc : Bool
  retain : Bool
  /-- MODULE, and MCFG.MODID, from which step 6 of a start loads it -/
  modid : Nat
  cfgModid : Nat
  porten : BitVec 48
  nonce : List Byte
  attreq : Bool
  /-- group configuration, 1 KiB -/
  groupCfg : Store Byte
  report : List Byte
  bootWindow : Store Byte
  starts : Nat
  /-- digests in the five key slots: slot 0 of the firmware key, slots 1 to 4 the operators' (R426) -/
  fuses : List (List Byte)
  /-- digests of the firmware, and of the resident image last verified (R426, R427) -/
  firmware : List Byte
  resident : List Byte
  /-- the identity public key and its certificate (R427) -/
  identity : List Byte
  certificate : List Byte
  /-- valid group records set aside by a warm start (R417) -/
  kept_groups : List (Nat × List Byte)
  /-- the parity verify scrub of step 7 has begun (R423) -/
  verifying : Bool
  linkWidth : Nat
  linkRate : Nat
  deriving DecidableEq, Repr

/-- What the loader knows of a context's image (R50 to R57): DEFFMT, ENTRY of entry record 0, the forerunner flag, pad
templates by entry. DESIGN CHOICE (unsafe), log entry 25. DESIGN CHOICE (safe), log entry 78. -/
structure Image where
  ctx : Nat
  entry : Nat
  deffmt : Word
  forerunner : Bool
  /-- entry offset, bytes of its pad template -/
  templates : List (Nat × List Byte)
  deriving DecidableEq, Repr

/-- A lease fault record on its way to a queue (R100). -/
structure FaultRec where
  seq : Nat
  task : Nat
  va : Nat
  ctx : Nat
  rights : Nat
  kind : Nat
  level : Nat
  reqmod : Nat
  reqdie : Nat
  reply : Nat
  deriving DecidableEq, Repr

/-- This module's share of a rebuild (R402), or of the parity verify scrub of a warm start, in which it rebuilds its own
parity (R423). -/
structure Rebuild where
  record : Nat
  lost : Nat
  repl : Nat
  /-- stripes still to begin -/
  stripes : List Nat
  done : Nat
  /-- the stripe in progress, and its next half-line -/
  stripe : Option Nat
  half : Nat
  /-- half-lines read, by position in the group, and whether they are poisoned -/
  got : List (Nat × List Byte × Bool)
  /-- answers awaited: tag and position; position 17 stands for the write to the replacement -/
  wait : List (Nat × Nat)
  deriving DecidableEq, Repr

/-- A bucket operation not yet performed, of a gang's retrieval instruction (R305, R306, R308). -/
structure RetrJob where
  id : Nat
  gang : Nat
  ctx : Nat
  /-- true: insert, false: delete -/
  ins : Bool
  req : BucketReq
  /-- identity of its instruction: lanes of one instruction on one bucket are performed together (R305) -/
  batch : Nat
  /-- the insert of the same rmove lane, to be performed first (R306) -/
  after : Option Nat
  /-- probes that must have read all their buckets first (R306) -/
  probes : List Nat
  /-- written out at a pre-emption, to be sent after the restore (R315) -/
  held : Bool
  deriving DecidableEq, Repr

/-- An rprobe in flight (R302), with what was captured at issue. -/
structure Probe where
  tag : Nat
  gang : Nat
  split : Nat
  ctx : Nat
  core : Nat
  policy : Nat
  pool : Nat
  pooln : Nat
  /-- virtual base, size, domain physical base, leaf -/
  xl : List (Nat × Nat × Nat × Nat)
  dest : Nat
  list : Nat
  cap : Nat
  /-- lanes and the local address of the bucket each names -/
  lanes : List (Nat × Nat)
  /-- buckets still to read: the bucket named, and the half-line to read -/
  todo : List (Nat × Nat)
  /-- some bucket has been read -/
  begun : Bool
  /-- written out at a pre-emption with its partial union, to be resumed after the restore (R315) -/
  held : Bool
  /-- rows by bucket named -/
  rows : List (Nat × List Nat)
  first : DWord
  active : Mask
  deriving DecidableEq, Repr

/-- A cause found while no instruction of its split was issuing: poison met by a matrix or retrieval operation, or a
failed access to a crew's save area (R284, R451). -/
structure Raise where
  crew : Nat
  gang : Nat
  cause : Nat
  pc : DWord
  lanes : Mask
  addr : Nat
  deriving DecidableEq, Repr

/-- An error that reaches the machine from outside. DESIGN CHOICE (unsafe), log entry 74. -/
inductive Upset where
  /-- pins of a half-line fail: what is read differs from what was stored by these bytes (R139) -/
  | dram (h : Nat) (pins : List Byte)
  /-- bits of a sector of a slice's SRAM flip (R143) -/
  | sram (f : SectorFlaw)
  /-- bits of a sector of a bank flip -/
  | bank (cluster bank : Nat) (f : SectorFlaw)
  /-- a half-line on its way from its slice is found not to match its line check: at cluster SRAM fill, or at fabric or host egress
  (R141). DESIGN CHOICE (unsafe), log entry 126 -/
  | transit (h : Nat)
  /-- an uncorrectable error of a scalar register, or of an element of a vector register (R386) -/
  | scalar (g n : Nat)
  | vector (g v lane : Nat)
  deriving DecidableEq, Repr

/-- Which agent moves next: the schedule is plain data. With no turn named, `step` follows its own fixed choice.
DESIGN CHOICE (safe), log entry 2. -/
inductive Turn where
  /-- a clock of pipe p, in which it issues by R367 from its ready splits but those named, which are stalled because a unit or
  an operand is not free for them -/
  | issue (p : Nat) (stalled : List (Nat × Nat))
  /-- an event of the table happens -/
  | event (e : Event)
  /-- the n-th posted internal event happens -/
  | agenda (n : Nat)
  /-- a request of another agent arrives at its slice -/
  | arrive (e : Event)
  /-- slice k performs the n-th request of its queue -/
  | slice (k n : Nat)
  /-- the resident's loader sets up an image for a context (R56). DESIGN CHOICE (unsafe), log entry 25. -/
  | load (ctx : Nat) (file : List Byte)
  /-- the far end of a port acknowledges n packets more (R421) -/
  | linkAck (port n : Nat)
  /-- an error reaches the machine -/
  | upset (u : Upset)
  /-- CLOCK advances -/
  | time (ns : Nat)
  deriving DecidableEq, Repr

/-- The state of the module. -/
structure State where
  /-- bytes of HBM4E and LP-DRAM by local address (R13, R114) -/
  mem : List Host.Cell
  /-- poisoned half-lines, by local address (R140) -/
  poison : List Nat
  /-- half-lines in DRAM some of whose pins have failed since they were written: the 72 bytes by which what the pins give
  differs from what was stored (R139, R140). They come from outside the model.
  DESIGN CHOICE (unsafe), log entry 74. -/
  errors : List (Nat × List Byte)
  /-- lines in the SRAM of their slices, the most recently used first (R115) -/
  sram : List SramLine
  /-- sectors of that SRAM in which bits have flipped, by local address over 32 (R143). -/
  sramFlaws : List SectorFlaw
  /-- the split that issues: gang and split number -/
  cur : Nat × Nat
  gangs : List Gang
  crews : List Crew
  leases : List Lease
  cores : Store CoreSt
  banks : Store BankSt
  l1 : List L1Line
  tlb : List TlbEntry
  /-- pointer entries cached by the walkers (R107) -/
  ptrs : List PtrEntry
  slices : Store SliceSt
  /-- requests to the slices (R116) -/
  queues : Store SliceQueue
  pinned : List Pinned
  standing : List Lease
  tasks : List HubTask
  /-- hubs by die -/
  hubs : Store HubSt
  watches : List Watch
  pending : List Pending
  /-- page records in the watch caches: die and local page base, latest first (R348) -/
  watchCache : List (Nat × Nat)
  hashes : List HashSlot
  retr : List RetrJob
  probes : List Probe
  /-- causes to be taken at the end of the step -/
  raises : List Raise
  colls : List Collective
  loads : List PendLoad
  replies : List Reply
  deltas : List PendDelta
  out : List Packet
  hostOut : List HostTx
  hostAtomics : List HostAtomic
  /-- lines held by the link agent: line address, exclusive, data (R409) -/
  agentCache : List (Nat × Bool × List Byte)
  /-- stores and accumulations sent to peer modules and not acknowledged -/
  peerPending : List PeerStore
  ports : Store PortSt
  /-- modules declared lost (R401, R422) -/
  lost : List Nat
  faultRecs : List FaultRec
  /-- fault log records raised and not yet written (R378) -/
  logQueue : List LogRec
  /-- write index of this module's lease fault queue (R100) -/
  lfqIndex : Nat
  rebuilds : List Rebuild
  images : List Image
  islands : Store IslSt
  power : PowerSt
  /-- control cores whose event flag is set (R405) -/
  eventFlags : List Nat
  /-- what the wait-for detector found in its last scan: die, gang, issue stamps of its splits (R372) -/
  suspects : List (Nat × Nat × List Nat)
  /-- drain tokens still out: context and tag (R398) -/
  tokens : List (Nat × Nat)
  /-- drain tokens passed on: own tag, the module that sent the token, and its tag (R398) -/
  relays : List (Nat × Nat × Nat)
  /-- members that agree with a group record in formation: record and module (R417) -/
  agreed : List (Nat × Nat)
  /-- half-lines under a rebuild's cut, with the stamp of their answer (R403) -/
  cuts : List (Nat × Nat)
  /-- rebuilt frames: lost module, local base, replacement (R402) -/
  rebuilt : List (Nat × Nat × Nat)
  /-- control cores but number 0 that a signal has started (R424) -/
  started : List Nat
  /-- CLOCK at which this module last heard from a peer (R422) -/
  heard : Store Nat
  mgmt : Mgmt
  /-- CLOCK in nanoseconds (R16) -/
  clock : Nat
  /-- internal events posted and not yet performed -/
  agenda : List Event
  turns : List Turn
  /-- gangs that have ended with writes still to be answered: identity, WHO and CREWV of their records (R353, R377) -/
  gone : List (Nat × Nat × Nat)
  /-- next identity of a gang, task, collective, tag or stamp -/
  fresh : Nat
  /-- the model's own: counter that free values are drawn with -/
  freeCtr : Nat
  deriving DecidableEq, Repr

/-- No hint word before the instruction. -/
def Hints.none : Hints :=
  { words := 0, first := 0, imms := [], ord := Option.none, scope := Option.none, cache := Option.none,
    sched := Option.none, bnd := Option.none, limit := Option.none }

/-- A split as a start or an admission makes it: all trap registers zero (R198, R380). -/
def Split.start (pc : DWord) (mask : Mask) (fmt : Word) : Split :=
  { pc, mask, fmt, top := none, hints := Hints.none, blocked := none, yielded := false, demoted := false, held := 0,
    stamp := 0, rested := false, age := 0, retry := none, word := none, hm := false, glen := 0, cause := 0, trapPc := 0, trapLanes := 0, trapAddr := 0 }

/-- A gang with every register zero and one split (R198, R424). -/
def Gang.start (id core slot tidx ctx crew task nregs : Nat) (sp : Split) : Gang :=
  { id, core, slot, tidx, ctx, crew, task, nregs, s := [], sPoison := 0, v := [], vPoison := [], p := [], fst := 0,
    splits := [some sp, none, none, none], rc := [], rcOrder := 0, wcb := [], copySlot := none, arrivals := [],
    tdepth := 0, cls := 0, acquired := 0, d09 := none, d13 := none, d0a := none, unacked := 0, lostStore := false, pendingAcks := 0, strong := [],
    retake := none, taken := none }

/-- A crew as admission makes it (R198): tiles zero, names unbound, pad pages initial. -/
def Crew.start (val ctx core pads accs zregs entry ring : Nat) : Crew :=
  { val, ctx, core, pads, accs, zregs, entry, pad := [], padPoison := [], padStates := [], padDirty := [], bind := [],
    z := [], zPoison := [], acc := [[], [], [], []], ring, deferred := [], ckpts := [], base := 0, frames := [],
    preempted := false, saved := [], shadow := none,
    replayable := false, rollbacks := 0, preempting := false, asked := 0, drain := false }

/-- The management block after a cold start that loaded module id 0 (R411 to R413, R423).
DESIGN CHOICE (unsafe), log entries 16, 21 and 125. -/
def Mgmt.reset : Mgmt :=
  { fail := 0, step := 0, kind := 1, fell := false, kept := false, halted := false, ttrip := false, state := 2,
    rsrc := false, retain := false, modid := 0, cfgModid := 0, porten := BitVec.allOnes 48, nonce := List.replicate 64 0,
    attreq := false, groupCfg := [], report := [], bootWindow := [], starts := 1, fuses := List.replicate 5 (List.replicate 64 0), firmware := List.replicate 64 0,
    resident := List.replicate 64 0, identity := List.replicate 1952 0, certificate := [], kept_groups := [], verifying := false, linkWidth := 16,
    linkRate := 128 }

/-- CREW values of gangs on control cores, which belong to no crew: beyond every value of R196.
DEDUCED (unsafe), log entry 10. -/
def controlCrew (n : Nat) : Nat := 2 ^ 32 + n

/-- The gang that stands for control core 0 of die 0 as the firmware starts it (R424): s0 = MODID, s1 = MSTAT.KIND
of a cold start, every other scalar zero, at cb + ENTRY.
DEDUCED (unsafe), log entry 10. DESIGN CHOICE (unsafe), log entry 16. DESIGN CHOICE (unsafe), log entry 20. -/
def Gang.resident : Gang :=
  { Gang.start 0 2304 0 0 0 (controlCrew 0) 0 64 (Split.start 0x01000000 (BitVec.allOnes 32) 0) with s := [(1, 1)] }

/-- The module right after a cold start (R423, R424).
DESIGN CHOICE (unsafe), log entry 16. DESIGN CHOICE (unsafe), log entry 17. DESIGN CHOICE (unsafe), log entry 20. DESIGN CHOICE (unsafe), log entry 21. -/
def State.reset : State :=
  { mem := [], poison := [], errors := [], sram := [], sramFlaws := [], cur := (0, 0), gangs := [Gang.resident], crews := [], leases := [],
    cores := [], banks := [], l1 := [], tlb := [], ptrs := [], slices := [], queues := [], pinned := [], standing := [], tasks := [], hubs := [],
    watches := [], pending := [], watchCache := [], hashes := [], retr := [], probes := [], raises := [], colls := [], loads := [], replies := [], deltas := [],
    out := [], hostOut := [], hostAtomics := [], agentCache := [], peerPending := [], ports := [], lost := [],
    faultRecs := [], logQueue := [], lfqIndex := 0, rebuilds := [], images := [], islands := [], power := { next := 0, next3 := 0, rise := 0, active := false, capped := false }, eventFlags := [], suspects := [], tokens := [], relays := [], agreed := [], cuts := [], rebuilt := [], started := [], heard := [],
    mgmt := Mgmt.reset, clock := 0, agenda := [], turns := [], gone := [], fresh := 1, freeCtr := 0 }

end Sys2Proof.Machine
end

