-- ==== Sys2Proof/Machine/Bits.lean ====
section
/-! DEFINITION. Sparse arrays in canonical form, bytes and words, bit fields, sign extension and lane masks (R2, R3). -/

namespace Sys2Proof.Machine

/-! ### Sparse arrays -/

/-- The entry of key k, or the default d. -/
def sget {α : Type} (d : α) : Store α → Nat → α
  | [], _ => d
  | (j, v) :: m, k => if j = k then v else sget d m k

/-- Without any entry of key k. -/
def sdel {α : Type} (m : Store α) (k : Nat) : Store α := m.filter (fun e => e.1 != k)

/-- With (k, v) placed before the first greater key. -/
def sins {α : Type} (k : Nat) (v : α) : Store α → Store α
  | [] => [(k, v)]
  | (j, w) :: m => if k < j then (k, v) :: (j, w) :: m else (j, w) :: sins k v m

/-- Key k now holds v; an entry equal to the default is not listed. DESIGN CHOICE (safe), log entry 19. -/
def sput {α : Type} [DecidableEq α] (d : α) (m : Store α) (k : Nat) (v : α) : Store α :=
  if v = d then sdel m k else sins k v (sdel m k)

/-! ### Bytes and words -/

/-- The low byte of n. -/
def lowByte (n : Nat) : Byte := BitVec.ofNat 8 n

/-- The n bytes of x, little-endian (R3). -/
def leBytes : Nat → Nat → List Byte
  | 0, _ => []
  | n + 1, x => lowByte x :: leBytes n (x / 256)

/-- The number that bytes name, little-endian (R3). -/
def ofBytes : List Byte → Nat
  | [] => 0
  | b :: l => b.toNat + 256 * ofBytes l

/-- Bits lo + len − 1 to lo of n. -/
def bits (n lo len : Nat) : Nat := (n >>> lo) % 2 ^ len

/-- Bit k of n is set. -/
def bit (n k : Nat) : Bool := n.testBit k

/-- 1 for true. -/
def b2n (b : Bool) : Nat := if b then 1 else 0

/-- The 64-bit word of n. -/
def dw (n : Nat) : DWord := BitVec.ofNat 64 n

/-- The 32-bit word of n. -/
def w32 (n : Nat) : Word := BitVec.ofNat 32 n

/-- The low n bits of x, sign-extended to 64 bits. -/
def sext (n x : Nat) : DWord := (BitVec.ofNat n x).signExtend 64

/-- 0 or 1 as a 64-bit value. -/
def flag64 (b : Bool) : DWord := if b then 1 else 0

/-- The integer that the low n bits of x name in two's complement. -/
def toInt (n x : Nat) : Int := (BitVec.ofNat n x).toInt

/-- x modulo 2^n, as a number. -/
def wrapInt (n : Nat) (x : Int) : Nat := (x % (2 ^ n : Int)).toNat

/-! ### Lanes -/

/-- All lanes. -/
def allLanes : Mask := BitVec.allOnes 32

/-- The lanes of a mask in ascending order. -/
def lanesOf (m : Mask) : List Nat := (List.range 32).filter (fun l => m.getLsbD l)

/-- The mask of one lane. -/
def laneBit (l : Nat) : Mask := BitVec.ofNat 32 (2 ^ l)

/-- The mask of the lanes of a list. -/
def maskOf (ls : List Nat) : Mask := ls.foldl (fun m l => m ||| laneBit l) 0

/-- The lanes for which f holds, out of a mask. -/
def maskWhere (m : Mask) (f : Nat → Bool) : Mask := maskOf ((lanesOf m).filter f)

/-- Lanes in a mask. -/
def countLanes (m : Mask) : Nat := (lanesOf m).length

/-- The lanes a guard code selects, with p the predicate it reads (R27). -/
def guardMask (g : BitVec 4) (p : Nat → Mask) : Mask :=
  if g.toNat = 0 then allLanes else if g.toNat < 8 then p g.toNat else ~~~ (p (g.toNat - 8))

/-! ### Lists -/

/-- x placed before the first element that it does not follow. -/
def insertBy {α : Type} (le : α → α → Bool) (x : α) : List α → List α
  | [] => [x]
  | y :: l => if le x y then x :: y :: l else y :: insertBy le x l

/-- A list sorted by an order, equal elements as they stood. -/
def sortBy {α : Type} (le : α → α → Bool) (l : List α) : List α := l.foldr (insertBy le) []

/-! ### Counts -/

/-- n + k, held at most at the maximum of a b-bit counter. -/
def satAdd (b n k : Nat) : Nat := min (n + k) (2 ^ b - 1)

/-- Aligned down to a multiple of k. -/
def alignDown (a k : Nat) : Nat := a - a % k

/-- The element of a list at a position, or a default. -/
def nth {α : Type} (d : α) (l : List α) (k : Nat) : α := (l[k]?).getD d

/-- The list with its element at position k replaced. -/
def setNth {α : Type} (l : List α) (k : Nat) (x : α) : List α := l.set k x

/-- Elements without repeats, the first of each kept. -/
def distinct {α : Type} [DecidableEq α] (l : List α) : List α :=
  l.foldl (fun r x => if x ∈ r then r else r ++ [x]) []

end Sys2Proof.Machine
end

