-- ==== Sys2Proof/Machine/Memory.lean ====
section
/-! DEFINITION. The module's own memory by local address: its contents after a cold start, its bytes and its poison, the slice
and the channel that hold an address, and the records the device reads from the system frames (R10, R13, R94, R95, R111,
R112, R135, R140, R416, R423, R424). -/

namespace Sys2Proof.Machine

/-! ### Windows and slices -/

/-- The address lies in HBM4E (R13). -/
def isHbm (a : Nat) : Bool := a < 0x30000000000

/-- The address lies in LP-DRAM (R13). -/
def isLpd (a : Nat) : Bool := 0x40000000000 ≤ a && a < 0xC0000000000

/-- The address lies in memory that slices home (R13). -/
def isDram (a : Nat) : Bool := isHbm a || isLpd a

/-- The address lies in the host port window (R13). -/
def isHost (a : Nat) : Bool := 0x100000000000 ≤ a && a < 0x200000000000

/-- The XOR-fold of R111. -/
def sliceFold (a : Nat) : Nat :=
  bits a 7 4 ^^^ bits a 11 4 ^^^ bits a 15 4 ^^^ bits a 19 4 ^^^ bits a 23 4 ^^^ bits a 27 4

/-- The global number of the slice that homes a local address (R111, R112). -/
def sliceOf (a : Nat) : Nat :=
  if isHbm a then 16 * bits a 36 6 + sliceFold a
  else
    let o := a - 0x40000000000
    48 * bits o 39 4 + 16 * (bits o 7 32 % 3) + sliceFold o

/-- The channel of its slice that holds a local HBM4E address, and that channel of the stack (R10, R111). -/
def sliceChannel (a : Nat) : Nat := bits a 11 1 ^^^ bits a 19 1 ^^^ bits a 27 1
def stackChannel (a : Nat) : Nat := 2 * sliceFold a + sliceChannel a

/-- The LP-DRAM channel of its die that holds a local LP-DRAM address (R112). -/
def lpChannel (a : Nat) : Nat := bits (a - 0x40000000000) 37 2

/-- The domain physical address of a local address of module m (R87). -/
def dpa (m a : Nat) : Nat := m * 2 ^ 51 + a

/-- The module of a domain physical address. -/
def dpaModule (x : Nat) : Nat := x / 2 ^ 51

/-- The local address of a domain physical address. -/
def dpaLocal (x : Nat) : Nat := x % 2 ^ 51

/-- The line that holds an address. -/
def lineOf (a : Nat) : Nat := alignDown a 128

/-- The half-line that holds an address. -/
def halfOf (a : Nat) : Nat := alignDown a 64

/-! ### Bytes -/

/-- The 8-byte word at local address a, a multiple of 8, right after a cold start with module id 0 and no resident
image: bank control and status words (R147, R148), the share table (R345), context record 0 and the boot tables
(R424), and zeros (R423). DEDUCED (unsafe), log entry 18. -/
def resetWord (a : Nat) : Nat :=
  if a = 0 then 0x8000000000C00000
  else if a = 8 then 0x1000000
  else if 0x600000 ≤ a && a < 0x648000 then
    (if 128 ≤ (a - 0x600000) % 512 && (a - 0x600000) % 512 < 384 then 1 else 0)
  else if 0x648000 ≤ a && a < 0x690000 then
    (if 128 ≤ (a - 0x648000) % 512 && (a - 0x648000) % 512 < 384 then 2 ^ 56 else 0)
  else if 0x800000 ≤ a && a < 0x810000 then 0x0101010101010101
  else if a = 0xC00000 then 0xC01001
  else if a = 0xC01000 then 0xC02001
  else if a = 0xC02000 then 0xC03001
  else if 0xC03000 ≤ a && a < 0xC03400 then (a - 0xC03000) / 8 * 2 ^ 21 + 0x2FB
  else 0

/-- What a byte of local memory that nothing has written reads as. DEDUCED (unsafe), log entry 18. -/
def resetByte (a : Nat) : Byte := lowByte (resetWord (alignDown a 8) >>> (8 * (a % 8)))

/-- The byte at a local address. -/
def State.byte (s : State) (a : Nat) : Byte := sget (resetByte a) s.mem a

/-- With the byte at a local address replaced. -/
def State.setByte (s : State) (a : Nat) (v : Byte) : State := { s with mem := sput (resetByte a) s.mem a v }

/-- The n bytes from a local address. -/
def State.bytes (s : State) (a n : Nat) : List Byte := (List.range n).map (fun k => s.byte (a + k))

/-- The little-endian number in n bytes from a local address (R3). -/
def State.readLe (s : State) (a n : Nat) : Nat := ofBytes (s.bytes a n)

/-- With bytes written, each at its local address. -/
def State.setCells (s : State) (cells : List (Nat × Byte)) : State :=
  cells.foldl (fun t c => t.setByte c.1 c.2) s

/-- The cells of bytes laid from an address on. -/
def cellsAt (a : Nat) (l : List Byte) : List (Nat × Byte) := (List.range l.length).map (fun k => (a + k, nth 0 l k))

/-- A memory in its canonical form: addresses strictly rising, no entry equal to what an unlisted address reads as.
DESIGN CHOICE (safe), log entry 19. -/
def Memory.wf (m : List Host.Cell) : Bool :=
  decide (m.Pairwise (fun a b => a.1 < b.1)) && m.all (fun c => c.2 != resetByte c.1)

/-! ### Poison -/

/-- The half-line of a local address is poisoned (R140). -/
def State.poisoned (s : State) (a : Nat) : Bool := s.poison.contains (halfOf a)

/-- With a half-line poisoned. -/
def State.addPoison (s : State) (h : Nat) : State :=
  if s.poison.contains h then s else { s with poison := h :: s.poison }

/-- With a half-line's poison cleared. -/
def State.clearPoison (s : State) (h : Nat) : State := { s with poison := s.poison.filter (fun x => x != h) }

/-- A slice's counters before anything was counted, under the settings of a zero control record (R120, R121). -/
def SliceSt.zero : SliceSt :=
  { dce := 0, due := 0, sce := 0, sue := 0, lcregen := 0, lcbad := 0, poisonw := 0, rmiss := 0, lag := false,
    reenc := false, prefuse := 0, sweeps := 0, ecc := 0, sscrub := 10, dscrub := 60, walk := [], swept := 0, since := 0 }

/-- The status of a slice. -/
def State.slice (s : State) (k : Nat) : SliceSt := sget SliceSt.zero s.slices k

/-- With a slice's status changed. -/
def State.setSlice (s : State) (k : Nat) (f : SliceSt → SliceSt) : State :=
  { s with slices := sput SliceSt.zero s.slices k (f (s.slice k)) }

/-- With a record raised for the log of a context (R376 to R378). -/
def State.post (s : State) (r : LogRec) : State := { s with logQueue := s.logQueue ++ [r] }

/-- With a cause to be taken at the end of the step. -/
def State.raise (s : State) (r : Raise) : State := { s with raises := s.raises ++ [r] }

/-- A failed access to a crew's save area ends the crew with cause 0x07 (R451). -/
def State.raiseCrew (s : State) (v addr : Nat) : State :=
  s.raise { crew := v, gang := 0, cause := 0x07, pc := 0, lanes := 0, addr }

/-- A record of the resident's log with nothing but its cause, INFO, ADDR and AUX (R377, R379). -/
def residentRec (cause info addr aux : Nat) : LogRec :=
  { ctx := 0, cause, kind := 5, aux, who := 0, info, crewv := 0, lanes := 0, pc := 0, addr }

/-- Machine check 0x20 with a subcode (R379). -/
def State.machineCheck (s : State) (sub addr aux : Nat) : State := s.post (residentRec 0x20 sub addr aux)

/-- A half-line becomes poison, its bytes zero (R140, R141). -/
def State.poisonHalf (s : State) (h : Nat) : State := (s.setCells (cellsAt h (List.replicate 64 0))).addPoison h

/-- A slice that counted an uncorrectable error writes its record and tells the resident (R121). -/
def State.sliceError (s : State) (h : Nat) : State :=
  { s with agenda := s.agenda ++ [Event.sliceStatusWrite (sliceOf h)] }.machineCheck 7 (sliceOf h) 0

/-- The half-lines that n bytes from a touch. -/
def halvesOf (a n : Nat) : List Nat :=
  (List.range ((a + n - 1) / 64 + 1 - a / 64)).map (fun k => 64 * (a / 64 + k))

/-- Any of n bytes from a lies in a poisoned half-line. -/
def State.anyPoison (s : State) (a n : Nat) : Bool := (halvesOf a n).any (fun h => s.poison.contains h)

/-! ### Records of the system frames -/

/-- ROOT of a context record (R95). -/
def State.ctxRoot (s : State) (c : Nat) : Nat := s.readLe (64 * c) 8

/-- cb of a context (R41, R95). -/
def State.ctxCb (s : State) (c : Nat) : Nat := s.readLe (64 * c + 8) 8

/-- OWN of a context record (R95). -/
def State.ctxOwn (s : State) (c : Nat) : Nat := s.readLe (64 * c + 16) 8

/-- LFQ of record 0 (R95). -/
def State.lfq (s : State) : Nat := s.readLe 24 8

/-- SAVE of a context record (R376). -/
def State.ctxSave (s : State) (c : Nat) : Nat := s.readLe (64 * c + 32) 8

/-- LOG of a context record (R376). -/
def State.ctxLog (s : State) (c : Nat) : Nat := s.readLe (64 * c + 40) 8

/-- LOGW of a context record (R376). -/
def State.ctxLogw (s : State) (c : Nat) : Nat := s.readLe (64 * c + 48) 8

/-- TVEC of a context: bits 31:0 of its field (R376). -/
def State.ctxTvec (s : State) (c : Nat) : Nat := s.readLe (64 * c + 56) 4

/-- The root table of a context that exists: VALID set and no bit of 62:51 or 10:0 (R95). -/
def State.rootOf (s : State) (c : Nat) : Option Nat :=
  let r := s.ctxRoot c
  if bit r 63 && bits r 51 12 == 0 && bits r 0 11 == 0 then some (bits r 0 51) else none

/-- A protection group record (R416). -/
structure Group where
  base : Nat
  frames : Nat
  flags : Nat
  n : Nat
  members : List Nat
  lostm : Nat
  repl : Nat
  deriving DecidableEq, Repr

/-- Group record r of the link table frame (R414, R416). -/
def State.group (s : State) (r : Nat) : Group :=
  let a := 0xA00100 + 64 * r
  { base := s.readLe a 8, frames := s.readLe (a + 16) 4, flags := s.readLe (a + 20) 1, n := s.readLe (a + 21) 1,
    members := (List.range 17).map (fun i => bits (s.readLe (a + 22 + 2 * i) 2) 0 9),
    lostm := s.readLe (a + 56) 4, repl := s.readLe (a + 62) 2 }

/-- A record in force: VALID and FORMED (R417). -/
def Group.valid (g : Group) : Bool := bit g.flags 0 && bit g.flags 3

/-- The local address lies in the group's protected region. -/
def Group.covers (g : Group) (a : Nat) : Bool := g.base ≤ a && a < g.base + 2 ^ 21 * g.frames

/-- The valid group record whose region holds a local address: its number and contents (R128). -/
def State.groupOf (s : State) (a : Nat) : Option (Nat × Group) :=
  ((List.range 16).map (fun r => (r, s.group r))).find? (fun g => g.2.valid && g.2.covers a)

/-- The stripe of an address in a group's region (R128). -/
def Group.stripe (g : Group) (a : Nat) : Nat := (a - g.base) / 2 ^ 21

/-- The member that holds P of stripe f (R128). -/
def Group.pMember (g : Group) (f : Nat) : Nat := nth 0 g.members (f % g.n)

/-- The member that holds Q of stripe f (R128). -/
def Group.qMember (g : Group) (f : Nat) : Nat := nth 0 g.members ((f + 1) % g.n)

/-- The group keeps Q. -/
def Group.hasQ (g : Group) : Bool := bit g.flags 1

/-- The position of a module in the group. -/
def Group.position (g : Group) (m : Nat) : Nat := ((g.members.take g.n).findIdx? (· == m)).getD 0

/-- This module holds P or Q of the stripe of a local address (R92, R128). -/
def State.parityFrame (s : State) (a : Nat) : Bool :=
  match s.groupOf a with
  | none => false
  | some (_, g) =>
    g.pMember (g.stripe a) == s.mgmt.modid || (g.hasQ && g.qMember (g.stripe a) == s.mgmt.modid)

/-- F and CTX of the accumulation region record that governs a slot: the lowest-numbered valid one (R135). -/
def State.region (s : State) (a : Nat) : Option (Nat × Nat) :=
  let rec' (k : Nat) : Nat := s.readLe (0x400000 + 16 * k) 16
  let ok (r : Nat) : Bool :=
    let base := bits r 12 39 * 4096
    let len := bits r 64 32 * 4096
    bit r 96 && bits r 0 12 == 0 && bits r 51 13 == 0 && bits r 97 8 == 0 && bits r 105 7 ≤ 95 && len != 0
      && ((base + len ≤ 0x30000000000) || (0x40000000000 ≤ base && base + len ≤ 0xC0000000000))
      && base ≤ a && a < base + len
  (((List.range 256).map rec').find? ok).map (fun r => (bits r 105 7, bits r 112 16))

/-- The watched and protected bits of the host frame attribute table for a local address (R122). -/
def State.hostAttr (s : State) (a : Nat) : Bool × Bool :=
  if isHbm a then
    let k := a / 2 ^ 21
    let b := (s.byte (0x410000 + 2 * k / 8)).toNat
    (bit b (2 * k % 8), bit b (2 * k % 8 + 1))
  else (false, false)

end Sys2Proof.Machine
end

