-- ==== Sys2Proof/Machine/Codes.lean ====
section
/-! DEFINITION. What a slice holds besides the newest bytes: the form in which DRAM stores a half-line and how a read of it
is decoded, the line check, the SRAM of each slice with its sectors, and what its flipped bits do (R115, R139 to R145). -/

namespace Sys2Proof.Machine

/-! ### The stored form of a half-line (R139 to R141) -/

/-- n steps of the CRC of R141 on a register of 16 bits. -/
def crcSteps : Nat → Nat → Nat
  | 0, c => c
  | n + 1, c => crcSteps n (if bit c 15 then (2 * c) % 2 ^ 16 ^^^ 0x8BB7 else 2 * c)

/-- The line check: CRC-16, generator 0x8BB7, initial value 0, most significant bit first (R141). -/
def lineCheck (d : List Byte) : Nat := d.foldl (fun c b => crcSteps 8 (c ^^^ b.toNat * 256)) 0

/-- The 72 bytes that DRAM stores for 64: data on pins 0 to 63, check symbols on pins 64 to 69, the line check on pins 70
and 71, its high byte on pin 70 (R139). DESIGN CHOICE (unsafe), log entry 112. -/
def storedForm (d : List Byte) : List Byte :=
  d ++ (List.range 6).map (Config.checkSymbol d) ++ [lowByte (lineCheck d / 256), lowByte (lineCheck d)]

/-- The poison pattern (R140). -/
def poisonForm : List Byte := List.replicate 64 0 ++ [0xA5, 0x5A, 0xC3, 0x3C, 0x96, 0x69, 0xFF, 0xFF]

/-- Two words of pins, symbol by symbol. -/
def xorPins (x y : List Byte) : List Byte := List.zipWith (· ^^^ ·) x y

/-- The pin groups in which a pattern is not zero (R139). -/
def pinGroups (e : List Byte) : List Nat := (List.range 36).filter (fun i => nth 0 e (2 * i) != 0 || nth 0 e (2 * i + 1) != 0)

/-- Two words of pins differ in one pin group at most; the data pins are compared first. -/
def nearForm (x y : List Byte) : Bool :=
  (pinGroups (xorPins (x.take 64) (y.take 64))).length ≤ 1 && (pinGroups (xorPins x y)).length ≤ 1

/-- How a read of a half-line from DRAM is decoded (R140, R141). -/
inductive Decoded where
  /-- the poison pattern -/
  | poison
  /-- the data as they were stored: a pin group was corrected, the stored check alone disagreed -/
  | data (corrected regenerated : Bool)
  /-- data that are not those stored, though nothing was detected -/
  | wrong (d : List Byte)
  | uncorrectable
  deriving DecidableEq, Repr

/-- The outcome of decoding what the pins give, by the pin groups in which it differs from what was stored. -/
def decodeForm (pins e : List Byte) (poisoned : Bool) : Decoded :=
  let g := pinGroups e
  let rs := g.filter (· < 35)
  if nearForm pins poisonForm then .poison
  else if !poisoned && rs.length ≤ 1 then .data (rs.length == 1) (g.contains 35)
  else if rs.length ≤ 2 then .uncorrectable
  else match Config.decodesTo pins with
    | none => .uncorrectable
    | some d => .wrong d

/-- What the pins give for a half-line with an error pattern. -/
def State.pinsOf (s : State) (h : Nat) (e : List Byte) : List Byte :=
  xorPins (if s.poison.contains h then poisonForm else storedForm (s.bytes h 64)) e

/-- The half-line in DRAM has been written: its codes are sound (R139). -/
def State.rewritten (s : State) (h : Nat) : State := { s with errors := s.errors.filter (fun e => e.1 != h) }

/-- A half-line becomes poison, and is counted in POISONW (R121, R140). -/
def State.countPoison (s : State) (h : Nat) : State :=
  (s.poisonHalf h).setSlice (sliceOf h) (fun c => { c with poisonw := satAdd 16 c.poisonw 1 })

/-- The pins of a half-line give the poison pattern: it is poisoned from then on, the pattern with the one pin group in which
they still differ from it being what DRAM stores (R140). It is counted nowhere. -/
def State.readsPoison (s : State) (h : Nat) (pins : List Byte) : State :=
  if s.poison.contains h then s
  else
    let t := (s.rewritten h).poisonHalf h
    let e := xorPins pins poisonForm
    if (pinGroups e).isEmpty then t else { t with errors := (h, e) :: t.errors }

/-- A read of a half-line from DRAM: it is corrected and written back, its check regenerated, or poisoned, each counted once
(R121, R140, R141). -/
def State.decodeHalf (s : State) (h : Nat) : State :=
  match s.errors.find? (fun e => e.1 == h) with
  | none => s
  | some (_, e) =>
    let t := s.rewritten h
    match decodeForm (s.pinsOf h e) e (s.poison.contains h) with
    | .poison => s.readsPoison h (s.pinsOf h e)
    | .data fixed again =>
      t.setSlice (sliceOf h) (fun c =>
        { c with dce := satAdd 32 c.dce (b2n fixed), lcregen := satAdd 16 c.lcregen (b2n again) })
    | .wrong d =>
      (t.setCells (cellsAt h (d.take 64))).setSlice (sliceOf h) (fun c =>
        { c with dce := satAdd 32 c.dce 1, lcregen := satAdd 16 c.lcregen (b2n (lineCheck d != lineCheck (s.bytes h 64) ^^^ ((nth 0 e 70).toNat * 256 + (nth 0 e 71).toNat))) })
    | .uncorrectable => ((t.sliceError h).countPoison h).setSlice (sliceOf h) (fun c => { c with due := satAdd 32 c.due 1 })

/-! ### Sectors of SRAM (R143) -/

/-- What a read of a sector finds. -/
inductive SectorFate where
  | sound
  | corrected
  | lost
  /-- errors beyond the code that pass unseen -/
  | wrong
  deriving DecidableEq, Repr

/-- The strength that three tag bits name by majority (R143). -/
def tagOf (t : BitVec 3) : Nat := if 2 ≤ b2n (t.getLsbD 0) + b2n (t.getLsbD 1) + b2n (t.getLsbD 2) then 1 else 0

/-- SECDED corrects one flipped bit and detects two, DEC-TED corrects two and detects three; a sector is read under the
strength that its tag bits name (R143). DESIGN CHOICE (safe), log entry 102. -/
def SectorFlaw.fate (f : SectorFlaw) (draw : Nat) : SectorFate :=
  let fix := tagOf f.tags + 1
  if tagOf f.tags = f.code && f.flips ≤ fix then (if f.flips = 0 && f.tags.toNat % 7 = 0 then .sound else .corrected)
  else if tagOf f.tags = f.code && f.flips = fix + 1 then .lost
  else if Config.passesUnseen draw then .wrong else .lost

/-- Nothing has failed: every pin gives what was stored, every sector what was written, and none is to be encoded anew. -/
def State.Faultless (s : State) : Prop := s.errors = [] ∧ s.sramFlaws = [] ∧ ∀ k, (s.slice k).walk = []

/-! ### The lines of a slice's SRAM (R115) -/

/-- A line in the SRAM of its slice. -/
def State.sramLine (s : State) (line : Nat) : Option SramLine := s.sram.find? (fun x => x.line == line)

/-- With a line of the SRAM changed. -/
def State.updSram (s : State) (line : Nat) (f : SramLine → SramLine) : State :=
  { s with sram := s.sram.map (fun x => if x.line == line then f x else x) }

/-- Sector n, 0 to 3, as a mask. -/
def sectorBit (n : Nat) : BitVec 4 := BitVec.ofNat 4 (2 ^ n)

/-- Bytes of sector n of a line, as a mask. -/
def sectorBytes (n : Nat) : BitVec 128 := BitVec.ofNat 128 ((2 ^ 32 - 1) * 2 ^ (32 * n))

/-- Some byte of sector n is dirty. -/
def SramLine.dirtyAt (x : SramLine) (n : Nat) : Bool := x.dirty &&& sectorBytes n != 0

/-- Every byte of sector n is there: it is valid, or was written whole. -/
def SramLine.has (x : SramLine) (n : Nat) : Bool := x.valid.getLsbD n || x.dirty &&& sectorBytes n == sectorBytes n

/-- The sectors that n bytes of a line from offset o touch. -/
def sectorsOf (o n : Nat) : BitVec 4 :=
  (List.range 4).foldl (fun m k => if k * 32 < o + n && o < (k + 1) * 32 then m ||| sectorBit k else m) 0

/-- A half-line does not match its line check: it is poisoned, and counted (R141). -/
def State.failLine (s : State) (h : Nat) : State :=
  (s.countPoison h).setSlice (sliceOf h) (fun c => { c with lcbad := satAdd 16 c.lcbad 1 })

/-- The line check of a half-line, verified after bits of it have changed unseen: on a mismatch it is poisoned and counted
(R141). -/
def State.verifyLine (before s : State) (h : Nat) : State :=
  if lineCheck (s.bytes h 64) = lineCheck (before.bytes h 64) then s else s.failLine h

/-- A sector of SRAM is read, of a line that the SRAM holds: corrected in place; lost, to be fetched again where it is clean,
its half-line poisoned where it is dirty; or wrong unseen, until the line check finds it (R140, R141, R143). -/
def State.meetSram (s : State) (line n : Nat) : State :=
  let k := line / 32 + n
  match s.sramFlaws.find? (fun f => f.sector == k) with
  | none => s
  | some f =>
    let t : State := { s with sramFlaws := s.sramFlaws.filter (fun g => g.sector != k) }
    let h := halfOf (line + 32 * n)
    match f.fate s.freeCtr with
    | .sound => t
    | .corrected => t.setSlice (sliceOf line) (fun c => { c with sce := satAdd 32 c.sce 1 })
    | .lost =>
      let u := (t.sliceError line).setSlice (sliceOf line) (fun c => { c with sue := satAdd 32 c.sue 1 })
      if (s.sramLine line).any (·.dirtyAt n) then u.countPoison h
      else u.updSram line (fun x => { x with valid := x.valid &&& ~~~ (sectorBit n) })
    | .wrong =>
      State.verifyLine s (({ t with freeCtr := s.freeCtr + 1 } : State).setCells
        ((List.range 32).map (fun j => (line + 32 * n + j, Config.strayByte (32 * s.freeCtr + j))))) h

/-- The sectors among some of a line that the SRAM holds are read. -/
def State.meetSectors (s : State) (line : Nat) (sec : BitVec 4) : State :=
  if s.sramFlaws.isEmpty then s
  else ((List.range 4).filter (fun n => sec.getLsbD n && (s.sramLine line).any (·.has n))).foldl (fun t n => t.meetSram line n) s

/-- A line of the SRAM needs no new code any longer; REENC clears with the last (R145). -/
def State.leaveWalk (s : State) (line : Nat) : State :=
  if (s.slice (sliceOf line)).walk.contains line then
    s.setSlice (sliceOf line) (fun c =>
      { c with walk := c.walk.filter (· != line), reenc := c.reenc && !(c.walk.filter (· != line)).isEmpty })
  else s

/-- A line leaves the SRAM: half-lines with dirty bytes are written to DRAM whole, what they lack read from there first
(R115). -/
def State.evictSram (s : State) (x : SramLine) : State :=
  let t := s.meetSectors x.line 0xF#4
  let one (u : State) (k : Nat) : State :=
    if !(x.dirtyAt (2 * k) || x.dirtyAt (2 * k + 1)) then u
    else (if x.has (2 * k) && x.has (2 * k + 1) then u else u.decodeHalf (x.line + 64 * k)).rewritten (x.line + 64 * k)
  let u := [0, 1].foldl one t
  { u with sram := u.sram.filter (fun y => y.line != x.line)
           sramFlaws := u.sramFlaws.filter (fun f => f.sector / 4 != x.line / 128) }.leaveWalk x.line

/-- The line that leaves for another: of a full set the least recently used, lines of policy 4 last (R115). -/
def State.sramVictim (s : State) (line : Nat) : Option SramLine :=
  let mine := s.sram.filter (fun x => sliceOf x.line == sliceOf line)
  if mine.length < 16 then none
  else
    let set := mine.filter (fun x => Config.sliceSet x.line == Config.sliceSet line)
    if set.length < 16 then none else (set.reverse.find? (fun x => !x.keep)).or set.getLast?

/-- The line of the SRAM that an access uses, the most recently used from now on; one that is not there is allocated. -/
def State.useLine (s : State) (line : Nat) (keep : Bool) : State :=
  match s.sramLine line with
  | some x => { s with sram := { x with keep := x.keep || keep } :: s.sram.filter (fun y => y.line != line) }
  | none =>
    let t := match s.sramVictim line with | some v => s.evictSram v | none => s
    { t with sram := { line, valid := 0, dirty := 0, code := 0, keep } :: t.sram }

/-- The strength that a slice encodes sectors under, as a mask of sectors. -/
def State.codeMask (s : State) (line : Nat) : BitVec 4 := if (s.slice (sliceOf line)).ecc = 1 then 0xF#4 else 0

/-- Sectors of a line are filled: those that are not there are read from DRAM, and, where the line is allocated, become
valid under the code in force. -/
def State.fillSectors (s : State) (line : Nat) (sec : BitVec 4) (allocate : Bool) (keep : Bool) : State :=
  let here (n : Nat) : Bool := (s.sramLine line).any (·.has n)
  let miss := (List.range 4).filter (fun n => sec.getLsbD n && !here n)
  let t := (distinct (miss.map (· / 2))).foldl (fun u k => u.decodeHalf (line + 64 * k)) s
  if !allocate then t
  else
    let got := miss.foldl (fun m n => m ||| sectorBit n) 0
    (t.useLine line keep).updSram line (fun x =>
      { x with valid := x.valid ||| got, code := (x.code &&& ~~~ got) ||| (t.codeMask line &&& got) })

/-- A line has a place in its slice's SRAM, or an access under a policy gives it one: all but one of policy 3 to a page
neither watched nor protected (R115). -/
def State.allocates (s : State) (line policy : Nat) (guarded : Bool) : Bool := policy != 3 || guarded || (s.sramLine line).isSome

/-- Lines that n bytes from a touch. -/
def linesFrom (a n : Nat) : List Nat := (List.range ((a + n - 1) / 128 + 1 - a / 128)).map (fun k => 128 * (a / 128 + k))

/-- Sectors of a line are read at its slice, for an access under a policy: what the SRAM holds is read there, the rest comes
from DRAM (R115). -/
def State.touchSectors (s : State) (line : Nat) (sec : BitVec 4) (guarded : Bool) (policy : Nat) : State :=
  let t := s.meetSectors line sec
  t.fillSectors line sec (t.allocates line policy guarded) (policy == 4)

/-- A read of n bytes at their slices, or, by whole lines, for an operation on them; `guarded` says that their page is watched
or protected (R115). -/
def State.touchWith (s : State) (a n : Nat) (whole guarded : Bool) (policy : Nat) : State :=
  (linesFrom a n).foldl (fun t line =>
    t.touchSectors line (if whole then 0xF#4 else sectorsOf (max a line - line) (min (a + n) (line + 128) - max a line)) guarded policy) s

/-- A read of n bytes at their slices. -/
def State.touch (s : State) (a n : Nat) : State := s.touchWith a n false false 0

/-- The lines of n bytes are filled for an operation on them (R115). -/
def State.touchLine (s : State) (a n : Nat) : State := s.touchWith a n true true 0

/-- The bytes of some cells that lie in a line, as a mask. -/
def cellMask (line : Nat) (cells : List (Nat × Byte)) : BitVec 128 :=
  cells.foldl (fun m c => if lineOf c.1 = line then m ||| BitVec.ofNat 128 (2 ^ (c.1 - line)) else m) 0

/-- A half-line is about to be written by some cells: a write to a watched or protected page finds its whole line filled;
another finds read the sectors of the SRAM that it merges into; one that allocates nothing reads DRAM where it does not
replace the half-line (R115, R141). -/
def State.openHalf (s : State) (h : Nat) (cells : List (Nat × Byte)) (guarded : Bool) (policy : Nat) : State :=
  let line := lineOf h
  let m := cellMask line cells
  let whole (n : Nat) : Bool := m &&& sectorBytes n == sectorBytes n
  if guarded then s.touchLine line 128
  else
    let part := ([h / 32 % 4, h / 32 % 4 + 1].filter (fun n => !whole n)).foldl (fun x n => x ||| sectorBit n) 0
    let t := s.meetSectors line part
    if t.allocates line policy false || part == 0 then t else t.decodeHalf h

/-- A half-line has been written by some cells: they are valid and dirty in the SRAM, encoded under the code in force, or,
where the line is not allocated, the half-line in DRAM has been written (R115, R145). -/
def State.closeHalf (s : State) (h : Nat) (cells : List (Nat × Byte)) (guarded : Bool) (policy : Nat) : State :=
  let line := lineOf h
  let m := cellMask line cells
  if !s.allocates line policy guarded then s.rewritten h
  else
    let secs := ((List.range 4).filter (fun n => m &&& sectorBytes n != 0)).foldl (fun x n => x ||| sectorBit n) 0
    let t := (s.useLine line (policy == 4)).updSram line (fun x =>
      { x with dirty := x.dirty ||| m, code := (x.code &&& ~~~ secs) ||| (s.codeMask line &&& secs) })
    { t with sramFlaws := t.sramFlaws.filter (fun f => !(f.sector / 4 == line / 128 && secs.getLsbD (f.sector % 4))) }

/-- Bytes that the device itself writes at their slices, past the comparator. -/
def State.putCells (s : State) (cells : List (Nat × Byte)) : State :=
  (distinct (cells.map (fun c => halfOf c.1))).foldl (fun t h =>
    let mine := cells.filter (fun c => halfOf c.1 == h)
    ((t.openHalf h mine false 0).setCells mine).closeHalf h mine false 0) s

end Sys2Proof.Machine
end

