-- ==== Sys2Proof/Machine/Tables.lean ====
section
/-! DEFINITION. Page-table entries and the walk (R88 to R93), home modules (R96), and the accesses the device makes on a
context's behalf (R104, R451). -/

namespace Sys2Proof.Machine

/-! ### Fields of a leaf (R91) -/

def leafTier (e : Nat) : Nat := bits e 62 2
def leafWatch (e : Nat) : Bool := bit e 61
def leafProt (e : Nat) : Bool := bit e 60
def leafModule (e : Nat) : Nat := bits e 51 9
/-- The frame's local address. -/
def leafFrame (e : Nat) : Nat := bits e 12 39 * 4096
def leafSeal (e : Nat) : Bool := bit e 11
def leafGrain (e : Nat) : Nat := bits e 9 2
def leafOrd (e : Nat) : Nat := bits e 7 2
def leafPriv (e : Nat) : Bool := bit e 6
def leafEx (e : Nat) : Bool := bit e 5
def leafWr (e : Nat) : Bool := bit e 4
def leafRd (e : Nat) : Bool := bit e 3
def leafSwr (e : Nat) : Bool := bit e 2

/-- Page size of a tier (R88). -/
def tierSize (t : Nat) : Nat := if t = 0 then 2 ^ 21 else if t = 3 then 2 ^ 12 else 2 ^ 16

/-- The frame lies in the window of its tier (R88). -/
def tierWindow (t a : Nat) : Bool :=
  if t = 0 then isHbm a
  else if t = 1 then isLpd a
  else if t = 2 then 0x180000000000 ≤ a && a < 0x200000000000
  else 0x100000000000 ≤ a && a < 0x180000000000

/-- A leaf of a page of the given size is well formed (R92). -/
def leafOk (s : State) (size e : Nat) : Bool :=
  leafGrain e != 3 && leafOrd e != 3 && tierSize (leafTier e) == size && leafFrame e % size == 0
    && tierWindow (leafTier e) (leafFrame e)
    && (leafTier e < 2 || leafModule e == s.mgmt.modid)
    && (!leafProt e || leafTier e == 0) && (!leafWatch e || leafTier e ≤ 1)
    && !(leafWr e && leafSeal e) && (!leafSwr e || leafSeal e)
    && !(leafProt e && leafModule e == s.mgmt.modid && (s.parityFrame (leafFrame e) || (s.groupOf (leafFrame e)).isNone))

/-- A pointer entry at a level is well formed (R90, R92). -/
def pointerOk (level e : Nat) : Bool :=
  bits e 51 13 == 0 && bits e 3 5 == 0 && (level == 3 || !bit e 2)
    && (bit e 2 || bits e 8 4 == 0) && isDram (bits e 8 43 * 256)

/-- The next table of a pointer entry (R90). -/
def pointerNext (e : Nat) : Nat := bits e 8 43 * 256

/-- How a walk ends: at a leaf, with its page's virtual base and size, its local address and the entry; at an invalid
entry, or at a malformed one, of a level, where 5 stands for level 4S (R92, R93). -/
inductive Walk where
  | leaf (base size at_ e : Nat)
  | invalid (level : Nat)
  | malformed (level : Nat)
  deriving DecidableEq, Repr

/-- The leaf tables: level 4S or level 4 (R89). -/
def walkLast (s : State) (va table : Nat) (s64 : Bool) : Walk :=
  let a := if s64 then table + 8 * bits va 16 5 else table + 8 * bits va 12 9
  let size := if s64 then 2 ^ 16 else 2 ^ 12
  let l := if s64 then 5 else 4
  let e := s.readLe a 8
  if s.poisoned a then .malformed l
  else if !bit e 0 then .invalid l
  else if bit e 1 && leafOk s size e then .leaf (alignDown va size) size a e
  else .malformed l

/-- Level 3 (R89). -/
def walk3 (s : State) (va table : Nat) : Walk :=
  let a := table + 8 * bits va 21 9
  let e := s.readLe a 8
  if s.poisoned a then .malformed 3
  else if !bit e 0 then .invalid 3
  else if bit e 1 then
    (if leafOk s (2 ^ 21) e then .leaf (alignDown va (2 ^ 21)) (2 ^ 21) a e else .malformed 3)
  else if pointerOk 3 e then walkLast s va (pointerNext e) (bit e 2)
  else .malformed 3

/-- Levels 0 to 2, whose entries are pointers (R89): the level, and how many more of them follow it. -/
def walkUpper (s : State) (va : Nat) : Nat → Nat → Nat → Walk
  | 0, _, table => walk3 s va table
  | n + 1, level, table =>
    let a := table + 8 * (if level = 0 then bits va 48 8 else if level = 1 then bits va 39 9 else bits va 30 9)
    let e := s.readLe a 8
    if s.poisoned a then .malformed level
    else if !bit e 0 then .invalid level
    else if !bit e 1 && pointerOk level e then walkUpper s va n (level + 1) (pointerNext e)
    else .malformed level

/-- The root table that a walk reads, where it lies in a memory of the module: a reserved window is never accessed (R14, R95). -/
def State.rootTable (s : State) (c : Nat) : Option Nat := (s.rootOf c).filter isDram

/-- The walk of a context's tables for a virtual address (R89, R93). A context that does not exist has no entry, and neither has
a root table that lies outside the memories. DESIGN CHOICE (unsafe), log entry 104. -/
def walk (s : State) (ctx va : Nat) : Walk :=
  match s.rootTable ctx with
  | none => .invalid 0
  | some root => walkUpper s va 3 0 root

/-- The walk from a table of a level on; 5 stands for level 4S. -/
def walkFrom (s : State) (va level table : Nat) : Walk :=
  if level ≤ 2 then walkUpper s va (3 - level) level table
  else if level = 3 then walk3 s va table
  else walkLast s va table (level == 5)

/-- The index of a level's table that an address selects; 5 stands for level 4S (R89). -/
def walkIndex (level va : Nat) : Nat :=
  match level with
  | 0 => bits va 48 8
  | 1 => bits va 39 9
  | 2 => bits va 30 9
  | 3 => bits va 21 9
  | 4 => bits va 12 9
  | _ => bits va 16 5

/-- The level below a pointer entry of a level (R89, R90). -/
def levelBelow (level e : Nat) : Nat := if level = 3 then (if bit e 2 then 5 else 4) else level + 1

/-- The entries that a walk reads are read at their slices, from a table on; fuel is the number of levels left (R93). -/
def State.walkReads (va : Nat) : Nat → Nat → Nat → State → State
  | 0, _, _, s => s
  | n + 1, level, table, s =>
    let a := table + 8 * walkIndex level va
    let t := s.touch a 8
    let e := t.readLe a 8
    if level ≤ 3 && bit e 0 && !bit e 1 && pointerOk level e && !t.poisoned a then
      State.walkReads va n (levelBelow level e) (pointerNext e) t
    else t

/-- A walk of a context's tables reads its entries at their slices (R93). -/
def State.walked (s : State) (ctx va : Nat) : State :=
  if va < 2 ^ 56 then (match s.rootTable ctx with | some root => s.walkReads va 5 0 root | none => s) else s

/-- The leaf of an address of the implemented range, if its walk ends at one (R86, R93). -/
def leafAt (s : State) (ctx va : Nat) : Option (Nat × Nat × Nat) :=
  if va < 2 ^ 56 then
    match walk s ctx va with
    | .leaf base size _ e => some (base, size, e)
    | _ => none
  else none

/-- The domain physical address of a virtual address under a leaf. -/
def leafPhys (e base va : Nat) : Nat := dpa (leafModule e) (leafFrame e + (va - base))

/-- A word of this module's own memory. -/
def Located.ownDram (p : Located) (s : State) : Bool := dpaModule p.phys == s.mgmt.modid && isDram (dpaLocal p.phys)

/-- An access the device makes on a context's behalf, of n bytes within one page: the local address when the page is a
valid, well-formed leaf of the own module's memory granting the rights (R451). DEDUCED (unsafe), log entry 53. -/
def deviceAddr (s : State) (ctx va n : Nat) (rd wr : Bool) : Option (Nat × Nat) :=
  match leafAt s ctx va with
  | none => none
  | some (base, size, e) =>
    let a := leafFrame e + (va - base)
    if (!rd || leafRd e) && (!wr || leafWr e) && va + n ≤ base + size && leafModule e == s.mgmt.modid && leafTier e ≤ 1
      && !(rd && s.anyPoison a n)
    then some (a, e) else none

/-- Such an access as it is made: the walk reads its entries at their slices, and a read its bytes (R93, R140, R451). -/
def State.deviceReach (s : State) (ctx va n : Nat) (rd wr : Bool) : State × Option (Nat × Nat) :=
  let t := s.walked ctx va
  let u := match deviceAddr t ctx va n false wr with
    | some (a, _) => if rd then t.touch a n else t
    | none => t
  (u, deviceAddr u ctx va n rd wr)

/-- The home module of a virtual page: its leaf's, else the first ownership entry that contains it, else the own module
(R96). -/
def homeModule (s : State) (ctx va : Nat) : Nat :=
  match leafAt s ctx va with
  | some (_, _, e) => leafModule e
  | none =>
    let own := s.ctxOwn ctx
    let entry (k : Nat) : Nat := s.readLe (bits own 4 47 * 16 + 16 * k) 16
    let ok (x : Nat) : Bool := bits x 0 21 == 0 && bits x 64 32 != 0 && bits x 105 7 == 0 && bits x 112 16 == 0
    let es := (List.range (bits own 58 6)).map entry
    if bits own 51 7 != 0 || !(es.all ok) then s.mgmt.modid
    else match es.find? (fun x => bits x 0 64 ≤ va && va < bits x 0 64 + 2 ^ 21 * bits x 64 32) with
      | some x => bits x 96 9
      | none => s.mgmt.modid

end Sys2Proof.Machine
end

