-- ==== Sys2Proof/Machine/Slices.lean ====
section
/-! DEFINITION. What happens as a write commits at its slice: refusals, the comparator, parity deltas, triggers and the
spill ring, and the records that units keep cached (R119, R123 to R131, R142, R345 to R353). -/

namespace Sys2Proof.Machine

/-! ### Events for later, and deferred causes (R353) -/

/-- With an event posted for a later step. -/
def State.postEvent (s : State) (e : Event) : State := { s with agenda := s.agenda ++ [e] }

/-- An event is posted unless it is already. -/
def State.postOnce (s : State) (e : Event) : State := if s.agenda.contains e then s else s.postEvent e

/-- The gang of an identity. -/
def State.gang (s : State) (id : Nat) : Option Gang := s.gangs.find? (fun g => g.id == id)

/-- With the gang of g's identity replaced by g. -/
def State.setGang (s : State) (g : Gang) : State :=
  { s with gangs := s.gangs.map (fun h => if h.id == g.id then g else h) }

/-- With the gang of an identity changed. -/
def State.updGang (s : State) (id : Nat) (f : Gang → Gang) : State :=
  { s with gangs := s.gangs.map (fun h => if h.id == id then f h else h) }

/-- The gang of an identity, resident or saved at a pre-emption (R395). -/
def State.heldGang (s : State) (id : Nat) : Option Gang :=
  (s.gang id).or (s.crews.findSome? (fun c => c.saved.find? (fun g => g.id == id)))

/-- With the gang of an identity changed, resident or saved. -/
def State.updHeld (s : State) (id : Nat) (f : Gang → Gang) : State :=
  { s.updGang id f with
    crews := s.crews.map (fun c => { c with saved := c.saved.map (fun g => if g.id == id then f g else g) }) }

/-- WHO of a record: CNUM, slot and TIDX of a gang (R377). -/
def whoOf (g : Gang) : Nat := g.core + g.slot * 2 ^ 16 + g.tidx * 2 ^ 24

/-- A deferred cause becomes pending for a gang; a cause of a kind already pending is absorbed (R353). -/
def Gang.defer (g : Gang) (c addr : Nat) : Gang :=
  if c = 0x09 then { g with d09 := g.d09.or (some (dw addr)) }
  else if c = 0x13 then { g with d13 := g.d13.or (some (dw addr)) }
  else { g with d0a := g.d0a.or (some (dw addr)) }

/-- The KIND 2 record of a deferred cause whose gang has exited (R353, R377). -/
def exitedRec (ctx c addr who crewv : Nat) : LogRec :=
  { ctx, cause := c, kind := 2, aux := 0, who, info := 0, crewv, lanes := 0, pc := 0, addr }

/-- A deferred cause reaches a gang, or the log of its context when it has exited (R128, R136, R352). The resident on a
control core takes none: its refusals are machine checks (R128, R142). DEDUCED (unsafe), log entry 47. -/
def State.deferTo (s : State) (id ctx c addr : Nat) : State :=
  match s.heldGang id with
  | none =>
    let w := ((s.gone.find? (fun x => x.1 == id)).map (·.2)).getD (0, 0)
    s.post (exitedRec ctx c addr w.1 w.2)
  | some g => if Config.cores ≤ g.core then s else s.updHeld id (fun h => h.defer c addr)

/-- Who learns of a refused or cascading write at a slice (R128, R130, R142, R352). DEDUCED (unsafe), log entry 60. -/
def State.tellOrigin (s : State) (o : Origin) (ctx c addr : Nat) : State :=
  match o with
  | .gang id => s.deferTo id ctx c addr
  | .coll id =>
    match s.colls.find? (fun k => k.id == id) with
    | some k => k.slices.foldl (fun t sl => t.deferTo sl.gang ctx c addr) s
    | none => s
  | .host => s
  | .resident => s
  | .peer _ _ => s
  | .device => s

/-! ### Triggers -/

/-- The watch of a local address and the address's virtual address (R347, R348). -/
def State.watchAt (s : State) (a : Nat) : Option (Watch × Nat) :=
  s.watches.findSome? (fun w =>
    (w.pages.find? (fun p => p.2.2 ≤ a && a < p.2.2 + p.2.1)).map (fun p => (w, p.1 + (a - p.2.2))))

/-- The local address of the first byte of granule i of a watch. -/
def Watch.granuleAddr (w : Watch) (i : Nat) : Nat :=
  let va := w.base + i * 2 ^ w.glog
  match w.pages.find? (fun p => p.1 ≤ va && va < p.1 + p.2.1) with
  | some p => p.2.2 + (va - p.1)
  | none => 0

/-- DLIM as decoded (R346). -/
def Watch.limit (w : Watch) : Nat := if w.dlim = 0 then 8 else w.dlim

/-- FILTER admits a source kind; a store of the resident counts as a local store (R346). -/
def Watch.admits (w : Watch) (kind : Nat) : Bool := bit w.filter (if kind = 4 then 0 else kind)

/-- With the watch of the same context and id replaced. -/
def State.setWatch (s : State) (w : Watch) : State :=
  { s with watches := s.watches.map (fun v => if v.ctx == w.ctx && v.id == w.id then w else v) }

/-- The device writes bytes 63:48 of a watch descriptor's D fields, and holds what it has written; a failed access drops the
update (R346, R451). -/
def State.writeDFields (s : State) (w : Watch) : State :=
  match s.deviceReach w.ctx w.descVa 64 false true with
  | (t, none) => t.machineCheck 11 w.descVa w.ctx
  | (t, some (a, _)) =>
    (t.setWatch w).putCells (cellsAt (a + 48) (leBytes 1 (b2n w.lostf)) ++ cellsAt (a + 52) (leBytes 2 w.shead)
      ++ cellsAt (a + 54) (leBytes 2 w.stail) ++ cellsAt (a + 56) (leBytes 4 w.fired)
      ++ cellsAt (a + 60) (leBytes 4 w.lostn))

/-- A trigger is lost: LOSTN and LOSTF (R350). -/
def State.loseTrigger (s : State) (w : Watch) : State :=
  s.writeDFields { w with lostn := satAdd 32 w.lostn 1, lostf := true }

/-- Appends a record to a watch's spill ring, or loses the trigger (R350, R451). -/
def State.spill (s : State) (w : Watch) (gidx depth kind : Nat) : State :=
  if w.spilln = 0 || (w.stail + 2 ^ 16 - w.shead) % 2 ^ 16 == w.spilln then s.loseTrigger w
  else
    let va := w.spill + 8 * (w.stail % w.spilln)
    match s.deviceReach w.ctx va 8 false true with
    | (t, none) => (t.machineCheck 11 va w.ctx).loseTrigger w
    | (t, some (a, _)) =>
      ((t.putCells (cellsAt a (leBytes 8 (gidx + depth * 2 ^ 57 + kind * 2 ^ 61)))).writeDFields
        { w with stail := (w.stail + 1) % 2 ^ 16 }).postEvent (.spillRefill w.ctx w.id)

/-- The task that a trigger entry offers to the hub of its die (R349, R355, R363). -/
def triggerTask (id clock : Nat) (w : Watch) (slice gidx depth kind : Nat) : HubTask :=
  { id, die := slice / 48, ctx := w.ctx, source := .trigger slice w.id gidx depth kind, entry := w.entry, args := [],
    shape := w.shape, leaseVa := w.lease, tdepth := depth, cls := bits w.shape 23 2, arrival := clock, since := clock,
    lease := .none, poster := w.ctx, spilled := none, unwritten := false }

/-- Takes a pending entry and offers it to the hub of its die as a task (R349, R363). -/
def State.takeEntry (s : State) (w : Watch) (slice gidx depth kind : Nat) : State :=
  { s with
    pending := s.pending ++ [{ slice, ctx := w.ctx, watch := w.id, gidx, depth, kind, offered := true }],
    tasks := s.tasks ++ [triggerTask s.fresh s.clock w slice gidx depth kind],
    agenda := s.agenda ++ [.leaseEstablish s.fresh, .taskAging s.fresh, .coreReservation s.fresh],
    fresh := s.fresh + 1 }

/-- Entries of a trigger unit, of one watch or of all (R349). -/
def State.pendingCount (s : State) (slice : Nat) (w : Option Watch) : Nat :=
  (s.pending.filter (fun e => e.slice == slice && w.all (fun v => v.ctx == e.ctx && v.id == e.watch))).length

/-- An entry of a trigger unit for a granule of a watch. -/
def Pending.isFor (e : Pending) (slice : Nat) (w : Watch) (gidx : Nat) : Bool :=
  e.slice == slice && e.ctx == w.ctx && e.watch == w.id && e.gidx == gidx

/-- Coalesces, takes an entry or spills: Trigger of R349 past its depth check. -/
def State.enterTrigger (s : State) (w : Watch) (gidx depth kind : Nat) : State :=
  let slice := sliceOf (w.granuleAddr gidx)
  if s.pending.any (fun e => e.isFor slice w gidx) then
    { s with pending := s.pending.map (fun e => if e.isFor slice w gidx then { e with depth := max e.depth depth } else e) }
  else if s.pendingCount slice (some w) < w.quota && s.pendingCount slice none < Config.pendingTable then
    s.takeEntry w slice gidx depth kind
  else s.spill w gidx depth kind

/-- Trigger(slice, granule, depth) (R349): a change beyond DLIM is refused to its writer with cause 0x0A (R352). -/
def State.trigger (s : State) (w : Watch) (gidx depth kind ctx : Nat) (o : Origin) : State × List (Nat × Nat) :=
  if w.limit < depth then
    let a := dpa s.mgmt.modid (w.granuleAddr gidx)
    (s.tellOrigin o ctx 0x0A a, [(0x0A, a)])
  else (s.enterTrigger w gidx depth kind, [])

/-- The granules of watches that changed bytes lie in, for a source kind (R125, R348). -/
def State.changedGranules (s : State) (changed : List Nat) (kind : Nat) : List (Nat × Nat × Nat) :=
  distinct (changed.filterMap (fun a =>
    match s.watchAt a with
    | none => none
    | some (w, va) =>
      if w.base ≤ va && va < w.base + w.len && w.admits kind then some (w.ctx, w.id, (va - w.base) / 2 ^ w.glog)
      else none))

/-- Triggers for every changed granule of one write (R125). -/
def State.triggers (s : State) (changed : List Nat) (depth kind ctx : Nat) (o : Origin) : State × List (Nat × Nat) :=
  (s.changedGranules changed kind).foldl (fun r k =>
    match r.1.watches.find? (fun w => w.ctx == k.1 && w.id == k.2.1) with
    | none => r
    | some w =>
      let q := r.1.trigger w k.2.2 depth kind ctx o
      (q.1, r.2 ++ q.2)) (s, [])

/-! ### Parity deltas -/

/-- Doubling in GF(2^8) with polynomial 0x11D (R128). -/
def gfDouble (x : Nat) : Nat := if x < 128 then 2 * x else (2 * x) ^^^ 0x11D

/-- g^j × x in GF(2^8), g = 2 (R128). -/
def gfScale : Nat → Nat → Nat
  | 0, x => x
  | j + 1, x => gfDouble (gfScale j x)

/-- A tag not used before. DESIGN CHOICE (safe), log entry 75. -/
def State.freshTag (s : State) : State × Nat := ({ s with fresh := s.fresh + 1 }, s.fresh)

/-- SKIND of a packet for a writer's source kind: a local store is a store of a remote module where it commits (R354).
DEDUCED (unsafe), log entry 59. -/
def packetKind (k : Nat) : Nat := if k = 0 then 2 else k

/-- Where accesses to a local address of a module go: to the replacement, once the frame has been rebuilt there (R403). -/
def State.homeFor (s : State) (m a : Nat) : Nat :=
  ((s.rebuilt.find? (fun r => r.1 == m && r.2.1 == alignDown a (2 ^ 21))).map (·.2.2)).getD m

/-- A packet of this module with nothing but its kind, destination and tag (R419). -/
def blankPacket (src dst kind tag : Nat) : Packet :=
  { kind, ctx := 0, depth := 0, skind := 0, scope := 0, ord := 0, src, dst, tag, watched := false, prot := false,
    addr := 0, data := [], len := 0, count := 0, port := none, mask := [], status := 0, near := [], op := 0, delta := none,
    refusals := [] }

/-- A port that has not trained. DESIGN CHOICE (unsafe), log entry 17. -/
def PortSt.zero : PortSt := { up := false, trained := false, peer := 0, retry := 0, acked := 0 }

/-- Port n. -/
def State.port (s : State) (n : Nat) : PortSt := sget PortSt.zero s.ports n

/-- XOR of the 6-bit groups of address bits 50:7. -/
def fold6 (a : Nat) : Nat := (List.range 8).foldl (fun r k => r ^^^ bits (bits a 7 44) (6 * k) 6) 0

/-- The port that a packet leaves on: the next higher that is UP, wrapping round; none when no port is.
DEDUCED (unsafe), log entry 61. -/
def State.route (s : State) (dst a : Nat) : Option Nat :=
  ((List.range 48).map (fun k => ((dst + fold6 a) % 48 + k) % 48)).find? (fun n => (s.port n).up)

/-- A packet with the port that it leaves on (R421). -/
def State.routed (s : State) (p : Packet) : Packet := { p with port := s.route p.dst p.addr }

/-- A delta leaves for a parity member; one for a lost member is held (R129, R341, R401). DEDUCED (unsafe), log entry 64. -/
def State.sendDelta (s : State) (dest parity ctx : Nat) (m : DeltaMsg) (o : Origin) : State :=
  let held := s.lost.contains dest
  let tag := s.fresh
  let m' := { m with tag := tag }
  let t := { s with
    fresh := s.fresh + 1
    deltas := s.deltas ++ [{ tag, ctx, org := o, dest, parity, msg := m', held, covered := false }]
    out := if held then s.out
      else s.out ++ [s.routed { blankPacket s.mgmt.modid dest 7 tag with ctx, addr := m.target, delta := some m' }] }
  match o with
  | .gang id => t.updGang id (fun g => { g with unacked := g.unacked + 1 })
  | _ => t

/-- The deltas of one changed half-line (R127 to R129): offsets in the half-line with new XOR old. -/
def State.sendDeltas (s : State) (h : Nat) (bytes : List (Nat × Byte)) (ctx : Nat) (o : Origin) : State :=
  match s.groupOf h with
  | none => s
  | some (_, g) =>
    let m : DeltaMsg := { target := h, stripe := g.stripe h, pos := g.position s.mgmt.modid, tag := 0, src := s.mgmt.modid, bytes }
    let t := s.sendDelta (g.pMember (g.stripe h)) 0 ctx m o
    if g.hasQ then t.sendDelta (g.qMember (g.stripe h)) 1 ctx m o else t

/-! ### The commit of a write -/

/-- What becomes of the part of a write in one half-line. -/
inductive HalfFate where
  /-- a write to the watch index (R345) -/
  | watchIndex
  /-- refused with a cause (R128, R142) -/
  | refused (c : Nat)
  /-- replaces a poisoned half-line whole (R142) -/
  | whole
  /-- merged into a poisoned half-line (R142) -/
  | merged
  | plain
  deriving DecidableEq, Repr

/-- The fate of the part of a write that lies in half-line h (R128, R142, R345). -/
def State.halfFate (s : State) (w : SliceWrite) (h : Nat) : HalfFate :=
  if 0x810000 ≤ h && h < 0xA00000 then .watchIndex
  else if s.parityFrame h || (w.prot && (s.groupOf h).isNone) then .refused 0x13
  else if s.poisoned h then
    (if w.prot then .refused 0x09
     else if (distinct ((w.cells.filter (fun c => halfOf c.1 == h)).map (·.1))).length == 64 then .whole else .merged)
  else .plain

/-- A write of the half-line is refused, or reaches the watch index, whatever it holds: nothing is filled for it. -/
def State.refusesHalf (s : State) (w : SliceWrite) (h : Nat) : Bool :=
  match s.halfFate w h with
  | .watchIndex => true
  | .refused c => c == 0x13
  | _ => false

/-- What the commit of a write has produced so far. -/
structure Commit where
  st : State
  /-- addresses that count as changed (R123, R142) -/
  changed : List Nat
  /-- cells written -/
  written : List (Nat × Byte)
  /-- refusals: cause and domain physical address -/
  refusals : List (Nat × Nat)
  deriving DecidableEq, Repr

/-- Who learns that the part of a write in half-line h was refused (R128, R142): the writer, and the resident through
machine check subcode 10, for each half-line refused. DESIGN CHOICE (unsafe), log entry 113. -/
def State.refuseHalf (s : State) (w : SliceWrite) (h c : Nat) : State :=
  let t := s.tellOrigin w.org w.ctx c (dpa s.mgmt.modid h)
  if c = 0x13 || w.skind == 3 || w.skind == 4 then t.machineCheck 10 h w.skind else t

/-- A half-line is opened for a write (R115, R140). -/
def State.fillHalf (s : State) (w : SliceWrite) (h : Nat) : State :=
  s.openHalf h (w.cells.filter (fun c => halfOf c.1 == h)) (w.watched || w.prot) w.policy

/-- Bytes of a half-line are written in the SRAM of its slice, or past it in DRAM (R115). -/
def State.putHalf (s : State) (w : SliceWrite) (h : Nat) (cells : List (Nat × Byte)) : State :=
  (s.setCells cells).closeHalf h cells (w.watched || w.prot) w.policy

/-- The part of a write that lies in half-line h commits (R123, R127, R142). -/
def Commit.half (r : Commit) (w : SliceWrite) (h : Nat) : Commit :=
  let cells := w.cells.filter (fun c => halfOf c.1 == h)
  let s := if r.st.refusesHalf w h then r.st else r.st.fillHalf w h
  match s.halfFate w h with
  | .watchIndex => { r with st := s.machineCheck 5 ((cells.map (·.1)).headD h) 0 }
  | .refused c =>
    { r with st := s.refuseHalf w h c, refusals := r.refusals ++ [(c, dpa s.mgmt.modid h)] }
  | .whole =>
    { r with st := (s.putHalf w h cells).clearPoison h, changed := r.changed ++ (List.range 64).map (h + ·),
             written := r.written ++ cells }
  | .merged =>
    { r with st := s.putHalf w h cells, changed := r.changed ++ cells.map (·.1), written := r.written ++ cells }
  | .plain =>
    let t := s.putHalf w h cells
    let diff := (distinct (cells.map (·.1))).filter (fun a => s.byte a != t.byte a)
    let sent := if w.prot && !diff.isEmpty then
        t.sendDeltas h (diff.map (fun a => (a - h, t.byte a ^^^ s.byte a))) w.ctx w.org
      else t
    { st := sent, changed := r.changed ++ diff, written := r.written ++ cells, refusals := r.refusals }

/-- Sectors of an L1 line that are valid take the bytes of a store that passes (R155). -/
def L1Line.passStore (l : L1Line) (base : Nat) (cells : List (Nat × Byte)) : L1Line :=
  { l with data := cells.foldl (fun d c =>
      if base ≤ c.1 && c.1 < base + 128 && l.sectors.getLsbD ((c.1 - base) / 32) then setNth d (c.1 - base) c.2 else d) l.data }

/-- The cluster of a core or control core (R5, R196). -/
def clusterOf (core : Nat) : Nat := if core < Config.cores then core / 4 else core - Config.cores

/-- The die of a core or control core. -/
def dieOf (core : Nat) : Nat := clusterOf core / 36

/-- The cells that a gang's store writes in a module pass the issuing cluster's L1 (R155). -/
def State.passL1 (s : State) (o : Origin) (m : Nat) (cells : List (Nat × Byte)) : State :=
  match o with
  | .gang id =>
    match s.gang id with
    | none => s
    | some g =>
      { s with l1 := s.l1.map (fun l =>
          if l.cluster == clusterOf g.core && dpaModule l.line == m then l.passStore (dpaLocal l.line) cells
          else l) }
  | _ => s

/-! ### Records that units keep cached (R119) -/

/-- A slice takes its control record, unless a reserved bit is set; with a change of ECC its lines are to be encoded anew
(R120, R145). -/
def State.applySliceControl (s : State) (k : Nat) : State :=
  let r := s.readLe (0x401000 + 16 * k) 16
  if bits r 1 23 != 0 || bits r 40 88 != 0 then s
  else s.setSlice k (fun c =>
    let w := if c.ecc = bits r 0 1 then c.walk else (s.sram.filter (fun x => sliceOf x.line == k)).map (·.line)
    { c with walk := w, reenc := !w.isEmpty, ecc := bits r 0 1,
             sscrub := if bits r 24 8 = 0 then 10 else bits r 24 8,
             dscrub := if bits r 32 8 = 0 then 60 else bits r 32 8 })

/-- A bank as a start leaves it: banks 0 to 15 cache ways, 16 to 47 pad frames (R147). -/
def BankSt.atStart (bank : Nat) : BankSt :=
  { cur := if bank < 16 then 0 else 1, ctx := 0, fnum := 0, change := none, next := none,
    err := false, ecc := 0, reenc := false, sue := 0, sce := 0, fifo := [], head := 0, waiting := [], flaws := [],
    code := 0, codes := [] }

/-- Bank b of cluster c. -/
def State.bank (s : State) (c b : Nat) : BankSt := sget (BankSt.atStart b) s.banks (64 * c + b)

/-- With a bank of a cluster changed. -/
def State.setBank (s : State) (c b : Nat) (x : BankSt) : State :=
  { s with banks := sput (BankSt.atStart b) s.banks (64 * c + b) x }

/-- The role in force. -/
def BankSt.serving (k : BankSt) : BankReq := { role := k.cur, ctx := k.ctx, fnum := k.fnum }

/-- Two requests ask for the same: the context and the number matter in the FIFO role alone (R147). A control
word that keeps ROLE 2 and names another FIFO is so a change of role like any other. DESIGN CHOICE (unsafe), log entry 98. -/
def BankReq.same (a b : BankReq) : Bool := a.role == b.role && (a.role != 2 || a.ctx == b.ctx && a.fnum == b.fnum)

/-- The roles that a bank serves, or, while it changes, is to enter (R151). DESIGN CHOICE (unsafe), log entry 114. -/
def BankSt.holds (k : BankSt) : List BankReq :=
  if k.busy then k.change.toList ++ k.next.toList else [k.serving]

/-- A bank that gives up the cache role holds no line any longer (R149). -/
def State.dropWay (s : State) (c b : Nat) : State :=
  if (s.bank c b).cur = 0 then { s with l1 := s.l1.filter (fun x => !(x.cluster == c && x.way == b)) } else s

/-- A cluster takes a bank control word: a request to change role, refused when another bank serves or is entering the
same FIFO, and a change of code; a request made during a change waits for its end (R147, R149 to R151). A refused word
still changes the code, and leaves an earlier request that waits. DESIGN CHOICE (unsafe), log entry 99. -/
def State.applyBankControl (s : State) (c b : Nat) : State :=
  let r := s.readLe (0x600000 + 512 * c + 8 * b) 8
  let k := s.bank c b
  let q : BankReq := { role := bits r 0 2, ctx := bits r 48 16, fnum := bits r 44 4 }
  if bits r 2 6 != 0 || bits r 9 35 != 0 || q.role == 3 then s
  else
    let k1 : BankSt := { k with ecc := bits r 8 1, reenc := k.reenc || k.ecc != bits r 8 1 }
    let s1 := if k.ecc != bits r 8 1 then s.postEvent (.bankReencode c b) else s
    if q.role == 2 && (List.range 48).any (fun j => j != b && (s.bank c j).holds.any q.same) then
      (s1.setBank c b { k1 with err := true }).postEvent (.bankStatusWrite c b)
    else
      match k.change with
      | some p => s1.setBank c b { k1 with err := false, next := if q.same p then none else some q }
      | none =>
        if q.same k.serving then s1.setBank c b { k1 with err := false }
        else ((s1.dropWay c b).setBank c b { k1 with err := false, change := some q }).postEvent (.bankRoleChange c b)

/-- A group record that R416 allows for a module: in HBM4E, and with the module among its members exactly once.
DEDUCED (unsafe), log entry 63. -/
def Group.fits (g : Group) (m : Nat) : Bool :=
  3 ≤ g.n && g.n ≤ 17 && 1 ≤ g.frames && g.base % 2 ^ 21 == 0 && g.base + 2 ^ 21 * g.frames ≤ 0x30000000000
    && (g.members.take g.n).count m == 1

/-- Two groups' regions meet. -/
def Group.meets (g h : Group) : Bool := g.base < h.base + 2 ^ 21 * h.frames && h.base < g.base + 2 ^ 21 * g.frames

/-- Local address of FLAGS of a group record (R416). -/
def groupFlags (r : Nat) : Nat := 0xA00100 + 64 * r + 20

/-- An exchange of a record with a member: a request (0), an answer (1), or the word that it has failed (2) (R417, R420).
DEDUCED (unsafe), log entry 63. -/
def State.sendRecord (s : State) (r m op : Nat) : State :=
  { s with out := s.out ++ [s.routed { blankPacket s.mgmt.modid m 0x0F 0 with addr := r, data := s.bytes (0xA00100 + 64 * r) 64, len := 64, op }] }

/-- The other members that a record names. -/
def State.otherMembers (s : State) (r : Nat) : List Nat :=
  ((s.group r).members.take (s.group r).n).filter (· != s.mgmt.modid)

/-- A record fails to form: VALID is cleared here, with FORMED, every other member that it names is told to clear it there,
and machine check subcode 9 tells the resident (R417). -/
def State.failGroup (s : State) (r : Nat) : State :=
  let t := (s.otherMembers r).foldl (fun u m => u.sendRecord r m 2) s
  (t.setByte (groupFlags r) (s.byte (groupFlags r) &&& 0xF6)).machineCheck 9 r 0

/-- A record begins its formation: it is exchanged with every member, unless one is lost or R416 does not allow it.
DEDUCED (unsafe), log entry 63. -/
def State.formGroup (s : State) (r : Nat) : State :=
  let g := s.group r
  let others := (g.members.take g.n).filter (· != s.mgmt.modid)
  if !g.fits s.mgmt.modid || others.any s.lost.contains
      || (List.range 16).any (fun k => k != r && (s.group k).valid && g.meets (s.group k)) then s.failGroup r
  else others.foldl (fun t m => t.sendRecord r m 0) { s with agreed := s.agreed.filter (fun a => a.1 != r) }

/-- A delta held for a lost member goes to the member that holds its parity now (R402, R417). DEDUCED (unsafe), log entry 64. -/
def State.resendDelta (s : State) (g : Group) (d : PendDelta) : State :=
  let dest := if d.parity = 0 then g.pMember d.msg.stripe else g.qMember d.msg.stripe
  if !d.held || d.msg.src != s.mgmt.modid || !g.covers d.msg.target || s.lost.contains dest then s
  else
    { s with
      deltas := s.deltas.map (fun x => if x.tag == d.tag then { x with dest, held := false } else x)
      out := s.out ++ [s.routed { blankPacket s.mgmt.modid dest 7 d.tag with ctx := d.ctx, addr := d.msg.target, delta := some d.msg }] }

/-- FORMED is not software's to set, and it is cleared with VALID (R416); a record with VALID set and not in force
begins its formation (R417), and one in force takes the deltas that were held for a member replaced. -/
def State.applyGroupRecord (before s : State) (r : Nat) : State :=
  let old := (before.byte (groupFlags r)).toNat
  let new := (s.byte (groupFlags r)).toNat
  let formed := bit old 3 && bit new 0
  let t := s.setByte (groupFlags r) (lowByte (new % 8 + 8 * b2n formed))
  if formed then t.deltas.foldl (fun u d => u.resendDelta (t.group r) d) t
  else if bit new 0 then t.formGroup r
  else t

/-- A context that did not exist and does now is created: every one of its hash-family slots is empty (R95, R292). -/
def State.createContext (before s : State) (c : Nat) : State :=
  if (before.rootOf c).isNone && (s.rootOf c).isSome then { s with hashes := s.hashes.filter (fun h => h.ctx != c) } else s

/-- What the units that cache system frame records do as software changes one (R119), and the creation of contexts. -/
def State.recordsChanged (before s : State) (w : SliceWrite) : State :=
  if w.org == .device then s
  else
    let touched (lo hi unit : Nat) : List Nat :=
      distinct ((w.cells.filter (fun c => lo ≤ c.1 && c.1 < hi)).map (fun c => (c.1 - lo) / unit))
    let s0 := (touched 0 0x400000 64).foldl (fun t c => State.createContext before t c) s
    let s1 := (touched 0x401000 0x404000 16).foldl State.applySliceControl s0
    let s2 := (touched 0x600000 0x648000 8).foldl (fun t k =>
      if k % 64 < 48 then t.applyBankControl (k / 64) (k % 64) else t) s1
    (touched 0xA00100 0xA00500 64).foldl (fun t r => State.applyGroupRecord before t r) s2

/-- Local address of the reply word that the lease unit names in the fault record of a sequence number (R100).
DESIGN CHOICE (safe), log entry 51. -/
def replyAt (seq : Nat) : Nat := 8 * (Config.replyWord seq).toNat

/-- Sequence numbers of the replies that tasks await. -/
def State.awaitedSeqs (s : State) : List Nat :=
  s.tasks.flatMap (fun k => match k.lease with | .waiting _ ss => ss.map (·.1) | _ => [])

/-- A reply word that a write completes reaches the lease unit; one that does not match is ignored (R101). So is one with a
bit of 31:8 set, for which R101 names no result. DESIGN CHOICE (unsafe), log entry 96. -/
def State.noteReplies (s : State) (w : SliceWrite) : State :=
  (s.awaitedSeqs.filter (fun q => w.cells.any (fun c => replyAt q ≤ c.1 && c.1 < replyAt q + 8))).foldl (fun t q =>
    let x := t.readLe (replyAt q) 8
    if x / 2 ^ 32 = q && (x % 2 ^ 32 = 1 || x % 2 ^ 32 = 2) then t.postEvent (.leaseReply q (x % 2 ^ 32)) else t) s

/-- A write commits at its slice (R114, R123 to R128, R142): each half-line by its fate, then the issuing cluster's L1,
the triggers of the changed granules, and the records units cache. DEDUCED (safe), log entry 6. -/
def State.commit (s : State) (w : SliceWrite) : Commit :=
  let r0 : Commit := { st := s, changed := [], written := [], refusals := [] }
  let r : Commit := (distinct (w.cells.map (fun c => halfOf c.1))).foldl (fun q h => q.half w h) r0
  let s1 := if r.refusals.isEmpty then r.st
    else
      let k := sliceOf ((w.cells.map (·.1)).headD 0)
      (r.st.setSlice k (fun c => { c with prefuse := satAdd 16 c.prefuse 1 })).postEvent (.sliceStatusWrite k)
  let s2 := s1.passL1 w.org s1.mgmt.modid r.written
  let t := if w.watched then s2.triggers r.changed w.depth w.skind w.ctx w.org else (s2, [])
  { r with st := (State.recordsChanged s t.1 w).noteReplies w, refusals := r.refusals ++ t.2 }

/-- The state after a write's commit. -/
def State.commitWrite (s : State) (w : SliceWrite) : State := (s.commit w).st

/-- A write of the resident's kind by the device (R378): depth 1 and source kind resident (R352, R354). -/
def deviceWrite (a : Nat) (e : Nat) (ctx : Nat) (data : List Byte) : SliceWrite :=
  { cells := cellsAt a data, watched := leafWatch e, prot := leafProt e, depth := 1, skind := 4, ctx, org := .device, policy := 0 }

/-! ### Fault logs (R376 to R378) -/

/-- The bytes of a record (R377). -/
def LogRec.toBytes (r : LogRec) (clk : Nat) : List Byte :=
  leBytes 1 r.cause ++ leBytes 1 r.kind ++ leBytes 14 0 ++ leBytes 8 r.aux ++ leBytes 4 r.who ++ leBytes 4 r.info
    ++ leBytes 4 r.crewv ++ leBytes 4 r.lanes ++ leBytes 8 r.pc ++ leBytes 8 r.addr ++ leBytes 8 clk

/-- A record of a context's log is lost: the count in LOGW rises (R378). -/
def State.loseRecord (s : State) (c : Nat) : State :=
  s.putCells (cellsAt (64 * c + 52) (leBytes 4 (satAdd 32 (bits (s.ctxLogw c) 32 32) 1)))

/-- LOG of a context is well formed and not zero: log2 of the record count and the address (R376). -/
def State.logArea (s : State) (c : Nat) : Option (Nat × Nat) :=
  let v := s.ctxLog c
  let n := bits v 59 5
  let a := bits v 0 56
  if 4 ≤ n && n ≤ 16 && bits v 56 3 == 0 && a % (64 * 2 ^ n) == 0 then some (n, a) else none

end Sys2Proof.Machine
end

