-- ==== Sys2Proof/Machine/Translate.lean ====
section
/-! DEFINITION. The coalescer's path: byte ranges, the lease check, the TLBs and the walk (R86, R105 to R110, R218). -/

namespace Sys2Proof.Machine

/-! ### TLBs (R107) -/

/-- The TLB entry for an address in the core TLB or the cluster TLB of a unit. -/
def State.tlbFind (s : State) (inCore : Bool) (unit ctx va : Nat) : Option TlbEntry :=
  s.tlb.find? (fun t => t.inCore == inCore && t.unit == unit && t.ctx == ctx && t.va ≤ va && va < t.va + t.size)

/-- With an entry added to its TLB, in place of the oldest when it is full. DESIGN CHOICE (safe), log entry 12. -/
def State.tlbAdd (s : State) (t : TlbEntry) : State :=
  let same (u : TlbEntry) : Bool := u.inCore == t.inCore && u.unit == t.unit
  let cap := if t.inCore then Config.coreTlb else Config.clusterTlb
  { s with tlb := (if (s.tlb.filter same).length < cap then s.tlb else s.tlb.eraseP same) ++ [t] }

/-- The region that a pointer entry of a level governs (R89). -/
def ptrSpan (level : Nat) : Nat := 2 ^ (48 - 9 * level)

/-- Where a cluster's walker begins for an address: below the deepest pointer entry that it holds, else at the root. -/
def State.walkStart (s : State) (cl ctx va : Nat) : Option (Nat × Nat) :=
  match [3, 2, 1, 0].findSome? (fun l => s.ptrs.find? (fun p =>
    p.unit == cl && p.ctx == ctx && p.level == l && p.va == alignDown va (ptrSpan l))) with
  | some p => some (levelBelow p.level p.entry, pointerNext p.entry)
  | none => (s.rootTable ctx).map (fun root => (0, root))

/-- The walker takes the valid pointer entries that a walk reads; fuel is the number of levels left. It drops none of its own
accord. DESIGN CHOICE (safe), log entry 12. -/
def State.keepPtrs (cl ctx va : Nat) : Nat → Nat → Nat → State → State
  | 0, _, _, s => s
  | n + 1, level, table, s =>
    let a := table + 8 * walkIndex level va
    let e := s.readLe a 8
    if level ≤ 3 && bit e 0 && !bit e 1 && pointerOk level e && !s.poisoned a then
      State.keepPtrs cl ctx va n (levelBelow level e) (pointerNext e)
        { s with ptrs := s.ptrs ++ [{ unit := cl, ctx, level, va := alignDown va (ptrSpan level), entry := e }] }
    else s

/-- A cluster's walker walks for an address, its reads made at their slices: the leaf, where it ends at one (R93, R107). -/
def State.walkFor (s : State) (cl ctx va : Nat) : State × Option (Nat × Nat × Nat) :=
  match s.walkStart cl ctx va with
  | none => (s, none)
  | some (level, table) =>
    let t := State.keepPtrs cl ctx va 5 level table (s.walkReads va 5 level table)
    (t, match walkFrom t va level table with | .leaf base size _ e => some (base, size, e) | _ => none)

/-- Translates an address for a core: core TLB, then cluster TLB, then the walk, filling both (R107, R108).
DESIGN CHOICE (safe), log entry 12. -/
def State.translate (s : State) (core ctx va : Nat) : State × Option (Nat × Nat × Nat) :=
  match s.tlbFind true core ctx va with
  | some t => (s, some (t.va, t.size, t.leaf.toNat))
  | none =>
    match s.tlbFind false (clusterOf core) ctx va with
    | some t => (s.tlbAdd { t with inCore := true, unit := core }, some (t.va, t.size, t.leaf.toNat))
    | none =>
      match s.walkFor (clusterOf core) ctx va with
      | (u, none) => (u, none)
      | (u, some (base, size, e)) =>
        let t : TlbEntry := { inCore := false, unit := clusterOf core, ctx, va := base, size, leaf := dw e }
        ((u.tlbAdd t).tlbAdd { t with inCore := true, unit := core }, some (base, size, e))

/-! ### Byte ranges and leases -/

/-- The parts of an element of n ≤ 128 bytes, cut at a line boundary (R218). -/
def partsOf (lane va n : Nat) : List Part :=
  let k := min n (128 - va % 128)
  { lane, first := 0, va, len := k } :: (if k < n then [{ lane, first := k, va := va + k, len := n - k }] else [])

/-- The parts of a range of any length, cut at line boundaries: fuel is at least the number of lines (R106). -/
def rangeParts (lane : Nat) : Nat → Nat → Nat → Nat → List Part
  | 0, _, _, _ => []
  | fuel + 1, first, va, n =>
    if n = 0 then []
    else
      let k := min n (128 - va % 128)
      { lane, first, va, len := k } :: rangeParts lane fuel (first + k) (va + k) (n - k)

/-- Rights of an access, coded as in R97. -/
def needRead : Nat := 1
def needWrite : Nat := 2
def needBoth : Nat := 3

/-- A range grants every right needed over the n bytes from va (R106). -/
def LeaseRange.grants (r : LeaseRange) (need va n : Nat) : Bool :=
  r.rights &&& need == need && r.base ≤ va && va + n ≤ r.base + r.len

/-- Some range grants the n bytes whole (R106). -/
def leased (rs : List LeaseRange) (need va n : Nat) : Bool := rs.any (fun r => r.grants need va n)

/-- The first byte of a failing part: the one with which the part leaves the ranges that grant it. -/
def firstUnleased (rs : List LeaseRange) (need va n : Nat) : Nat :=
  va + (((List.range n).find? (fun k => !leased rs need va (k + 1))).getD 0)

/-- The ranges of a gang's lease: those of its task (R102); without one, none (R97). -/
def State.leaseOf (s : State) (g : Gang) : List LeaseRange :=
  match s.leases.find? (fun l => l.task == g.task) with
  | some l => l.ranges
  | none => []

/-- The gang is the resident on a control core, whose accesses no lease checks (R105). -/
def Gang.onControl (g : Gang) : Bool := Config.cores ≤ g.core

/-! ### Located parts -/

/-- The outcome of the coalescer for an instruction. -/
inductive Access where
  | ok (ls : List Located)
  /-- cause 0x07 with the address that failed (R106, R109) -/
  | lease (addr : Nat)
  /-- the resident's access fails: machine check subcode 3 (R105, R379) -/
  | resident (addr : Nat)
  deriving DecidableEq, Repr

/-- A leaf grants a part's rights to a context; a sealed leaf's missing write right is a seal, not a failure (R98,
R109, R342). -/
def leafGrants (e need ctx : Nat) : Bool :=
  (!bit need 0 || leafRd e) && (!bit need 1 || leafWr e || leafSeal e) && (!bit need 2 || leafEx e)
    && (!leafPriv e || ctx == 0)

/-- Translates one part (R107, R109). -/
def State.locate (s : State) (core ctx need : Nat) (p : Part) : State × Option Located :=
  if p.va + p.len ≤ 2 ^ 56 then
    let r := s.translate core ctx p.va
    match r.2 with
    | none => (r.1, none)
    | some (base, _, e) =>
      if leafGrants e need ctx then
        (r.1, some { part := p, phys := leafPhys e base p.va, leaf := e, isSealed := bit need 1 && leafSeal e })
      else (r.1, none)
  else (s, none)

/-- Translates every part, or stops at the first that fails. -/
def State.locateAll (s : State) (core ctx need : Nat) : List Part → State × (List Located ⊕ Part)
  | [] => (s, .inl [])
  | p :: ps =>
    let r := s.locate core ctx need p
    match r.2 with
    | none => (r.1, .inr p)
    | some l =>
      let q := State.locateAll r.1 core ctx need ps
      match q.2 with
      | .inl ls => (q.1, .inl (l :: ls))
      | .inr x => (q.1, .inr x)

/-- The coalescer (R106): the lease check over every part, then the translation of every part. -/
def State.coalesce (s : State) (g : Gang) (need : Nat) (ps : List Part) : State × Access :=
  if g.onControl then
    let r := s.locateAll g.core g.ctx need ps
    match r.2 with
    | .inl ls => (r.1, .ok ls)
    | .inr p => (r.1, .resident p.va)
  else
    let rs := s.leaseOf g
    match ps.find? (fun p => !leased rs need p.va p.len) with
    | some p => (s, .lease (firstUnleased rs need p.va p.len))
    | none =>
      let r := s.locateAll g.core g.ctx need ps
      match r.2 with
      | .inl ls => (r.1, .ok ls)
      | .inr p => (r.1, .lease p.va)

end Sys2Proof.Machine
end

