-- ==== Sys2Proof/Machine/Access.lean ====
section
/-! DEFINITION. Where bytes are performed: the link agent for host memory (R14, R409), packets to peers (R419), the
write-combining buffer (R156, R157), the cluster L1 (R153 to R155, R162), the pads (R158 to R161), and the areas that the device
reaches on a context's behalf with the fault logs among them (R104, R376 to R378, R451). -/

namespace Sys2Proof.Machine

/-! ### Host memory -/

/-- Host physical address of a local address of the host port window (R14, R414). -/
def State.hostPhys (s : State) (a : Nat) : Nat :=
  if a < 0x180000000000 then (bits (s.readLe 0xA00088 8) 0 52 + (a - 0x100000000000)) % 2 ^ 52
  else (bits (s.readLe 0xA00090 8) 0 52 + (a - 0x180000000000)) % 2 ^ 52

/-- A local address lies in a coherent window of the link agent (R409, R414). -/
def State.coherent (s : State) (a : Nat) : Bool :=
  (List.range 8).any (fun k =>
    let w := s.readLe (0xA00000 + 16 * k) 8
    let len := s.readLe (0xA00008 + 16 * k) 8
    let base := bits w 12 39 * 4096
    bit w 0 && bits w 1 11 == 0 && bits w 51 13 == 0 && len != 0 && len % 4096 == 0
      && 0x100000000000 ≤ base && base + len ≤ 0x200000000000 && base ≤ a && a < base + len)

/-- The agent cache's copy of a 64-byte line: held exclusive, and its data (R409). -/
def State.agentLine (s : State) (a : Nat) : Option (Bool × List Byte) :=
  (s.agentCache.find? (fun e => e.1 == halfOf a)).map (·.2)

/-- The first line of a range that the agent cache does not hold. -/
def State.agentLacks (s : State) (a n : Nat) : Option Nat :=
  (distinct ((List.range n).map (fun k => halfOf (a + k)))).find? (fun h => (s.agentLine h).isNone)

/-- Bytes of lines that the agent cache holds. -/
def State.agentBytes (s : State) (a n : Nat) : List Byte :=
  (List.range n).map (fun k =>
    match s.agentLine (a + k) with
    | some (_, d) => nth 0 d (a + k - halfOf (a + k))
    | none => 0)

/-- With the bytes of an agent cache line replaced. -/
def State.agentWrite (s : State) (cells : List (Nat × Byte)) : State :=
  { s with agentCache := s.agentCache.map (fun e =>
      (e.1, e.2.1, cells.foldl (fun d c => if halfOf c.1 == e.1 then setNth d (c.1 - e.1) c.2 else d) e.2.2)) }

/-- The context on whose behalf a gang, a collective or the device accesses memory; the device stands above every gang. -/
def State.originCtx (s : State) (o : Origin) : Nat :=
  match o with
  | .gang id => ((s.gang id).map (·.ctx)).getD (id - 2 ^ 64)
  | .coll id => ((s.colls.find? (fun c => c.id == id)).map (·.ctx)).getD 0
  | _ => 0

/-- A new access at the link agent, with the transaction that begins it. -/
def State.hostBegin (s : State) (org : Origin) (lane a : Nat) (job : HostJob) (phase : Nat) (tx : Nat → List HostTx) : State :=
  { s with
    hostAtomics := s.hostAtomics ++ [{ tag := s.fresh, ctx := s.originCtx org, org, lane, addr := a, job, old := 0, phase, attempts := 0 }],
    hostOut := s.hostOut ++ tx s.fresh,
    fresh := s.fresh + 1 }

/-- One more acknowledgement for a gang to wait for (R329). -/
def State.countAck (s : State) (o : Origin) : State :=
  match o with
  | .gang id => s.updGang id (fun g => { g with pendingAcks := g.pendingAcks + 1 })
  | _ => s

/-- Bytes of one 64-byte line of a coherent window are stored: in the agent cache when the line is held exclusive, after
asking for it otherwise (R409). -/
def State.hostStoreHalf (s : State) (org : Origin) (cells : List (Nat × Byte)) : State :=
  let a := (cells.map (·.1)).headD 0
  match s.agentLine a with
  | some (true, _) => s.agentWrite cells
  | _ => (s.hostBegin org 0 a (.store cells) 0 (fun t => [.own t (s.hostPhys (halfOf a)) true])).countAck org

/-- A store of a gang or of the copy engine to host memory: line by line through the agent cache where it is coherent,
else as an uncached write (R409). Completions are counted (R329, R335). -/
def State.hostStore (s : State) (org : Origin) (cells : List (Nat × Byte)) : State :=
  let a := (cells.map (·.1)).headD 0
  if s.coherent a then
    (distinct (cells.map (fun c => halfOf c.1))).foldl (fun t h =>
      t.hostStoreHalf org (cells.filter (fun c => halfOf c.1 == h))) s
  else
    (s.hostBegin org 0 a (.store cells) 1 (fun t => [.write t (cells.map (fun c => (s.hostPhys c.1, c.2)))])).countAck org

/-! ### Writes of a gang -/

/-- Depth and source kind of a gang's writes (R352, R354). -/
def Gang.depthKind (g : Gang) : Nat × Nat := if g.onControl then (1, 4) else (g.tdepth + 1, 0)

/-- Who writes: what a write carries of its writer (R352, R354, R420). -/
structure Writer where
  org : Origin
  ctx : Nat
  /-- TDEPTH of the writer -/
  tdepth : Nat
  /-- depth of its changes at their slices -/
  depth : Nat
  skind : Nat
  /-- the cluster whose L1 its stores pass (R155) -/
  cluster : Option Nat
  /-- order and scope that its packets carry (R335), and its hint.cache policy (R35) -/
  ord : Nat
  scope : Nat
  policy : Nat
  deriving DecidableEq, Repr

/-- A gang as a writer. -/
def Gang.writer (g : Gang) : Writer :=
  { org := .gang g.id, ctx := g.ctx, tdepth := g.tdepth, depth := g.depthKind.1, skind := g.depthKind.2,
    cluster := some (clusterOf g.core), ord := 0, scope := 0, policy := 0 }

/-- A masked write of bytes of one line to a peer module (R419, R420). DEDUCED (unsafe), log entry 59. -/
def writePacket (s : State) (x : Writer) (tag m line : Nat) (cells : List (Nat × Byte)) (w p : Bool) : Packet :=
  s.routed { blankPacket s.mgmt.modid (s.homeFor m line) 3 tag with
    ctx := x.ctx, depth := x.tdepth, skind := packetKind x.skind, scope := x.scope, ord := x.ord, watched := w, prot := p,
    addr := line, len := 128,
    data := (List.range 128).map (fun k => ((cells.find? (fun c => c.1 == line + k)).map (·.2)).getD 0),
    mask := (List.range 128).map (fun k => cells.any (fun c => c.1 == line + k)) }

/-- A store or accumulation leaves for a peer module under a fresh tag, to be acknowledged. -/
def State.sendStore (s : State) (e : PeerStore) (p : Packet) : State :=
  { s with out := s.out ++ [p], peerPending := s.peerPending ++ [e], fresh := s.fresh + 1 }

/-- A write of bytes that lie in one line, by domain physical address, is performed: at its slice, at the link agent, or
sent to its home module (R114, R409, R420). -/
def State.performWrite (s : State) (x : Writer) (cells : List (Nat × Byte)) (w p : Bool) : State :=
  match cells with
  | [] => s
  | c :: _ =>
    let m := dpaModule c.1
    let loc := cells.map (fun y => (dpaLocal y.1, y.2))
    if m == s.mgmt.modid then
      if isHost (dpaLocal c.1) then s.hostStore x.org loc
      else s.commitWrite { cells := loc, watched := w, prot := p, depth := x.depth, skind := x.skind, ctx := x.ctx, org := x.org,
                           policy := x.policy }
    else
      let e : PeerStore :=
        { tag := s.fresh, org := x.org, dest := s.homeFor m (lineOf (dpaLocal c.1)), prot := p, cluster := x.cluster, cells,
          slot := none }
      (s.sendStore e (writePacket s x s.fresh m (lineOf (dpaLocal c.1)) loc w p)).countAck x.org

/-- Stores and atomics of the gang have still to commit at a peer or the host (R226, R329). -/
def Gang.owes (g : Gang) : Bool := g.pendingAcks != 0 || !g.strong.isEmpty

/-- Strongly ordered lines of a gang are performed as long as nothing before them is still to commit (R226); fuel is their
number. -/
def State.strongLines : Nat → Nat → State → State
  | 0, _, s => s
  | n + 1, id, s =>
    match s.gang id with
    | none => s
    | some g =>
      match g.strong with
      | [] => s
      | x :: xs =>
        if g.pendingAcks != 0 then s
        else
          State.strongLines n id ((s.updGang id (fun h => { h with strong := xs })).performWrite
            { g.writer with ord := x.ord, scope := x.scope, policy := x.policy } x.cells x.watched x.prot)

/-- The lines of a strongly ordered store that may be performed now (R226). -/
def State.nextStrong (s : State) (id : Nat) : State :=
  State.strongLines (((s.gang id).map (·.strong.length)).getD 0) id s

/-- Whatever strongly ordered lines a gang that ends has left are performed. -/
def State.flushStrong (s : State) (id : Nat) : State :=
  match s.gang id with
  | none => s
  | some g =>
    g.strong.foldl (fun t x => t.performWrite { g.writer with ord := x.ord, scope := x.scope, policy := x.policy } x.cells x.watched x.prot)
      (s.updGang id (fun h => { h with strong := [] }))

/-! ### The write-combining buffer (R156) -/

/-- The entry of a line drains: one write of its masked bytes. -/
def State.drainLine (s : State) (id line : Nat) : State :=
  match s.gang id with
  | none => s
  | some g =>
    match g.wcb.find? (fun e => e.line == line) with
    | none => s
    | some e =>
      (s.updGang id (fun h => { h with wcb := h.wcb.filter (fun x => x.line != line) })).performWrite
        { g.writer with policy := e.policy } e.cells e.watched e.prot

/-- Every entry drains, oldest first. DESIGN CHOICE (safe), log entry 11. -/
def State.drainAll (s : State) (id : Nat) : State :=
  match s.gang id with
  | none => s
  | some g => (g.wcb.map (·.line)).foldl (fun t l => t.drainLine id l) s

/-- Later bytes replace earlier ones of the same address. -/
def mergeCells (old new : List (Nat × Byte)) : List (Nat × Byte) :=
  new.foldl (fun m c => sins c.1 c.2 (sdel m c.1)) old

/-- A store enters the buffer: it merges into its line's entry or takes a free one, the oldest draining first when none
is free. DESIGN CHOICE (safe), log entry 11. -/
def State.wcbStore (s : State) (id : Nat) (cells : List (Nat × Byte)) (w p : Bool) (policy : Nat) : State :=
  match s.gang id, cells with
  | some g, c :: _ =>
    let line := lineOf c.1
    if g.wcb.any (fun e => e.line == line) then
      s.updGang id (fun h => { h with wcb := h.wcb.map (fun e =>
        if e.line == line then { e with cells := mergeCells e.cells cells, watched := e.watched || w, prot := e.prot || p, policy }
        else e) })
    else
      let t := if g.wcb.length < 4 then s else s.drainLine id ((g.wcb.map (·.line)).headD 0)
      t.updGang id (fun h => { h with wcb := h.wcb ++ [{ line, cells := mergeCells [] cells, watched := w, prot := p, policy }] })
  | _, _ => s

/-! ### Sectors of the cluster's banks (R143, R148) -/

/-- A sector of a bank is read: what is found there, counted and told to the resident (R148). A corrected sector is sound
again; of one that was lost or passed unseen the caller disposes. -/
def State.meetSector (s : State) (cl b sector : Nat) : State × SectorFate :=
  let k := s.bank cl b
  match k.flaws.find? (fun f => f.sector == sector) with
  | none => (s, .sound)
  | some f =>
    let rest := k.flaws.filter (fun g => g.sector != sector)
    match f.fate s.freeCtr with
    | .corrected => (s.setBank cl b { k with flaws := rest, sce := satAdd 16 k.sce 1 }, .corrected)
    | .lost =>
      (((s.setBank cl b { k with flaws := rest, sue := satAdd 16 k.sue 1 }).machineCheck 8 (64 * cl + b) 0).postEvent
        (.bankStatusWrite cl b), .lost)
    | .wrong => ({ s.setBank cl b { k with flaws := rest } with freeCtr := s.freeCtr + 1 }, .wrong)
    | .sound => (s.setBank cl b { k with flaws := rest }, .sound)

/-- Sectors of a bank carry the code that its control word names, as they do when nothing is being encoded anew
(R143, R150). -/
def BankSt.encoded (k : BankSt) (f : Nat → Bool) : BankSt :=
  if k.reenc then { k with codes := ((List.range 4096).filter f).foldl (fun m n => sput k.code m n k.ecc) k.codes } else k

/-- Sectors of a bank are written anew: what had flipped in them is gone, and they carry the code in force. -/
def State.renewSectors (s : State) (cl b : Nat) (f : Nat → Bool) : State :=
  let k := s.bank cl b
  if k.flaws.isEmpty && !k.reenc then s
  else s.setBank cl b ({ k with flaws := k.flaws.filter (fun x => !f x.sector) }.encoded f)

/-- The sectors among some numbers that hold a flaw. -/
def State.flawed (s : State) (cl b : Nat) (f : Nat → Bool) : List Nat :=
  ((s.bank cl b).flaws.map (·.sector)).filter f

/-! ### The cluster L1 -/

/-- The ways of a cluster's L1: its cache-role banks (R153). -/
def State.l1Ways (s : State) (cl : Nat) : List Nat :=
  (List.range 48).filter (fun b => (s.bank cl b).cur == 0 && !(s.bank cl b).busy)

/-- The set of a line (R153). -/
def l1Set (line : Nat) : Nat := bits line 7 10

/-- The L1 entry of a line. -/
def State.l1Find (s : State) (cl line : Nat) : Option L1Line := s.l1.find? (fun x => x.cluster == cl && x.line == line)

/-- The lines of a fill unit (R154). -/
def unitLines (grain line : Nat) : List Nat :=
  if grain = 2 then (List.range 4).map (fun k => alignDown line 512 + 128 * k) else [line]

/-- The last of the lines for which f holds: the least recently used, as the list holds the most recently used first. -/
def leastRecent (f : L1Line → Bool) (l : List L1Line) : Option L1Line := l.reverse.find? f

/-- The way that a line's unit takes: that of a line of it already present, else one that is free in the sets of the whole
unit, else that of the least recently used line, lines of policy 4 last (R153, R154). -/
def State.l1Way (s : State) (cl line grain : Nat) : Option Nat :=
  let us := unitLines grain line
  let ways := s.l1Ways cl
  let inSet (x : L1Line) : Bool := x.cluster == cl && ways.contains x.way && l1Set x.line == l1Set line
  let taken (w : Nat) : Bool := s.l1.any (fun x => x.cluster == cl && x.way == w && us.any (fun u => l1Set u == l1Set x.line))
  ((us.findSome? (fun u => s.l1Find cl u)).map (·.way)).or
    ((ways.find? (fun w => !taken w)).or
      (((leastRecent (fun x => inSet x && !x.keep) s.l1).or (leastRecent inSet s.l1)).map (·.way) |>.or ways.head?))

/-- Puts a line's sectors into the L1 with their data, of the whole line (R153, R154); policy 1 makes it the first
candidate, policy 4 the last. Sectors filled under another seal mark do not stay beside it (R162).
DEDUCED (safe), log entry 84. -/
def State.l1Put (s : State) (cl line : Nat) (sectors : BitVec 4) (data : List Byte) (grain : Nat) (isSealed : Bool)
    (policy : Nat) : State :=
  match s.l1Way cl line grain with
  | none => s
  | some w =>
    let x : L1Line := match s.l1Find cl line with
      | some o =>
        let old := if o.sealed == isSealed then o.sectors else 0
        { o with
          way := w
          data := (List.range 128).map (fun k => if sectors.getLsbD (k / 32) then nth 0 data k else nth 0 o.data k),
          sectors := old ||| sectors, grain, sealed := isSealed, keep := o.keep || policy == 4 }
      | none => { cluster := cl, way := w, line, data, sectors, grain, sealed := isSealed, keep := policy == 4 }
    let rest := s.l1.filter (fun o => !(o.cluster == cl && (o.line == line || (o.way == w && l1Set o.line == l1Set line))))
    ({ s with l1 := if policy = 1 then rest ++ [x] else x :: rest } : State).renewSectors cl w
      (fun n => n / 4 == l1Set line && sectors.getLsbD (n % 4))

/-- A line that is hit becomes the most recently used (R153). -/
def State.l1Touch (s : State) (x : L1Line) : State :=
  { s with l1 := x :: s.l1.filter (fun o => !(o.cluster == x.cluster && o.line == x.line)) }

/-- A sector of an L1 line is read: one that is lost is no longer valid, to be fetched again (R386); of one whose errors
passed unseen the bytes are free. -/
def State.meetLine (s : State) (x : L1Line) (n : Nat) : State :=
  let r := s.meetSector x.cluster x.way n
  let upd (f : L1Line → L1Line) : State :=
    { r.1 with l1 := r.1.l1.map (fun o => if o.cluster == x.cluster && o.line == x.line then f o else o) }
  match r.2 with
  | .lost => upd (fun o => { o with sectors := o.sectors &&& ~~~ (BitVec.ofNat 4 (2 ^ (n % 4))) })
  | .wrong => upd (fun o => { o with data := (List.range 128).map (fun k =>
      if k / 32 = n % 4 then Config.strayByte (32 * s.freeCtr + k % 32) else nth 0 o.data k) })
  | _ => r.1

/-- The sectors of a line that an access touches are read where the L1 holds them. -/
def State.l1Meet (s : State) (cl line : Nat) (sec : BitVec 4) : State :=
  match s.l1Find cl line with
  | none => s
  | some x =>
    (s.flawed cl x.way (fun n => n / 4 == l1Set line && sec.getLsbD (n % 4) && x.sectors.getLsbD (n % 4))).foldl
      (fun t n => t.meetLine x n) s

/-- The line of an L1 that holds every sector of some. -/
def State.l1Hit (s : State) (cl line : Nat) (sec : BitVec 4) : Option L1Line :=
  (s.l1Find cl line).bind (fun x => if x.sectors &&& sec == sec then some x else none)

/-- Reads n bytes at their slices under a policy (R114, R115): the bytes, and whether one is poisoned. -/
def State.sliceBytesWith (s : State) (a n : Nat) (guarded : Bool) (policy : Nat) : State × List Byte × Bool :=
  let t := s.touchWith a n false guarded policy
  (t, t.bytes a n, t.anyPoison a n)

/-- Reads n bytes at their slices. DEDUCED (safe), log entry 6. -/
def State.sliceBytes (s : State) (a n : Nat) : State × List Byte × Bool := s.sliceBytesWith a n false 0

/-- The page of a leaf is watched or protected: its lines are allocated whatever the policy (R35, R115). -/
def leafGuarded (leaf : Nat) : Bool := leafWatch leaf || leafProt leaf

/-- The sectors of a line among some that lie in no poisoned half-line (R386). DEDUCED (unsafe), log entry 13. -/
def State.cleanSectors (s : State) (line : Nat) (sec : BitVec 4) : BitVec 4 :=
  (if s.poison.contains line then sec &&& 0xC#4 else sec) &&& (if s.poison.contains (line + 64) then sec &&& 0x3#4 else sec)

/-- One line of a fill is read at its slice, and the sectors that are not poisoned enter the L1 of a page with a leaf. -/
def State.l1FillLine (s : State) (cl line : Nat) (sec : BitVec 4) (leaf policy : Nat) : State :=
  let t := if sec = 0 then s else s.touchSectors line sec (leafGuarded leaf) policy
  let c := t.cleanSectors line sec
  if c = 0 then t else t.l1Put cl (dpa t.mgmt.modid line) c (t.bytes line 128) (leafGrain leaf) (leafSeal leaf) policy

/-- Fills the L1 from the slice on a miss in some sectors of a line, by the grain of the page (R154): the sectors touched, the
line, or four lines. -/
def State.l1Fill (s : State) (cl line : Nat) (sec : BitVec 4) (leaf policy : Nat) : State :=
  if leafGrain leaf = 0 then s.l1FillLine cl line sec leaf policy
  else if leafGrain leaf = 1 then s.l1FillLine cl line (BitVec.allOnes 4) leaf policy
  else (List.range 4).foldl (fun t k => t.l1FillLine cl (alignDown line 512 + 128 * k) (BitVec.allOnes 4) leaf policy) s

/-- A load of some sectors of one own line through the L1: a hit on all of them is served there, with the line's bytes, a miss
by the slice, filling unless the policy forbids it (R35, R153, R154, R224). -/
def State.l1Load (s0 : State) (cl line : Nat) (sec : BitVec 4) (leaf policy : Nat) : State × Option (List Byte) :=
  let s := s0.l1Meet cl (dpa s0.mgmt.modid line) sec
  match s.l1Hit cl (dpa s.mgmt.modid line) sec with
  | some x => (s.l1Touch x, some x.data)
  | none =>
    let t := s.touchSectors line sec (leafGuarded leaf) policy
    (if policy = 2 || policy = 3 then t else t.l1Fill cl line sec leaf policy, none)

/-- Replies on their way fill no L1 any longer, where f holds of what they bring and its base. -/
def State.cancelWhere (s : State) (f : LineRead → Nat → Bool) : State :=
  { s with loads := s.loads.map (fun l => { l with await := l.await.map (fun w =>
      { w with line := w.line.map (fun r => if f r w.base then { r with allocate := false } else r) }) }) }

/-- Replies on their way to a cluster fill its L1 no longer, where f holds of what they bring and its base (R320 to R322). -/
def State.cancelFills (s : State) (cl : Nat) (f : LineRead → Nat → Bool) : State :=
  s.cancelWhere (fun r base => r.cluster == cl && f r base)

/-- A reply from a base on brings bytes of the line of an address. -/
def LineRead.brings (r : LineRead) (base phys : Nat) : Bool := base < lineOf phys + 128 && lineOf phys < base + 32 * r.sectors.length

/-- An acquire at .die or wider: the cluster's L1 keeps only lines with a seal mark, and replies asked for before it fill
nothing unmarked after it (R162, R322, R329). -/
def State.l1Invalidate (s : State) (cl : Nat) : State :=
  let t : State := { s with l1 := s.l1.filter (fun x => x.cluster != cl || x.sealed) }
  t.cancelFills cl (fun r _ => !r.mark)

/-- Scopes by their codes (R32). -/
def scopeDie : Nat := 3
def scopeMod : Nat := 4
def scopeDom : Nat := 5
def scopeSv : Nat := 6

/-- An acquire at a scope by a gang of a core: at .die or wider its cluster's L1 keeps only sealed lines (R329). -/
def State.acquire (s : State) (core scope : Nat) : State := if scope < scopeDie then s else s.l1Invalidate (clusterOf core)

/-- An acquire by a gang: it sees what was released before it (R309, R329). -/
def State.acquireBy (s : State) (g : Gang) (scope : Nat) : State :=
  (s.updGang g.id (fun h => { h with acquired := s.fresh })).acquire g.core scope

/-- The unit of an address leaves a cluster's L1 (R155). -/
def State.l1DropUnit (s : State) (cl phys : Nat) : State :=
  let t : State := { s with l1 := s.l1.filterMap (fun x =>
      if x.cluster != cl then some x
      else if x.grain = 2 then (if alignDown x.line 512 == alignDown phys 512 then none else some x)
      else if x.line != lineOf phys then some x
      else if x.grain = 1 then none
      else some { x with sectors := x.sectors &&& ~~~ (sectorsOf (phys % 128) 1) }) }
  t.cancelFills cl (fun r b => r.brings b phys)

/-- Valid sectors of a cluster's L1 take bytes that have been read at their home, by domain physical address: no later
load of the L1 returns older ones (R321). DEDUCED (safe), log entry 84. -/
def State.l1Refresh (s : State) (cl : Nat) (cells : List (Nat × Byte)) : State :=
  { s with l1 := s.l1.map (fun l => if l.cluster == cl then l.passStore l.line cells else l) }

/-- A store of a cluster to a peer's line has committed: it passes the L1, and replies of that line asked for before
fill nothing (R155, R320, R321). -/
def State.peerCommitted (s : State) (e : PeerStore) : State :=
  match e.cluster with
  | none => s
  | some cl =>
    let t := (s.l1Refresh cl e.cells).cancelFills cl (fun r b => e.cells.any (fun c => r.brings b c.1))
    match e.slot with
    | some a => t.l1DropUnit cl a
    | none => t

/-! ### Crews and pads -/

/-- The crew of a CREW value. -/
def State.crew (s : State) (v : Nat) : Option Crew := s.crews.find? (fun c => c.val == v)

/-- With the crew of a CREW value changed. -/
def State.updCrew (s : State) (v : Nat) (f : Crew → Crew) : State :=
  { s with crews := s.crews.map (fun c => if c.val == v then f c else c) }

/-- CREW value of a crew number with its epoch on a core (R196). -/
def crewValue (cnum epoch num : Nat) : Nat := cnum * 2 ^ 20 + epoch * 2 ^ 6 + num

def crewCnum (v : Nat) : Nat := bits v 20 12
def crewNum (v : Nat) : Nat := bits v 0 6

/-- Virtual address of a crew block (R393). -/
def State.crewBlock (s : State) (c : Crew) : Nat :=
  s.ctxSave c.ctx + 0x100000000 + 0x400000 * (64 * crewCnum c.val + crewNum c.val)

/-- Virtual address of a gang block (R393). -/
def State.gangBlock (s : State) (g : Gang) : Nat :=
  s.ctxSave g.ctx + 0x8000000 + 0x4000 * (64 * g.core + g.slot)

/-- The device reads n bytes of one page on a context's behalf (R451). DEDUCED (unsafe), log entry 53. -/
def State.deviceRead (s : State) (ctx va n : Nat) : State × Option (List Byte) :=
  let r := s.deviceReach ctx va n true false
  (r.1, r.2.map (fun x => r.1.bytes x.1 n))

/-- The device writes bytes of one page on a context's behalf: an ordinary write at its slice (R124, R451). -/
def State.deviceStore (s : State) (ctx va : Nat) (data : List Byte) : State × Bool :=
  match s.deviceReach ctx va data.length false true with
  | (t, some r) => (t.commitWrite (deviceWrite r.1 r.2 ctx data), true)
  | (t, none) => (t, false)

/-- Where n bytes of one page stand that the device reaches on a context's behalf and whose area need not lie on the own module: on a
peer, or in the host port window (R104, R451). DEDUCED (unsafe), log entry 53. -/
def areaAway (s : State) (ctx va n : Nat) (rd wr : Bool) : Option (Nat × Nat) :=
  match leafAt s ctx va with
  | none => none
  | some (base, size, e) =>
    if (!rd || leafRd e) && (!wr || leafWr e) && va + n ≤ base + size && (leafModule e != s.mgmt.modid || 1 < leafTier e)
    then some (leafPhys e base va, e) else none

/-- The device as the writer of a context's areas: depth 1 and source kind resident (R352, R378). -/
def deviceWriter (ctx : Nat) : Writer :=
  { org := .device, ctx, tdepth := 0, depth := 1, skind := 4, cluster := none, ord := 0, scope := 0, policy := 0 }

/-- The device writes bytes elsewhere, line by line; nothing waits for them. -/
def State.awayStore (s : State) (ctx phys leaf : Nat) (data : List Byte) : State :=
  let cells := cellsAt phys data
  (distinct (cells.map (fun c => lineOf c.1))).foldl (fun t l =>
    t.performWrite (deviceWriter ctx) (cells.filter (fun c => lineOf c.1 == l)) (leafWatch leaf) (leafProt leaf)) s

/-- The device writes bytes of one page of an area that may lie on any module (R104, R451). -/
def State.areaStore (s : State) (ctx va : Nat) (data : List Byte) : State × Bool :=
  match s.deviceStore ctx va data with
  | (t, true) => (t, true)
  | (t, false) =>
    match areaAway t ctx va data.length false true with
    | none => (t, false)
    | some (x, e) => (t.awayStore ctx x e data, true)

/-- The first of n bytes that the device cannot read on a context's behalf: it has no leaf for it, or it is poisoned (R375,
R451). -/
def State.firstUnread (s : State) (ctx va n : Nat) : Nat :=
  va + ((List.range n).find? (fun k => (deviceAddr s ctx (va + k) 1 true false).isNone)).getD 0

/-- The pad template of a crew's entry, of the first record of that entry (R50). DESIGN CHOICE (unsafe), log entry 111. -/
def State.padTemplate (s : State) (c : Crew) : List Byte :=
  match s.images.find? (fun i => i.ctx == c.ctx) with
  | none => []
  | some i => ((i.templates.find? (fun t => t.1 == c.entry)).map (·.2)).getD []

/-- State of a pad page. -/
def Crew.padState (c : Crew) (page : Nat) : PadState := sget .initial c.padStates page

/-- Virtual address of the backing of a pad address (R158). -/
def Crew.backing (c : Crew) (a : Nat) : Nat := c.base + a

/-- A half-line that the device wrote on a context's behalf is poison: it holds poisoned bytes of a pad.
DEDUCED (unsafe), log entry 79. -/
def State.devicePoison (s : State) (ctx va : Nat) : State :=
  match deviceAddr s ctx va 1 false true with
  | none => s
  | some (a, _) =>
    s.countPoison (halfOf a)

/-- The bank that a frame number belongs to (R149). -/
def frameBank (f : Nat) : Nat := f / 32

/-- The number in its bank of the sector that a pad address lies in, in a frame (R149). -/
def Frame.sector (f : Frame) (a : Nat) : Nat := f.frame % 32 * 128 + a % 4096 / 32

/-- The pad address of the first byte of a sector of a frame. -/
def Frame.addr (f : Frame) (n : Nat) : Nat := 4096 * f.page + 32 * (n % 128)

/-- A sector of a pad frame is read: a lost one poisons its bytes (R386), one whose errors passed unseen has free bytes. -/
def State.meetPad (s : State) (c : Crew) (f : Frame) (n : Nat) : State :=
  let r := s.meetSector (clusterOf c.core) (frameBank f.frame) n
  let as := (List.range 32).map (f.addr n + ·)
  match r.2 with
  | .lost => r.1.updCrew c.val (fun k => { k with padPoison := distinct (k.padPoison ++ as) })
  | .wrong => r.1.updCrew c.val (fun k => { k with pad := as.foldl (fun m a => sput 0 m a (Config.strayByte (32 * s.freeCtr + a % 32))) k.pad })
  | _ => r.1

/-- The parts of n pad bytes that lie in backed pages: address and length (R159). -/
def Crew.backedParts (c : Crew) (a n : Nat) : List (Nat × Nat) :=
  if n = 0 then []
  else ((List.range ((a + n - 1) / 4096 + 1 - a / 4096)).map (a / 4096 + ·)).filterMap (fun p =>
    if c.padState p == .backed then some (max a (4096 * p), min (a + n) (4096 * (p + 1)) - max a (4096 * p)) else none)

/-- The pad bytes that lie in backed pages are read in their backing (R140, R161). -/
def State.readBacking (s : State) (c : Crew) (a n : Nat) : State :=
  (c.backedParts a n).foldl (fun u p => (u.deviceRead c.ctx (c.backing p.1) p.2).1) s

/-- The sectors of n pad bytes are read, those in frames at their banks and those of backed pages in their backing (R140,
R148, R386). -/
def State.padMeet (s : State) (v a n : Nat) : State :=
  match s.crew v with
  | none => s
  | some c =>
    (c.frames.foldl (fun t f =>
      (t.flawed (clusterOf c.core) (frameBank f.frame) (fun x => x / 128 == f.frame % 32 && f.addr x < a + n && a < f.addr x + 32)).foldl
        (fun u x => u.meetPad c f x) t) s).readBacking c a n

/-- One 128-byte part of a pad frame goes to the backing, its poison with it; the address of one that cannot be written. -/
def State.evacuatePart (r : State × Option Nat) (v d : Nat) : State × Option Nat :=
  match r.1.crew v with
  | none => r
  | some c =>
  let va := c.backing (128 * d)
  match r.1.deviceStore c.ctx va ((List.range 128).map (fun k => sget 0 c.pad (128 * d + k))) with
  | (u, true) => ((distinct ((c.padPoison.filter (fun a => a / 128 == d)).map halfOf)).foldl
      (fun x h => x.devicePoison c.ctx (c.backing h)) u, r.2)
  | (u, false) => (u.machineCheck 11 va c.ctx, r.2.or (some va))

/-- The page's frame is free again. -/
def Crew.releasePage (c : Crew) (page : Nat) (p : PadState) : Crew :=
  { c with pad := c.pad.filter (fun e => e.1 / 4096 != page), padDirty := c.padDirty.filter (fun d => d / 32 != page)
           padPoison := c.padPoison.filter (fun a => a / 4096 != page), padStates := sput .initial c.padStates page p
           frames := c.frames.filter (fun f => f.page != page) }

/-- The cluster evacuates a pad page: its dirty parts go to the backing, their poison with them, and it becomes backed
(R159, R386). The address of a part that could not be written ends the crew (R451). -/
def State.padEvacuate (s : State) (v page : Nat) : State × Option Nat :=
  match s.crew v with
  | none => (s, none)
  | some c =>
    match c.padState page with
    | .pinned | .unpinned | .evacuating =>
      let ds := c.padDirty.filter (fun d => d / 32 == page)
      let t := ds.foldl (fun r d => State.evacuatePart r v d) (ds.foldl (fun u d => u.padMeet v (128 * d) 128) s, none)
      (t.1.updCrew v (fun k => k.releasePage page .backed), t.2)
    | _ => (s, none)

/-- A page is evacuated; a part that cannot be written ends its crew (R159, R451). -/
def State.evacuate (s : State) (v page : Nat) : State :=
  match s.padEvacuate v page with
  | (t, none) => t
  | (t, some va) => t.raiseCrew v va

/-- Crew and frame of every page held in a frame of a cluster. -/
def State.framesOf (s : State) (cl : Nat) : List (Nat × Frame) :=
  (s.crews.filter (fun c => clusterOf c.core == cl)).flatMap (fun c => c.frames.map (fun f => (c.val, f)))

/-- The lowest frame of a cluster that holds no page, of a bank in the pad role, or of one that is leaving it.
DEDUCED (safe), log entry 30. -/
def State.frameOf (s : State) (cl : Nat) (leaving : Bool) : Option Nat :=
  let held := (s.framesOf cl).map (·.2.frame)
  (List.range 1536).find? (fun f =>
    (s.bank cl (frameBank f)).cur == 1 && (s.bank cl (frameBank f)).busy == leaving && !held.contains f)

/-- A free frame: a bank that is leaving its role offers none (R149). -/
def State.freeFrame (s : State) (cl : Nat) : Option Nat := s.frameOf cl false

/-- The unpinned page of a cluster that was used least recently, of those in banks that serve the pad role (R149, R159). -/
def State.coldest (s : State) (cl : Nat) : Option (Nat × Nat) :=
  (((s.framesOf cl).filter (fun p => ((s.crew p.1).map (fun c => c.padState p.2.page)).getD .initial == .unpinned
      && !(s.bank cl (frameBank p.2.frame)).busy)).foldl
    (fun m p => match m with
      | some q => if p.2.used < q.2.used then some p else m
      | none => some p) none).map (fun p => (p.1, p.2.page))

/-- A frame for a page of a cluster: a free one, or that of the least recently used unpinned page, which is evacuated
(R159); a frame of a bank that is leaving its role only while more are reserved than would remain without it, when the bank
waits (R152). A cluster never reserves more frames than it has (R160); beyond them the number 1536 stands for none.
DEDUCED (safe), log entry 30. -/
def State.takeFrame (s : State) (cl : Nat) : State × Nat :=
  match s.freeFrame cl with
  | some f => (s, f)
  | none =>
    match s.coldest cl with
    | none => (s, (s.frameOf cl true).getD 1536)
    | some (v, page) =>
      let t := s.evacuate v page
      (t, (t.freeFrame cl).getD 1536)

/-- A frame takes the bytes of a page. -/
def Crew.fillPage (c : Crew) (page : Nat) (data : List Byte) (dirty : List Nat) : Crew :=
  { c with pad := (cellsAt (4096 * page) data).foldl (fun m x => sput 0 m x.1 x.2) c.pad,
           padStates := sput .initial c.padStates page .pinned,
           padDirty := (c.padDirty.filter (fun d => d / 32 != page)) ++ dirty }

/-- A page is used: it is pinned, its frame the most recently used. -/
def Crew.pinPage (c : Crew) (page stamp : Nat) : Crew :=
  { c with padStates := sput .initial c.padStates page .pinned,
           frames := c.frames.map (fun f => if f.page == page then { f with used := stamp } else f) }

/-- A page takes a frame and its bytes. -/
def State.frameWith (s : State) (c : Crew) (page : Nat) (data : List Byte) (dirty : List Nat) : State :=
  let r := s.takeFrame (clusterOf c.core)
  (r.1.renewSectors (clusterOf c.core) (frameBank r.2) (fun n => n / 128 == r.2 % 32)).updCrew c.val (fun k => { k.fillPage page data dirty with frames := k.frames ++ [{ page, frame := r.2, used := s.fresh }] })

/-- A backed page takes a frame, filled from its backing; the address of the first byte that cannot be read, or that is
poisoned (R375, R451). -/
def State.fillBacked (s : State) (c : Crew) (page : Nat) : State × Option Nat :=
  let va := c.backing (4096 * page)
  match s.deviceRead c.ctx va 4096 with
  | (t, none) => (t.machineCheck 11 (t.firstUnread c.ctx va 4096) c.ctx, some (t.firstUnread c.ctx va 4096))
  | (t, some d) => (t.frameWith c page d [], none)

/-- An access to a pad page takes a frame for it (R159): an initial page from the template or zeros, a backed one from its
backing, one that is being evacuated once it is backed. The address of a backing that fails ends the crew (R451). -/
def State.padTake (s : State) (v page : Nat) : State × Option Nat :=
  match s.crew v with
  | none => (s, some 0)
  | some c =>
    match c.padState page with
    | .pinned | .unpinned => (s.updCrew v (fun k => k.pinPage page s.fresh), none)
    | .initial =>
      (s.frameWith c page ((s.padTemplate c).drop (4096 * page) |>.take 4096) ((List.range 32).map (32 * page + ·)), none)
    | .backed => s.fillBacked c page
    | .evacuating =>
      match s.padEvacuate v page with
      | (t, none) => t.fillBacked ((t.crew v).getD c) page
      | r => r

/-- Takes frames for pages until one fails. -/
def State.padTakePages (s : State) (v : Nat) (pages : List Nat) : State × Option Nat :=
  pages.foldl (fun r page => if r.2.isNone then r.1.padTake v page else r) (s, none)

/-- Takes frames for the pages that the n bytes from pad address a touch, and reads their sectors. -/
def State.padTakeRange (s : State) (v a n : Nat) : State × Option Nat :=
  let r := s.padTakePages v ((List.range ((a + n - 1) / 4096 + 1 - a / 4096)).map (a / 4096 + ·))
  (r.1.padMeet v a n, r.2)

/-- A byte of a crew's pad frame. -/
def Crew.padByte (c : Crew) (a : Nat) : Byte := sget 0 c.pad a

/-- A byte of a pad frame is replaced; its 128-byte part becomes dirty and unpoisoned there (R159). -/
def Crew.setPad (c : Crew) (a : Nat) (b : Byte) : Crew :=
  { c with pad := sput 0 c.pad a b, padPoison := c.padPoison.filter (· != a),
           padDirty := if c.padDirty.contains (a / 128) then c.padDirty else a / 128 :: c.padDirty }

/-- Bytes the engine reads from a crew's pad: the frame, the template of an initial page, or the backing (R161).
DEDUCED (unsafe), log entry 40. -/
def State.padBytes (s : State) (c : Crew) (a n : Nat) : List Byte :=
  match c.padState (a / 4096) with
  | .pinned | .unpinned | .evacuating => (List.range n).map (fun k => c.padByte (a + k))
  | .initial => (List.range n).map (fun k => nth 0 (s.padTemplate c) (a + k))
  | .backed => (s.deviceRead c.ctx (c.backing a) n).2.getD (List.replicate n 0)

/-- A pad byte is poisoned in its frame (R386); a poisoned byte of a backing is one that cannot be read (R451). -/
def Crew.padBad (c : Crew) (a : Nat) : Bool :=
  match c.padState (a / 4096) with
  | .pinned | .unpinned | .evacuating => c.padPoison.contains a
  | .initial | .backed => false

/-- Bytes the engine reads from the pad of a CREW value; zeros where there is no such crew. -/
def State.padPeek (s : State) (v a n : Nat) : List Byte :=
  match s.crew v with
  | none => List.replicate n 0
  | some c => s.padBytes c a n

/-- The virtual address of a backed pad byte that cannot be read (R161, R451). -/
def State.padUnread (s : State) (c : Crew) (a n : Nat) : Option Nat :=
  (c.backedParts a n).findSome? (fun p =>
    if (deviceAddr s c.ctx (c.backing p.1) p.2 true false).isNone then some (s.firstUnread c.ctx (c.backing p.1) p.2) else none)

/-- A copy of a pad page goes to the save area; one that cannot be written ends the crew (R389, R451). -/
def State.saveShadowPage (s : State) (c : Crew) (page : Nat) (d : List Byte) : State :=
  let va := s.crewBlock c + 0x200000 + 4096 * page
  match s.areaStore c.ctx va d with
  | (u, true) => u
  | (u, false) => (u.machineCheck 11 va c.ctx).raiseCrew c.val va

/-- The first write to a pad page since the crew's shadow first copies the page to its shadow copy; a backed page is read in
its backing, and one that cannot be read there ends the crew (R389, R451). -/
def State.shadowPage (s : State) (v page : Nat) : State :=
  match s.crew v with
  | none => s
  | some c =>
    match c.shadow with
    | none => s
    | some sh =>
      if sh.pages.any (fun p => p.1 == page) then s
      else
        let r := s.padMeet v (4096 * page) 4096
        match r.padUnread c (4096 * page) 4096 with
        | some va => (r.machineCheck 11 va c.ctx).raiseCrew v va
        | none =>
          let d := r.padPeek v (4096 * page) 4096
          (r.updCrew v (fun k => { k with shadow := some { sh with
            pages := sh.pages ++ [(page, d, (((r.crew v).getD c).padPoison).filter (fun a => a / 4096 == page))] } })).saveShadowPage c page d

/-- Shadow copies for the pages of pad addresses about to be written. -/
def State.shadowPages (s : State) (v : Nat) (addrs : List Nat) : State :=
  (distinct (addrs.map (· / 4096))).foldl (fun t page => t.shadowPage v page) s

/-- Bytes are stored in pad frames at pad addresses: a sector of which some bytes stay is read first, and each is renewed. -/
def State.padStore (s : State) (v : Nat) (cells : List (Nat × Byte)) : State :=
  let as := distinct (cells.map (·.1))
  let whole (b : Nat) : Bool := (as.filter (fun a => a / 32 == b)).length == 32
  let t := (distinct (as.map (· / 32))).foldl (fun u b => if whole b then u else u.padMeet v (32 * b) 32) s
  let u := match t.crew v with
    | none => t
    | some c => c.frames.foldl (fun (x : State) (f : Frame) =>
        x.renewSectors (clusterOf c.core) (frameBank f.frame) (fun n => n / 128 == f.frame % 32 && as.any (fun a => a / 32 == f.addr n / 32))) t
  (u.shadowPages v (cells.map (·.1))).updCrew v (fun c => cells.foldl (fun k x => k.setPad x.1 x.2) c)

/-- Pad stores of a gang: each page takes a frame first (R159); a backing that cannot be read ends the crew (R451). -/
def State.padWrite (s : State) (v : Nat) (cells : List (Nat × Byte)) : State :=
  match s.padTakePages v (distinct (cells.map (·.1 / 4096))) with
  | (t, none) => t.padStore v cells
  | (t, some va) => t.raiseCrew v va

/-- Bytes land in the backing of a pad page, which becomes backed (R161). -/
def State.landBacking (s : State) (c : Crew) (a : Nat) (data : List Byte) : State × Option Nat :=
  let s1 := s.shadowPages c.val ((List.range data.length).map (a + ·))
  match s1.deviceStore c.ctx (c.backing a) data with
  | (t, false) => (t.machineCheck 11 (c.backing a) c.ctx, some (c.backing a))
  | (t, true) => (t.updCrew c.val (fun k => { k with padStates := sput .initial k.padStates (a / 4096) .backed }), none)

/-- Bytes that the engine writes to a pad page land in the frame, or in the backing of a page that has none or is being
evacuated (R161); a write to a pad of a crew that no longer exists is dropped (R180). The address of a backing that
failed ends the crew (R451). DEDUCED (unsafe), log entry 40. -/
def State.padLand (s : State) (v : Nat) (a : Nat) (data : List Byte) : State × Option Nat :=
  match s.crew v with
  | none => (s, none)
  | some c =>
    match c.padState (a / 4096) with
    | .pinned | .unpinned =>
      ((s.updCrew v (fun k => { k with frames := k.frames.map (fun f => if f.page == a / 4096 then { f with used := s.fresh } else f) })).padStore
        v (cellsAt a data), none)
    | .initial | .backed => s.landBacking c a data
    | .evacuating =>
      match s.padEvacuate v (a / 4096) with
      | (t, none) => t.landBacking ((t.crew v).getD c) a data
      | r => r

/-! ### Reads of a gang -/

/-- What an access asks of the memory path: it reads its slice, not the L1; its allocation policy; the order and scope
that its requests carry (R35, R329, R335). -/
structure Ask where
  direct : Bool
  policy : Nat
  ord : Nat
  scope : Nat
  deriving DecidableEq, Repr

/-- An access with neither order nor policy. -/
def Ask.plain : Ask := { direct := false, policy := 0, ord := 0, scope := 0 }

/-- An access past the L1. -/
def Ask.past : Ask := { Ask.plain with direct := true }

/-- Bytes of an element by lane and offset. -/
def gotKey (lane first : Nat) : Nat := lane * 65536 + first

/-- What a load has gathered: bytes by lane and offset, poisoned lanes, replies to come, and parts still to be asked
for. -/
structure Gather where
  st : State
  got : Store Byte
  poison : Mask
  await : List Await
  rest : List Located
  deriving DecidableEq, Repr

/-- A gather with nothing in it. -/
def Gather.start (s : State) : Gather := { st := s, got := [], poison := 0, await := [], rest := [] }

/-- Bytes enter a gather. -/
def putBytes (got : Store Byte) (lane first : Nat) (b : List Byte) : Store Byte :=
  (List.range b.length).foldl (fun m k => sput 0 m (gotKey lane (first + k)) (nth 0 b k)) got

/-- The bytes of a part enter a gather. -/
def Gather.take (r : Gather) (x : Located) (b : List Byte) (bad : Bool) : Gather :=
  { r with got := putBytes r.got x.part.lane x.part.first b
           poison := if bad then r.poison ||| laneBit x.part.lane else r.poison }

/-- Bytes of a gang's own write-combining buffer that cover an address range, and how many addresses they cover (R157). -/
def Gang.pendingBytes (g : Gang) (phys n : Nat) : List (Option Byte) :=
  match g.wcb.find? (fun e => e.line == lineOf phys) with
  | none => List.replicate n none
  | some e => (List.range n).map (fun k => (e.cells.find? (fun c => c.1 == phys + k)).map (·.2))

/-- The awaits of parts for a reply from a base on. -/
def awaitsOf (tag base : Nat) (line : Option LineRead) : List Located → List Await
  | [] => []
  | x :: xs =>
    { tag, lane := x.part.lane, first := x.part.first, count := x.part.len, skip := x.phys - base, base, line }
      :: awaitsOf tag base none xs

/-- The sectors of its line that a part touches. -/
def Located.sectors (x : Located) : BitVec 4 := sectorsOf (x.phys % 128) x.part.len

/-- The sectors of one line that parts of it touch. -/
def sectorsTouched (ps : List Located) : BitVec 4 := ps.foldl (fun m y => m ||| y.sectors) 0

/-- A read packet for sectors of a peer's line (R225, R419). -/
def readPacket (s : State) (g : Gang) (q : Ask) (line tag : Nat) (secs : List Bool) : Packet :=
  s.routed { blankPacket s.mgmt.modid (s.homeFor (dpaModule line) (dpaLocal line)) 1 tag with
    ctx := g.ctx, depth := g.tdepth, scope := q.scope, ord := q.ord, addr := dpaLocal line, len := 128, mask := secs }

/-- One read of a peer's line serves every part of an access that names it: of the sectors touched, or, to fill the L1, of
what the grain of the page asks for: the line, or all four lines, each with a request of its own (R154, R224, R225, R420). -/
def Gather.peerLine (r : Gather) (g : Gang) (ps : List Located) (q : Ask) (fills : Bool) : Gather :=
  match ps with
  | [] => r
  | x :: _ =>
    let grain := leafGrain x.leaf
    let line := lineOf x.phys
    let whole := fills && grain != 0
    let secs := (List.range 4).map (fun k => whole || (sectorsTouched ps).getLsbD k)
    let read : LineRead :=
      { cluster := clusterOf g.core, grain, mark := leafSeal x.leaf, policy := q.policy, sectors := secs, allocate := fills }
    let others := if fills && grain = 2 then (unitLines 2 line).filter (· != line) else []
    let first : Gather :=
      { r with st := { r.st with out := r.st.out ++ [readPacket r.st g q line r.st.fresh secs], fresh := r.st.fresh + 1 }
               await := r.await ++ awaitsOf r.st.fresh line (some read) ps }
    others.foldl (fun u l =>
      { u with st := { u.st with out := u.st.out ++ [readPacket u.st g q l u.st.fresh secs], fresh := u.st.fresh + 1 }
               await := u.await ++ [{ tag := u.st.fresh, lane := x.part.lane, first := x.part.first, count := 0, skip := 0, base := l, line := some read }] }) first

/-- A part cut at 64-byte lines. -/
def Located.halves (x : Located) : List Located :=
  let k := min x.part.len (64 - x.phys % 64)
  if k < x.part.len then
    [{ x with part := { x.part with len := k } },
     { x with part := { x.part with first := x.part.first + k, va := x.part.va + k, len := x.part.len - k }, phys := x.phys + k }]
  else [x]

/-- One read of host memory serves the parts of an access in a line: from the agent cache, or through CXL.cache or CXL.io
(R224, R409). -/
def Gather.hostParts (r : Gather) (g : Gang) (ps : List Located) : Gather :=
  match ps with
  | [] => r
  | x :: _ =>
    let s := r.st
    let lo := ps.foldl (fun m y => min m y.phys) x.phys
    let n := ps.foldl (fun m y => max m (y.phys + y.part.len)) 0 - lo
    let a := dpaLocal lo
    if s.coherent a then
      match s.agentLacks a n with
      | none => ps.foldl (fun q y => q.take y (s.agentBytes (dpaLocal y.phys) y.part.len) false) r
      | some h =>
        { r with st := s.hostBegin (.gang g.id) x.part.lane a (.load n) 0 (fun t => [.own t (s.hostPhys h) false])
                 await := r.await ++ awaitsOf s.fresh lo none ps }
    else
      { r with st := s.hostBegin (.gang g.id) x.part.lane a (.load n) 1 (fun t => [.read t (s.hostPhys a) n])
               await := r.await ++ awaitsOf s.fresh lo none ps }

/-- Host memory: a coherent window is read by 64-byte lines, the rest by whole lines. -/
def Gather.hostLine (r : Gather) (g : Gang) (ps : List Located) : Gather :=
  match ps with
  | [] => r
  | x :: _ =>
    if r.st.coherent (dpaLocal x.phys) then
      let hs := ps.flatMap Located.halves
      (distinct (hs.map (fun y => halfOf y.phys))).foldl (fun q h => q.hostParts g (hs.filter (fun y => halfOf y.phys == h))) r
    else r.hostParts g ps

/-- A store of the gang to bytes of some parts is on its way to a peer: they are read behind it (R321, R335). -/
def State.ownPending (s : State) (g : Gang) (ps : List Located) : Bool :=
  s.peerPending.any (fun e => e.org == .gang g.id
    && (ps.any (fun x => e.cells.any (fun c => x.phys ≤ c.1 && c.1 < x.phys + x.part.len))))

/-- Parts of one of this module's own lines, by one read of it, under the policy of the access: at its slice, which refreshes
what the L1 holds of them, or through the L1 (R35, R224, R225). -/
def Gather.ownLine (r : Gather) (g : Gang) (ps : List Located) (past : Bool) (policy : Nat) : Gather :=
  match ps with
  | [] => r
  | x :: _ =>
    let line := lineOf (dpaLocal x.phys)
    let q := if past then (r.st.touchSectors line (sectorsTouched ps) (leafGuarded x.leaf) policy, none)
      else r.st.l1Load (clusterOf g.core) line (sectorsTouched ps) x.leaf policy
    ps.foldl (fun u y =>
      match q.2 with
      | some d => u.take y ((List.range y.part.len).map (fun k => nth 0 d (y.phys % 128 + k))) false
      | none =>
        let b := q.1.bytes (dpaLocal y.phys) y.part.len
        let bad := q.1.anyPoison (dpaLocal y.phys) y.part.len
        let v := u.take y b bad
        if past && !bad then { v with st := v.st.l1Refresh (clusterOf g.core) (cellsAt y.phys b) } else v)
      { r with st := q.1 }

/-- Parts of one line past the write-combining buffer: from the L1, the slice, a peer or the host (R153, R224, R226, R228,
R329). -/
def Gather.beyond (r : Gather) (g : Gang) (ps : List Located) (q : Ask) : Gather :=
  match ps with
  | [] => r
  | x :: _ =>
    let past := q.direct || leafOrd x.leaf == 0
    let cl := clusterOf g.core
    if dpaModule x.phys == r.st.mgmt.modid then
      if isHost (dpaLocal x.phys) then r.hostLine g ps else r.ownLine g ps past q.policy
    else
      let sec := sectorsTouched ps
      let near := !past && !r.st.ownPending g ps
      let s := if near then r.st.l1Meet cl (lineOf x.phys) sec else r.st
      match (if near then s.l1Hit cl (lineOf x.phys) sec else none) with
      | some l =>
        ps.foldl (fun u y => u.take y ((List.range y.part.len).map (fun k => nth 0 l.data (y.phys % 128 + k))) false)
          { r with st := s.l1Touch l }
      | none => { r with st := s }.peerLine g ps q (!past && q.policy != 2 && q.policy != 3)

/-- The parts of a load in one line (R157, R228): those that the gang's own pending bytes cover whole are served there; an
entry that covers others in part drains first. -/
def Gather.line (r : Gather) (id : Nat) (ps : List Located) (q : Ask) : Gather :=
  match r.st.gang id, ps with
  | some g, x :: _ =>
    let full (y : Located) : Bool := (g.pendingBytes y.phys y.part.len).all Option.isSome
    let u := (ps.filter full).foldl (fun v y => v.take y ((g.pendingBytes y.phys y.part.len).map (fun b => b.getD 0)) false) r
    let left := ps.filter (fun y => !full y)
    let touched := left.any (fun y => (g.pendingBytes y.phys y.part.len).any Option.isSome)
    let v := if touched then { u with st := u.st.drainLine id (lineOf x.phys) } else u
    v.beyond ((v.st.gang id).getD g) left q
  | _, _ => ps.foldl (fun v y => v.take y (List.replicate y.part.len 0) false) r

/-- The lines of a load, in ascending order of the first part in each. -/
def linesOf (ps : List Located) : List Nat := distinct (ps.map (fun x => lineOf x.phys))

/-- Strongly ordered lines are read one at a time: those behind one whose reply is awaited wait for it (R226). -/
def Gather.strongLines (r : Gather) (id : Nat) (ps : List Located) (q : Ask) : Gather :=
  (linesOf ps).foldl (fun u line =>
    let mine := ps.filter (fun x => lineOf x.phys == line)
    if u.await.isEmpty then u.line id mine q else { u with rest := u.rest ++ mine }) r

/-- Reads every part of a load, line by line, in order; strongly ordered lines one after another.
DESIGN CHOICE (unsafe), log entry 72. -/
def State.fetchAll (s : State) (id : Nat) (xs : List Located) (q : Ask) : Gather :=
  let free := xs.filter (fun x => leafOrd x.leaf != 0)
  let r := (Gather.start s).strongLines id (xs.filter (fun x => leafOrd x.leaf == 0)) q
  (linesOf free).foldl (fun u line => u.line id (free.filter (fun x => lineOf x.phys == line)) q) r

/-- Reads one part of a gang past its buffer and the L1. -/
def State.fetchPast (s : State) (g : Gang) (x : Located) : Gather := (Gather.start s).beyond g [x] Ask.past

/-- Parts that are read for an operation on memory of its own: those that have come with their bytes and whether one is
poisoned, replies to come, and parts still to be asked for. A part lies in one half-line, and its `lane` tells which of
its line. -/
structure Pieces where
  st : State
  come : List (Located × List Byte × Bool)
  await : List Await
  rest : List Located
  deriving DecidableEq, Repr

/-- Located parts cut at half-lines. -/
def halfParts (xs : List Located) : List Located :=
  xs.flatMap (fun x => x.halves.map (fun y => { y with part := { y.part with lane := y.phys / 64 % 2 } }))

/-- The parts of one line are read. -/
def Pieces.line (m : Pieces) (id : Nat) (ps : List Located) : Pieces :=
  let q := (Gather.start m.st).line id ps Ask.plain
  let now := ps.filter (fun y => !q.await.any (fun w => w.first == y.part.first))
  { m with
    st := q.st
    come := m.come ++ now.map (fun y =>
      (y, (List.range y.part.len).map (fun k => sget 0 q.got (gotKey y.part.lane (y.part.first + k))), q.poison.getLsbD y.part.lane))
    await := m.await ++ q.await }

/-- Strongly ordered lines are read one after another (R226). -/
def Pieces.strongLines (m : Pieces) (id : Nat) (ps : List Located) : Pieces :=
  (linesOf ps).foldl (fun u line =>
    let mine := ps.filter (fun x => lineOf x.phys == line)
    if u.await.isEmpty then u.line id mine else { u with rest := u.rest ++ mine }) m

/-- Every part is read, line by line. -/
def State.fetchPieces (s : State) (id : Nat) (xs : List Located) : Pieces :=
  let free := xs.filter (fun x => leafOrd x.leaf != 0)
  let m := Pieces.strongLines { st := s, come := [], await := [], rest := [] } id (xs.filter (fun x => leafOrd x.leaf == 0))
  (linesOf free).foldl (fun u line => u.line id (free.filter (fun x => lineOf x.phys == line))) m

/-- A load that awaits replies, with nothing gathered yet. -/
def blankLoad (gang split kind reg : Nat) (await : List Await) : PendLoad :=
  { tag := 0, gang, split, kind, reg, size := 0, signed := false, lanes := 0, got := [], poison := 0, await, faults := [],
    acquire := none, lines := (0, 0, 0, 0), rest := [], near := none, operands := [], ord := 0, scope := 0 }

/-- A load with what has been gathered for it. -/
def PendLoad.from (l : PendLoad) (r : Gather) : PendLoad :=
  { l with got := r.got, poison := r.poison, await := r.await, rest := r.rest }

/-- With a load in flight, under a fresh tag. -/
def State.addLoad (s : State) (l : PendLoad) : State :=
  { s with loads := s.loads ++ [{ l with tag := s.fresh }], fresh := s.fresh + 1 }

/-- Gangs from here on stand for the lease unit, and, a context's number above it, for the device as it acts on that context's
behalf. -/
def noGang : Nat := 2 ^ 64

/-- The device as what reads on a context's behalf. -/
def deviceGang (ctx : Nat) : Gang := Gang.start (noGang + ctx) 0 0 0 ctx 0 0 16 (Split.start 0 0 0)

/-- Bytes of an area that may lie on any module, as the device reads them: at hand, to come, or not to be read. -/
inductive AreaRead where
  | here (s : State) (data : List Byte)
  | coming (s : State) (await : List Await)
  | failed (s : State)
  deriving DecidableEq, Repr

/-- The device reads n bytes, which one line holds, of such an area (R104, R451). -/
def State.areaRead (s : State) (ctx va n : Nat) : AreaRead :=
  match s.deviceRead ctx va n with
  | (t, some d) => .here t d
  | (t, none) =>
    match areaAway t ctx va n true false with
    | none => .failed t
    | some (x, e) =>
      let r := t.fetchPast (deviceGang ctx) { part := { lane := 0, first := 0, va, len := n }, phys := x, leaf := e, isSealed := false }
      if !r.await.isEmpty then .coming r.st r.await
      else if r.poison != 0 then .failed r.st
      else .here r.st ((List.range n).map (fun k => sget 0 r.got (gotKey 0 k)))

/-- The n bytes that a load has brought. -/
def PendLoad.bytes (l : PendLoad) (n : Nat) : List Byte := (List.range n).map (fun k => sget 0 l.got (gotKey 0 k))

/-- A load of the device of a kind, for a register number, is under way. -/
def State.fetching (s : State) (kind reg : Nat) : Bool := s.loads.any (fun l => l.kind == kind && l.reg == reg)

/-- The spilled entry of a split is being read elsewhere. -/
def State.refilling (s : State) (id k : Nat) : Bool := s.loads.any (fun l => l.kind == 16 && l.gang == id && l.split == k)

/-! ### Writing the fault logs (R378) -/

/-- The slot of a record cannot be reached, or its byte 0 cannot be read: subcode 11, except for the log of context 0 (R451). -/
def State.recordFails (s : State) (r : LogRec) (va : Nat) : State :=
  let t := s.loseRecord r.ctx
  if r.ctx = 0 then t else t.machineCheck 11 va r.ctx

/-- A record takes its slot: LOGW advances, the record is written as `write` does it, and one of the resident's log sets every
control core's event flag (R405). -/
def State.recordTakes (s : State) (r : LogRec) (write : State → State) : State :=
  let t := s.putCells (cellsAt (64 * r.ctx + 48) (leBytes 4 (bits (s.ctxLogw r.ctx) 0 32 + 1)))
  let u := write t
  if r.ctx = 0 then { u with eventFlags := List.range Config.clusters } else u

/-- The device writes a record to the log of its context (R378): at slot LOGW when its byte 0 is zero. A record whose slot lies
elsewhere, and those after it, wait until that byte has been read. DEDUCED (unsafe), log entries 53 and 57. -/
def State.writeRecord (s : State) (r : LogRec) : State :=
  match s.logArea r.ctx with
  | none => s.loseRecord r.ctx
  | some (n, base) =>
    let va := base + 64 * (bits (s.ctxLogw r.ctx) 0 32 % 2 ^ n)
    if s.fetching 18 r.ctx then { s with logQueue := s.logQueue ++ [r] }
    else
      match s.deviceReach r.ctx va 64 true true with
      | (q, some (a, e)) =>
        if q.byte a != 0 then q.loseRecord r.ctx
        else q.recordTakes r (fun t => t.commitWrite (deviceWrite a e r.ctx (r.toBytes s.clock)))
      | (q, none) =>
        match (areaAway q r.ctx va 64 true true).map (fun _ => q.areaRead r.ctx va 64) with
        | some (.coming t aw) =>
          { t with logQueue := t.logQueue ++ [r] }.addLoad { blankLoad (noGang + r.ctx) 0 18 r.ctx aw with lines := (0, va, 0, 0) }
        | some (.here t d) =>
          if nth 0 d 0 != 0 then t.loseRecord r.ctx
          else t.recordTakes r (fun u => (u.areaStore r.ctx va (r.toBytes s.clock)).1)
        | some (.failed t) => t.recordFails r va
        | none => q.recordFails r va

/-- The records raised so far are written, in the order of their events (R378). -/
def State.flushLog (s : State) : State :=
  s.logQueue.foldl State.writeRecord { s with logQueue := [] }

/-- Byte 0 of a slot elsewhere has come: the first record of that context that waits is written there, or lost. -/
def State.slotRead (s : State) (ctx va : Nat) (l : PendLoad) : State :=
  match s.logQueue.find? (fun r => r.ctx == ctx) with
  | none => s
  | some r =>
    let t : State := { s with logQueue := s.logQueue.eraseP (fun q => q.ctx == ctx) }
    if l.poison != 0 then t.recordFails r va
    else if nth 0 (l.bytes 1) 0 != 0 then t.loseRecord ctx
    else t.recordTakes r (fun u => (u.areaStore ctx va (r.toBytes s.clock)).1)

/-- The element of a lane, of n bytes, as a number. -/
def element (got : Store Byte) (lane n : Nat) : Nat :=
  ofBytes ((List.range n).map (fun k => sget 0 got (gotKey lane k)))

end Sys2Proof.Machine
end

