-- ==== Sys2Proof/Machine/Flags.lean ====
section
/-! DEFINITION. Floating-point values, formats, rounding and flags (R58 to R85), and the special functions of R256. Every
result is an exact value rounded once; where the exact value has no finite expansion, its low bits are jammed into a last
bit that no rounding can mistake for an exact or halfway case. -/

namespace Sys2Proof.Machine

/-! ### Flags (R64) -/

def flagNV : Nat := 1
def flagDZ : Nat := 2
def flagOF : Nat := 4
def flagUF : Nat := 8
def flagNX : Nat := 16
def flagSA : Nat := 32

/-! ### Formats (R58) -/

/-- A scalar floating-point format: width, exponent and mantissa bits, bias, whether it has infinities, and its
canonical NaN. -/
structure Fmt where
  width : Nat
  ebits : Nat
  t : Nat
  bias : Nat
  hasInf : Bool
  nan : Nat
  largest : Nat
  deriving DecidableEq, Repr

def fp32 : Fmt := ⟨32, 8, 23, 127, true, 0x7FC00000, 0x7F7FFFFF⟩
def fp16 : Fmt := ⟨16, 5, 10, 15, true, 0x7E00, 0x7BFF⟩
def bf16 : Fmt := ⟨16, 8, 7, 127, true, 0x7FC0, 0x7F7F⟩
def e4m3 : Fmt := ⟨8, 4, 3, 7, false, 0x7F, 0x7E⟩
def e5m2 : Fmt := ⟨8, 5, 2, 15, true, 0x7E, 0x7B⟩

/-- A floating-point value: NaN, signalling or quiet; an infinity; or (−1)^neg × m × 2^x. -/
inductive FVal where
  | nan (sig : Bool)
  | inf (neg : Bool)
  | fin (neg : Bool) (m : Nat) (x : Int)
  deriving DecidableEq, Repr

/-- Sign bit of an encoding. -/
def signOf (f : Fmt) (n : Nat) : Bool := bit n (f.width - 1)

/-- The sign bit s of a format, placed. -/
def signBit (f : Fmt) (s : Bool) : Nat := if s then 2 ^ (f.width - 1) else 0

/-- The value of an encoding (R59). E5M2 has quiet NaNs only, and E4M3 the one NaN magnitude 0x7F. -/
def decodeF (f : Fmt) (n : Nat) : FVal :=
  let s := signOf f n
  let e := bits n f.t f.ebits
  let m := bits n 0 f.t
  if e = 2 ^ f.ebits - 1 && f.hasInf then
    (if m = 0 then .inf s else .nan (f.width != 8 && !bit m (f.t - 1)))
  else if e = 2 ^ f.ebits - 1 && !f.hasInf && m = 2 ^ f.t - 1 then .nan false
  else if e = 0 then .fin s m (1 - (f.bias : Int) - f.t)
  else .fin s (2 ^ f.t + m) ((e : Int) - f.bias - f.t)

/-- The value is a signalling NaN. -/
def FVal.isSig : FVal → Bool
  | .nan s => s
  | _ => false

def FVal.isNan : FVal → Bool
  | .nan _ => true
  | _ => false

def FVal.isZero : FVal → Bool
  | .fin _ 0 _ => true
  | _ => false

/-- The value with its sign inverted; a NaN has none. -/
def FVal.negate : FVal → FVal
  | .nan s => .nan s
  | .inf n => .inf (!n)
  | .fin n m x => .fin (!n) m x

/-- NV for a signalling NaN (R60). -/
def FVal.sigFlag (v : FVal) : Nat := if v.isSig then flagNV else 0

/-- Bits in a number; 0 for 0. -/
def bitLen (m : Nat) : Nat := if m = 0 then 0 else Nat.log2 m + 1

/-! ### Rounding (R62) -/

/-- An integer part with a remainder below 2^k rounds up under a mode: to nearest even, toward zero, down, up. -/
def roundsUp (rm : Nat) (neg : Bool) (n rem half : Nat) : Bool :=
  if rm = 0 then half < rem || (rem == half && n % 2 == 1)
  else if rm = 1 then false
  else if rm = 2 then neg && rem != 0
  else !neg && rem != 0

/-- m × 2^x as a multiple of 2^q, rounded: the multiple, and whether it is inexact. A remainder far below the unit is
kept as a non-zero one below its half. -/
def roundAt (rm : Nat) (neg : Bool) (m : Nat) (x q : Int) : Nat × Bool :=
  if m = 0 then (0, false)
  else if q ≤ x then (m * 2 ^ (x - q).toNat, false)
  else
    let k := (q - x).toNat
    if bitLen m + 1 < k then ((if roundsUp rm neg 0 1 2 then 1 else 0), true)
    else
      let n := m / 2 ^ k
      let r := m % 2 ^ k
      ((if roundsUp rm neg n r (2 ^ (k - 1)) then n + 1 else n), r != 0)

/-- An overflowing result (R63): the encoding without sign, before flags. -/
def overflowTo (f : Fmt) (rm : Nat) (sat neg : Bool) : Nat :=
  if sat || rm = 1 || (rm = 2 && !neg) || (rm = 3 && neg) then f.largest
  else if f.hasInf then f.largest + 1 else f.nan

/-- A signed encoding, or the canonical NaN, whose sign is 0 (R60). -/
def withSign (f : Fmt) (neg : Bool) (mag : Nat) : Nat := if mag = f.nan then f.nan else signBit f neg + mag

/-- (−1)^neg × m × 2^x rounded once into a format (R62, R63): the encoding and its flags. Zero keeps the sign given.
DEDUCED (unsafe), log entry 55. -/
def roundTo (f : Fmt) (rm : Nat) (sat neg : Bool) (m : Nat) (x : Int) : Nat × Nat :=
  if m = 0 then (signBit f neg, 0)
  else
    let top : Int := x + bitLen m - 1
    let emin : Int := 1 - f.bias
    let q : Int := max top emin - f.t
    let big : Nat × Nat := (withSign f neg (overflowTo f rm sat neg), flagOF + flagNX)
    if (2 ^ f.ebits : Int) < top then big
    else
      let r := roundAt rm neg m x q
      let s := (q - (emin - f.t)).toNat
      let mag := if 2 ^ (f.t + 1) ≤ r.1 then (s + 1) * 2 ^ f.t + r.1 / 2 else s * 2 ^ f.t + r.1
      let free := roundAt rm neg m x (top - f.t)
      let tiny := top < emin && !(top == emin - 1 && free.1 == 2 ^ (f.t + 1))
      if f.largest < mag then big
      else (signBit f neg + mag, (if r.2 then flagNX else 0) + (if r.2 && tiny then flagUF else 0))

/-- An infinite result of arithmetic (R63, R244). -/
def packInf (f : Fmt) (sat neg : Bool) : Nat × Nat :=
  if f.hasInf then (signBit f neg + f.largest + 1, 0)
  else if sat then (signBit f neg + f.largest, flagSA)
  else (f.nan, flagNV)

/-- A value rounded into a format as the result of arithmetic. -/
def packF (f : Fmt) (rm : Nat) (sat : Bool) : FVal → Nat × Nat
  | .nan s => (f.nan, if s then flagNV else 0)
  | .inf n => packInf f sat n
  | .fin n m x => roundTo f rm sat n m x

/-- An infinite source of a conversion (R63). -/
def convInf (f : Fmt) (sat neg : Bool) : Nat × Nat :=
  if sat then (signBit f neg + f.largest, flagSA)
  else if f.hasInf then (signBit f neg + f.largest + 1, 0)
  else (f.nan, flagNV)

/-- A conversion between formats, rounded once (R75, second row). -/
def convertF (f : Fmt) (rm : Nat) (sat : Bool) : FVal → Nat × Nat
  | .nan s => (f.nan, if s then flagNV else 0)
  | .inf n => convInf f sat n
  | .fin n m x => roundTo f rm sat n m x

/-! ### Arithmetic (R253 to R255) -/

/-- The signed integer of a finite value at weight 2^q, q not above its exponent. -/
def scaledInt (neg : Bool) (m : Nat) (x q : Int) : Int :=
  let v : Int := m * 2 ^ (x - q).toNat
  if neg then -v else v

/-- The exact sum of finite values. An exact zero of operands of opposite sign is +0, or −0 under RDN (R254). -/
def addFin (rm : Nat) (n1 : Bool) (m1 : Nat) (x1 : Int) (n2 : Bool) (m2 : Nat) (x2 : Int) : FVal :=
  let q := min x1 x2
  let v := scaledInt n1 m1 x1 q + scaledInt n2 m2 x2 q
  if v = 0 then .fin (if n1 == n2 then n1 else rm == 2) 0 0
  else .fin (v < 0) v.natAbs q

/-- The exact sum with its flags. -/
def addV (rm : Nat) (a b : FVal) : FVal × Nat :=
  match a, b with
  | .nan s, .nan u => (.nan false, if s || u then flagNV else 0)
  | .nan s, _ => (.nan false, if s then flagNV else 0)
  | _, .nan s => (.nan false, if s then flagNV else 0)
  | .inf n, .inf m => if n == m then (.inf n, 0) else (.nan false, flagNV)
  | .inf n, _ => (.inf n, 0)
  | _, .inf n => (.inf n, 0)
  | .fin n1 m1 x1, .fin n2 m2 x2 => (addFin rm n1 m1 x1 n2 m2 x2, 0)

/-- The exact product with its flags. -/
def mulV (a b : FVal) : FVal × Nat :=
  match a, b with
  | .nan s, .nan u => (.nan false, if s || u then flagNV else 0)
  | .nan s, _ => (.nan false, if s then flagNV else 0)
  | _, .nan s => (.nan false, if s then flagNV else 0)
  | .inf n, .inf m => (.inf (n != m), 0)
  | .inf n, .fin k m _ => if m = 0 then (.nan false, flagNV) else (.inf (n != k), 0)
  | .fin k m _, .inf n => if m = 0 then (.nan false, flagNV) else (.inf (n != k), 0)
  | .fin n1 m1 x1, .fin n2 m2 x2 => (.fin (n1 != n2) (m1 * m2) (x1 + x2), 0)

/-- A quotient to 64 more bits than its divisor has, its remainder jammed. -/
def divFin (n1 : Bool) (m1 : Nat) (x1 : Int) (n2 : Bool) (m2 : Nat) (x2 : Int) : FVal :=
  let k := bitLen m2 + 64
  let v := m1 * 2 ^ k
  .fin (n1 != n2) (2 * (v / m2) + b2n (v % m2 != 0)) (x1 - x2 - k - 1)

/-- The quotient with its flags (R254). -/
def divV (a b : FVal) : FVal × Nat :=
  match a, b with
  | .nan s, .nan u => (.nan false, if s || u then flagNV else 0)
  | .nan s, _ => (.nan false, if s then flagNV else 0)
  | _, .nan s => (.nan false, if s then flagNV else 0)
  | .inf _, .inf _ => (.nan false, flagNV)
  | .inf n, .fin k _ _ => (.inf (n != k), 0)
  | .fin n _ _, .inf k => (.fin (n != k) 0 0, 0)
  | .fin n1 m1 x1, .fin n2 m2 x2 =>
    if m2 = 0 then (if m1 = 0 then (.nan false, flagNV) else (.inf (n1 != n2), flagDZ))
    else if m1 = 0 then (.fin (n1 != n2) 0 0, 0)
    else (divFin n1 m1 x1 n2 m2 x2, 0)

/-- The fused a × b + d, exact (R255): a product of zero and infinity is NaN with NV whatever d holds. -/
def fmaV (rm : Nat) (a b d : FVal) : FVal × Nat :=
  let p := mulV a b
  let r := addV rm p.1 d
  (r.1, p.2 ||| r.2)

/-- Rounds a value with the flags of its operation. -/
def finish (f : Fmt) (rm : Nat) (sat : Bool) (r : FVal × Nat) : Nat × Nat :=
  let p := packF f rm sat r.1
  (p.1, p.2 ||| r.2)

/-- The first of two finite or infinite values is less than the second. -/
def ltV (a b : FVal) : Bool :=
  match a, b with
  | .nan _, _ => false
  | _, .nan _ => false
  | .inf n, .inf m => n && !m
  | .inf n, _ => n
  | _, .inf n => !n
  | .fin n1 m1 x1, .fin n2 m2 x2 =>
    let q := min x1 x2
    scaledInt n1 m1 x1 q < scaledInt n2 m2 x2 q

/-- Two values compare equal; −0 equals +0 (R257). -/
def eqV (a b : FVal) : Bool :=
  match a, b with
  | .nan _, _ => false
  | _, .nan _ => false
  | .inf n, .inf m => n == m
  | .inf _, _ => false
  | _, .inf _ => false
  | .fin n1 m1 x1, .fin n2 m2 x2 =>
    let q := min x1 x2
    scaledInt n1 m1 x1 q == scaledInt n2 m2 x2 q

/-- The lesser or greater of two encodings, with its flags (R254). -/
def minMaxF (f : Fmt) (isMax : Bool) (x y : Nat) : Nat × Nat :=
  let a := decodeF f x
  let b := decodeF f y
  let fl := a.sigFlag ||| b.sigFlag
  if a.isNan && b.isNan then (f.nan, fl)
  else if a.isNan then (y, fl)
  else if b.isNan then (x, fl)
  else if a.isZero && b.isZero then
    (if isMax then (if signOf f x then y else x) else (if signOf f x then x else y), fl)
  else if isMax then (if ltV a b then y else x, fl)
  else (if ltV b a then y else x, fl)

/-! ### Operations on encodings of one format -/

def addF (f : Fmt) (rm : Nat) (sat : Bool) (x y : Nat) : Nat × Nat :=
  finish f rm sat (addV rm (decodeF f x) (decodeF f y))

def subF (f : Fmt) (rm : Nat) (sat : Bool) (x y : Nat) : Nat × Nat :=
  finish f rm sat (addV rm (decodeF f x) (decodeF f y).negate)

def mulF (f : Fmt) (rm : Nat) (sat : Bool) (x y : Nat) : Nat × Nat :=
  finish f rm sat (mulV (decodeF f x) (decodeF f y))

def divF (f : Fmt) (rm : Nat) (sat : Bool) (x y : Nat) : Nat × Nat :=
  finish f rm sat (divV (decodeF f x) (decodeF f y))

/-- a × b + d with the signs of the product and of d inverted as asked (R255). -/
def fmaF (f : Fmt) (rm : Nat) (sat negP negD : Bool) (x y d : Nat) : Nat × Nat :=
  let a := decodeF f x
  let c := decodeF f d
  finish f rm sat (fmaV rm (if negP then a.negate else a) (decodeF f y) (if negD then c.negate else c))

def absF (f : Fmt) (x : Nat) : Nat := x % 2 ^ (f.width - 1)

def negF (f : Fmt) (x : Nat) : Nat := x ^^^ 2 ^ (f.width - 1)

/-! ### Special functions (R256) -/

/-- The integer square root, by binary digits from the n-th down. -/
def isqrtAux (v : Nat) : Nat → Nat → Nat
  | 0, r => r
  | n + 1, r => isqrtAux v n (if (r + 2 ^ n) * (r + 2 ^ n) ≤ v then r + 2 ^ n else r)

/-- Floor of the square root of v. -/
def isqrt (v : Nat) : Nat := isqrtAux v (bitLen v / 2 + 1) 0

/-- An even exponent for a root: m × 2^x as m' × 2^(2h). -/
def evenExp (m : Nat) (x : Int) : Nat × Int := if x % 2 = 0 then (m, x / 2) else (2 * m, (x - 1) / 2)

/-- √a (R256). -/
def sqrtV : FVal → FVal × Nat
  | .nan s => (.nan false, if s then flagNV else 0)
  | .inf n => if n then (.nan false, flagNV) else (.inf false, 0)
  | .fin n m x =>
    if m = 0 then (.fin n 0 0, 0)
    else if n then (.nan false, flagNV)
    else
      let e := evenExp m x
      let v := e.1 * 2 ^ 80
      let r := isqrt v
      (.fin false (2 * r + b2n (r * r != v)) (e.2 - 41), 0)

/-- 1 / √a (R256). -/
def rsqrtV : FVal → FVal × Nat
  | .nan s => (.nan false, if s then flagNV else 0)
  | .inf n => if n then (.nan false, flagNV) else (.fin false 0 0, 0)
  | .fin n m x =>
    if m = 0 then (.inf n, flagDZ)
    else if n then (.nan false, flagNV)
    else
      let e := evenExp m x
      let v := 2 ^ 160 / e.1
      let r := isqrt v
      (.fin false (2 * r + b2n (r * r * e.1 != 2 ^ 160)) (-e.2 - 81), 0)

/-- Fraction bits of the fixed-point products of `exp2V`. -/
def expBits : Nat := 160

/-- The product of the constants 2^(2^−k) for the set bits of a 64-bit fraction, most significant first: c is the next
constant, r the product so far, in fixed point. -/
def exp2Frac (frac : Nat) : Nat → Nat → Nat → Nat
  | 0, _, r => r
  | n + 1, c, r =>
    exp2Frac frac n (isqrt (c * 2 ^ expBits)) (if bit frac n then r * c / 2 ^ expBits else r)

/-- 2^a for a in [−1, 1] (R256). A magnitude below 2^−30 differs from 1 by less than a quarter of an ulp; every other
value is exact in 64 fraction bits, and irrational unless a is an integer. -/
def exp2V : FVal → FVal × Nat
  | .nan _ => (.nan false, flagNV)
  | .inf _ => (.nan false, flagNV)
  | .fin n m x =>
    if m = 0 then (.fin false 1 0, 0)
    else if x + bitLen m ≤ -30 then
      (if n then (.fin false (2 ^ 64 - 1) (-64), 0) else (.fin false (2 ^ 64 + 1) (-64), 0))
    else
      let v := m * 2 ^ (x + 64).toNat
      if 2 ^ 64 < v then (.nan false, flagNV)
      else if v = 2 ^ 64 then (.fin false 1 (if n then -1 else 1), 0)
      else
        let frac := if n then 2 ^ 64 - v else v
        let r := exp2Frac frac 64 (isqrt (2 * 2 ^ expBits * 2 ^ expBits)) (2 ^ expBits)
        (.fin false (2 * r + 1) (-(expBits : Int) - 1 - (if n then 1 else 0)), 0)

/-- Fraction bits of the fixed-point squarings of `log2V`. -/
def logBits : Nat := 320

/-- The next n binary digits of log2 y, y in [1, 2) in fixed point: y is squared, and a digit is 1 when the square
reaches 2. -/
def log2Digits : Nat → Nat → Nat → Nat
  | 0, _, k => k
  | n + 1, y, k =>
    let z := y * y / 2 ^ logBits
    if 2 ^ (logBits + 1) ≤ z then log2Digits n (z / 2) (2 * k + 1) else log2Digits n z (2 * k)

/-- log2(a) (R256): exact for powers of two, and otherwise irrational. -/
def log2V : FVal → FVal × Nat
  | .nan s => (.nan false, if s then flagNV else 0)
  | .inf n => if n then (.nan false, flagNV) else (.inf false, 0)
  | .fin n m x =>
    if m = 0 then (.inf true, flagDZ)
    else if n then (.nan false, flagNV)
    else
      let e : Int := x + bitLen m - 1
      if m = 2 ^ (bitLen m - 1) then (.fin (e < 0) e.natAbs 0, 0)
      else
        let k := log2Digits 128 (m * 2 ^ (logBits + 1 - bitLen m)) 0
        let v : Int := 2 * (e * 2 ^ 128 + k) + 1
        (.fin (v < 0) v.natAbs (-129), 0)

/-! ### Integers -/

/-- Rounded to an integral value (R258): exact, and a zero result keeps the sign. -/
def rintV (rm : Nat) : FVal → FVal × Nat
  | .nan s => (.nan false, if s then flagNV else 0)
  | .inf n => (.inf n, 0)
  | .fin n m x => (.fin n (roundAt rm n m x 0).1 0, 0)

/-- a × 2^n (R258). -/
def scaleV (n : Int) : FVal → FVal × Nat
  | .nan s => (.nan false, if s then flagNV else 0)
  | .inf s => (.inf s, 0)
  | .fin s m x => (.fin s m (x + n), 0)

/-- To an integer between lo and hi (R75, R260). -/
def toIntF (rm : Nat) (lo hi : Int) : FVal → Int × Nat
  | .nan _ => (0, flagNV)
  | .inf n => (if n then lo else hi, flagSA + flagNX)
  | .fin n m x =>
    let r : Nat × Bool := if 80 < x + bitLen m then (2 ^ 80, false) else roundAt rm n m x 0
    let v : Int := if n then -(r.1 : Int) else r.1
    if v < lo then (lo, flagSA + flagNX)
    else if hi < v then (hi, flagSA + flagNX)
    else (v, if r.2 then flagNX else 0)

/-- An integer as an exact value. -/
def ofIntV (v : Int) : FVal := .fin (v < 0) v.natAbs 0

/-! ### Format codes of FMT (R71 to R74) -/

def fmtAF (w : Word) : Nat := bits w.toNat 0 4
def fmtBF (w : Word) : Nat := bits w.toNat 4 4
def fmtDF (w : Word) : Nat := bits w.toNat 8 4
def fmtTF (w : Word) : Nat := bits w.toNat 12 4
def fmtRM (w : Word) : Nat := bits w.toNat 16 2
def fmtSAT (w : Word) : Bool := bit w.toNat 18
def fmtBS (w : Word) : Nat := bits w.toNat 19 2
def fmtNF (w : Word) : Nat := bits w.toNat 24 4

/-- The scalar format of a code. -/
def fmtOf (c : Nat) : Fmt :=
  if c = 0 then bf16 else if c = 1 then fp16 else if c = 2 then e4m3 else if c = 3 then e5m2 else fp32

/-- A KBF code (R68). -/
def isKbf (c : Nat) : Bool := 8 ≤ c && c ≤ 14

/-- Bits of a KBF mantissa: KBF-n has code n + 6. -/
def kbfBits (c : Nat) : Nat := c - 6

/-- Block size that FMT.BS selects (R71). -/
def kbfBlock (w : Word) : Nat := 16 * 2 ^ fmtBS w

/-- A code is legal as a matrix operand format under R72 and R73. -/
def operandFmtOk (w : Word) (c : Nat) : Bool := c ≤ 4 || (isKbf c && fmtBS w != 3)

/-- A code is legal as a drain format under R72 and R73. -/
def drainFmtOk (w : Word) (c : Nat) : Bool := c ≤ 4 || c == 15 || (isKbf c && fmtBS w != 3)

/-- NF is legal (R72). -/
def narrowOk (w : Word) : Bool := fmtNF w ≤ 3

/-! ### Block formats (R61, R66 to R70) -/

/-- E2M1 magnitudes, in halves (R59). -/
def e2m1Halves (c : Nat) : Nat := nth 0 [0, 1, 2, 3, 4, 6, 8, 12] (c % 8)

/-- An MXFP4 element with its block's scale (R67). -/
def mxValue (s c : Nat) : FVal :=
  if s = 0xFF then .nan false else .fin (bit c 3) (e2m1Halves c) ((s : Int) - 128)

/-- A KBF-n element with its block's shared exponent (R68). -/
def kbfValue (n e c : Nat) : FVal :=
  if e = 0xFF then .nan false
  else
    let m := toInt n c
    .fin (m < 0) m.natAbs ((e : Int) - 127 - (n - 1))

/-- A block of encoded elements with its scale byte and the flags of its encoding. -/
structure Block where
  codes : List Nat
  scale : Nat
  flags : Nat
  deriving DecidableEq, Repr

/-- The quotient x / 2^q rounded to an integer (R70). -/
def quotInt (rm : Nat) (q : Int) : FVal → Int × Bool
  | .fin n m x =>
    let r := roundAt rm n m x q
    (if n then -(r.1 : Int) else r.1, r.2)
  | _ => (0, false)

/-- The end of the KBF mantissa range that an infinity takes, or a rounded quotient clamped to the range (R70). -/
def kbfClamp (n : Nat) (rm : Nat) (q : Int) (v : FVal) : Int × Bool :=
  let lo : Int := -(2 ^ (n - 1))
  let hi : Int := 2 ^ (n - 1) - 1
  match v with
  | .inf neg => (if neg then lo else hi, true)
  | _ =>
    let r := quotInt rm q v
    if r.1 < lo then (lo, true) else if hi < r.1 then (hi, true) else r

/-- NX and UF of an encoded block (R70). -/
def blockFlags (vs : List FVal) (ms : List (Int × Bool)) : Nat :=
  (if ms.any (·.2) then flagNX else 0)
    ||| (if (vs.zip ms).any (fun p => !p.1.isZero && p.2.1 == 0) then flagUF else 0)

/-- The weight exponent of a KBF-n mantissa under shared exponent e (R68). -/
def kbfWeight (n e : Nat) : Int := (e : Int) - 127 - ((n : Int) - 1)

/-- Encodes values into a KBF-n block (R70). -/
def encodeKbf (n rm : Nat) (sat : Bool) (vs : List FVal) : Block :=
  let lo : Int := -(2 ^ (n - 1))
  let hi : Int := 2 ^ (n - 1) - 1
  let fits (e : Nat) : Bool := vs.all (fun v => let r := (quotInt rm (kbfWeight n e) v).1; lo ≤ r && r ≤ hi)
  let codes (ms : List (Int × Bool)) : List Nat := ms.map (fun m => wrapInt n m.1)
  let zeros : List Nat := vs.map (fun _ => 0)
  if vs.any FVal.isNan then
    { codes := zeros, scale := 0xFF, flags := if vs.any FVal.isSig then flagNV else 0 }
  else
    let found := if vs.any (fun v => match v with | .inf _ => true | _ => false) then none
      else (List.range 255).find? fits
    match found with
    | some e =>
      let ms := vs.map (quotInt rm (kbfWeight n e))
      { codes := codes ms, scale := e, flags := blockFlags vs ms }
    | none =>
      if sat then
        let ms := vs.map (kbfClamp n rm (kbfWeight n 254))
        { codes := codes ms, scale := 254, flags := flagOF ||| blockFlags vs ms }
      else { codes := zeros, scale := 0xFF, flags := flagOF }

/-- A quotient x / 2^q on the unbounded E2M1 grid, in halves: precision of two bits, unit never below a half (R70). -/
def gridHalves (rm : Nat) (q : Int) : FVal → Bool × Nat × Bool
  | .fin n m x =>
    let top : Int := x - q + bitLen m - 1
    let u : Int := max (top - 1) (-1)
    let r := roundAt rm n m (x - q) u
    (n, r.1 * 2 ^ (u + 1).toNat, r.2)
  | .inf n => (n, 0, false)
  | .nan _ => (false, 0, false)

/-- The E2M1 code of a sign and a magnitude in halves, clamped to 6. -/
def e2m1Code (neg : Bool) (h : Nat) : Nat :=
  8 * b2n neg + (((List.range 8).find? (fun c => e2m1Halves c == min h 12)).getD 7)

/-- Encodes 32 values into an MXFP4 block (R70). A zero element takes the code of +0. -/
def encodeMx (rm : Nat) (sat : Bool) (vs : List FVal) : Block :=
  let q (s : Nat) : Int := (s : Int) - 127
  let isInf (v : FVal) : Bool := match v with | .inf _ => true | _ => false
  let element (s : Nat) (v : FVal) : Nat × Int × Bool :=
    let g := gridHalves rm (q s) v
    let h := if isInf v then 12 else min g.2.1 12
    ((if h = 0 then 0 else e2m1Code g.1 h), (h : Int), g.2.2 || isInf v || 12 < g.2.1)
  let zeros : List Nat := vs.map (fun _ => 0)
  if vs.any FVal.isNan then
    { codes := zeros, scale := 0xFF, flags := if vs.any FVal.isSig then flagNV else 0 }
  else
    let found := if vs.any isInf then none
      else (List.range 255).find? (fun s => vs.all (fun v => (gridHalves rm (q s) v).2.1 ≤ 12))
    let build (s : Nat) (fl : Nat) : Block :=
      let es := vs.map (element s)
      { codes := es.map (·.1), scale := s, flags := fl ||| blockFlags vs (es.map (fun e => (e.2.1, e.2.2))) }
    match found with
    | some s => build s 0
    | none => if sat then build 254 flagOF else { codes := zeros, scale := 0xFF, flags := flagOF }

/-! ### ACC96 (R76 to R78) -/

/-- An ACC96 word from its exponent and significand. -/
def accWord (e : Nat) (s : Int) : Acc := BitVec.ofNat 96 (e * 2 ^ 84 + wrapInt 84 s)

def accZero : Acc := 0
def accNan : Acc := accWord 0xFFF (-(2 ^ 82))
def accInf (neg : Bool) : Acc := accWord 0xFFF (if neg then -(2 ^ 83) else 2 ^ 82)

/-- The value of an ACC96 word (R76, R77). Its NaN is quiet. -/
def decodeAcc (a : Acc) : FVal :=
  let e := bits a.toNat 84 12
  let s := toInt 84 (bits a.toNat 0 84)
  if e = 0 then .fin false 0 0
  else if e = 0xFFF then
    (if s = 2 ^ 82 then .inf false else if s = -(2 ^ 83) then .inf true else .nan false)
  else .fin (s < 0) s.natAbs ((e : Int) - 2129)

/-- A finite value in ACC96, rounded to nearest even (R78), with its flags: a negative significand reaches down to
−2^83, and −2^82 is written with the exponent below. -/
def roundAcc (neg : Bool) (m : Nat) (x : Int) : Acc × Nat :=
  if m = 0 then (accZero, 0)
  else
    let isPow := m == 2 ^ (bitLen m - 1)
    let u : Int := x + bitLen m - 83 - (if neg && isPow then 1 else 0)
    let r := (roundAt 0 neg m x u).1
    let adj : Nat × Int := if neg then (if r = 2 ^ 82 then (2 ^ 83, u - 1) else (r, u))
      else (if r = 2 ^ 83 then (2 ^ 82, u + 1) else (r, u))
    let e : Int := adj.2 + 2129
    if 0xFFE < e then (accInf neg, flagOF)
    else if e < 1 then (accZero, flagUF)
    else (accWord e.toNat (if neg then -(adj.1 : Int) else adj.1), 0)

/-- Any value in ACC96. -/
def packAcc : FVal → Acc × Nat
  | .nan _ => (accNan, 0)
  | .inf n => (accInf n, 0)
  | .fin n m x => roundAcc n m x

/-! ### Dot products (R79 to R81) -/

/-- Exponent of the leading bit of a non-zero product (R80). -/
def leadExp : FVal → Option Int
  | .fin _ m x => if m = 0 then none else some (x + bitLen m - 1)
  | _ => none

/-- Floor(p / 2^q) as an integer (R80). -/
def floorAt (q : Int) : FVal → Int
  | .fin n m x =>
    if q ≤ x then scaledInt n m x q
    else
      let k := (q - x).toNat
      if n then -((m + 2 ^ k - 1) / 2 ^ k : Nat) else (m / 2 ^ k : Nat)
  | _ => 0

/-- The sum of one group of products, with its flags (R80). -/
def groupSum (ps : List (FVal × Nat)) : FVal × Nat :=
  let fl := ps.foldl (fun f p => f ||| p.2) 0
  let vs := ps.map (·.1)
  let has (n : Bool) : Bool := vs.any (fun v => v == .inf n)
  if vs.any FVal.isNan then (.nan false, fl)
  else if has false && has true then (.nan false, fl ||| flagNV)
  else if has false then (.inf false, fl)
  else if has true then (.inf true, fl)
  else
    match (vs.filterMap leadExp).max? with
    | none => (.fin false 0 0, fl)
    | some x =>
      let w := x - 63
      let g := vs.foldl (fun (a : Int) v => a + floorAt w v) 0
      (.fin (g < 0) g.natAbs w, fl)

/-- A group sum added to an accumulator entry (R81). -/
def accumulate (a : Acc) (g : FVal × Nat) : Acc × Nat :=
  let r := addV 0 (decodeAcc a) g.1
  let p := packAcc r.1
  (p.1, p.2 ||| r.2 ||| g.2)

/-- Consecutive groups of n elements. -/
def chunks {α : Type} (n : Nat) : Nat → List α → List (List α)
  | 0, _ => []
  | fuel + 1, l => if l.isEmpty then [] else l.take n :: chunks n fuel (l.drop n)

/-- The dot product of two rows of elements added to an entry, in groups of 32 (R79 to R81). -/
def dotProduct (a : Acc) (xs ys : List FVal) : Acc × Nat :=
  (chunks 32 xs.length ((xs.zip ys).map (fun p => mulV p.1 p.2))).foldl
    (fun r g => let q := accumulate r.1 (groupSum g); (q.1, r.2 ||| q.2)) (a, 0)

/-! ### FX96 (R83, R84) -/

/-- A contribution as an integer, with SATF (R84): elem 0 FP32, 1 FP16, 2 BF16, 3 .s32, 4 .s64; F fraction bits. -/
def fxConvert (elem f x : Nat) : Int × Bool :=
  let lo : Int := -(2 ^ 95)
  let hi : Int := 2 ^ 95 - 1
  let clamp (v : Int) : Int × Bool := if v < lo then (lo, true) else if hi < v then (hi, true) else (v, false)
  let ofF (g : Fmt) : Int × Bool :=
    match decodeF g (x % 2 ^ g.width) with
    | .nan _ => (0, true)
    | .inf n => (if n then lo else hi, true)
    | .fin n m e =>
      let r := (roundAt 0 n m (e + f) 0).1
      clamp (if n then -(r : Int) else r)
  if elem = 0 then ofF fp32
  else if elem = 1 then ofF fp16
  else if elem = 2 then ofF bf16
  else if elem = 3 then clamp (toInt 32 x * 2 ^ f)
  else clamp (toInt 64 x * 2 ^ f)

/-- One accumulation into a 128-bit slot (R84). -/
def fxAccumulate (slot elem f x : Nat) (poison : Bool) : Nat :=
  let c := if poison then (0, false) else fxConvert elem f x
  let v := (bits slot 0 96 + wrapInt 96 c.1) % 2 ^ 96
  let cnt := min (bits slot 96 24 + 1) 0xFFFFFF
  v + cnt * 2 ^ 96 + 2 ^ 120 * b2n (bit slot 120 || c.2) + 2 ^ 121 * b2n (bit slot 121 || poison)

end Sys2Proof.Machine
end

