-- ==== Sys2Proof/Machine/Registers.lean ====
section
/-! DEFINITION. The register files of a gang (R39, R40), their poison marks (R243), its splits (R202), FMT and FST
(R64, R65, R71), and the other gangs of its crew (R195, R196, R199). -/

namespace Sys2Proof.Machine

/-! ### Scalars -/

/-- s[n]. -/
def Gang.sreg (g : Gang) (n : Nat) : DWord := sget 0 g.s n

/-- s[n] carries a poison mark. -/
def Gang.smark (g : Gang) (n : Nat) : Bool := g.sPoison.getLsbD n

/-- s[n] := x, with its poison mark (R243). -/
def Gang.setS (g : Gang) (n : Nat) (x : DWord) (mark : Bool) : Gang :=
  { g with s := sput 0 g.s n x,
           sPoison := if mark then g.sPoison ||| dw (2 ^ n) else g.sPoison &&& ~~~ (dw (2 ^ n)) }

/-! ### Vectors -/

/-- Lane l of v[r]. -/
def Gang.vlane (g : Gang) (r l : Nat) : Word := sget 0 g.v (32 * r + l)

/-- The poisoned lanes of v[r]. -/
def Gang.vmarks (g : Gang) (r : Nat) : Mask := sget 0 g.vPoison r

/-- Lane l of v[r] := x, with its poison mark. -/
def Gang.setLane (g : Gang) (r l : Nat) (x : Word) (mark : Bool) : Gang :=
  { g with v := sput 0 g.v (32 * r + l) x,
           vPoison := sput 0 g.vPoison r (if mark then g.vmarks r ||| laneBit l else g.vmarks r &&& ~~~ (laneBit l)) }

/-- The lanes of m of v[r] take the values of f and the marks of pf. -/
def Gang.setLanes (g : Gang) (r : Nat) (m : Mask) (f : Nat → Word) (pf : Nat → Bool) : Gang :=
  (lanesOf m).foldl (fun h l => h.setLane r l (f l) (pf l)) g

/-! ### Predicates -/

/-- p[n]; p0 reads all ones (R39). -/
def Gang.preg (g : Gang) (n : Nat) : Mask := if n = 0 then allLanes else sget 0 g.p n

/-- The lanes of m of p[n] take the bits of x; a write to p0 is discarded (R40). -/
def Gang.setP (g : Gang) (n : Nat) (m x : Mask) : Gang :=
  if n = 0 then g else { g with p := sput 0 g.p n ((g.preg n &&& ~~~ m) ||| (x &&& m)) }

/-- The lanes of a guard (R27). -/
def Gang.guard (g : Gang) (c : BitVec 4) : Mask := guardMask c g.preg

/-- FST takes flags: an OR (R65). -/
def Gang.raise (g : Gang) (flags : Nat) : Gang := { g with fst := g.fst ||| w32 flags }

/-! ### Splits -/

/-- Split k of a gang. -/
def Gang.split (g : Gang) (k : Nat) : Option Split := (g.splits[k]?).join

/-- With split k replaced. -/
def Gang.setSplit (g : Gang) (k : Nat) (sp : Option Split) : Gang := { g with splits := g.splits.set k sp }

/-- With split k changed. -/
def Gang.updSplit (g : Gang) (k : Nat) (f : Split → Split) : Gang := g.setSplit k ((g.split k).map f)

/-- The live splits, by number. -/
def Gang.live (g : Gang) : List (Nat × Split) :=
  (List.range 4).filterMap (fun k => (g.split k).map (fun sp => (k, sp)))

/-- The lowest free split number. -/
def Gang.freeSplit (g : Gang) : Option Nat := (List.range 4).find? (fun k => (g.split k).isNone)

/-- FMT as written: reserved bits read zero (R71, R214). -/
def fmtWritten (x : Word) : Word := x &&& 0x0F1FFFFF#32

/-! ### Crews -/

/-- The gangs of a crew, in slot order. -/
def State.members (s : State) (v : Nat) : List Gang :=
  sortBy (fun (a b : Gang) => a.slot ≤ b.slot) (s.gangs.filter (fun g => g.crew == v && !g.onControl))

/-- The gangs resident on a core. -/
def State.onCore (s : State) (core : Nat) : List Gang := s.gangs.filter (fun g => g.core == core)

/-- A core's state before anything ran on it. -/
def CoreSt.zero : CoreSt :=
  { trowel := none, last := (0, 0), passing := none, jobs := [], closed := false, outOfService := false, lastPass := 0,
    passStart := 0, passes := 0, reserved := none, epochs := [] }

/-- State of a core. -/
def State.core (s : State) (n : Nat) : CoreSt := sget CoreSt.zero s.cores n

/-- With the state of a core changed. -/
def State.updCore (s : State) (n : Nat) (f : CoreSt → CoreSt) : State :=
  { s with cores := sput CoreSt.zero s.cores n (f (s.core n)) }

/-- The crews whose number a core holds: resident and pre-empted (R196). -/
def State.crewsOf (s : State) (core : Nat) : List Crew := s.crews.filter (fun c => c.core == core)

/-- The lowest free crew number of a core (R196). DESIGN CHOICE (unsafe), log entry 56. -/
def State.freeCrewNum (s : State) (core : Nat) : Option Nat :=
  (List.range 64).find? (fun n => !(s.crewsOf core).any (fun c => crewNum c.val == n))

/-- The CREW value that a core's crew number takes next: its EPOCH rises with each reuse (R196). -/
def State.newCrewVal (s : State) (core num : Nat) : Nat :=
  crewValue core (sget 0 (s.core core).epochs num) num

/-- The crew number is used: its next reuse carries the next EPOCH. -/
def State.useCrewNum (s : State) (core num : Nat) : State :=
  s.updCore core (fun c => { c with epochs := sput 0 c.epochs num ((sget 0 c.epochs num + 1) % 2 ^ 14) })

/-- The place behind every crew of a core's trowel ring (R197). -/
def State.newRing (s : State) (core : Nat) : Nat := (s.crewsOf core).foldl (fun m c => max m (c.ring + 1)) 0

end Sys2Proof.Machine
end

