-- ==== Sys2Proof/Machine/Matrix.lean ====
section
/-! DEFINITION. The matrix array, drain unit and tile port at work: operand lines, extents, products, drains and moves
(R274 to R279, R285 to R290). -/

namespace Sys2Proof.Machine

/-! ### Formats of operands (R66, R274, R277) -/

/-- Bits of an element of a format code. -/
def codeWidth (c : Nat) : Nat :=
  if c ≤ 1 then 16 else if c ≤ 3 then 8 else if c = 4 then 4 else if c = 15 then 32 else kbfBits c

/-- Elements of a block of a block format; 0 for a format without blocks. -/
def codeBlock (w : Word) (c : Nat) : Nat := if c = 4 then 32 else if isKbf c then kbfBlock w else 0

/-- K of a legal pair of operand formats (R274). -/
def matK (af bf : Nat) : Option Nat :=
  if af ≤ 1 && bf ≤ 1 then some 32
  else if 2 ≤ af && af ≤ 3 && 2 ≤ bf && bf ≤ 3 then some 64
  else if (af == 4 && bf == 4) || ((af == 4 || isKbf af) && isKbf bf) then some 128
  else none

/-- Bytes of a line of n elements of a format (R277). -/
def lineBytes (c n : Nat) : Nat := n * codeWidth c / 8

/-- z registers that an operand of a number of lines takes, its scales among them (R277, R288). -/
def tileSpan (w : Word) (c lines n : Nat) : Nat :=
  (lines * lineBytes c n + 8191) / 8192 + (if codeBlock w c = 0 then 0 else 1)

/-- Scale bytes of a line of n elements. -/
def scaleBytes (w : Word) (c n : Nat) : Nat := if codeBlock w c = 0 then 0 else n / codeBlock w c

/-- An operand in tile registers from z register z (R277, R288). -/
def tileOperand (c lines n z : Nat) : Operand :=
  { kind := 0, base := 8192 * z, pitch := lineBytes c n, scale := 8192 * (z + (lines * lineBytes c n + 8191) / 8192) }

/-- An operand in the pad, named by a scalar (R278). -/
def padOperand (x : DWord) : Operand :=
  let b := alignDown (bits x.toNat 0 32) 16
  { kind := 1, base := b, pitch := alignDown (bits x.toNat 32 16) 16, scale := b + 16 * bits x.toNat 48 16 }

/-- A drain destination in memory, named by a pair of scalars (R288). -/
def memOperand (x y : DWord) : Operand :=
  { kind := 2, base := x.toNat, pitch := bits y.toNat 0 32, scale := (x + dw (bits y.toNat 32 32)).toNat }

/-! ### Bytes of tiles and pads -/

/-- A byte of an operand in tile registers or the pad. -/
def Crew.opByte (c : Crew) (kind a : Nat) : Byte := if kind = 0 then sget 0 c.z a else c.padByte a

/-- The byte is poisoned: in a marked part of a tile register (R289), or in the pad (R386). -/
def Crew.opPoison (c : Crew) (kind a : Nat) : Bool := if kind = 0 then c.zPoison.contains (a / 128) else c.padPoison.contains a

/-- Bytes are written to tile registers; a part that is written whole loses its mark (R289). -/
def Crew.tileWrite (c : Crew) (cells : List (Nat × Byte)) : Crew :=
  let whole (p : Nat) : Bool := (distinct ((cells.filter (fun x => x.1 / 128 == p)).map (·.1))).length == 128
  { c with z := cells.foldl (fun m x => sput 0 m x.1 x.2) c.z, zPoison := c.zPoison.filter (fun p => !whole p) }

/-- A part of a tile register takes a mark. -/
def Crew.markPart (c : Crew) (p : Nat) : Crew := if c.zPoison.contains p then c else { c with zPoison := p :: c.zPoison }

/-! ### Operand values -/

/-- Element k of w bits of the stream that begins at byte address a (R66). -/
def streamCode (byte : Nat → Byte) (a w k : Nat) : Nat :=
  bits ((byte (a + k * w / 8)).toNat + 256 * (byte (a + k * w / 8 + 1)).toNat) (k * w % 8) w

/-- Value of an element of a format with its block's scale. -/
def codeValue (c scale x : Nat) : FVal :=
  if c = 4 then mxValue scale x else if isKbf c then kbfValue (kbfBits c) scale x else decodeF (fmtOf c) x

/-- The values of line i: elements from ke on are zero (R279). -/
def Crew.lineValues (c : Crew) (o : Operand) (fmt : Word) (code n ke i : Nat) : List FVal :=
  let blk := codeBlock fmt code
  (List.range n).map (fun k =>
    if ke ≤ k then .fin false 0 0
    else
      let s := if blk = 0 then 0 else (c.opByte o.kind (o.scale + i * (n / blk) + k / blk)).toNat
      codeValue code s (streamCode (c.opByte o.kind) (o.base + i * o.pitch) (codeWidth code) k))

/-- Addresses of the bytes that line i supplies to elements below ke. -/
def lineAddrs (o : Operand) (fmt : Word) (code n ke i : Nat) : List Nat :=
  let blk := codeBlock fmt code
  (List.range ((ke * codeWidth code + 7) / 8)).map (o.base + i * o.pitch + ·)
    ++ (if blk = 0 then [] else (List.range ((ke + blk - 1) / blk)).map (o.scale + i * (n / blk) + ·))

/-- The first poisoned byte among the lines of an operand. -/
def Crew.operandPoison (c : Crew) (o : Operand) (fmt : Word) (code n ke lines : Nat) : Option Nat :=
  ((List.range lines).flatMap (lineAddrs o fmt code n ke)).find? (c.opPoison o.kind)

/-- Pad byte ranges of an operand's lines and scales, for the pad bound and the frames (R158, R279). -/
def Operand.ranges (o : Operand) (lineLen scaleLen lines : Nat) : List (Nat × Nat) :=
  (List.range lines).flatMap (fun i =>
    (o.base + i * o.pitch, lineLen) :: (if scaleLen = 0 then [] else [(o.scale + i * scaleLen, scaleLen)]))

/-- Takes frames for the pad ranges an operand reads: the address of a backing that cannot be read. -/
def State.takeOperand (s : State) (v : Nat) (o : Operand) (rs : List (Nat × Nat)) : State × Option Nat :=
  if o.kind = 1 then rs.foldl (fun r x => if r.2.isNone then r.1.padTakeRange v x.1 x.2 else r) (s, none) else (s, none)

/-! ### Products (R285) -/

/-- The entries of a tile with i below the rows and j below the columns updated, and the flags. -/
def mmaTile (old : Store Acc) (rows cols : List (List FVal)) : Store Acc × Nat :=
  ((List.range rows.length).flatMap (fun i => (List.range cols.length).map (fun j => (i, j)))).foldl
    (fun r p =>
      let q := dotProduct (sget 0 old (64 * p.1 + p.2)) (nth [] rows p.1) (nth [] cols p.2)
      (sput 0 r.1 (64 * p.1 + p.2) q.1, r.2 ||| q.2)) (old, 0)

/-- Accumulator n of a crew. -/
def Crew.accTile (c : Crew) (n : Nat) : Store Acc := nth [] c.acc n

/-- With accumulator n replaced. -/
def Crew.setAcc (c : Crew) (n : Nat) (t : Store Acc) : Crew := { c with acc := setNth c.acc n t }

/-- Poison found by a matrix instruction (R284, check 6). -/
def MatJob.poisoned (j : MatJob) (addr : Nat) : Raise :=
  { crew := j.crew, gang := j.gang, cause := 0x09, pc := j.first, lanes := j.lanes, addr }

/-- Columns of B: 64, or 128 for mma.p (R277). -/
def MatJob.columns (j : MatJob) : Nat := if j.op = 1 then 128 else 64

/-- An mma or mma.p computes and retires; one with an extent of zero updates nothing, its operands checked all the same
(R279, R285). DEDUCED (unsafe), log entry 44. -/
def State.runMma (s : State) (j : MatJob) : State :=
  let n := (matK (fmtAF j.fmt) (fmtBF j.fmt)).getD 0
  let af := fmtAF j.fmt
  let bf := fmtBF j.fmt
  let t := s.takeOperand j.crew j.a (j.a.ranges (lineBytes af n) (scaleBytes j.fmt af n) j.me)
  let u := if t.2.isNone then t.1.takeOperand j.crew j.b (j.b.ranges (lineBytes bf n) (scaleBytes j.fmt bf n) j.ne) else t
  if u.2.isSome then u.1.raiseCrew j.crew (u.2.getD 0)
  else
    match u.1.crew j.crew with
    | none => s
    | some c =>
      match (c.operandPoison j.a j.fmt af n j.ke j.me).or (c.operandPoison j.b j.fmt bf n j.ke j.ne) with
      | some _ => u.1.raise (j.poisoned 0)
      | none =>
        if j.me = 0 || j.ne = 0 || j.ke = 0 then u.1
        else
        let rows := (List.range j.me).map (c.lineValues j.a j.fmt af n j.ke)
        let cols := (List.range j.ne).map (c.lineValues j.b j.fmt bf n j.ke)
        let r := mmaTile (c.accTile j.acc) rows (cols.take 64)
        let s1 := u.1.updCrew j.crew (fun k => k.setAcc j.acc r.1)
        let c2 := (s1.crew j.crew2).getD c
        let q := if j.op = 1 then mmaTile (c2.accTile j.acc) rows (cols.drop 64) else ([], 0)
        let s2 := if j.op = 1 then s1.updCrew j.crew2 (fun k => k.setAcc j.acc q.1) else s1
        s2.updGang j.gang (fun g => g.raise (r.2 ||| q.2))

/-! ### Drains (R82, R287, R288) -/

/-- A line's bytes with their addresses, and the flags. -/
structure DrainLine where
  cells : List (Nat × Byte)
  flags : Nat
  deriving DecidableEq, Repr

/-- One block of a drained line, of at most ext values inside the extent. -/
def drainBlock (fmt : Word) (code : Nat) (vs : List FVal) : Block :=
  if code = 4 then encodeMx (fmtRM fmt) (fmtSAT fmt) vs else encodeKbf (kbfBits code) (fmtRM fmt) (fmtSAT fmt) vs

/-- Codes of w bits packed to a number, the first lowest (R66). -/
def packCodes (w : Nat) : List Nat → Nat
  | [] => 0
  | c :: l => c + 2 ^ w * packCodes w l

/-- Line i of a copy with n entries, of which those below ext lie inside the extent (R287). -/
def drainLine (o : Operand) (fmt : Word) (code n ext i : Nat) (val : Nat → FVal) : DrainLine :=
  let w := codeWidth code
  let blk := codeBlock fmt code
  if blk = 0 then
    (List.range ext).foldl (fun r e =>
      let q := convertF (fmtOf code) (fmtRM fmt) (fmtSAT fmt) (val e)
      { cells := r.cells ++ cellsAt (o.base + i * o.pitch + e * w / 8) (leBytes (w / 8) q.1), flags := r.flags ||| q.2 })
      { cells := [], flags := 0 }
  else
    (List.range ((ext + blk - 1) / blk)).foldl (fun r b =>
      let vs := (List.range blk).map (fun k => if b * blk + k < ext then val (b * blk + k) else .fin false 0 0)
      let q := drainBlock fmt code vs
      { cells := r.cells ++ cellsAt (o.base + i * o.pitch + b * blk * w / 8) (leBytes (blk * w / 8) (packCodes w q.codes))
          ++ [(o.scale + i * (n / blk) + b, lowByte q.scale)]
        flags := r.flags ||| q.flags })
      { cells := [], flags := 0 }

/-- The direct copy of an accumulator tile. -/
def directCopy (acc : Store Acc) (j : MatJob) : DrainLine :=
  (List.range j.me).foldl (fun r i =>
    let q := drainLine j.a j.fmt (fmtDF j.fmt) 64 j.ne i (fun e => decodeAcc (sget 0 acc (64 * i + e)))
    { cells := r.cells ++ q.cells, flags := r.flags ||| q.flags }) { cells := [], flags := 0 }

/-- The transposed copy. -/
def transposedCopy (acc : Store Acc) (j : MatJob) : DrainLine :=
  (List.range j.ne).foldl (fun r i =>
    let q := drainLine j.b j.fmt (fmtTF j.fmt) 128 j.me i (fun e => decodeAcc (sget 0 acc (64 * e + i)))
    { cells := r.cells ++ q.cells, flags := r.flags ||| q.flags }) { cells := [], flags := 0 }

/-! ### Translations taken at issue -/

/-- The pages of located parts: virtual base, size, domain physical base, leaf. -/
def pagesOf (ls : List Located) : List (Nat × Nat × Nat × Nat) :=
  distinct (ls.map (fun l =>
    let size := tierSize (leafTier l.leaf)
    let base := alignDown l.part.va size
    (base, size, l.phys - (l.part.va - base), l.leaf)))

/-- Domain physical address and leaf of a virtual address under captured pages. -/
def xlAt (xl : List (Nat × Nat × Nat × Nat)) (va : Nat) : Option (Nat × Nat) :=
  (xl.find? (fun p => p.1 ≤ va && va < p.1 + p.2.1)).map (fun p => (p.2.2.1 + (va - p.1), p.2.2.2))

/-- Virtual addresses of a domain physical address under captured pages. -/
def xlVas (xl : List (Nat × Nat × Nat × Nat)) (phys : Nat) : List Nat :=
  xl.filterMap (fun p => if p.2.2.1 ≤ phys && phys < p.2.2.1 + p.2.1 then some (p.1 + (phys - p.2.2.1)) else none)

/-- Local address and leaf of a virtual address under captured pages. -/
def homeOf (xl : List (Nat × Nat × Nat × Nat)) (va : Nat) : Nat × Nat := ((xlAt xl va).map (fun r => (dpaLocal r.1, r.2))).getD (0, 0)

/-- Bytes by virtual address written by a gang under captured pages, line by line; those of strongly ordered pages one at a
time (R226, R288). -/
def State.writeVa (s : State) (g : Gang) (xl : List (Nat × Nat × Nat × Nat)) (policy : Nat) (cells : List (Nat × Byte)) : State :=
  let ps := cells.filterMap (fun c => (xlAt xl c.1).map (fun r => (r.1, r.2, c.2)))
  (distinct (ps.map (fun p => lineOf p.1))).foldl (fun t line =>
    let mine := ps.filter (fun p => lineOf p.1 == line)
    let leaf := ((mine.head?).map (·.2.1)).getD 0
    let bs := mine.map (fun p => (p.1, p.2.2))
    if leafOrd leaf == 0 then
      (t.updGang g.id (fun h => { h with strong := h.strong ++
        [{ cells := bs, watched := leafWatch leaf, prot := leafProt leaf, ord := 0, scope := 0, policy }] })).nextStrong g.id
    else t.performWrite { g.writer with policy } bs (leafWatch leaf) (leafProt leaf)) s

/-- The gang's pending bytes in the lines of virtual addresses drain first. -/
def State.drainVa (s : State) (id : Nat) (xl : List (Nat × Nat × Nat × Nat)) (vas : List Nat) : State :=
  (distinct (vas.filterMap (fun a => (xlAt xl a).map (fun r => lineOf r.1)))).foldl (fun t line => t.drainLine id line) s

/-- Bytes go where an operand of a matrix job lies. -/
def State.putOperand (s : State) (j : MatJob) (o : Operand) (cells : List (Nat × Byte)) : State :=
  if o.kind = 0 then s.updCrew j.crew (fun c => c.tileWrite cells)
  else if o.kind = 1 then s.padWrite j.crew cells
  else
    match s.gang j.gang with
    | none => s
    | some g => (s.drainVa j.gang j.xl (cells.map (·.1))).writeVa g j.xl j.policy cells

/-- An mdrain or mdrain.t retires: the direct copy, then the transposed one (R287, R288). -/
def State.runDrain (s : State) (j : MatJob) : State :=
  match s.crew j.crew with
  | none => s
  | some c =>
    let acc := c.accTile j.acc
    let d := directCopy acc j
    let t := if j.op = 4 then transposedCopy acc j else { cells := [], flags := 0 }
    ((s.putOperand j j.a d.cells).putOperand j j.b t.cells).updGang j.gang (fun g => g.raise (d.flags ||| t.flags))

/-! ### zld and zst (R289) -/

/-- The address of byte b of a zld or zst of n bytes. -/
def moveAddr (o : Operand) (n b : Nat) : Option Nat :=
  if o.scale = 0 then some ((o.base + b) % 2 ^ 64)
  else if b < n / o.scale * o.scale then some ((o.base + b / o.scale * o.pitch + b % o.scale) % 2 ^ 64)
  else none

/-- Bytes that a zld or zst moves. -/
def MatJob.moved (j : MatJob) : Nat := 8192 * j.cnt

/-- Runs of addresses that a zld or zst names: virtual or pad address, length, offset in the tile run. -/
def moveRuns (o : Operand) (n : Nat) : List (Nat × Nat × Nat) :=
  if o.scale = 0 then [(o.base, n, 0)]
  else (List.range (n / o.scale)).map (fun r => ((o.base + r * o.pitch) % 2 ^ 64, o.scale, r * o.scale))

/-- A zst writes the bytes of its registers; a marked part is poison leaving the gang (R284, R289). -/
def State.runZst (s : State) (j : MatJob) : State :=
  match s.crew j.crew with
  | none => s
  | some c =>
    let bs := (List.range j.moved).filterMap (fun b => (moveAddr j.a j.moved b).map (fun a => (b, a)))
    if bs.any (fun p => c.opPoison 0 (8192 * j.z + p.1)) then s.raise (j.poisoned 0)
    else s.putOperand j j.a (bs.map (fun p => (p.2, sget 0 c.z (8192 * j.z + p.1))))

/-- Bytes that reach a zld's tile registers, from byte `off` of its run: a poisoned one marks its part (R289). -/
def State.tileArrive (s : State) (v z off : Nat) (data : List Byte) (poison : Bool) : State :=
  s.updCrew v (fun c =>
    let c1 : Crew := { c with z := (cellsAt (8192 * z + off) data).foldl (fun m x => sput 0 m x.1 x.2) c.z }
    if poison then (distinct ((List.range data.length).map (fun k => (8192 * z + off + k) / 128))).foldl Crew.markPart c1
    else c1)

/-- A zld writes every part of its registers whole, so that their marks go; bytes that no address supplies are zero
(R289). -/
def Crew.beginMove (c : Crew) (j : MatJob) : Crew :=
  let none' := (List.range j.moved).filter (fun b => (moveAddr j.a j.moved b).isNone)
  { c with z := none'.foldl (fun m b => sput 0 m (8192 * j.z + b) 0) c.z
           zPoison := c.zPoison.filter (fun p => p < 64 * j.z || 64 * (j.z + j.cnt) ≤ p) }

/-- A zld from the pad. -/
def State.runZldPad (s : State) (j : MatJob) : State :=
  let rs := (moveRuns j.a j.moved).map (fun r => (r.1, r.2.1))
  let t := s.takeOperand j.crew j.a rs
  match t.2 with
  | some va => t.1.raiseCrew j.crew va
  | none =>
    t.1.updCrew j.crew (fun c =>
      let bs := (List.range j.moved).filterMap (fun b => (moveAddr j.a j.moved b).map (fun a => (8192 * j.z + b, a)))
      let bad := distinct ((bs.filter (fun p => c.padPoison.contains p.2)).map (fun p => p.1 / 128))
      let k := c.beginMove j
      bad.foldl Crew.markPart { k with z := bs.foldl (fun m p => sput 0 m p.1 (c.padByte p.2)) k.z })

/-- The parts of a zld from memory, as located at issue, half-line by half-line; `lane` tells the half of its line, `first`
the offset in the tile run. -/
def MatJob.parts (j : MatJob) : List Located :=
  halfParts (((moveRuns j.a j.moved).flatMap (fun r => rangeParts 0 (r.2.1 + 1) r.2.2 r.1 r.2.1)).filterMap (fun p =>
    (xlAt j.xl p.va).map (fun x => { part := p, phys := x.1, leaf := x.2, isSealed := false : Located })))

/-- The tile registers of a zld take the parts that have come. -/
def State.tileParts (s : State) (j : MatJob) (ps : List (Located × List Byte × Bool)) : State :=
  ps.foldl (fun t p => t.tileArrive j.crew j.z p.1.part.first p.2.1 p.2.2) s

/-- A zld from memory: local bytes arrive at once; replies from peers and the host are awaited (R289). -/
def State.runZldMem (s : State) (j : MatJob) : Pieces :=
  let p := (s.updCrew j.crew (fun c => c.beginMove j)).fetchPieces j.gang j.parts
  { p with st := p.st.tileParts j p.come }

/-! ### Jobs of a core (R290) -/

/-- Pad ranges that an operand's lines inside an extent name, their scales with them (R279). -/
def operandRanges (o : Operand) (w : Word) (code n lines : Nat) : List (Nat × Nat) :=
  if o.kind = 1 then o.ranges (lineBytes code n) (scaleBytes w code n) lines else []

/-- Byte ranges that a copy of a drain writes: lines inside one extent, entries inside the other. -/
def drainRanges (o : Operand) (w : Word) (code n ext lines : Nat) : List (Nat × Nat) :=
  let blk := codeBlock w code
  (List.range lines).flatMap (fun i =>
    if ext = 0 then []
    else if blk = 0 then [(o.base + i * o.pitch, ext * codeWidth code / 8)]
    else
      let k := (ext + blk - 1) / blk
      [(o.base + i * o.pitch, k * blk * codeWidth code / 8), (o.scale + i * (n / blk), k)])

/-- Bytes that a drain or a move names in a pad, 1, or in memory, 2, by ranges. -/
def MatJob.movedRanges (j : MatJob) (kind : Nat) : List (Nat × Nat) :=
  if j.op = 3 || j.op = 4 then
    (if j.a.kind = kind then drainRanges j.a j.fmt (fmtDF j.fmt) 64 j.ne j.me else [])
      ++ (if j.op = 4 && j.b.kind == kind then drainRanges j.b j.fmt (fmtTF j.fmt) 128 j.me j.ne else [])
  else if 5 ≤ j.op && j.a.kind = kind then (moveRuns j.a j.moved).map (fun r => (r.1, r.2.1))
  else []

/-- Pad bytes that a job reads or writes, by ranges. -/
def MatJob.padRanges (j : MatJob) : List (Nat × Nat) :=
  let n := (matK (fmtAF j.fmt) (fmtBF j.fmt)).getD 0
  if j.op ≤ 1 then operandRanges j.a j.fmt (fmtAF j.fmt) n j.me ++ operandRanges j.b j.fmt (fmtBF j.fmt) n j.ne
  else j.movedRanges 1

/-- Lines of memory that a drain or a move reads or writes. -/
def MatJob.memLines (j : MatJob) : List Nat :=
  distinct ((j.movedRanges 2).flatMap (fun r =>
    (List.range ((r.1 % 128 + r.2 + 127) / 128)).filterMap (fun k => (xlAt j.xl (lineOf r.1 + 128 * k)).map (·.1))))

/-- Byte ranges meet. -/
def rangesMeet (a b : List (Nat × Nat)) : Bool := a.any (fun x => b.any (fun y => x.1 < y.1 + y.2 && y.1 < x.1 + x.2))

/-- Two jobs name a tile in common. -/
def MatJob.meets (i j : MatJob) : Bool := i.tiles.any (fun t => j.tiles.contains t)

/-- The partner core of a pair (R282). -/
def partner (core : Nat) : Nat := core ^^^ 1

/-- Of two jobs of a gang, one writes memory that the other reads or writes: a zld sees what the gang drained or stored before
it (R224, R288, R289). -/
def MatJob.memMeets (i j : MatJob) : Bool :=
  i.gang == j.gang && !(i.op == 5 && j.op == 5) && i.memLines.any j.memLines.contains

/-- A job stands before a later one of its core: it names one of its tiles, or bytes of the same gang's pad, or memory that the
same gang writes (R289, R290). -/
def MatJob.before (i j : MatJob) : Bool :=
  i.meets j || (i.gang == j.gang && rangesMeet i.padRanges j.padRanges) || i.memMeets j

/-- A job of the partner core holds up one of this core, with an mma.p on either side: they share an array or name a tile in
common. An mma.p that has started goes first; one that has not lets everything that has reached the follower go before it, but
of two mma.p the one issued first goes first (R282, R290). DEDUCED (unsafe), log entry 44. -/
def MatJob.holdsUp (i j : MatJob) : Bool :=
  (i.meets j || (i.op ≤ 1 && j.op ≤ 1))
    && (if i.op = 1 && j.op = 1 then i.id < j.id else if j.op = 1 then true else i.op == 1 && i.started)

/-- A job may take effect: every earlier job of its core that stands before it has retired, and no job of the partner core
holds it up (R290). -/
def State.jobReady (s : State) (core : Nat) (j : MatJob) : Bool :=
  ((s.core core).jobs.takeWhile (fun i => i.id != j.id)).all (fun i => !i.before j)
    && (s.core (partner core)).jobs.all (fun i => !i.holdsUp j)

/-- With a job replaced. -/
def State.setJob (s : State) (core : Nat) (j : MatJob) : State :=
  s.updCore core (fun c => { c with jobs := c.jobs.map (fun i => if i.id == j.id then j else i) })

/-- With a job retired. -/
def State.dropJob (s : State) (core id : Nat) : State :=
  s.updCore core (fun c => { c with jobs := c.jobs.filter (fun i => i.id != id) })

/-- Tags of writes to peers and the host that are not acknowledged and were sent since a state. -/
def State.newTags (before s : State) : List Nat :=
  ((s.peerPending.map (·.tag)) ++ (s.hostAtomics.map (·.tag))).filter (fun t => before.fresh ≤ t)

/-- Some write of these tags has yet to commit. -/
def State.uncommitted (s : State) (ts : List Nat) : Bool :=
  ts.any (fun t => s.peerPending.any (fun e => e.tag == t) || s.hostAtomics.any (fun h => h.tag == t))

/-- A job names memory on a strongly ordered page (R225, R325). -/
def MatJob.strong (j : MatJob) : Bool := j.xl.any (fun p => leafOrd p.2.2.2 == 0)

/-- A drain or zst whose effect has taken place retires when every store that it made has committed (R276). -/
def State.committedJob (s : State) (j : MatJob) : Bool :=
  match j.acks with
  | none => true
  | some ts => !s.uncommitted ts && !(j.strong && ((s.gang j.gang).map Gang.owes).getD false)

/-- A drain or zst takes effect, and retires if its stores have all committed. -/
def State.runWriter (s : State) (core : Nat) (j : MatJob) : State :=
  match j.acks with
  | some _ => if s.committedJob j then s.dropJob core j.id else s
  | none =>
    let t := if j.op = 6 then s.runZst j else s.runDrain j
    let k := { j with started := true, acks := some (State.newTags s t) }
    if t.committedJob k then t.dropJob core j.id else t.setJob core k

/-- A job takes effect and retires; a zld that awaits replies, and a drain or zst whose stores have still to commit, stay
until then (R276). A zld of a strongly ordered page acts as an acquire (R289, R325). -/
def State.runJob (s : State) (core : Nat) (j : MatJob) : State :=
  match j.op with
  | 0 | 1 => (s.runMma j).dropJob core j.id
  | 2 => (s.updCrew j.crew (fun c => c.setAcc j.acc [])).dropJob core j.id
  | 5 =>
    if j.a.kind = 1 then (s.runZldPad j).dropJob core j.id
    else
      let r := s.runZldMem j
      if r.await.isEmpty then
        (match j.strong, r.st.gang j.gang with
         | true, some g => r.st.acquireBy g scopeMod
         | _, _ => r.st).dropJob core j.id
      else
        (r.st.setJob core { j with started := true }).addLoad { blankLoad j.gang 4 4 j.id r.await with
          rest := r.rest, acquire := if j.strong then some 4 else none }
  | _ => s.runWriter core j

/-- The gang has matrix instructions that have not retired (R290, rule 5). -/
def State.matrixBusy (s : State) (g : Gang) : Bool := (s.core g.core).jobs.any (fun j => j.gang == g.id)

/-- Matrix work that a pre-emption or a checkpoint of a crew waits for: its own, and an mma.p of the partner core that
writes one of its tiles (R291, R389). -/
def State.matrixPending (s : State) (core v : Nat) : Bool :=
  ((s.core core).jobs ++ (s.core (partner core)).jobs).any (fun j => j.crew == v || j.crew2 == v)

end Sys2Proof.Machine
end

