-- ==== Sys2Proof/Machine/Retrieval.lean ====
section
/-! DEFINITION. Retrieval tables at work: buckets, inserts and deletes under the overflow policies, pool allocation, and
probes with their candidate lists (R293, R297 to R303, R305 to R308, R452). -/

namespace Sys2Proof.Machine

/-! ### Descriptors and slots (R292, R293) -/

/-- Configuration fields of a descriptor, by its 64-bit words. -/
def cfgProj (c : List DWord) : Nat := (nth 0 c 0).toNat
def cfgBuckets (c : List DWord) : Nat := (nth 0 c 1).toNat
def cfgPool (c : List DWord) : Nat := (nth 0 c 2).toNat
def cfgPoolN (c : List DWord) : Nat := bits (nth 0 c 3).toNat 0 32
def cfgL (c : List DWord) : Nat := bits (nth 0 c 3).toNat 32 4
def cfgB (c : List DWord) : Nat := bits (nth 0 c 3).toNat 40 5
def cfgPolicy (c : List DWord) : Nat := bits (nth 0 c 3).toNat 48 2
def cfgKind (c : List DWord) : Nat := bits (nth 0 c 3).toNat 52 4
def cfgDim (c : List DWord) : Nat := bits (nth 0 c 3).toNat 56 8

/-- A descriptor passes rfam's checks (R314, order 3). -/
def cfgOk (c : List DWord) : Bool :=
  let w := (nth 0 c 3).toNat
  cfgKind c == 1 && 4 ≤ cfgB c && cfgB c ≤ 16 && 1 ≤ cfgL c && cfgL c ≤ 8 && 1 ≤ cfgDim c && cfgDim c ≤ 128
    && bits w 36 4 == 0 && bits w 45 3 == 0 && bits w 50 2 == 0
    && bits (nth 0 c 5).toNat 32 32 == 0 && nth 0 c 6 == 0 && nth 0 c 7 == 0
    && cfgProj c % 128 == 0 && cfgBuckets c % 64 == 0 && cfgPool c % 64 == 0
    && !(cfgPolicy c == 3 && (cfgPool c == 0 || cfgPoolN c == 0))
    && cfgBuckets c + 64 * cfgL c * 2 ^ cfgB c < 2 ^ 56 && cfgPool c + 64 * cfgPoolN c < 2 ^ 56

/-- What an rfam installed is in force for a gang: its own, or one released before an acquire of the gang (R309).
DEDUCED (unsafe), log entry 86. -/
def HashSlot.inForce (x : HashSlot) (g : Gang) : Bool :=
  x.gang == g.id || (match x.released with | some r => r ≤ g.acquired | none => false)

/-- The later of two installs. -/
def HashSlot.later (x : Option HashSlot) (y : HashSlot) : Option HashSlot :=
  match x with
  | some z => if z.stamp < y.stamp then some y else some z
  | none => some y

/-- The slot h of a gang's context as the gang finds it, when it is not empty (R292, R309). -/
def State.hashSlot (s : State) (g : Gang) (h : Nat) : Option HashSlot :=
  ((s.hashes.filter (fun x => x.ctx == g.ctx && x.h == h && x.inForce g)).foldl HashSlot.later none).filter (fun x => !x.empty)

/-! ### Keys (R296) -/

def keySkip (k : Word) : Bool := k.getLsbD 31
def keyT (k : Word) : Nat := bits k.toNat 16 3
def keySig (k : Word) : Nat := bits k.toNat 0 16

/-- A key that is not skipped is well formed for a slot's configuration. -/
def keyOk (c : List DWord) (k : Word) : Bool :=
  !keySkip k && bits k.toNat 19 12 == 0 && keyT k < cfgL c && keySig k < 2 ^ cfgB c

/-- Virtual address of the bucket that a key names (R293). -/
def bucketVa (c : List DWord) (k : Word) : Nat := cfgBuckets c + 64 * (keyT k * 2 ^ cfgB c + keySig k)

/-! ### Buckets (R297) -/

/-- A bucket as it stands in its half-line. -/
structure Bucket where
  cnt : Nat
  ins : Nat
  link : Nat
  slots : List Nat
  deriving DecidableEq, Repr

/-- Rows in use: a CNT above 15 counts as 15. -/
def Bucket.used (b : Bucket) : Nat := min b.cnt 15

/-- The rows of a bucket. -/
def Bucket.rows (b : Bucket) : List Nat := b.slots.take b.used

/-- The bucket in the half-line at a local address. -/
def State.bucketAt (s : State) (a : Nat) : Bucket :=
  let h := s.readLe a 4
  { cnt := bits h 0 4, ins := bits h 4 12, link := bits h 16 16,
    slots := (List.range 15).map (fun k => s.readLe (a + 4 + 4 * k) 4) }

/-- The bytes of a bucket. DEDUCED (unsafe), log entry 80. -/
def Bucket.toBytes (b : Bucket) : List Byte :=
  leBytes 4 (b.cnt + 16 * b.ins + 2 ^ 16 * b.link) ++ (b.slots.flatMap (leBytes 4))

/-- A write by a retrieval unit: it changes no watched page (R294). -/
def unitWrite (q : BucketReq) (a : Nat) (prot : Bool) (data : List Byte) : SliceWrite :=
  { cells := cellsAt a data, watched := false, prot, depth := 0, skind := 0, ctx := q.ctx, org := q.org, policy := 0 }

/-- The unit of a local address leaves the L1 of the cluster that asked for an operation there (R155). -/
def State.dropFor (s : State) (q : BucketReq) (a : Nat) : State := s.l1DropUnit q.cluster (dpa s.mgmt.modid a)

/-- A retrieval unit writes for a request, past the L1 (R155). -/
def State.unitCommit (s : State) (q : BucketReq) (a : Nat) (prot : Bool) (data : List Byte) : State :=
  (s.commitWrite (unitWrite q a prot data)).dropFor q a

/-- Drop(): one more row lost, at the descriptor (R298). -/
def State.dropRow (s : State) (q : BucketReq) : State :=
  s.unitCommit q (q.desc + 32) q.descProt (leBytes 4 (satAdd 32 (s.readLe (q.desc + 32) 4) 1))

/-- TakePoolBucket (R300). -/
def State.takePool (s : State) (q : BucketReq) : State × Option Nat :=
  let k := s.readLe (q.desc + 40) 4
  if k < q.pooln then
    (s.unitCommit q (q.desc + 36) q.descProt (leBytes 4 (satAdd 32 (s.readLe (q.desc + 36) 4) 1) ++ leBytes 4 (k + 1)), some k)
  else (s, none)

/-- Mix (R298). -/
def mix (x n : Nat) : Nat :=
  let h := ((x ^^^ (n * 0x9E3779B9 % 2 ^ 32)) * 0x85EBCA6B) % 2 ^ 32
  h ^^^ (h >>> 13)

/-- The row takes the next free slot. -/
def Bucket.append (b : Bucket) (x : Nat) : Bucket := { b with slots := setNth b.slots b.used x, cnt := b.used + 1 }

/-- One more insert that found the row absent. -/
def Bucket.counted (b : Bucket) : Bucket := { b with ins := min (b.ins + 1) 4095 }

/-- Policies 0 to 2 on a full bucket: the bucket afterwards; the row counts as dropped (R299). -/
def Bucket.overflow (b : Bucket) (policy x : Nat) : Bucket :=
  if policy = 1 then { b with slots := b.slots.drop 1 ++ [x] }
  else if policy = 2 then
    let r := mix x b.ins % b.ins
    if r < 15 then { b with slots := setNth b.slots r x } else b
  else b

/-- Domain physical address and leaf of a pool bucket. -/
def poolBucket (q : BucketReq) (k : Nat) : Option (Nat × Nat) := xlAt q.xl (q.pool + 64 * k)

/-- A bucket operation that finds poison is not performed (R314, order 5). -/
def State.bucketPoison (s : State) (q : BucketReq) (a : Nat) : State :=
  s.tellOrigin q.org q.ctx 0x09 (dpa s.mgmt.modid (halfOf a))

/-- A half-line is read by a retrieval unit for a request (R155). -/
def State.unitRead (s : State) (q : BucketReq) (a : Nat) : State := (s.touchLine a 64).dropFor q a

/-- An insert that changes the descriptor too: one whose half-line is poisoned is not performed (R314, order 5). -/
def State.withDescriptor (s : State) (q : BucketReq) (go : State → State) : State :=
  let t := s.unitRead q q.desc
  if t.poisoned q.desc then t.bucketPoison q q.desc else go t

/-- InsertOverflow: a full bucket drops (R298). -/
def State.insertOverflow (s : State) (q : BucketReq) (a : Nat) (prot : Bool) : State :=
  let b := s.bucketAt a
  let x := q.row.toNat
  if b.rows.contains x then s
  else if b.used < 15 then s.unitCommit q a prot (b.counted.append x).toBytes
  else s.withDescriptor q (fun t => (t.unitCommit q a prot b.counted.toBytes).dropRow q)

/-- An insert under policy 3 into a full bucket without an overflow bucket takes one from the pool (R298, R300). -/
def State.insertChain (s : State) (q : BucketReq) (b : Bucket) : State :=
  let put (t : State) (c : Bucket) : State := t.unitCommit q q.bucket q.prot c.toBytes
  let p := s.takePool q
  match p.2 with
  | none => (put p.1 b.counted).dropRow q
  | some k =>
    match poolBucket q k with
    | none => put p.1 { b.counted with link := k + 1 }
    | some (a, e) =>
      let o : Bucket := { cnt := 1, ins := 1, link := 0, slots := q.row.toNat :: List.replicate 14 0xFFFFFFFF }
      (put p.1 { b.counted with link := k + 1 }).unitCommit q (dpaLocal a) (leafProt e) o.toBytes

/-- Insert (R298). -/
def State.insertRow (s0 : State) (q : BucketReq) : State :=
  let s := s0.unitRead q q.bucket
  let b := s.bucketAt q.bucket
  let x := q.row.toNat
  let put (t : State) (c : Bucket) : State := t.unitCommit q q.bucket q.prot c.toBytes
  if s.poisoned q.bucket then s.bucketPoison q q.bucket
  else if b.rows.contains x then s
  else if b.used < 15 then put s (b.counted.append x)
  else if q.policy < 3 then s.withDescriptor q (fun t => (put t (b.counted.overflow q.policy x)).dropRow q)
  else if b.link ≠ 0 then
    match poolBucket q (b.link - 1) with
    | none => put s b.counted
    | some (a, e) =>
      let t := put (s.unitRead q (dpaLocal a)) b.counted
      if t.poisoned (dpaLocal a) then t.bucketPoison q (dpaLocal a) else t.insertOverflow q (dpaLocal a) (leafProt e)
  else s.withDescriptor q (fun t => t.insertChain q b)

/-- A bucket without a row. -/
def Bucket.without (b : Bucket) (x : Nat) : Bucket :=
  match b.rows.findIdx? (· == x) with
  | none => b
  | some k => { b with slots := b.slots.eraseIdx k ++ [0xFFFFFFFF], cnt := b.used - 1 }

/-- Delete on one bucket. -/
def State.deleteFrom (s0 : State) (q : BucketReq) (a : Nat) (prot : Bool) : State :=
  let s := s0.unitRead q a
  let b := s.bucketAt a
  if s.poisoned a then s.bucketPoison q a
  else if b.rows.contains q.row.toNat then s.unitCommit q a prot (b.without q.row.toNat).toBytes
  else s

/-- Delete (R298): under policy 3 also on the overflow bucket, as a second operation. -/
def State.deleteRow (s : State) (q : BucketReq) : State :=
  let b := s.bucketAt q.bucket
  let t := s.deleteFrom q q.bucket q.prot
  if q.policy = 3 && b.link != 0 && !t.poisoned q.bucket then
    match poolBucket q (b.link - 1) with
    | none => t
    | some (a, e) => t.deleteFrom q (dpaLocal a) (leafProt e)
  else t

/-! ### The retrieval queue (R305, R306, R308) -/

/-- Probes of a context that have read some bucket and not all (R306). -/
def State.openProbes (s : State) (ctx : Nat) : List Nat :=
  (s.probes.filter (fun p => p.ctx == ctx && p.begun && !p.todo.isEmpty)).map (·.tag)

/-- A job is performed: it leaves the queue, and the delete of its rmove lane learns which probes to wait for. -/
def State.retireRetr (s : State) (j : RetrJob) : State :=
  let ps := s.openProbes j.ctx
  { s with retr := (s.retr.filter (fun i => i.id != j.id)).map (fun i =>
      if i.after == some j.id then { i with after := none, probes := ps } else i) }

/-- The earliest job of a kind with a request. -/
def State.retrJob (s : State) (ins : Bool) (q : BucketReq) : Option RetrJob := s.retr.find? (fun j => j.ins == ins && j.req == q)

/-- A probe has still to read some bucket. -/
def State.probeOpen (s : State) (tag : Nat) : Bool := s.probes.any (fun p => p.tag == tag && !p.todo.isEmpty)

/-- A job has not been sent to its retrieval unit: it waits for the insert of its lane, for probes, or for the restore of
its gang (R306, R315). -/
def State.unsent (s : State) (j : RetrJob) : Bool := j.held || j.after.isSome || j.probes.any s.probeOpen

/-- A job may be performed: it has been sent; no earlier job or probe of its gang is still to act on the same bucket; and
no other instruction is in the midst of its lanes there (R305, R306, R308). -/
def State.retrReady (s : State) (j : RetrJob) : Bool :=
  !s.unsent j
    && ((s.retr.takeWhile (fun i => i.id != j.id)).all (fun i => !(i.gang == j.gang && i.req.bucket == j.req.bucket)))
    && !s.probes.any (fun p => p.gang == j.gang && p.tag < j.id && p.todo.any (fun e => e.1 == j.req.bucket))

/-- A probe reads nothing yet: an earlier rmove of its gang has still to insert a row that it is to take from one of the probe's
buckets. A probe that began before that insert would hold up the delete that its own read waits for (R306, R308).
DEDUCED (safe), log entry 109. -/
def State.probeHeldBack (s : State) (p : Probe) : Bool :=
  !p.begun && s.retr.any (fun j => j.gang == p.gang && !j.ins && j.after.isSome && j.id < p.tag
    && p.todo.any (fun e => e.1 == j.req.bucket))

/-- A bucket of a probe may be read: every earlier operation of its gang there has been performed (R308). -/
def State.probeReady (s : State) (p : Probe) (e : Nat × Nat) : Bool :=
  !p.held && !s.probeHeldBack p && !s.retr.any (fun j => j.gang == p.gang && j.id < p.tag && j.req.bucket == e.1)

/-- Performs a bucket operation that an instruction has sent: its lanes on that bucket are performed together, in their order,
and their jobs are done (R305). One that nobody asked for, that has been discarded, or that may not be sent yet does nothing
(R306, R315, R398). -/
def State.performBucket (s : State) (ins : Bool) (q : BucketReq) : State :=
  let one (t : State) (r : BucketReq) : State := if ins then t.insertRow r else t.deleteRow r
  match s.retrJob ins q with
  | none => s
  | some j =>
    if !s.retrReady j then s
    else (s.retr.filter (fun i => i.batch == j.batch && i.ins == ins && i.req.bucket == j.req.bucket && i.after.isNone)).foldl
      (fun t i => (one t i.req).retireRetr i) s

/-- The gang has retrieval work that has not been performed (R308, rule 2). -/
def State.retrievalBusy (s : State) (g : Gang) : Bool :=
  s.retr.any (fun j => j.gang == g.id) || s.probes.any (fun p => p.gang == g.id)
    || s.loads.any (fun l => l.gang == g.id && l.kind == 3)

/-! ### Probes (R302, R303) -/

/-- Distinct rows of a probe with their hit counts, in ascending row id. -/
def Probe.hits (p : Probe) : List (Nat × Nat) :=
  let rowsOf (b : Nat) : List Nat := distinct ((p.rows.filter (fun r => r.1 == b)).flatMap (·.2))
  let all := distinct ((p.lanes.map (·.2)).flatMap rowsOf)
  sortBy (fun (a b : Nat × Nat) => a.1 ≤ b.1)
    (all.map (fun x => (x, (p.lanes.filter (fun l => (rowsOf l.2).contains x)).length)))

/-- The rows kept under the cap: hit descending, then row id ascending; listed in ascending row id. -/
def Probe.kept (p : Probe) : List (Nat × Nat) :=
  let u := p.hits
  if u.length ≤ p.cap then u
  else sortBy (fun (a b : Nat × Nat) => a.1 ≤ b.1)
    ((sortBy (fun (a b : Nat × Nat) => b.2 < a.2 || (a.2 == b.2 && a.1 ≤ b.1)) u).take p.cap)

/-- The candidate list, by pad address (R303). -/
def Probe.listCells (p : Probe) : List (Nat × Byte) :=
  let k := p.kept
  let raw := p.hits.length
  cellsAt p.list (leBytes 4 k.length ++ leBytes 4 raw ++ leBytes 4 p.lanes.length ++ leBytes 4 (b2n (p.cap < raw)))
    ++ cellsAt (p.list + 16) (k.flatMap (fun r => leBytes 4 r.1))
    ++ cellsAt (p.list + 16 + 4 * p.cap) (k.map (fun r => lowByte r.2))

/-- With a probe replaced. -/
def State.setProbe (s : State) (p : Probe) : State :=
  { s with probes := s.probes.map (fun q => if q.tag == p.tag then p else q) }

/-- Without a probe. -/
def State.dropProbe (s : State) (tag : Nat) : State := { s with probes := s.probes.filter (fun q => q.tag != tag) }

/-- One bucket read of a probe (R302): with policy 3 and a link, its overflow bucket is read after it. -/
def State.probeRead (s0 : State) (p : Probe) (b a : Nat) : State :=
  let s := (s0.touchLine a 64).l1DropUnit (clusterOf p.core) (dpa s0.mgmt.modid a)
  if s.poisoned a then
    match s.gang p.gang with
    | none => s.dropProbe p.tag
    | some g =>
      (s.dropProbe p.tag).raise
        { crew := g.crew, gang := p.gang, cause := 0x09, pc := p.first, lanes := p.active, addr := dpa s.mgmt.modid (halfOf a) }
  else
    let k := s.bucketAt a
    let more : List (Nat × Nat) :=
      if p.policy = 3 && a == b && k.link != 0 then
        match xlAt p.xl (p.pool + 64 * (k.link - 1)) with
        | some (x, _) => [(b, dpaLocal x)]
        | none => []
      else []
    let q := { p with todo := p.todo.filter (fun e => e != (b, a)) ++ more, begun := true, rows := p.rows ++ [(b, k.rows)] }
    let t := s.setProbe q
    more.foldl (fun u e => u.postEvent (.bucketRead p.tag e.2)) t

/-- A probe whose buckets are all read writes its list and its count, and its split goes on (R302). -/
def State.finishProbe (s : State) (p : Probe) : State :=
  match s.gang p.gang with
  | none => s.dropProbe p.tag
  | some g =>
    ((s.padWrite g.crew p.listCells).updGang p.gang (fun h =>
      (h.setS p.dest (dw p.kept.length) false).updSplit p.split (fun sp =>
        { sp with blocked := none, pc := sp.pc + 4, hints := Hints.none, retry := none, word := none }))).dropProbe p.tag

/-! ### Pre-emption (R315, R452) -/

/-- The event of a bucket operation. -/
def bucketEvent (ins : Bool) (q : BucketReq) : Event := if ins then .insert q else .delete q

/-- At a pre-emption of gangs, operations not yet sent and probes not yet finished are written out; operations that have
been sent are still performed (R315). -/
def State.holdRetrieval (s : State) (ids : List Nat) : State :=
  let out (j : RetrJob) : Bool := ids.contains j.gang && s.unsent j
  { s with
    retr := s.retr.map (fun j => if out j then { j with held := true } else j)
    probes := s.probes.map (fun p => if ids.contains p.gang then { p with held := true } else p)
    agenda := (s.retr.filter out).foldl (fun a j => a.erase (bucketEvent j.ins j.req))
      (s.agenda.filter (fun e => match e with
        | .bucketRead tag _ => !s.probes.any (fun p => p.tag == tag && ids.contains p.gang)
        | _ => true)) }

/-- At the end of gangs, operations not yet sent and probes are discarded; operations already sent are performed (R315). -/
def State.dropRetrieval (s : State) (id : Nat) : State :=
  { s with retr := s.retr.filter (fun j => !(j.gang == id && s.unsent j)), probes := s.probes.filter (fun p => p.gang != id) }

/-- The parts of virtual ranges, for a translation alone. -/
def vaParts (rs : List (Nat × Nat)) : List Part := rs.flatMap (fun r => rangeParts 0 (r.2 / 128 + 2) 0 r.1 r.2)

/-- The virtual address that a domain physical address had under captured pages. -/
def vaUnder (xl : List (Nat × Nat × Nat × Nat)) (phys : Nat) : Nat := ((xlVas xl phys).head?).getD 0

/-- Virtual ranges that a request's translations cover: its bucket, its descriptor, and its pool under policy 3. -/
def requestRanges (q : BucketReq) (m : Nat) : List (Nat × Nat) :=
  [(vaUnder q.xl (dpa m q.bucket), 64), (vaUnder q.xl (dpa m q.desc), 64)] ++ (if q.policy = 3 then [(q.pool, 64 * q.pooln)] else [])

/-- A request under new translations. -/
def movedRequest (q : BucketReq) (m : Nat) (xl : List (Nat × Nat × Nat × Nat)) : BucketReq :=
  let b := homeOf xl (vaUnder q.xl (dpa m q.bucket))
  let d := homeOf xl (vaUnder q.xl (dpa m q.desc))
  { q with xl, bucket := b.1, prot := leafProt b.2, desc := d.1, descProt := leafProt d.2 }

/-- A job written out at a pre-emption is translated again and sent, or its crew ends (R315, R452). -/
def State.resendJob (s : State) (g : Gang) (j : RetrJob) : State :=
  let r := s.locateAll g.core g.ctx needBoth (vaParts (requestRanges j.req s.mgmt.modid))
  match r.2 with
  | .inr p => r.1.raiseCrew g.crew p.va
  | .inl ls =>
    let q := movedRequest j.req s.mgmt.modid (pagesOf ls)
    let t : State := { r.1 with retr := r.1.retr.map (fun i => if i.id == j.id then { i with held := false, req := q } else i) }
    t.postEvent (bucketEvent j.ins q)

/-- A probe written out at a pre-emption is translated again and goes on, or its crew ends (R315, R452). -/
def State.resumeProbe (s : State) (g : Gang) (p : Probe) : State :=
  let m := s.mgmt.modid
  let va (a : Nat) : Nat := vaUnder p.xl (dpa m a)
  let r := s.locateAll g.core g.ctx needRead (vaParts ((p.todo.map (fun e => (va e.2, 64))) ++ (p.lanes.map (fun l => (va l.2, 64)))
    ++ (if p.policy = 3 then [(p.pool, 64 * p.pooln)] else [])))
  match r.2 with
  | .inr x => r.1.raiseCrew g.crew x.va
  | .inl ls =>
    let xl := pagesOf ls
    let at_ (a : Nat) : Nat := (homeOf xl (va a)).1
    let q : Probe := { p with
      held := false
      xl := xl
      todo := p.todo.map (fun e => (at_ e.1, at_ e.2))
      lanes := p.lanes.map (fun l => (l.1, at_ l.2))
      rows := p.rows.map (fun e => (at_ e.1, e.2)) }
    q.todo.foldl (fun u e => u.postEvent (.bucketRead p.tag e.2)) (r.1.setProbe q)

/-- What a restored gang wrote out at its pre-emption is sent, in its original order (R315). -/
def State.resendRetrieval (s : State) (g : Gang) : State :=
  (s.probes.filter (fun p => p.gang == g.id && p.held)).foldl (fun t p => t.resumeProbe g p)
    ((s.retr.filter (fun j => j.gang == g.id && j.held)).foldl (fun t j => t.resendJob g j) s)

end Sys2Proof.Machine
end

