-- ==== Sys2Proof/Machine/Images.lean ====
section
/-! DEFINITION. The layout of the context save area: gang blocks, tiles and shadows, as bytes (R393, R394). -/

namespace Sys2Proof.Machine

/-- Bytes at an offset of a block. -/
abbrev Field := Nat × List Byte

/-- Number of a blocked state in a split record; the reference names the field and gives no codes.
DESIGN CHOICE (unsafe), log entry 34. -/
def waitKind : Option Wait → Nat
  | none => 0
  | some (.gen _ _ _) => 1
  | some .released => 1
  | some (.name _) => 2
  | some (.trowel _) => 3
  | some .follower => 3
  | some .copySlot => 4
  | some (.fifoPush _) => 5
  | some (.fifoPop _) => 6
  | some (.skim _ _) => 8
  | some _ => 7

/-- Awaited generation or FIFO of a split record. DESIGN CHOICE (unsafe), log entry 34. -/
def waitNumber : Option Wait → Nat
  | some (.gen _ g _) => g
  | some (.fifoPush f) => f
  | some (.fifoPop f) => f
  | _ => 0

/-- TRAPCAUSE of a split (R380). -/
def Split.trapCause (sp : Split) : Nat := sp.cause.toNat + 256 * sp.glen + 2 ^ 16 * b2n sp.hm

/-- A split record (R394). -/
def splitImage (o : Option Split) : List Byte :=
  match o with
  | none => leBytes 64 0
  | some sp =>
    leBytes 8 sp.pc.toNat ++ leBytes 4 sp.mask.toNat ++ leBytes 4 sp.fmt.toNat
      ++ leBytes 1 (match sp.top with | some e => 128 + e | none => 0)
      ++ leBytes 1 (1 + 2 * b2n sp.hm + 16 * waitKind sp.blocked) ++ leBytes 6 0
      ++ leBytes 8 sp.trapPc.toNat ++ leBytes 8 sp.trapAddr.toNat ++ leBytes 4 sp.trapLanes.toNat
      ++ leBytes 4 sp.trapCause ++ leBytes 4 (waitNumber sp.blocked) ++ leBytes 12 0

/-- A reconvergence entry (R203). -/
def RcEntry.image (e : RcEntry) : List Byte :=
  leBytes 64 (e.join.toNat + 2 ^ 64 * e.ppc.toNat + 2 ^ 128 * e.mask.toNat + 2 ^ 160 * e.arr.toNat
    + 2 ^ 192 * e.pmask.toNat + 2 ^ 224 * e.fmt.toNat
    + 2 ^ 256 * (match e.link with | some l => l + 2 ^ 6 | none => 0) + 2 ^ 263 * b2n e.pv + 2 ^ 264)

/-- An entry as its 64 bytes in the save area hold it (R203), the reserved bits of FMT reading zero (R4, R71): its place, its
order and what the model keeps beside it stay. -/
def RcEntry.ofImage (e : RcEntry) (data : List Byte) : RcEntry :=
  let n := ofBytes data
  { e with
    join := dw (bits n 0 64), ppc := dw (bits n 64 64), mask := w32 (bits n 128 32), arr := w32 (bits n 160 32)
    pmask := w32 (bits n 192 32), fmt := w32 (bits n 224 32) &&& 0x0F1FFFFF#32, link := if bit n 262 then some (bits n 256 6) else none
    pv := bit n 263, spilled := false }

/-- A write-combining entry (R394): data, byte mask, line address. -/
def WcbEntry.image (e : WcbEntry) : List Byte :=
  let byteAt (k : Nat) : Option Byte := (e.cells.find? (fun c => c.1 == e.line + k)).map (·.2)
  (List.range 128).map (fun k => (byteAt k).getD 0)
    ++ leBytes 16 ((List.range 128).foldl (fun m k => if (byteAt k).isSome then m + 2 ^ k else m) 0)
    ++ leBytes 8 e.line ++ leBytes 104 0

/-- Deferred causes of a gang: bits, and the address of the one delivered first (R353, R394). -/
def Gang.deferredBits (g : Gang) : Nat := b2n g.d09.isSome + 2 * b2n g.d13.isSome + 4 * b2n g.d0a.isSome
def Gang.deferredAddr (g : Gang) : Nat := (((g.d09.or g.d13).or g.d0a).getD 0).toNat

/-- A gang block (R394); `idx` is the task's lease index on its core. -/
def Gang.image (g : Gang) (idx : Nat) : List Field :=
  [(0x0000, (List.range 64).flatMap (fun r => (List.range 32).flatMap (fun l => leBytes 4 (g.vlane r l).toNat))),
   (0x2000, (List.range 64).flatMap (fun k =>
     match g.rc.find? (fun e => e.idx == k) with | some e => e.image | none => leBytes 64 0)),
   (0x3000, (List.range 64).flatMap (fun r => leBytes 8 (g.sreg r).toNat)),
   (0x3200, (List.range 8).flatMap (fun r => leBytes 4 (g.preg r).toNat)),
   (0x3220, leBytes 8 g.sPoison.toNat),
   (0x3240, (List.range 64).flatMap (fun r => leBytes 4 (g.vmarks r).toNat)),
   (0x3400, (List.range 4).flatMap (fun k => splitImage (g.split k))),
   (0x3500, ((List.range 4).flatMap (fun k => match g.wcb[k]? with | some e => e.image | none => leBytes 256 0))),
   (0x3900, match g.copySlot with
     | some c => leBytes 8 c.word.toNat ++ (c.image.flatMap (fun x => leBytes 8 x.toNat)) ++ leBytes 24 0
     | none => leBytes 64 0),
   (0x3940, (List.range 16).flatMap (fun b =>
     let a := sget { mask := 0, gen := 0, obs := false } g.arrivals b
     leBytes 4 a.mask.toNat ++ leBytes 1 a.gen ++ leBytes 1 (b2n a.obs) ++ leBytes 6 0)),
   (0x3A00, leBytes 4 g.fst.toNat ++ leBytes 1 g.tdepth ++ leBytes 1 g.deferredBits ++ leBytes 2 0
     ++ leBytes 8 g.deferredAddr ++ leBytes 2 idx ++ leBytes 1 g.cls ++ leBytes 45 0)]

/-- The tiles of a crew, from offset 0x04_0000 of its block (R393). -/
def Crew.tileImage (c : Crew) : List Field :=
  (List.range c.accs).map (fun n => (0x18000 * n, (List.range 8192).flatMap (fun k => leBytes 12 (sget 0 (nth [] c.acc n) k).toNat)))
    ++ (List.range c.zregs).map (fun z => (0x60000 + 0x2000 * z, (List.range 8192).map (fun b => sget 0 c.z (8192 * z + b))))
    ++ [(0x80000, (List.range 16).flatMap (fun z => leBytes 8 ((List.range 64).foldl (fun m k =>
          if c.zPoison.contains (64 * z + k) then m + 2 ^ k else m) 0)) ++ leBytes (4096 - 128) 0)]

/-- The device writes bytes of a save area, in pieces that no page boundary cuts; the address of one that fails (R451). -/
def State.saveBytes (ctx : Nat) : Nat → State → Nat → List Byte → State × Option Nat
  | 0, s, _, _ => (s, none)
  | n + 1, s, va, data =>
    if data.isEmpty then (s, none)
    else
      let k := 4096 - va % 4096
      match s.areaStore ctx va (data.take k) with
      | (t, false) => (t.machineCheck 11 va ctx, some va)
      | (t, true) => State.saveBytes ctx n t (va + k) (data.drop k)

/-- The fields of a block are written at its address; a failed access ends the crew. -/
def State.saveFields (s : State) (v ctx va : Nat) (fs : List Field) : State :=
  match fs.foldl (fun (q : State × Option Nat) f =>
    if q.2.isNone then State.saveBytes ctx (f.2.length + 1) q.1 (va + f.1) f.2 else q) (s, none) with
  | (t, none) => t
  | (t, some a) => t.raiseCrew v a

/-- Number of a gang's task among the tasks of its core: the index of its comparator set (R102). -/
def State.leaseIndex (s : State) (g : Gang) : Nat :=
  ((distinct ((s.onCore g.core).map (·.task))).findIdx? (· == g.task)).getD 0

end Sys2Proof.Machine
end

