-- ==== Sys2Proof/Machine/Barriers.lean ====
section
/-! DEFINITION. Barrier objects: arrivals, byte counts, completion of a phase, chunks, checkpoints and membership
(R181 to R190, R389). -/

namespace Sys2Proof.Machine

/-! ### Objects (R181) -/

/-- A barrier object. -/
structure Bar where
  gen : Nat
  exp : Nat
  pend : Nat
  ckpt : Bool
  mtrk : Bool
  hold : Bool
  ovr : Bool
  inb : Nat
  outb : Nat
  chrem : Nat
  ogen : Nat
  deriving DecidableEq, Repr

/-- The object that 128 bits hold. -/
def Bar.ofNat (n : Nat) : Bar :=
  { gen := bits n 0 4, exp := bits n 4 12, pend := bits n 16 12, ckpt := bit n 28, mtrk := bit n 29, hold := bit n 30,
    ovr := bit n 31, inb := bits n 32 32, outb := bits n 64 32, chrem := bits n 96 16, ogen := bits n 124 4 }

/-- The 128 bits of an object. -/
def Bar.toNat (b : Bar) : Nat :=
  b.gen + 2 ^ 4 * b.exp + 2 ^ 16 * b.pend + 2 ^ 28 * b2n b.ckpt + 2 ^ 29 * b2n b.mtrk + 2 ^ 30 * b2n b.hold
    + 2 ^ 31 * b2n b.ovr + 2 ^ 32 * b.inb + 2 ^ 64 * b.outb + 2 ^ 96 * b.chrem + 2 ^ 124 * b.ogen

/-- The object at a pad offset of a crew: its pad bytes as they stand, also after a plain store to them, of which R193
leaves some mix of the two writers. DESIGN CHOICE (unsafe), log entry 88. -/
def State.bar (s : State) (v off : Nat) : Bar := Bar.ofNat (ofBytes (s.padPeek v off 16))

/-- With the object at a pad offset replaced. -/
def State.setBar (s : State) (v off : Nat) (b : Bar) : State :=
  match s.padLand v off (leBytes 16 b.toNat) with
  | (t, none) => t
  | (t, some va) => t.raiseCrew v va

/-- Pad offset that a barrier name is bound to (R182). -/
def Crew.bound (c : Crew) (b : Nat) : Option Nat := (c.bind.find? (fun e => e.1 == b)).map (·.2)

/-- Barrier names bound to an offset. -/
def Crew.namesOf (c : Crew) (off : Nat) : List Nat := (c.bind.filter (fun e => e.2 == off)).map (·.1)

/-- The offsets of the objects bound in a crew, each once. -/
def Crew.objects (c : Crew) : List Nat := distinct (c.bind.map (·.2))

/-! ### Lane arrival masks (R182) -/

/-- No arrival. -/
def Arrival.none : Arrival := { mask := 0, gen := 0, obs := false }

/-- A gang's arrival state for a name. -/
def Gang.arrival (g : Gang) (b : Nat) : Arrival := sget Arrival.none g.arrivals b

/-- With the arrival state for a name replaced. -/
def Gang.setArrival (g : Gang) (b : Nat) (a : Arrival) : Gang := { g with arrivals := sput Arrival.none g.arrivals b a }

/-- The lanes that have arrived in a generation: a mask with another tag reads as empty. -/
def Arrival.lanes (a : Arrival) (gen : Nat) : Mask := if a.gen = gen then a.mask else 0

/-- The lanes of a gang that have arrived at an object through any of its names. -/
def Gang.arrivedAt (g : Gang) (names : List Nat) (gen : Nat) : Mask :=
  names.foldl (fun m b => m ||| (g.arrival b).lanes gen) 0

/-! ### Slices and chunks (R172, R175, R184) -/

/-- Width of a copy.acc element. -/
def accWidth (code : Nat) : Nat := if code = 0 then 4 else if code = 1 || code = 2 then 2 else if code = 3 then 4 else 8

/-- Source bytes of a slice. -/
def CopySlice.srcBytes (c : CopySlice) : Nat := if c.empty then 0 else c.rows * c.len

/-- Destination bytes of a slice: 16 for each element of copy.acc (R183). -/
def CopySlice.dstBytes (c : CopySlice) : Nat :=
  if c.empty then 0 else if c.op = 1 then c.rows * (16 * (c.len / accWidth c.code)) else c.rows * c.len

/-- Bytes of chunk k of a slice. -/
def CopySlice.chunkBytes (c : CopySlice) (k : Nat) : Nat :=
  min (2 ^ c.code) (c.srcBytes - k * 2 ^ c.code)

/-- Chunks of a slice. -/
def CopySlice.chunks (c : CopySlice) : Nat := (c.srcBytes + 2 ^ c.code - 1) / 2 ^ c.code

/-- Chunks of a collective. -/
def Collective.chunks (c : Collective) : Nat := c.slices.foldl (fun m x => max m x.chunks) 0

/-- Bytes of chunk k of a collective. -/
def Collective.chunkBytes (c : Collective) (k : Nat) : Nat := c.slices.foldl (fun m x => m + x.chunkBytes k) 0

/-- The object at a pad offset of a crew is the one that a collective's bytes were added to at issue (R183). -/
def Collective.countsOn (c : Collective) (v off : Nat) : Bool := c.crew == v && c.slices.any (fun x => x.dobj == some off)

/-- With a collective replaced. -/
def State.setColl (s : State) (c : Collective) : State :=
  { s with colls := s.colls.map (fun d => if d.id == c.id then c else d) }

/-- Chunks of a collective have still to enter INB (R184). -/
def Collective.unarmed (c : Collective) : Bool := c.op == 2 && c.armed < c.chunks

/-- A landed collective leaves once no chunk of it is to be armed and no delta of its writes is unacknowledged (R130,
R184). -/
def State.retireColl (s : State) (id : Nat) : State :=
  { s with colls := s.colls.filter (fun c => !(c.id == id && c.done && !(c.unarmed && (s.crews.any (fun k => k.val == c.crew)))
      && !s.deltas.any (fun d => d.org == .coll id))) }

/-- The next chunk of the oldest copy.chk on an object enters INB (R184); whether one did. -/
def State.armChunk (s : State) (v off : Nat) : State × Bool :=
  let b := s.bar v off
  match s.colls.find? (fun c => c.started && c.unarmed && c.countsOn v off) with
  | none => (s, false)
  | some c =>
    if b.chrem = 0 then (s, false)
    else
      let n := c.chunkBytes c.armed - sget 0 c.early c.armed
      (((s.setColl { c with armed := c.armed + 1 }).setBar v off { b with chrem := b.chrem - 1, inb := b.inb + n }).retireColl c.id, true)

/-! ### Completion (R185, R187, R189) -/

/-- The splits of a gang that wait at an object for a generation to pass are released, bar.sync's result written. -/
def Gang.release (g : Gang) (names : List Nat) (gen now : Nat) : Gang :=
  (List.range 4).foldl (fun h k =>
    match h.split k with
    | none => h
    | some sp =>
      match sp.blocked with
      | some (.gen b w d) =>
        if names.contains b && w == gen then
          (match d with | some r => h.setS r (dw now) false | none => h).setSplit k (some { sp with blocked := some .released })
        else h
      | _ => h) g

/-- The crew's waiters at an object are released; a saved one finds so at its restore (R194). -/
def State.releaseWaiters (s : State) (v off gen now : Nat) : State :=
  match s.crew v with
  | none => s
  | some c =>
    { s.updCrew v (fun k => { k with saved := k.saved.map (fun g => g.release (c.namesOf off) gen now) }) with
      gangs := s.gangs.map (fun g => if g.crew == v && !g.onControl then g.release (c.namesOf off) gen now else g) }

/-- The completion that an object's counts allow now would make GEN equal OGEN while an observer holds it (R187). -/
def Bar.deferredNow (b : Bar) : Bool := b.hold && (b.gen + 1) % 16 == b.ogen

/-- Every count of a phase is zero (R185). -/
def Bar.over (b : Bar) : Bool := b.pend == 0 && b.inb == 0 && b.outb == 0

/-- GEN moves on and PEND is EXP again (R185). -/
def Bar.nextPhase (b : Bar) : Bar := { b with gen := (b.gen + 1) % 16, pend := b.exp }

/-- Evaluates completion after an event at an object (R185): a phase with CKPT waits for its checkpoint, another completes,
in the order of R185; fuel bounds the chunks that a chain of completions can arm. -/
def State.evalBar : Nat → State → Nat → Nat → State
  | 0, s, _, _ => s
  | n + 1, s, v, off =>
    let b := s.bar v off
    if !b.over then s
    else if b.deferredNow then
      s.updCrew v (fun c => { c with deferred := if c.deferred.contains off then c.deferred else c.deferred ++ [off] })
    else if b.ckpt then
      s.updCrew v (fun c => { c with ckpts := if c.ckpts.contains off then c.ckpts else c.ckpts ++ [off] })
    else
      let t := (s.setBar v off b.nextPhase).armChunk v off
      let u := t.1.releaseWaiters v off b.gen b.nextPhase.gen
      if t.2 then State.evalBar n u v off else u

/-- An event at an object, read where it lies, changes it, and completion is evaluated. -/
def State.barEvent (s : State) (v off : Nat) (f : Bar → Bar) : State :=
  let t := s.padMeet v off 16
  let b := f (t.bar v off)
  State.evalBar (b.chrem + 2) (t.setBar v off b) v off

/-- A completion deferred for the observer takes place (R187). -/
def State.undefer (s : State) (v off : Nat) : State :=
  match s.crew v with
  | none => s
  | some c =>
    if c.deferred.contains off && !(s.bar v off).deferredNow then
      State.evalBar ((s.bar v off).chrem + 2) (s.updCrew v (fun k => { k with deferred := k.deferred.filter (· != off) })) v off
    else s

/-! ### Checkpoints (R389) -/

/-- The split stands within a hint group, which is one unit with its instruction (R37). -/
def Split.midGroup (sp : Split) : Bool := sp.hints.words != 0 && sp.blocked.isNone

/-- A gang stands at an instruction boundary with nothing of it under way: no load or store is unfinished, and its matrix
and retrieval work is done (R290, R308, R389). -/
def State.atRest (s : State) (g : Gang) : Bool :=
  g.live.all (fun p => !p.2.midGroup) && !g.owes && !s.retrievalBusy g
    && !s.loads.any (fun l => l.gang == g.id && l.kind != 2)

/-- The gangs that a shadow records, in the order of their TIDX: their splits that wait at the completing object as released
(R389, R393). -/
def State.shadowGangs (s : State) (c : Crew) (off gen now : Nat) : List Gang :=
  (sortBy (fun (a b : Gang) => a.tidx ≤ b.tidx) (if c.preempted then c.saved else s.members c.val)).map
    (fun g => g.release (c.namesOf off) gen now)

/-- The shadow of a crew is taken (R389): gang states and tiles are copied, to the model's shadow and to the save area; no
pad page has been written since. DEDUCED (unsafe), log entry 33. -/
def State.takeShadow (s : State) (v off gen now : Nat) : State × Option Shadow :=
  match s.crew v with
  | none => (s, none)
  | some c =>
    let gs := s.shadowGangs c off gen now
    let w := s.saveFields v c.ctx (s.crewBlock c + 0x240000) c.tileImage
    ((List.range gs.length).foldl (fun x i =>
        match gs[i]? with
        | none => x
        | some g => x.saveFields v c.ctx (x.crewBlock c + 0x300000 + 0x4000 * i) (g.image (x.leaseIndex g))) w,
      some { gangs := gs, pages := [], acc := c.acc, z := c.z, zPoison := c.zPoison, bind := c.bind })

/-- A phase with CKPT completes (R185, R389): the shadow first, then the object, the next chunk, and the waiters. The
completed object belongs to the pad that the shadow records. DEDUCED (unsafe), log entry 33. -/
def State.checkpoint (s : State) (v off : Nat) : State :=
  let b := (s.padMeet v off 16).bar v off
  let r := ((s.padMeet v off 16).updCrew v (fun c => { c with ckpts := c.ckpts.filter (· != off), shadow := none })).takeShadow v off b.gen b.nextPhase.gen
  let t := (r.1.setBar v off b.nextPhase).updCrew v (fun c => { c with shadow := r.2, replayable := true, rollbacks := 0 })
  let u := t.armChunk v off
  let w := u.1.releaseWaiters v off b.gen b.nextPhase.gen
  if u.2 then State.evalBar (b.chrem + 2) w v off else w

/-- The checkpoints of a crew: its members' buffers drain, and each is taken once they are at rest. -/
def State.takeCheckpoints (s : State) (c : Crew) : State :=
  let t := (s.members c.val).foldl (fun u g => u.drainAll g.id) s
  if (t.members c.val).all t.atRest && !t.matrixPending c.core c.val then
    c.ckpts.foldl (fun u off => u.checkpoint c.val off) t
  else t

/-! ### Counts (R183, R185, R186, R188) -/

/-- Bytes added to INB or OUTB. -/
def Bar.add (b : Bar) (inb outb : Nat) : Bar := { b with inb := b.inb + inb, outb := b.outb + outb }

/-- Bytes subtracted from INB or OUTB: below zero leaves 0 and sets OVR (R183). -/
def Bar.sub (b : Bar) (inb outb : Nat) : Bar :=
  { b with inb := b.inb - inb, outb := b.outb - outb, ovr := b.ovr || b.inb < inb || b.outb < outb }

/-- Lanes arrive: `again` when some of them had arrived before (R186). -/
def Bar.arrive (b : Bar) (n : Nat) (again : Bool) : Bar :=
  { b with pend := b.pend - n, ovr := b.ovr || again || b.pend < n }

/-- Lanes leave: n of them, m of which had not arrived (R188). DEDUCED (unsafe), log entry 58. -/
def Bar.leave (b : Bar) (n m : Nat) : Bar := { b with exp := b.exp - n, pend := b.pend - m }

/-- A gang's lanes arrive at a barrier name (R186). Where two names are bound to one object, the observer bit looked at is that
of the name used. DESIGN CHOICE (unsafe), log entry 116. -/
def State.arriveBar (s : State) (g : Gang) (name off : Nat) (lanes : Mask) : State :=
  let b := s.bar g.crew off
  let a := g.arrival name
  if a.obs then s.setBar g.crew off { b with ovr := true }
  else
    let names := match s.crew g.crew with | some c => c.namesOf off | none => [name]
    let before := g.arrivedAt names b.gen
    let new := lanes &&& ~~~ before
    let t := s.updGang g.id (fun h => h.setArrival name { a with mask := a.lanes b.gen ||| new, gen := b.gen })
    if new = 0 then t.setBar g.crew off { b with ovr := b.ovr || lanes &&& before != 0 }
    else t.barEvent g.crew off (fun x => x.arrive (countLanes new) (lanes &&& before != 0))

/-- Lanes of a gang leave every object bound in its crew (R188). DEDUCED (unsafe), log entry 58. -/
def State.leaveBars (s : State) (g : Gang) (lanes : Mask) : State :=
  match s.crew g.crew with
  | none => s
  | some c =>
    if lanes = 0 then s
    else c.objects.foldl (fun t off =>
      let b := t.bar g.crew off
      let arrived := g.arrivedAt (c.namesOf off) b.gen
      t.barEvent g.crew off (fun x => x.leave (countLanes lanes) (countLanes (lanes &&& ~~~ arrived)))) s

/-- Lanes of a gang join each object of a crew whose MTRK is set (R188). A count past 0xFFF stays there, with OVR set. DESIGN
CHOICE (unsafe), log entry 120. -/
def State.joinBars (s : State) (v : Nat) (lanes : Mask) : State :=
  match s.crew v with
  | none => s
  | some c =>
    c.objects.foldl (fun t off =>
      let b := t.bar v off
      let n := countLanes lanes
      if b.mtrk && n != 0 then
        t.barEvent v off (fun x => { x with exp := min (x.exp + n) 0xFFF, pend := min (x.pend + n) 0xFFF,
                                            ovr := x.ovr || 0xFFF < x.exp + n || 0xFFF < x.pend + n })
      else t) s

/-- A gang's observer registrations end as bar.drop ends them (R187, R200). -/
def State.dropObservers (s : State) (g : Gang) : State :=
  match s.crew g.crew with
  | none => s
  | some c =>
    c.bind.foldl (fun t e =>
      if (g.arrival e.1).obs then
        ((t.setBar g.crew e.2 { t.bar g.crew e.2 with hold := false }).updGang g.id (fun h =>
          h.setArrival e.1 { h.arrival e.1 with obs := false })).undefer g.crew e.2
      else t) s

end Sys2Proof.Machine
end

