-- ==== Sys2Proof/Machine/Ops.lean ====
section
/-! DEFINITION. Operations that many instructions share: splits and the reconvergence stack (R202 to R207), the trowel
(R281), membership of crews and collectives (R169, R200, R201, R208, R392), releases and acquires (R329), causes, handler
mode, rollback and the end of a crew (R375 to R392), and the frame in which every instruction issues (R30 to R37). -/

namespace Sys2Proof.Machine

/-! ### Splits and the reconvergence stack -/

/-- A new split with the trap registers of the split it comes from (R380). -/
def Split.child (sp : Split) (pc : DWord) (mask : Mask) (fmt : Word) (top : Option Nat) : Split :=
  { sp with pc, mask, fmt, top, hints := Hints.none, blocked := none, yielded := false, demoted := false, held := 0, rested := false, age := 0, retry := none, word := none }

/-- The 32 clocks of a yield are over: the split competes as the least recently issued (R214). -/
def Split.unyield (sp : Split) : Split := if sp.yielded then { sp with yielded := false, rested := true } else sp

/-- The splits of a gang that is taken off its core, or rolled back: the 32 clocks of a yield pass meanwhile (R214).
DEDUCED (safe), log entry 106. -/
def Gang.unyield (g : Gang) : Gang := { g with splits := g.splits.map (fun o => o.map Split.unyield) }

/-- A split leaves its core: its wait at a FIFO is given up, and its word issues again at the restore (R167). -/
def Split.offCore (sp : Split) : Split :=
  match sp.blocked with
  | some (.fifoPush _) | some (.fifoPop _) => { sp.unyield with blocked := none }
  | _ => sp.unyield

/-- A gang leaves its core. -/
def Gang.offCore (g : Gang) : Gang := { g with splits := g.splits.map (fun o => o.map Split.offCore) }

/-- Splits wait at no FIFO any longer (R164). -/
def State.leaveFifos (s : State) (gone : Nat × Nat → Bool) : State :=
  { s with banks := s.banks.map (fun b => (b.1, { b.2 with waiting := b.2.waiting.filter (fun w => !gone w) })) }

/-- A new split takes the lowest free number (R202). -/
def Gang.newSplit (g : Gang) (sp : Split) : Gang :=
  match g.freeSplit with
  | some k => g.setSplit k (some sp)
  | none => g

/-- An entry of the reconvergence stack. -/
def Gang.entry (g : Gang) (k : Nat) : Option RcEntry := g.rc.find? (fun e => e.idx == k)

/-- With an entry replaced. -/
def Gang.setEntry (g : Gang) (e : RcEntry) : Gang := { g with rc := g.rc.map (fun f => if f.idx == e.idx then e else f) }

/-- Settle(E) (R205): when no lane of the entry is outstanding, its lanes merge into one split, with the trap registers
of the split `sp` that completed it, and the entry is free. -/
def Gang.settleEntry (g : Gang) (sp : Split) (k : Nat) : Gang :=
  match g.entry k with
  | none => g
  | some e =>
    if e.mask &&& ~~~ e.arr ≠ 0 then g
    else
      let h := { g with rc := g.rc.filter (fun f => f.idx != k) }
      if e.mask ≠ 0 then h.newSplit (sp.child e.join e.mask e.fmt e.link) else h

/-- The entry with a parked path that was pushed first. -/
def Gang.firstParked (g : Gang) : Option RcEntry :=
  (g.rc.filter (·.pv)).foldl (fun m e => match m with | some x => if e.order < x.order then some e else m | none => some e) none

/-- Parked paths start while fewer than four splits are live (R206). DEDUCED (unsafe), log entry 48. -/
def Gang.startParked : Nat → Gang → Gang
  | 0, g => g
  | n + 1, g =>
    match g.freeSplit, g.firstParked with
    | some _, some e =>
      Gang.startParked n ((g.setEntry { e with pv := false, pmask := 0, spilled := false }).newSplit
        (e.pusher.child e.ppc e.pmask e.fmt (some e.idx)))
    | _, _ => g

/-- The entries of a gang, innermost first: later pushes before earlier ones. -/
def Gang.entriesInnermost (g : Gang) : List Nat := (sortBy (fun (a b : RcEntry) => b.order ≤ a.order) g.rc).map (·.idx)

/-- A split arrives at the join of its top entry (R205, R206). -/
def Gang.arriveJoin (g : Gang) (k : Nat) : Gang :=
  match g.split k with
  | none => g
  | some sp =>
    match sp.top.bind g.entry with
    | none => g
    | some e =>
      Gang.startParked 4 (((g.setEntry { e with arr := e.arr ||| sp.mask }).setSplit k none).settleEntry sp e.idx)

/-- A split stands at the join of its top entry (R205). -/
def Gang.atJoin (g : Gang) (k : Nat) : Bool :=
  match g.split k with
  | none => false
  | some sp =>
    sp.retry.isNone && (match sp.top.bind g.entry with | some e => e.join == sp.pc | none => false)

/-- An entry without lanes X (R207); one that was spilled and changes is to be written again. -/
def RcEntry.without (e : RcEntry) (x : Mask) : RcEntry :=
  { e with mask := e.mask &&& ~~~ x, arr := e.arr &&& ~~~ x, pmask := e.pmask &&& ~~~ x,
           pv := e.pv && (e.pmask &&& ~~~ x) != 0, spilled := e.spilled && (e.mask ||| e.arr ||| e.pmask) &&& x == 0 }

/-- Lanes X of split k leave: masks, entries, and the merges that this completes (R207). -/
def Gang.removeLanes (g : Gang) (k : Nat) (x : Mask) : Gang :=
  match g.split k with
  | none => g
  | some sp =>
    let m := sp.mask &&& ~~~ x
    let q := g.setSplit k (if m = 0 then none else some { sp with mask := m })
    let h := { q with rc := q.rc.map (fun e => RcEntry.without e x) }
    Gang.startParked 4 (h.entriesInnermost.foldl (fun q e => q.settleEntry sp e) h)

/-- No lane is left in a split or an entry (R207). -/
def Gang.over (g : Gang) : Bool := g.live.isEmpty && g.rc.isEmpty

/-- Entries in use beyond the 16 most recent are spilled to the gang's area (R203). -/
def Gang.toSpill (g : Gang) : List RcEntry :=
  ((sortBy (fun (a b : RcEntry) => b.order ≤ a.order) g.rc).drop 16).filter (fun e => !e.spilled)

/-- The device writes entries of a gang to its spill area; a failed access ends the crew (R203, R451). -/
def State.writeEntries (s : State) (g : Gang) (es : List RcEntry) : State :=
  es.foldl (fun t e =>
    match t.areaStore g.ctx (t.gangBlock g + 0x2000 + 64 * e.idx) e.image with
    | (u, false) =>
      (u.machineCheck 11 (t.gangBlock g + 0x2000 + 64 * e.idx) g.ctx).raiseCrew g.crew (t.gangBlock g + 0x2000 + 64 * e.idx)
    | (u, true) => u.updGang g.id (fun h => h.setEntry { e with spilled := true })) s

/-- The device spills a gang's older entries (R203). -/
def State.spillEntries (s : State) (id : Nat) : State :=
  match s.gang id with
  | none => s
  | some g => s.writeEntries g g.toSpill

/-- The spill area of a gang that rolls back holds the shadow's entries again: those that are not on chip are written anew
(R203, R389, R391). DEDUCED (safe), log entry 107. -/
def State.respillEntries (s : State) (id : Nat) : State :=
  match s.gang id with
  | none => s
  | some g => s.writeEntries g (g.rc.filter (·.spilled))

/-! ### The trowel (R280, R281) -/

/-- Place of a gang in the ring of its core. -/
def State.ringPlace (s : State) (g : Gang) : Nat × Nat := (((s.crew g.crew).map (·.ring)).getD 0, g.slot)

/-- A gang waits for the trowel: in mtake, or to take it back after a restore (R291). -/
def Gang.waitsTrowel (g : Gang) : Bool :=
  g.retake.isSome || g.live.any (fun p => match p.2.blocked with | some (.trowel _) => true | _ => false)

/-- Order of ring places. -/
def ringBefore (a b : Nat × Nat) : Bool := a.1 < b.1 || (a.1 == b.1 && a.2 < b.2)

/-- The first waiting gang after a place in ring order, wrapping round; a crew that is ending waits no longer (R208). -/
def State.nextWaiter (s : State) (core : Nat) (after : Nat × Nat) : Option Gang :=
  let ws := sortBy (fun a b => !ringBefore (s.ringPlace b) (s.ringPlace a))
    ((s.onCore core).filter (fun g => g.waitsTrowel && (s.crew g.crew).isSome))
  (ws.find? (fun g => ringBefore after (s.ringPlace g))).or ws.head?

/-- The gang holds the trowel of its core. -/
def State.holdsTrowel (s : State) (g : Gang) : Bool :=
  match (s.core g.core).trowel with
  | some (id, _) => id == g.id
  | none => false

/-- The trowel is released by a place in the ring: it passes to the next waiter, or is free (R281). -/
def State.passTrowel (s : State) (core : Nat) (place : Nat × Nat) : State :=
  match s.nextWaiter core place with
  | some g => (s.updCore core (fun c => { c with trowel := none, last := place, passing := some g.id })).postEvent (.trowelPass core)
  | none => s.updCore core (fun c => { c with trowel := none, last := place, passing := none })

/-- A gang at a place in the ring that holds the trowel gives it up, or one it is on its way to goes without (R208, R281). -/
def State.giveTrowel (s : State) (g : Gang) (place : Nat × Nat) : State :=
  if s.holdsTrowel g then s.passTrowel g.core place
  else if (s.core g.core).passing == some g.id then
    (s.updGang g.id (fun h => { h with retake := none })).passTrowel g.core (s.core g.core).last
  else s

/-! ### Collectives (R169) -/

/-- The pending slices of a crew's gangs may now find their collective. -/
def State.wakeSlices (s : State) (v : Nat) : State :=
  ((s.members v).filter (fun g => g.copySlot.isSome)).foldl (fun t g => t.postEvent (.copySliceAssemble g.id)) s

/-- Collectives in the transfer queue of a cluster (R168). -/
def State.transferQueue (s : State) (cl : Nat) : List Collective :=
  s.colls.filter (fun c => clusterOf (crewCnum c.crew) == cl && c.complete && !c.done)

/-- A collective that awaits no gang any longer is complete: it moves to the transfer queue of its cluster, which has 64
places, and its queue may open another (R168, R169). -/
def State.completeColl (s : State) (c : Collective) : State :=
  if c.awaited.isEmpty && !c.complete && (s.transferQueue (clusterOf (crewCnum c.crew))).length < Config.transfers then
    ((s.setColl { c with complete := true }).postEvent (.collectiveStart c.crew (c.queues.headD 0))).wakeSlices c.crew
  else s

/-- No open collective of its crew awaits a gang any longer (R169). -/
def State.unawait (s : State) (g : Gang) : State :=
  (s.colls.filter (fun c => c.crew == g.crew && !c.complete)).foldl (fun t c =>
    let d := { c with awaited := c.awaited.filter (· != g.id) }
    (t.setColl d).completeColl d) s

/-! ### Leaving a crew, and the end of gangs and crews (R200, R201, R208, R392) -/

/-- The pins of a lease are released when no gang of its task is left (R102). -/
def State.releaseLease (s : State) (task : Nat) : State :=
  if s.gangs.any (fun g => g.task == task) || s.crews.any (fun c => c.saved.any (fun g => g.task == task)) then s
  else
    match s.leases.find? (fun l => l.task == task) with
    | none => s
    | some l =>
      { s with
        leases := s.leases.filter (fun x => x.task != task)
        pinned := s.pinned.filterMap (fun p =>
          if p.die == l.die && p.ctx == l.ctx && (l.ranges.filter (fun r => !l.loose.contains r)).contains p.range then
            (if p.pins ≤ 1 then none else some { p with pins := p.pins - 1 })
          else some p) }

/-- FIFO reservations of a gang become void (R167). DESIGN CHOICE (unsafe), log entry 50. -/
def State.voidFifo (s : State) (id : Nat) : State :=
  { s with banks := s.banks.map (fun b =>
      (b.1, { b.2 with fifo := b.2.fifo.map (fun e => if e == .reserved id then .void else e) })) }

/-- Deferred causes still pending for a gang that ends are logged (R353, R392). -/
def State.logDeferred (s : State) (g : Gang) : State :=
  let put (t : State) (c : Nat) (a : Option DWord) : State :=
    match a with
    | some x => t.post (exitedRec g.ctx c x.toNat (whoOf g) g.crew)
    | none => t
  put (put (put s 0x09 g.d09) 0x13 g.d13) 0x0A g.d0a

/-- A write of a gang may still be answered after its end (R353). -/
def State.answersDue (s : State) (g : Gang) : Bool :=
  g.owes || g.unacked != 0 || s.colls.any (fun c => c.slices.any (fun x => x.gang == g.id))

/-- What the records of deferred causes say of a gang that ends is kept while its writes may still be answered. -/
def State.remember (s : State) (g : Gang) : State :=
  if s.answersDue g then { s with gone := s.gone ++ [(g.id, whoOf g, if g.onControl then 0 else g.crew)] } else s

/-- What a gang at a place in the ring leaves behind as it ends: its loads and probes, its FIFO reservations, its trowel, its
lease. -/
def State.dropGang (s : State) (g : Gang) (place : Nat × Nat) : State :=
  let t := (((s.remember g).logDeferred g).voidFifo g.id).giveTrowel g place
  ({ t with
      gangs := t.gangs.filter (fun h => h.id != g.id)
      loads := t.loads.filter (fun l => l.gang != g.id)
      suspects := t.suspects.filter (fun p => p.2.1 != g.id) }.dropRetrieval g.id |>.releaseLease g.task).postEvent (.hubConsider (dieOf g.core))

/-- Matrix work of a crew that ends is dropped: its tiles are freed without a drain (R392). -/
def State.dropJobs (s : State) (core v : Nat) : State :=
  s.updCore core (fun c => { c with jobs := c.jobs.filter (fun j => j.crew != v) })

/-- The collectives of a crew that ends: those still open are discarded, those complete are performed to the end, with the
crew's pad as it was (R180). -/
def State.endColls (s : State) (c : Crew) : State :=
  let t : State := { s with
    colls := (s.colls.filter (fun k => k.crew != c.val || k.awaited.isEmpty)).map (fun k =>
      if k.crew == c.val then { k with ended := some c } else k) }
  ((t.colls.filter (fun k => k.crew == c.val && k.done)).map (·.id)).foldl State.retireColl t

/-- A crew is gone: its collectives go on without it or are discarded, its matrix work is dropped, and what it held is
free (R180, R392). -/
def State.dissolve (s : State) (v : Nat) : State :=
  match s.crew v with
  | none => s
  | some c =>
    State.endColls { s.dropJobs c.core v with crews := s.crews.filter (fun k => k.val != v) } c

/-- A gang ends: its last lane has exited (R208). Without a member left, its crew dissolves (R201). -/
def State.endGang (s : State) (g : Gang) : State :=
  let t := ((s.dropObservers g).unawait g).dropGang g (s.ringPlace g)
  if (t.members g.crew).isEmpty then t.dissolve g.crew else t

/-- A crew ends by a fault or a kill (R392): write-combining buffers drain, or are discarded on a kill. -/
def State.endCrew (s : State) (v : Nat) (kill : Bool) : State :=
  let ms := s.members v
  let saved := match s.crew v with | some c => c.saved | none => []
  let t := ms.foldl (fun u g => if kill then u else (u.drainAll g.id).flushStrong g.id) s
  let w := ms.foldl (fun u g => u.dropGang ((u.gang g.id).getD g) (s.ringPlace g)) (t.dissolve v)
  saved.foldl (fun u g => (((u.remember g).logDeferred g).dropRetrieval g.id).releaseLease g.task) w

/-! ### Causes (R375, R381, R391) -/

/-- The causes delivered to the split that raised them (R375). -/
def splitCause (c : Nat) : Bool :=
  [0x05, 0x06, 0x08, 0x0A, 0x0B, 0x0C, 0x0F, 0x10, 0x11, 0x12, 0x13].contains c

/-- The record of a crew's end (R377). -/
def endRecord (g : Gang) (c info lanes pc addr : Nat) : LogRec :=
  { ctx := g.ctx, cause := c, kind := 1, aux := 0, who := whoOf g, info, crewv := if g.onControl then 0 else g.crew, lanes,
    pc, addr }

/-- INFO of the record of a crew's end: whether no handler was installed, and whether the cause arose in handler mode
(R377). -/
def State.endInfo (s : State) (g : Gang) (hm : Bool) : Nat := b2n (s.ctxTvec g.ctx == 0) + 2 * b2n hm

/-- The crew of a gang ends with a cause; a control core, which has no crew, stops alone.
DEDUCED (unsafe), log entry 32. DEDUCED (unsafe), log entry 47. -/
def State.faultCrew (s : State) (g : Gang) (c : Nat) (hm : Bool) (lanes pc addr : Nat) : State :=
  let t := s.post (endRecord g c (s.endInfo g hm) lanes pc addr)
  if g.onControl then ((t.drainAll g.id).flushStrong g.id).dropGang ((t.gang g.id).getD g) (0, g.slot) else t.endCrew g.crew false

/-- A gang as the shadow recorded it resumes: only a split released by the checkpoint's barrier keeps its state of
waiting; acknowledgements still due stay due (R389, R391). -/
def Gang.resume (now shadow : Gang) : Gang :=
  { shadow.unyield with
    splits := shadow.unyield.splits.map (fun o => o.map (fun sp =>
      { sp with blocked := if sp.blocked = some .released then some .released else none }))
    wcb := [], copySlot := none, d09 := none, d13 := none, d0a := none, unacked := now.unacked
    pendingAcks := now.pendingAcks, lostStore := now.lostStore }

/-- A crew rolls back to its shadow (R391). -/
def State.rollBack (s : State) (v : Nat) (sh : Shadow) : State :=
  let ids := (s.members v).map (·.id)
  let t : State := { s.leaveFifos (fun w => ids.contains w.1) with
    gangs := s.gangs.map (fun g => if g.crew == v then
      (match sh.gangs.find? (fun h => h.id == g.id) with | some h => Gang.resume g h | none => g) else g)
    colls := s.colls.filter (fun k => k.crew != v || k.awaited.isEmpty)
    loads := s.loads.filter (fun l => !ids.contains l.gang)
    probes := s.probes.filter (fun p => !ids.contains p.gang) }
  let u := match s.crew v with | some c => t.dropJobs c.core v | none => t
  (ids.foldl State.respillEntries (u.padTakePages v (sh.pages.map (·.1))).1).updCrew v (fun c =>
    let r := sh.pages.foldl (fun (k : Crew) p =>
      let f := k.fillPage p.1 p.2.1 ((List.range 32).map (32 * p.1 + ·))
      { f with padPoison := f.padPoison.filter (fun a => a / 4096 != p.1) ++ p.2.2 }) c
    { r with acc := sh.acc, z := sh.z, zPoison := sh.zPoison, bind := sh.bind, deferred := [], ckpts := [],
             shadow := some { sh with pages := [] }, rollbacks := c.rollbacks + 1, replayable := true })

/-- The record of a rollback (R377, R391). -/
def rollRecord (g : Gang) (lanes pc addr : Nat) : LogRec :=
  { endRecord g 0x09 0 lanes pc addr with kind := 4 }

/-- Poison is consumed: a replayable crew rolls back, at most twice from one shadow; otherwise it ends (R391). -/
def State.consume (s : State) (g : Gang) (hm : Bool) (lanes pc addr : Nat) : State :=
  match s.crew g.crew with
  | none => s.faultCrew g 0x09 hm lanes pc addr
  | some c =>
    match c.shadow with
    | some sh =>
      if c.replayable && c.rollbacks < 2 then (s.post (rollRecord g lanes pc addr)).rollBack g.crew sh
      else s.faultCrew g 0x09 hm lanes pc addr
    | none => s.faultCrew g 0x09 hm lanes pc addr

/-- The crew's interval is no longer replayable (R390). -/
def State.unreplayable (s : State) (v : Nat) : State := s.updCrew v (fun c => { c with replayable := false })

/-- First word of the group that a split is executing (R37). -/
def Split.firstPc (sp : Split) : DWord := if sp.hints.words = 0 then sp.pc else sp.hints.first

/-- Delivery of a cause to a split in handler mode (R381). -/
def Split.enter (sp : Split) (c : Nat) (lanes : Mask) (addr : Nat) (handler : DWord) : Split :=
  { sp with cause := BitVec.ofNat 8 c, glen := sp.hints.words, trapPc := sp.firstPc, trapLanes := lanes,
            trapAddr := dw addr, hm := true, pc := handler, hints := Hints.none, retry := none, blocked := none }

/-- TRAPVEC of a context (R380): cb + TVEC, or 0 when TVEC is 0. -/
def State.trapVec (s : State) (ctx : Nat) : DWord := if s.ctxTvec ctx = 0 then 0 else dw (s.ctxCb ctx + s.ctxTvec ctx)

/-- A split of a gang takes a cause (R375, R381): delivered to its handler, or ending its crew, or consumed poison. -/
def State.takeCause (s : State) (id k c : Nat) (lanes : Mask) (addr : Nat) : State :=
  match s.gang id with
  | none => s
  | some g =>
    match g.split k with
    | none => s
    | some sp =>
      if splitCause c then
        if s.ctxTvec g.ctx = 0 || sp.hm then s.faultCrew g c sp.hm lanes.toNat sp.firstPc.toNat addr
        else s.updGang id (fun h => h.setSplit k (some (sp.enter c lanes addr (s.trapVec g.ctx))))
      else if c = 0x09 then s.consume g sp.hm lanes.toNat sp.firstPc.toNat addr
      else s.faultCrew g c sp.hm lanes.toNat sp.firstPc.toNat addr

/-- A cause raised outside an issue is taken, unless its crew has gone (R284, R451). -/
def State.takeRaise (s : State) (r : Raise) : State :=
  let mine := (s.gang r.gang).bind (fun g => if g.crew = r.crew then some g else none)
  match (mine.or (s.members r.crew).head?).or ((s.crew r.crew).bind (fun c => c.saved.head?)) with
  | none => s
  | some g =>
    if r.cause = 0x09 then s.consume g false r.lanes.toNat r.pc.toNat r.addr
    else s.faultCrew g r.cause false r.lanes.toNat r.pc.toNat r.addr

/-- What a step leaves to be taken: causes, then log records (R378); fuel bounds causes that causes raise. -/
def State.takeRaises : Nat → State → State
  | 0, s => s
  | n + 1, s =>
    match s.raises with
    | [] => s
    | r :: rs => State.takeRaises n (State.takeRaise { s with raises := rs } r)

/-- The end of every step: checkpoints that are due are taken, causes raised meanwhile are taken, and log records are
written. -/
def State.settle (s : State) : State :=
  let r := (s.crews.filter (fun c => !c.ckpts.isEmpty)).foldl State.takeCheckpoints s
  let t := if r.raises.isEmpty then r else State.takeRaises 64 r
  if t.logQueue.isEmpty then t else t.flushLog

/-! ### Releases and acquires (R329) -/

/-- Work that a release of the gang still waits for: earlier loads, stores sent to peers and the host, matrix and
retrieval instructions (R290, R308, R329). DEDUCED (unsafe), log entry 45. -/
def State.releaseBusy (s : State) (g : Gang) : Bool :=
  g.owes || s.loads.any (fun l => l.gang == g.id && l.kind != 2) || s.matrixBusy g || s.retrievalBusy g

/-- Earlier protected stores of the gang are not all survivable yet (R339). DEDUCED (unsafe), log entry 45. -/
def State.surviveBusy (_s : State) (g : Gang) : Bool := g.unacked != 0

/-- What a gang installed in hash-family slots is released (R309). -/
def State.releaseSlots (s : State) (id : Nat) : State :=
  { s with hashes := s.hashes.map (fun x => if x.gang == id && x.released.isNone then { x with released := some s.fresh } else x) }

/-- A release begins: the write-combining buffer drains. What it waits for after that, if anything, at a scope. -/
def State.release (s : State) (id scope : Nat) : State × Option Wait :=
  let t := s.drainAll id
  match t.gang id with
  | none => (t, none)
  | some g =>
    if t.releaseBusy g then (t, some .drain)
    else if scope = scopeSv && t.surviveBusy g then (t, some .survive)
    else (t.releaseSlots id, none)

/-- The deferred cause that a gang takes next, with its address (R353). -/
def Gang.nextDeferred (g : Gang) : Option (Nat × Nat) :=
  match g.d09, g.d13, g.d0a with
  | some a, _, _ => some (0x09, a.toNat)
  | none, some a, _ => some (0x13, a.toNat)
  | none, none, some a => some (0x0A, a.toNat)
  | none, none, none => none

/-- A deferred cause is no longer pending. -/
def Gang.clearDeferred (g : Gang) (c : Nat) : Gang :=
  if c = 0x09 then { g with d09 := none } else if c = 0x13 then { g with d13 := none } else { g with d0a := none }

/-! ### The frame of an issue (R30 to R37) -/

/-- Which hint words an instruction accepts (R32, R33): hint.imm words at most, hint.ord (1 before a load, 2 before a
store, 3 before an atomic), hint.cache, hint.bnd. Every instruction accepts hint.sched. -/
structure Accepts where
  imm : Nat := 0
  ord : Nat := 0
  cache : Bool := false
  bnd : Bool := false
  deriving DecidableEq, Repr

/-- The hint group before an instruction is legal (R33). -/
def Accepts.ok (a : Accepts) (h : Hints) : Bool :=
  h.imms.length ≤ a.imm && (a.cache || h.cache.isNone) && (a.bnd || h.bnd.isNone)
    && (match h.ord with
        | none => true
        | some o => a.ord == 3 || a.ord == o)
    && (match h.scope with
        | none => true
        | some c => a.ord != 0 && (h.ord.isSome || a.ord == 3)
            && (c != scopeSv || h.ord == some 2 || h.ord == some 3))

/-- What an issuing instruction sees: its gang and split, and what its hints lend it. -/
structure Issue where
  g : Gang
  k : Nat
  sp : Split
  /-- active lanes (R30, R384) -/
  act : Mask
  deriving DecidableEq, Repr

/-- How an instruction's issue ends. -/
inductive Res where
  /-- performed; the split goes on with the next word -/
  | done (s : State)
  /-- performed; the split goes on at an address -/
  | goto (s : State) (pc : DWord)
  /-- performed; the instruction itself has set the split's state -/
  | as (s : State)
  /-- the split blocks, and issues the word again when the wait is over -/
  | wait (s : State) (w : Wait)
  /-- a cause, for lanes, with TRAPADDR -/
  | trap (s : State) (c : Nat) (lanes : Mask) (addr : Nat)
  deriving DecidableEq, Repr

/-- The issuing split, as `cur` names it. DESIGN CHOICE (safe), log entry 5. -/
def State.issuer (s : State) : Option Issue :=
  match s.gang s.cur.1 with
  | none => none
  | some g => (g.split s.cur.2).map (fun sp =>
      { g, k := s.cur.2, sp, act := match sp.retry with | some m => sp.mask &&& m | none => sp.mask })

/-- The split as it issues: it was the last to issue, it is no longer blocked, yielded or demoted, and its hint.sched is
in force (R35, R367). DESIGN CHOICE (safe), log entry 75. -/
def Split.issued (sp : Split) (stamp : Nat) : Split :=
  { sp with stamp, rested := false, age := 0, blocked := none, yielded := false, demoted := sp.hints.sched == some 1,
            held := if sp.hints.sched = some 2 then (if sp.held = 0 then 3 else sp.held - 1) else 0 }

/-- The state in which an instruction is performed: its split counts as issued. -/
def State.begin (s : State) (i : Issue) : State :=
  { s with fresh := s.fresh + 1 }.updGang i.g.id (fun g => g.setSplit i.k (some (i.sp.issued s.fresh)))

/-- The split goes on at an address, its hint group done. -/
def Split.next (sp : Split) (pc : DWord) : Split := { sp with pc, hints := Hints.none, retry := none, word := none }

/-- The split k of a gang goes on at an address. -/
def State.goOn (s : State) (id k : Nat) (pc : DWord) : State := s.updGang id (fun g => g.updSplit k (fun sp => sp.next pc))

/-- The limit register of hint.bnd as it is read when its instruction issues (R230). -/
def Gang.limitOf (g : Gang) (h : Hints) : Option (DWord × Bool) := h.limit.or (h.bnd.map (fun r => (g.sreg r, g.smark r)))

/-- The split k of a gang blocks; an instruction that issues again keeps its limit. -/
def State.block (s : State) (id k : Nat) (w : Wait) : State :=
  s.updGang id (fun g => g.updSplit k (fun sp => { sp with blocked := some w, hints := { sp.hints with limit := g.limitOf sp.hints } }))

/-- The end of an issue. -/
def Issue.finish (i : Issue) (r : Res) : State :=
  match r with
  | .done s => (s.goOn i.g.id i.k (i.sp.pc + 4)).settle
  | .goto s pc => (s.goOn i.g.id i.k pc).settle
  | .as s => s.settle
  | .wait s w => (s.block i.g.id i.k w).settle
  | .trap s c lanes addr => (s.takeCause i.g.id i.k c lanes addr).settle

/-- What a meaning answers with. -/
abbrev Outcome := Host.Outcome State Fault Refusal

/-- An instruction issues: an illegal hint group or a breach of the legality rules that depend on the gang, the crew and
FMT raises 0x01 (R28, R30, R33, R73); otherwise its body is performed. DESIGN CHOICE (safe), log entry 5. -/
def issue (a : Accepts) (legal : Issue → Bool) (body : Issue → State → Res) (s : State) : Outcome :=
  match s.issuer with
  | none => .fault .noIssuer
  | some i =>
    if a.ok i.sp.hints && legal i then .next (i.finish (body i (s.begin i)))
    else .next (i.finish (.trap s 0x01 i.act 0))

/-- An event is performed: it happens whatever splits do. DESIGN CHOICE (safe), log entry 4. -/
def happen (s : State) : Outcome := .next s.settle

/-! ### What hint words lend (R34, R35) -/

/-- The immediate of an instruction with a field of n bits: hint.imm payloads above it, the first highest, sign-extended
(R34). -/
def Hints.imm (h : Hints) (n x : Nat) : DWord :=
  match h.imms with
  | [] => sext n x
  | [a] => sext (n + 22) (a.toNat * 2 ^ n + x)
  | a :: b :: _ => sext (n + 44) (a.toNat * 2 ^ (n + 22) + b.toNat * 2 ^ n + x)

/-- The order an access carries: 0 none, 1 acquire, 2 release, 3 both. -/
def Hints.order (h : Hints) : Nat := h.ord.getD 0

/-- The scope of an ordered access (R33). -/
def Hints.scopeOf (h : Hints) : Nat := h.scope.getD scopeMod

/-- The allocation policy. -/
def Hints.policy (h : Hints) : Nat := h.cache.getD 0

end Sys2Proof.Machine
end

