-- ==== Sys2Proof/Machine/Control.lean ====
section
/-! DEFINITION. Control instructions: branches, jumps, exit, traps, yield, FMT and safept (majors 0x0E to 0x13; R204 to
R215, R381, R387). -/

namespace Sys2Proof.Machine

/-! ### Uniform transfers (R210 to R212) -/

/-- An address some words from the issuing word. -/
def Issue.words (i : Issue) {n : Nat} (o : BitVec n) : DWord := i.sp.pc + 4 * o.signExtend 64

/-- A branch on a scalar (R210); a poisoned condition is consumed (R387). -/
def branchScalar (cond : DWord → Bool) (r : BitVec 6) (o : BitVec 16) (s : State) : Outcome :=
  issue {} (fun _ => true) (fun i t =>
    if i.g.smark r.toNat then .trap t 0x09 i.act 0
    else if cond (i.g.sreg r.toNat) then .goto t (i.words o)
    else .done t) s

/-- A branch on a predicate: the condition sees P = p[n] and A, and A (R211). -/
def branchPred (cond : Mask → Mask → Bool) (p : BitVec 3) (o : BitVec 16) (s : State) : Outcome :=
  issue {} (fun _ => true) (fun i t =>
    if cond (i.g.preg p.toNat &&& i.act) i.act then .goto t (i.words o) else .done t) s

/-- beqz (R210). -/
def execBeqz (r : BitVec 6) (o : BitVec 16) (s : State) : Outcome := branchScalar (fun x => x == 0) r o s

/-- bnez (R210). -/
def execBnez (r : BitVec 6) (o : BitVec 16) (s : State) : Outcome := branchScalar (fun x => x != 0) r o s

/-- bltz (R210). -/
def execBltz (r : BitVec 6) (o : BitVec 16) (s : State) : Outcome := branchScalar (fun x => x.slt 0) r o s

/-- bgez (R210). -/
def execBgez (r : BitVec 6) (o : BitVec 16) (s : State) : Outcome := branchScalar (fun x => (0 : DWord).sle x) r o s

/-- bgtz (R210). -/
def execBgtz (r : BitVec 6) (o : BitVec 16) (s : State) : Outcome := branchScalar (fun x => (0 : DWord).slt x) r o s

/-- blez (R210). -/
def execBlez (r : BitVec 6) (o : BitVec 16) (s : State) : Outcome := branchScalar (fun x => x.sle 0) r o s

/-- bany (R211). -/
def execBany (p : BitVec 3) (o : BitVec 16) (s : State) : Outcome := branchPred (fun x _ => x != 0) p o s

/-- ball (R211). -/
def execBall (p : BitVec 3) (o : BitVec 16) (s : State) : Outcome := branchPred (fun x a => x == a) p o s

/-- bnone (R211). -/
def execBnone (p : BitVec 3) (o : BitVec 16) (s : State) : Outcome := branchPred (fun x _ => x == 0) p o s

/-- bnall (R211). -/
def execBnall (p : BitVec 3) (o : BitVec 16) (s : State) : Outcome := branchPred (fun x a => x != a) p o s

/-- jmp (R212). -/
def execJmp (o : BitVec 26) (s : State) : Outcome := issue {} (fun _ => true) (fun i t => .goto t (i.words o)) s

/-- call: lk := a + 4 (R212). -/
def execCall (o : BitVec 26) (s : State) : Outcome :=
  issue {} (fun _ => true) (fun i t =>
    .goto (t.updGang i.g.id (fun g => g.setS 63 (i.sp.pc + 4) false)) (i.words o)) s

/-- A jump to a scalar's value, with the link register if there is one (R214). -/
def jumpReg (a : Nat) (link : Option Nat) (s : State) : Outcome :=
  issue {} (fun _ => true) (fun i t =>
    let x := i.g.sreg a
    if i.g.smark a then .trap t 0x09 i.act 0
    else if x.toNat % 4 ≠ 0 then .trap t 0x01 i.act 0
    else
      match link with
      | some d => .goto (t.updGang i.g.id (fun g => g.setS d (i.sp.pc + 4) false)) x
      | none => .goto t x) s

/-- jr (R214). -/
def execJr (a : BitVec 6) (s : State) : Outcome := jumpReg a.toNat none s

/-- jr.l (R214). -/
def execJrL (a d : BitVec 6) (s : State) : Outcome := jumpReg a.toNat (some d.toNat) s

/-- ret (R214). -/
def execRet (s : State) : Outcome := jumpReg 63 none s

/-! ### Divergence (R204) -/

/-- The entry that a push takes: the lowest that is not in use; R203 names none. DESIGN CHOICE (unsafe), log entry 87. -/
def Gang.freeEntry (g : Gang) : Nat := ((List.range 64).find? (fun k => (g.entry k).isNone)).getD 0

/-- A split diverges: lanes F stay with it, lanes T go to a target as a new split, or parked when four are live (R204). -/
def Gang.diverge (g : Gang) (k : Nat) (sp : Split) (f t : Mask) (tgt join : DWord) : Gang :=
  let park := g.freeSplit.isNone
  let e : RcEntry :=
    { idx := g.freeEntry, order := g.rcOrder, join, ppc := if park then tgt else 0, mask := f ||| t, arr := 0,
      pmask := if park then t else 0, fmt := sp.fmt, link := sp.top, pv := park, pusher := sp, spilled := false }
  let h := { g with rc := g.rc ++ [e], rcOrder := g.rcOrder + 1 }.updSplit k (fun q => { q with mask := f, top := some e.idx })
  if park then h else h.newSplit (sp.child tgt t sp.fmt (some e.idx))

/-- bra.d (R204): with 64 entries in use, 0x0D. -/
def execBraD (g : BitVec 4) (t j : BitVec 11) (s : State) : Outcome :=
  issue {} (fun _ => true) (fun i u =>
    let on := i.act &&& i.g.guard g
    let off := i.act &&& ~~~ on
    if on = 0 then .done u
    else if off = 0 then .goto u (i.words t)
    else if 64 ≤ i.g.rc.length then .trap u 0x0D i.act 0
    else
      .done ((u.updGang i.g.id (fun h => h.diverge i.k i.sp off on (i.words t) (i.words j))).spillEntries i.g.id)) s

/-! ### Exit, traps and yield (R207, R214) -/

/-- nop (R214). -/
def execNop (s : State) : Outcome := issue {} (fun _ => true) (fun _ t => .done t) s

/-- Lanes of a split exit: what follows its release (R207, R390). -/
def State.exitLanes (s : State) (i : Issue) (x : Mask) : State :=
  let t := (((s.goOn i.g.id i.k (i.sp.pc + 4)).unreplayable i.g.crew).updGang i.g.id (fun g => g.removeLanes i.k x)).spillEntries i.g.id
  let u := t.leaveBars i.g x
  match u.gang i.g.id with
  | none => u
  | some g => if g.over then u.endGang g else u

/-- A release, and the deferred cause that follows it at a fence, a barrier arrival or an exit (R207, R353): `go` runs
when neither holds the split back. -/
def releaseThen (i : Issue) (scope : Nat) (t : State) (go : State → Res) : Res :=
  match t.release i.g.id scope with
  | (u, some w) => .wait u w
  | (u, none) =>
    match (u.gang i.g.id).bind Gang.nextDeferred with
    | some (c, a) => .trap (u.updGang i.g.id (fun g => g.clearDeferred c)) c i.act a
    | none => go u

/-- exit (R207). -/
def execExit (g : BitVec 4) (s : State) : Outcome :=
  issue {} (fun _ => true) (fun i t =>
    let x := i.act &&& i.g.guard g
    if x = 0 then .done t else releaseThen i scopeDom t (fun u => .as (u.exitLanes i x))) s

/-- trap: raises 0x10 for the lanes its guard selects (R214). -/
def execTrap (c : BitVec 12) (g : BitVec 4) (s : State) : Outcome :=
  issue {} (fun _ => true) (fun i t =>
    let x := i.act &&& i.g.guard g
    if x = 0 then .done t else .trap t 0x10 x c.toNat) s

/-- brk: raises 0x0F for the active lanes (R214). -/
def execBrk (c : BitVec 12) (s : State) : Outcome :=
  issue {} (fun _ => true) (fun i t => .trap t 0x0F i.act c.toNat) s

/-- yield: the split is not ready until its 32 clocks have passed (R214). -/
def execYield (s : State) : Outcome :=
  issue {} (fun _ => true) (fun i t =>
    .done ((t.updGang i.g.id (fun g => g.updSplit i.k (fun sp => { sp with yielded := true }))).postEvent
      (.yieldExpiry i.g.id i.k))) s

/-! ### FMT (R71, R214) -/

/-- setfmt: a poisoned operand is consumed (R387). -/
def execSetfmt (a : BitVec 6) (s : State) : Outcome :=
  issue {} (fun _ => true) (fun i t =>
    if i.g.smark a.toNat then .trap t 0x09 i.act 0
    else .done (t.updGang i.g.id (fun g => g.updSplit i.k (fun sp =>
      { sp with fmt := fmtWritten ((i.g.sreg a.toNat).truncate 32) })))) s

/-- getfmt (R214). -/
def execGetfmt (d : BitVec 6) (s : State) : Outcome :=
  issue {} (fun _ => true) (fun i t =>
    .done (t.updGang i.g.id (fun g => g.setS d.toNat (i.sp.fmt.zeroExtend 64) false))) s

/-! ### safept (R215) -/

/-- The context runs in forerunner mode (R52). -/
def State.forerunner (s : State) (ctx : Nat) : Bool := s.images.any (fun m => m.ctx == ctx && m.forerunner)

/-- Every register lives on. -/
def allLive : Nat × Nat × Nat := (2 ^ 64 - 1, 2 ^ 64 - 1, 2 ^ 8 - 1)

/-- The scalar, vector and predicate registers that a live map marks; one with a non-zero reserved byte, or poisoned, marks
every register live (R215). -/
def liveOf (got : Store Byte) (bad : Bool) : Nat × Nat × Nat :=
  let x (first n : Nat) : Nat := ofBytes ((List.range n).map (fun k => sget 0 got (gotKey 0 (first + k))))
  if bad || x 17 15 != 0 then allLive else (x 0 8, x 8 8, x 16 1)

/-- The parts of the live map at an address of a context; none where a page of it is not reached. -/
def mapParts (s : State) (ctx va : Nat) : Option (List Located) :=
  (rangeParts 0 3 0 va 32).foldr (fun p o =>
    match o, leafAt s ctx p.va with
    | some ls, some (base, _, e) => some ({ part := p, phys := leafPhys e base p.va, leaf := e, isSealed := false } :: ls)
    | _, _ => none) (some [])

/-- The live map is read past the gang's buffer and the L1; one that cannot be read marks every register live.
DEDUCED (unsafe), log entry 36. -/
def State.readMap (s : State) (g : Gang) (va : Nat) : Gather :=
  let t := (rangeParts 0 3 0 va 32).foldl (fun u p => u.walked g.ctx p.va) s
  match mapParts t g.ctx va with
  | none => { Gather.start t with poison := 1 }
  | some ls => ls.foldl (fun r x => r.beyond g [x] Ask.past) (Gather.start t)

/-- A gang is taken at a safepoint with the registers of a live map. -/
def State.takeAt (s : State) (id : Nat) (got : Store Byte) (bad : Bool) : State :=
  s.updGang id (fun g => { g with taken := some (liveOf got bad) })

/-- safept: in forerunner mode, a pending pre-emption takes the gang here (R215, R397). -/
def execSafept (o : BitVec 18) (s : State) : Outcome :=
  issue {} (fun _ => true) (fun i t =>
    if t.forerunner i.g.ctx && ((t.crew i.g.crew).map (·.preempting)).getD false then
      let r := t.readMap i.g (i.words o).toNat
      if r.await.isEmpty then .done (r.st.takeAt i.g.id r.got (r.poison != 0))
      else .wait (r.st.addLoad ((blankLoad i.g.id i.k 12 0 []).from r)) (.reply r.st.fresh)
    else .done t) s

end Sys2Proof.Machine
end

