-- ==== Sys2Proof/Machine/NearMemory.lean ====
section
/-! DEFINITION. The operations that a slice performs near its memory: atomics, accumulations and range counters (R85,
R132 to R137, R235, R368, R369). -/

namespace Sys2Proof.Machine

/-! ### What an operation computes (R132) -/

/-- The old values a near-memory operation answers with, its flags, and how it fared. -/
structure NearResult where
  st : State
  /-- the old value, or next for a claim -/
  x : DWord
  /-- the length of a claim -/
  y : DWord
  flags : Nat
  /-- the answer is poison (R235, R370) -/
  poison : Bool
  /-- refusals: cause and domain physical address (R128, R136, R142, R352) -/
  refusals : List (Nat × Nat)
  deriving DecidableEq, Repr

/-- Width of an atomic's slot in bits. -/
def atomBits (wide : Bool) : Nat := if wide then 64 else 32

/-- The new value of a slot under the operations 0x2 to 0x9, of n bits (R132). -/
def atomNew (op n old x : Nat) : Nat :=
  match op with
  | 0x2 => (old + x) % 2 ^ n
  | 0x3 => old &&& x
  | 0x4 => old ||| x
  | 0x5 => old ^^^ x
  | 0x6 => if toInt n old ≤ toInt n x then old else x
  | 0x7 => if toInt n old < toInt n x then x else old
  | 0x8 => min old x
  | 0x9 => max old x
  | _ => x

/-- The new value of a slot, or none when nothing is written, and the flags raised: codes 0x0 to 0xA (R132, R133). -/
def atomApply (op n old x y : Nat) : Option Nat × Nat :=
  if op = 0x1 then (if old = y then some x else none, 0)
  else if op = 0xA then
    let r := addF fp32 0 false old x
    (some r.1, r.2)
  else (some (atomNew op n old x), 0)

/-- The write of an operation's slot, with what its request carries. -/
def nearWrite (q : NearReq) (data : List Byte) : SliceWrite :=
  { cells := cellsAt q.addr data, watched := q.watched, prot := q.prot, depth := q.depth, skind := q.skind, ctx := q.ctx,
    org := q.org, policy := 0 }

/-- The state after a write's commit, with its refusals. -/
def State.commitFor (s : State) (w : SliceWrite) : State × List (Nat × Nat) :=
  let c := s.commit w
  (c.st, c.refusals)

/-- An operation that leaves its slot as it is writes nothing, but one at a frame that accepts no such write is refused all the
same (R128). DEDUCED (unsafe), log entry 108. -/
def State.commitSilent (s : State) (w : SliceWrite) : State × List (Nat × Nat) :=
  if s.refusesHalf w (halfOf ((w.cells.map (·.1)).headD 0)) then s.commitFor w else (s, [])

/-- An atomic, codes 0x0 to 0xA: one indivisible read-modify-write (R132 to R134, R235). -/
def State.nearAtomic (s : State) (op : Nat) (q : NearReq) : NearResult :=
  let n := atomBits q.wide
  let t := s.touchLine q.addr (n / 8)
  let old := t.readLe q.addr (n / 8)
  let r := atomApply op n old (bits q.x.toNat 0 n) (bits q.y.toNat 0 n)
  let c := match r.1 with
    | some v => t.commitFor (nearWrite q (leBytes (n / 8) v))
    | none => t.commitSilent (nearWrite q (leBytes (n / 8) old))
  { st := c.1, x := dw old, y := 0, flags := r.2, poison := t.poisoned q.addr, refusals := c.2 }

/-- An fxadd under a hint.cache policy: refused when no region of the issuing context governs the slot or its half-line is
poisoned (R35, R84, R85, R115, R136). -/
def State.nearFxWith (s : State) (policy : Nat) (q : NearReq) : NearResult :=
  let t := s.touchWith q.addr 16 true (q.watched || q.prot) policy
  let no : NearResult :=
    { st := (t.setSlice (sliceOf q.addr) (fun c => { c with rmiss := satAdd 16 c.rmiss 1 })).tellOrigin q.org q.ctx 0x13
              (dpa s.mgmt.modid q.addr)
      x := 0, y := 0, flags := 0, poison := false, refusals := [(0x13, dpa s.mgmt.modid q.addr)] }
  match t.region q.addr with
  | none => no
  | some (f, c) =>
    if c != q.ctx || t.poisoned q.addr then no
    else
      let c := t.commitFor
        { nearWrite q (leBytes 16 (fxAccumulate (t.readLe q.addr 16) q.elem f q.x.toNat q.poison)) with policy }
      { st := c.1, x := 0, y := 0, flags := 0, poison := false, refusals := c.2 }

/-- An fxadd with no policy of its own. -/
def State.nearFx (s : State) (q : NearReq) : NearResult := s.nearFxWith 0 q

/-- The length that a claim takes from a counter (R368). -/
def claimLen (next end_ min_ div_ : Int) : Int :=
  let rem := end_ - next
  if rem ≤ 0 then 0
  else
    let d := if 1 ≤ div_ then div_ else 1
    let m := if 1 ≤ min_ then min_ else 1
    min rem (max m ((rem + d - 1) / d))

/-- A claim: a poisoned counter answers with poison and stays as it is (R368, R370). -/
def State.nearClaim (s : State) (q : NearReq) : NearResult :=
  let t := s.touchLine q.addr 32
  let fld (k : Nat) : Int := toInt 64 (t.readLe (q.addr + 8 * k) 8)
  let len := claimLen (fld 0) (fld 1) (fld 2) (fld 3)
  let bad := t.poisoned q.addr
  let w := nearWrite q (leBytes 8 (wrapInt 64 (fld 0 + len)))
  let c := if bad || len ≤ 0 then t.commitSilent w else t.commitFor w
  { st := c.1, x := dw (t.readLe q.addr 8), y := dw len.toNat, flags := 0, poison := bad, refusals := c.2 }

/-- An rinit: writes all four fields of a counter (R369). -/
def State.nearInit (s : State) (q : NearReq) : NearResult :=
  let c := (s.touchLine q.addr 32).commitFor
    (nearWrite q (leBytes 8 q.x.toNat ++ leBytes 8 q.y.toNat ++ leBytes 8 q.z.toNat ++ leBytes 8 q.w.toNat))
  { st := c.1, x := 0, y := 0, flags := 0, poison := false, refusals := c.2 }

/-- The operation of a code at the slice (R132). The reserved codes 0xE and 0xF of a request act as a swap.
DESIGN CHOICE (unsafe), log entry 97. -/
def State.nearOp (s : State) (op : Nat) (q : NearReq) : NearResult :=
  if op = 0xB then s.nearFx q
  else if op = 0xC then s.nearClaim q
  else if op = 0xD then s.nearInit q
  else s.nearAtomic op q

/-- Bytes of the slot of an operation. -/
def nearBytes (op : Nat) (wide : Bool) : Nat :=
  if op = 0xB then 16 else if op = 0xC || op = 0xD then 32 else if wide then 8 else 4

end Sys2Proof.Machine
end

