-- ==== Sys2Proof/Machine/Operands.lean ====
section
/-! DEFINITION. How a memory instruction names its bytes, the order of its checks, and how its stores and loads are
performed (R106, R156 to R161, R217 to R230, R325 to R329, R385, R387). -/

namespace Sys2Proof.Machine

/-! ### Addresses (R217) -/

/-- One lane's element: its lane, its offset, its byte address. -/
structure Elem where
  lane : Nat
  off : Nat
  addr : Nat
  deriving DecidableEq, Repr

/-- The elements of a vector access: modes 0 and 2 take offsets from vb, modes 1 and 3 run contiguously; virtual
addresses are taken modulo 2^64. -/
def Issue.elems (i : Issue) (m : Mask) (mode : Nat) (a b : BitVec 6) (e : Nat) : List Elem :=
  (lanesOf m).map (fun l =>
    let off := if mode % 2 = 1 then l * e else (i.g.vlane b.toNat l).toNat
    let sum := (i.g.sreg a.toNat).toNat + off
    { lane := l, off, addr := if mode < 2 then sum % 2 ^ 64 else sum })

/-- The one element of a scalar access, held as lane 0. -/
def scalarElem (va : Nat) : List Elem := [{ lane := 0, off := 0, addr := va }]

/-- The limit of hint.bnd (R230). -/
def Issue.limit (i : Issue) : Option Nat := (i.g.limitOf i.sp.hints).map (·.1.toNat)

/-- The register of hint.bnd is poisoned. -/
def Issue.limitMark (i : Issue) : Bool := ((i.g.limitOf i.sp.hints).map (·.2)).getD false

/-! ### Checks (R229, R385) -/

/-- What an access names, for its checks. -/
structure Request where
  pad : Bool
  /-- rights, as R97 codes them -/
  need : Nat
  elems : List Elem
  /-- element size in bytes -/
  size : Nat
  limit : Option Nat
  /-- elements must be aligned (R234) -/
  aligned : Bool
  /-- elements are a scalar's: faults concern every active lane -/
  scalar : Bool

/-- A per-lane fault: lane, cause, address. -/
abbrev LaneFault := Nat × Nat × Nat

/-- The outcome of the checks of an access. -/
inductive Checked where
  /-- the instruction ends here -/
  | stop (r : Res)
  /-- lanes to perform, their located parts, and the faults of the others -/
  | go (s : State) (es : List Elem) (ls : List Located) (faults : List LaneFault)

/-- First pad address that an access may not reach. -/
def State.padEnd (s : State) (i : Issue) : Nat := ((s.crew i.g.crew).map (fun c => 4096 * c.pads)).getD 0

/-- The pad bound or the lease and the translation of every part: steps 1 to 4 of R106. -/
def State.reach (s : State) (i : Issue) (q : Request) : State × (Option Res × List Located) :=
  if q.pad then
    match q.elems.find? (fun x => s.padEnd i < x.addr + q.size) with
    | some x => (s, some (.trap s 0x07 i.act (max x.addr (s.padEnd i))), [])
    | none => (s, none, [])
  else
    let r := s.coalesce i.g q.need (q.elems.flatMap (fun x => partsOf x.lane x.addr q.size))
    match r.2 with
    | .ok ls => (r.1, none, ls)
    | .lease a => (r.1, some (.trap r.1 0x07 i.act a), [])
    | .resident a => (r.1, some (.done (r.1.machineCheck 3 a 0)), [])

/-- The first per-lane cause of an element, in the order bounds, seal, alignment, host (R229, R234, R236). -/
def Request.faultOf (q : Request) (ls : List Located) (host : List Located → Bool) (x : Elem) : Option LaneFault :=
  let mine := ls.filter (fun p => p.part.lane == x.lane)
  if (q.limit.map (fun n => decide (n < x.off + q.size))).getD false then some (x.lane, 0x06, x.addr)
  else if mine.any (·.isSealed) then some (x.lane, 0x08, x.addr)
  else if q.aligned && x.addr % q.size != 0 then some (x.lane, 0x05, x.addr)
  else if host mine then some (x.lane, 0x0C, x.addr)
  else none

/-- Every check of an access in the order of R385: lease, per-lane causes, then poison that a remaining lane would
consume. -/
def State.check (s : State) (i : Issue) (q : Request) (host : List Located → Bool) (poison : Nat → Bool) : Checked :=
  let r := s.reach i q
  match r.2.1 with
  | some x => .stop x
  | none =>
    let ls := r.2.2
    let faults := q.elems.filterMap (q.faultOf ls host)
    let es := q.elems.filter (fun x => !faults.any (fun f => f.1 == x.lane))
    if es.any (fun x => poison x.lane) then .stop (.trap r.1 0x09 i.act 0)
    else .go r.1 es (ls.filter (fun p => es.any (fun x => x.lane == p.part.lane))) faults

/-- The cause that a split reports for per-lane faults (R229): cause, lanes, address of the lowest lane with it. -/
def reported (faults : List LaneFault) : Option (Nat × Mask × Nat) :=
  ([0x06, 0x08, 0x05, 0x0C].findSome? (fun c => (sortBy (fun (a b : LaneFault) => a.1 ≤ b.1) faults).find? (fun f => f.2.1 == c))).map
    (fun f => (f.2.1, maskOf (faults.map (·.1)), f.2.2))

/-- The end of an access that performed what it could: the per-lane trap, if any (R229); a scalar's faults concern every
active lane. -/
def Issue.ended (i : Issue) (scalar : Bool) (faults : List LaneFault) (s : State) : Res :=
  match reported faults with
  | none => .done s
  | some (c, m, a) => .trap s c (if scalar then i.act else m) a

/-! ### What an access waits for, and its order (R290, R325 to R329) -/

/-- Earlier matrix instructions of the gang that read or write a pad or memory have not retired (R290). -/
def State.matrixHolds (s : State) (g : Gang) : Bool :=
  (s.core g.core).jobs.any (fun j => j.gang == g.id && (j.a.kind != 0 || j.b.kind != 0))

/-- A probe or a gather of the gang has yet to write the pad (R308, rule 6). -/
def State.retrHolds (s : State) (g : Gang) : Bool :=
  s.probes.any (fun p => p.gang == g.id) || s.loads.any (fun l => l.gang == g.id && l.kind == 3)

/-- Earlier work of the gang may still read or write the pad (R290, R308). DEDUCED (safe), log entry 83. -/
def State.padHolds (s : State) (g : Gang) : Bool := s.matrixHolds g || s.retrHolds g

/-- Line reads of a core that its request collector has outstanding (R225). -/
def State.lineReads (s : State) (core : Nat) : Nat :=
  (distinct ((s.loads.filter (fun l => (s.gang l.gang).any (·.core == core))).flatMap (fun l => l.await.map (·.tag)))).length

/-- Probes of a core that its retrieval collector holds: those written out by a pre-emption are not there (R315, R316). -/
def State.probesOpen (s : State) (core : Nat) : Nat := (s.probes.filter (fun p => p.core == core && !p.held)).length

/-- Some part lies on a strongly ordered page. -/
def anyStrong (ls : List Located) : Bool := ls.any (fun p => leafOrd p.leaf == 0)

/-- Earlier strongly ordered stores of the gang have still to commit, and a strongly ordered access follows them (R325). -/
def strongWaits (s : State) (g : Gang) (ls : List Located) : Bool :=
  anyStrong ls && ((s.gang g.id).getD g).owes

/-- The scope at which an access acts as a release before it is performed (R325, R328). -/
def Issue.releaseAt (i : Issue) (ls : List Located) : Option Nat :=
  let o := i.sp.hints.order
  if o = 2 || o = 3 then some (if anyStrong ls then max scopeMod i.sp.hints.scopeOf else i.sp.hints.scopeOf)
  else if anyStrong ls then some scopeMod else none

/-- The scope at which an access acts as an acquire once it is performed: .sv spans .dom (R340). -/
def Issue.acquireAt (i : Issue) (ls : List Located) : Option Nat :=
  let o := i.sp.hints.order
  let c := min i.sp.hints.scopeOf scopeDom
  if o = 1 || o = 3 then some (if anyStrong ls then max scopeMod c else c)
  else if anyStrong ls then some scopeMod else none

/-- A release, when one is due, before `go`. -/
def releaseAtThen (i : Issue) (at? : Option Nat) (s : State) (go : State → Res) : Res :=
  match at? with
  | none => go s
  | some c =>
    match s.release i.g.id c with
    | (t, some w) => .wait t w
    | (t, none) => go t

/-! ### Stores -/

/-- Bytes of a store by domain physical address, with the leaf of their page. -/
abbrev StoreByte := Nat × Nat × Byte

/-- Bytes of the elements of a store, in ascending lane order (R218, R224). DESIGN CHOICE (unsafe), log entry 73. -/
def storeBytes (ls : List Located) (data : Nat → List Byte) : List StoreByte :=
  ls.flatMap (fun p => (List.range p.part.len).map (fun k => (p.phys + k, p.leaf, nth 0 (data p.part.lane) (p.part.first + k))))

/-- What an access asks of the memory path (R35, R329, R335). -/
def Issue.ask (i : Issue) : Ask :=
  { direct := i.sp.hints.ord.isSome, policy := i.sp.hints.policy, ord := i.sp.hints.order,
    scope := if i.sp.hints.ord.isSome then i.sp.hints.scopeOf else 0 }

/-- One line of a store is performed: through the write-combining buffer, at its slice for an ordered access, or, on a
strongly ordered page, once the line before it has committed (R156, R226, R326). -/
def State.storeLine (s : State) (id : Nat) (q : Ask) (bs : List StoreByte) : State :=
  match bs, s.gang id with
  | b :: _, some g =>
    let cells := mergeCells [] (bs.map (fun x => (x.1, x.2.2)))
    if leafOrd b.2.1 == 0 then
      ((s.drainLine id (lineOf b.1)).updGang id (fun h => { h with strong := h.strong ++
        [{ cells, watched := leafWatch b.2.1, prot := leafProt b.2.1, ord := q.ord, scope := q.scope, policy := q.policy }] })).nextStrong id
    else if q.direct then
      (s.drainLine id (lineOf b.1)).performWrite { g.writer with ord := q.ord, scope := q.scope, policy := q.policy } cells (leafWatch b.2.1) (leafProt b.2.1)
    else s.wcbStore id cells (leafWatch b.2.1) (leafProt b.2.1) q.policy
  | _, _ => s

/-- A store's lines, in ascending lane order of the first lane that needs each (R226).
DESIGN CHOICE (unsafe), log entry 72. DESIGN CHOICE (unsafe), log entry 73. -/
def State.storeAll (s : State) (id : Nat) (q : Ask) (bs : List StoreByte) : State :=
  (distinct (bs.map (fun b => lineOf b.1))).foldl (fun t line =>
    t.storeLine id q (bs.filter (fun b => lineOf b.1 == line))) s

/-- A store's elements in the pad. -/
def padCells (es : List Elem) (size : Nat) (data : Nat → List Byte) : List (Nat × Byte) :=
  es.flatMap (fun x => cellsAt x.addr ((List.range size).map (fun k => nth 0 (data x.lane) k)))

/-! ### Loads -/

/-- Writes what a load gathered to its registers (R219, R221, R223). -/
def Gang.landLoad (g : Gang) (l : PendLoad) : Gang :=
  if l.kind = 0 && !l.lanes.getLsbD 0 then g
  else if l.kind = 0 && l.size == 16 then
    (g.setS l.reg (dw (element l.got 0 8)) (l.poison.getLsbD 0)).setS (l.reg + 1)
      (dw (element l.got 0 16 / 2 ^ 64)) (l.poison.getLsbD 0)
  else if l.kind = 0 then
    let x := element l.got 0 l.size
    g.setS l.reg (if l.signed then sext (8 * l.size) x else dw x) (l.poison.getLsbD 0)
  else if l.kind = 1 then
    let h := g.setLanes l.reg l.lanes (fun k => w32 (element l.got k l.size)) (fun k => l.poison.getLsbD k)
    if l.size = 8 then
      h.setLanes (l.reg + 1) l.lanes (fun k => w32 (element l.got k 8 / 2 ^ 32)) (fun k => l.poison.getLsbD k)
    else h
  else g

/-- A load is performed: its registers are written together, and it acts as an acquire if it is one (R223, R328). -/
def State.landLoad (s : State) (l : PendLoad) : State :=
  let t := s.updGang l.gang (fun g => g.landLoad l)
  match l.acquire, s.gang l.gang with
  | some c, some g => t.acquireBy g c
  | _, _ => t

/-- A load ends at once when nothing is awaited; otherwise its split waits for the replies. -/
def Issue.endLoad (i : Issue) (scalar : Bool) (s : State) (l : PendLoad) : Res :=
  if l.await.isEmpty then i.ended scalar l.faults (s.landLoad l)
  else .wait (s.addLoad l) (.reply s.fresh)

/-- Bytes of pad elements and whether they are poisoned (R386). -/
def Crew.padGather (c : Crew) (es : List Elem) (size : Nat) : Store Byte × Mask :=
  (es.foldl (fun m x => putBytes m x.lane 0 ((List.range size).map (fun k => c.padByte (x.addr + k)))) [],
   maskOf ((es.filter (fun x => (List.range size).any (fun k => c.padPoison.contains (x.addr + k)))).map (·.lane)))

/-- Takes frames for the pad pages of elements (R159). -/
def State.padTakeElems (s : State) (v : Nat) (es : List Elem) (size : Nat) : State × Option Nat :=
  es.foldl (fun r x => if r.2.isNone then r.1.padTakeRange v x.addr size else r) (s, none)

end Sys2Proof.Machine
end

