-- ==== Sys2Proof/Machine/LoadStore.lean ====
section
/-! DEFINITION. Scalar and vector loads and stores, prefetches and FIFO words: majors 0x0C, 0x0D, 0x24, 0x25, 0x29 (R163
to R167, R217 to R230, R238 to R240). -/

namespace Sys2Proof.Machine

/-! ### Loads and stores of global memory -/

/-- A load of global memory, its checks passed; it stalls while the request collector has no room for its lines (R223, R225,
R228, R325, R326). -/
def loadGlobal (i : Issue) (s : State) (kind reg size : Nat) (signed : Bool) (es : List Elem) (ls : List Located)
    (faults : List LaneFault) : Res :=
  if s.matrixHolds i.g then .wait s .matrix
  else if 128 < s.lineReads i.g.core + (linesOf ls).length then .wait s (.lines (linesOf ls).length)
  else
    let t := if i.sp.hints.ord.isSome || anyStrong ls then s.drainAll i.g.id else s
    if strongWaits t i.g ls then .wait t .drain
    else
      let q := t.fetchAll i.g.id ls i.ask
      i.endLoad (kind == 0) q.st { (blankLoad i.g.id i.k kind reg []).from q with
        size, signed, lanes := maskOf (es.map (·.lane)), faults
        acquire := if es.isEmpty then none else i.acquireAt ls, ord := i.sp.hints.order, scope := i.ask.scope }

/-- A load from the pad, its checks passed; an acquire drains the write-combining buffer first (R227, R326). -/
def loadPad (i : Issue) (s : State) (reg size : Nat) (es : List Elem) (faults : List LaneFault) : Res :=
  if s.padHolds i.g then .wait s .matrix
  else
    let r := (if i.sp.hints.order = 1 then s.drainAll i.g.id else s).padTakeElems i.g.crew es size
    match r.2, r.1.crew i.g.crew with
    | some va, _ => .done (r.1.raiseCrew i.g.crew va)
    | none, none => i.ended false faults r.1
    | none, some c =>
        let q := c.padGather es size
        i.endLoad false r.1 { blankLoad i.g.id i.k 1 reg [] with
          size, lanes := maskOf (es.map (·.lane)), got := q.1, poison := q.2, faults,
          acquire := if i.sp.hints.order = 1 then some i.sp.hints.scopeOf else none }

/-- A store to global memory, its checks passed: a release first where it is one (R223, R325, R326). -/
def storeGlobal (i : Issue) (s : State) (scalar : Bool) (ls : List Located) (data : Nat → List Byte)
    (faults : List LaneFault) : Res :=
  if s.matrixHolds i.g then .wait s .matrix
  else
    releaseAtThen i (if ls.isEmpty then none else i.releaseAt ls) s (fun t =>
      i.ended scalar faults (t.storeAll i.g.id i.ask (storeBytes ls data)))

/-- A store to the pad, its checks passed (R227). -/
def storePad (i : Issue) (s : State) (size : Nat) (es : List Elem) (data : Nat → List Byte) (faults : List LaneFault) : Res :=
  if s.padHolds i.g then .wait s .matrix
  else
    releaseAtThen i (if i.sp.hints.order = 2 then some i.sp.hints.scopeOf else none) s (fun t =>
      i.ended false faults (t.padWrite i.g.crew (padCells es size data)))

/-- No lane is refused for want of support at the host. -/
def noHost (_ : List Located) : Bool := false

/-- ld (R221). -/
def execLd (d a : BitVec 6) (z : BitVec 2) (x : BitVec 1) (o : BitVec 11) (s : State) : Outcome :=
  issue { imm := 2, ord := 1, cache := true } (fun _ => true) (fun i t =>
    let ea := (i.g.sreg a.toNat + i.sp.hints.imm 11 o.toNat).toNat
    let n := 2 ^ z.toNat
    match t.check i { pad := false, need := needRead, elems := scalarElem ea, size := n, limit := none, aligned := false,
                      scalar := true } noHost (fun _ => i.g.smark a.toNat) with
    | .stop r => r
    | .go u es ls f => loadGlobal i u 0 d.toNat n (x == 1) es ls f) s

/-- st: SD is the source (R221). -/
def execSt (d a : BitVec 6) (z : BitVec 2) (o : BitVec 11) (s : State) : Outcome :=
  issue { imm := 2, ord := 2, cache := true } (fun _ => true) (fun i t =>
    let ea := (i.g.sreg a.toNat + i.sp.hints.imm 11 o.toNat).toNat
    let n := 2 ^ z.toNat
    match t.check i { pad := false, need := needWrite, elems := scalarElem ea, size := n, limit := none, aligned := false,
                      scalar := true } noHost (fun _ => i.g.smark a.toNat || i.g.smark d.toNat) with
    | .stop r => r
    | .go u _ ls f => storeGlobal i u true ls (fun _ => leBytes n (i.g.sreg d.toNat).toNat) f) s

/-- Registers that a vector access names exist (R28, R219). -/
def Issue.accessRegs (i : Issue) (d b : BitVec 6) (z : BitVec 2) (mode : Nat) : Bool :=
  d.toNat < i.g.nregs && (z != 3 || d.toNat + 1 < i.g.nregs) && (mode % 2 == 1 || b.toNat < i.g.nregs)

/-- The element of lane l of vd under size code z, as a number (R219). -/
def Issue.laneElem (i : Issue) (d : BitVec 6) (wide : Bool) (l : Nat) : Nat :=
  (i.g.vlane d.toNat l).toNat + (if wide then 2 ^ 32 * (i.g.vlane (d.toNat + 1) l).toNat else 0)

/-- That element is poisoned. -/
def Issue.laneMark (i : Issue) (d : BitVec 6) (wide : Bool) (l : Nat) : Bool :=
  (i.g.vmarks d.toNat).getLsbD l || (wide && (i.g.vmarks (d.toNat + 1)).getLsbD l)

/-- A lane's address uses a poisoned base, offset or limit (R387). -/
def Issue.addrMark (i : Issue) (mode : Nat) (a b : BitVec 6) (l : Nat) : Bool :=
  i.g.smark a.toNat || i.limitMark || (mode % 2 == 0 && (i.g.vmarks b.toNat).getLsbD l)

/-- vld (R223). -/
def execVld (d a b : BitVec 6) (z m : BitVec 2) (g : BitVec 4) (s : State) : Outcome :=
  issue { ord := 1, cache := true, bnd := true } (fun i => i.accessRegs d b z m.toNat) (fun i t =>
    let n := 2 ^ z.toNat
    match t.check i { pad := decide (2 ≤ m.toNat), need := needRead, elems := i.elems (i.act &&& i.g.guard g) m.toNat a b n,
                      size := n, limit := i.limit, aligned := false, scalar := false } noHost (i.addrMark m.toNat a b) with
    | .stop r => r
    | .go u es ls f => if 2 ≤ m.toNat then loadPad i u d.toNat n es f else loadGlobal i u 1 d.toNat n false es ls f) s

/-- vst: VD is the source (R223). -/
def execVst (d a b : BitVec 6) (z m : BitVec 2) (g : BitVec 4) (s : State) : Outcome :=
  issue { ord := 2, cache := true, bnd := true } (fun i => i.accessRegs d b z m.toNat) (fun i t =>
    let n := 2 ^ z.toNat
    let data (l : Nat) : List Byte := leBytes n (i.laneElem d (z == 3) l)
    match t.check i { pad := decide (2 ≤ m.toNat), need := needWrite, elems := i.elems (i.act &&& i.g.guard g) m.toNat a b n,
                      size := n, limit := i.limit, aligned := false, scalar := false } noHost
                    (fun l => i.addrMark m.toNat a b l || i.laneMark d (z == 3) l) with
    | .stop r => r
    | .go u es ls f => if 2 ≤ m.toNat then storePad i u n es data f else storeGlobal i u false ls data f) s

/-! ### Prefetch (R239) -/

/-- A line is prefetched, or dropped when the gang may not read it or it lies in the host window or on a strongly ordered
page. The lease has to cover the line whole, where R239 speaks of a lane outside it.
DESIGN CHOICE (safe), log entry 100. -/
def State.prefetch (s : State) (i : Issue) (va : Nat) : State :=
  let line := lineOf va
  let p : Part := { lane := 0, first := 0, va := line, len := 128 }
  if !i.g.onControl && !leased (s.leaseOf i.g) needRead line 128 then s
  else
    let r := s.locate i.g.core i.g.ctx needRead p
    let policy := i.sp.hints.policy
    match r.2 with
    | none => r.1
    | some x =>
      let a := dpaLocal x.phys
      if leafOrd x.leaf == 0 then r.1
      else if dpaModule x.phys != s.mgmt.modid then
        if (r.1.l1Hit (clusterOf i.g.core) x.phys (BitVec.allOnes 4)).isSome then r.1
        else
          let q := (Gather.start r.1).peerLine i.g [x] { i.ask with direct := false } (policy != 2 && policy != 3)
          q.st.addLoad ((blankLoad i.g.id i.k 2 0 []).from q)
      else if isHost a then r.1
      else if (r.1.l1Hit (clusterOf i.g.core) x.phys (BitVec.allOnes 4)).isSome then r.1
      else
        let t := r.1.touchWith a 128 false (leafGuarded x.leaf) policy
        if policy = 2 || policy = 3 then t
        else t.l1Fill (clusterOf i.g.core) a (BitVec.allOnes 4) x.leaf policy

/-- pf: a poisoned base is dropped (R239). -/
def execPf (a : BitVec 6) (o : BitVec 12) (s : State) : Outcome :=
  issue { cache := true } (fun _ => true) (fun i t =>
    if i.g.smark a.toNat then .done t
    else .done (t.prefetch i (i.g.sreg a.toNat + o.signExtend 64).toNat)) s

/-- vpf: lanes with a poisoned base or offset are dropped (R239). -/
def execVpf (a b : BitVec 6) (g : BitVec 4) (s : State) : Outcome :=
  issue { cache := true } (fun i => decide (b.toNat < i.g.nregs)) (fun i t =>
    .done ((i.elems (i.act &&& i.g.guard g) 0 a b 1).foldl (fun u x =>
      if i.addrMark 0 a b x.lane then u else u.prefetch i x.addr) t)) s

/-! ### FIFOs (R163 to R167, R240) -/

/-- The bank of a cluster that serves a FIFO number of a context, the lowest of several: one that is leaving it serves it until
it has left. DESIGN CHOICE (unsafe), log entries 50 and 114. -/
def State.fifoBank (s : State) (cl ctx f : Nat) : Option Nat :=
  (List.range 48).find? (fun b => let k := s.bank cl b; k.cur == 2 && k.ctx == ctx && k.fnum == f)

/-- The entry that an fpush makes: lanes that do not take part push zero. -/
def Issue.entry (i : Issue) (v : BitVec 6) (m : Mask) : FifoEntry :=
  .filled ((List.range 32).map (fun l => if m.getLsbD l then i.g.vlane v.toNat l else 0))

/-- A split waits at a FIFO of a number to push, or to pop. -/
def State.waitsFifo (s : State) (f : Nat) (push : Bool) (w : Nat × Nat) : Bool :=
  match ((s.gang w.1).bind (fun g => g.split w.2)).bind (·.blocked) with
  | some (.fifoPush n) => push && n == f
  | some (.fifoPop n) => !push && n == f
  | _ => false

/-- The splits that wait to push, or to pop, at a bank, in order of arrival (R164). -/
def State.fifoQueue (s : State) (cl b : Nat) (push : Bool) : List (Nat × Nat) := (s.bank cl b).waiting.filter (s.waitsFifo (s.bank cl b).fnum push)

/-- A split's request joins those that wait at a bank, in its old place if it has one (R164). -/
def BankSt.await (k : BankSt) (me : Nat × Nat) : BankSt :=
  { k with waiting := if k.waiting.contains me then k.waiting else k.waiting ++ [me] }

/-- A split's request at a bank is served. -/
def BankSt.serve (k : BankSt) (me : Nat × Nat) : BankSt := { k with waiting := k.waiting.filter (· != me) }

/-- An earlier request of the same kind waits at a bank (R164). -/
def State.fifoBehind (s : State) (cl b : Nat) (push : Bool) (me : Nat × Nat) : Bool :=
  (((s.bank cl b).waiting.takeWhile (· != me)).any (s.waitsFifo (s.bank cl b).fnum push))

/-- The words of a FIFO entry of which sectors are lost, or have errors that pass unseen, are free (R143). -/
def strayEntry (ctr : Nat) (bad : List Nat) (ls : List Word) : List Word :=
  (List.range 32).map (fun l =>
    if bad.contains (l / 8) then w32 (ofBytes ((List.range 4).map (fun k => Config.strayByte (128 * ctr + 4 * l + k)))) else nth 0 ls l)

/-- The sectors of slot n of a FIFO bank are read (R143, R148): those whose data are not sound. DESIGN CHOICE (unsafe), log entry 74. -/
def State.meetSlot (s : State) (cl b n : Nat) : State × List Nat :=
  (s.flawed cl b (fun x => x / 4 == n)).foldl (fun r x =>
    let q := r.1.meetSector cl b x
    (q.1, if q.2 == .lost || q.2 == .wrong then r.2 ++ [x % 4] else r.2)) (s, [])

/-- An entry enters a FIFO at its tail (R164). -/
def State.pushEntry (s : State) (cl b : Nat) (e : FifoEntry) : State :=
  let k := s.bank cl b
  (s.setBank cl b { k with fifo := k.fifo ++ [e] }).renewSectors cl b (fun x => x / 4 == (k.head + k.fifo.length) % 1024)

/-- The entries at the head of a FIFO that are void (R167). -/
def BankSt.voids (k : BankSt) : Nat := (k.fifo.takeWhile (fun e => e == .void)).length

/-- The entry at the head of a FIFO leaves it, past void ones (R164); none when the next is not filled. -/
def State.popEntry (s : State) (cl b : Nat) : State × Option (List Word) :=
  let k := s.bank cl b
  let n := k.voids
  match k.fifo.drop n with
  | .filled ls :: rest =>
    let r := s.meetSlot cl b ((k.head + n) % 1024)
    (r.1.setBank cl b { r.1.bank cl b with fifo := rest, head := (k.head + n + 1) % 1024 }, some (strayEntry s.freeCtr r.2 ls))
  | _ => (s.setBank cl b { k with fifo := k.fifo.drop n, head := (k.head + n) % 1024 }, none)

/-- fpush: waits while the FIFO is full or leaving its role, or behind pushes that came before it (R164, R166). -/
def execFpush (f : BitVec 4) (v : BitVec 6) (g : BitVec 4) (s : State) : Outcome :=
  issue {} (fun i => decide (v.toNat < i.g.nregs)) (fun i t =>
    let m := i.act &&& i.g.guard g
    let cl := clusterOf i.g.core
    match t.fifoBank cl i.g.ctx f.toNat with
    | none => .trap t 0x07 i.act 0
    | some b =>
      if (i.g.vmarks v.toNat) &&& m ≠ 0 then .trap t 0x09 i.act 0
      else
        releaseAtThen i (some 2) t (fun u =>
          let k := u.bank cl b
          if 1024 ≤ k.fifo.length || k.busy || u.fifoBehind cl b true (i.g.id, i.k) then
            .wait (u.setBank cl b (k.await (i.g.id, i.k))) (.fifoPush f.toNat)
          else
            .done (((u.setBank cl b (k.serve (i.g.id, i.k))).pushEntry cl b (i.entry v m)).unreplayable i.g.crew))) s

/-- fpop: skips void entries, and waits for the next to be filled, and for pops that came before it (R164); an acquire at
.clu (R165). -/
def execFpop (f : BitVec 4) (d : BitVec 6) (g : BitVec 4) (s : State) : Outcome :=
  issue {} (fun i => decide (d.toNat < i.g.nregs)) (fun i t =>
    let cl := clusterOf i.g.core
    match t.fifoBank cl i.g.ctx f.toNat with
    | none => .trap t 0x07 i.act 0
    | some b =>
      let k := t.bank cl b
      let wait (u : State) : Res := .wait (u.setBank cl b ((u.bank cl b).await (i.g.id, i.k))) (.fifoPop f.toNat)
      if t.fifoBehind cl b false (i.g.id, i.k) then wait t
      else
        match (t.setBank cl b (k.serve (i.g.id, i.k))).popEntry cl b with
        | (u, some ls) =>
          .done (((u.updGang i.g.id (fun h =>
            h.setLanes d.toNat (i.act &&& i.g.guard g) (fun l => nth 0 ls l) (fun _ => false))).acquireBy i.g 2).unreplayable i.g.crew)
        | (_, none) => wait t) s

end Sys2Proof.Machine
end

