-- ==== Sys2Proof/Machine/Atomics.lean ====
section
/-! DEFINITION. Vector and scalar atomics: majors 0x26 and 0x27 (R132 to R137, R155, R231 to R237). -/

namespace Sys2Proof.Machine

/-- An atomic instruction as its word names it (R232): the operation of R132, its width, and the contribution element of
an fxadd (R84). -/
structure AtomOp where
  op : Nat
  wide : Bool
  elem : Nat
  deriving DecidableEq, Repr

/-- Bytes of the slot: 16 for fxadd. -/
def AtomOp.size (o : AtomOp) : Nat := nearBytes o.op o.wide

/-- Operands of a lane or a scalar: new or added value, and compare value. -/
structure AtomData where
  x : Nat
  y : Nat
  deriving DecidableEq, Repr

/-! ### Host memory (R236, R237) -/

/-- Completer support learnt at link training (R414): FetchAdd, Swap and CAS at 32 and 64 bits. -/
def State.completer (s : State) (k : Nat) (wide : Bool) : Bool := bit (s.readLe 0xA00080 8) (2 * k + b2n wide)

/-- An operation that one CXL.io request performs: its place in agent status. -/
def ioRequest (op : Nat) : Option Nat := if op = 2 then some 0 else if op = 0 then some 1 else if op = 1 then some 2 else none

/-- A lane at host memory is refused before any request leaves (R236). -/
def State.hostRefuses (s : State) (o : AtomOp) (ls : List Located) : Bool :=
  ls.any (fun p => dpaModule p.phys == s.mgmt.modid && isHost (dpaLocal p.phys)
    && (o.op == 0xB || (!s.coherent (dpaLocal p.phys) && !s.completer ((ioRequest o.op).getD 2) o.wide)))

/-- The code of a CXL.io AtomicOp: swap, cas, fetch and add. -/
def ioCode (op : Nat) : Nat := if op = 0 then 0 else if op = 1 then 1 else 2

/-- The next transaction of a host access, with its phase (R236, R237, R409): through CXL.cache for a coherent line, one
request where the bus has it, the read of the loop otherwise. -/
def State.hostFirst (s : State) (a op : Nat) (wide : Bool) (x y : DWord) (tag : Nat) : Nat × HostTx :=
  if s.coherent a then (0, .own tag (s.hostPhys (halfOf a)) true)
  else if (ioRequest op).isSome then (1, .atomic tag (s.hostPhys a) (ioCode op) wide x y)
  else (2, .read tag (s.hostPhys a) (if wide then 8 else 4))

/-- Bytes of host memory, by local address, that an access in progress at the link agent reads or writes. -/
def HostAtomic.bytes (h : HostAtomic) : List Nat :=
  match h.job with
  | .load n => (List.range n).map (h.addr + ·)
  | .store cells => cells.map (·.1)
  | .atomic _ wide _ _ => (List.range (if wide then 8 else 4)).map (h.addr + ·)

/-- An earlier access of the same gang to bytes of an atomic's slot is still in progress (R237, R321). -/
def hostQueued (hs : List HostAtomic) (org : Origin) (a n : Nat) : Bool :=
  hs.any (fun h => h.org == org && h.bytes.any (fun b => a ≤ b && b < a + n))

/-- An atomic at host memory begins: behind earlier accesses to its slot, or with its first transaction; a line held
exclusive is operated on at once. Answers the old value when it is known. -/
def State.hostAtomicBegin (s : State) (org : Origin) (lane a op : Nat) (wide : Bool) (x y : DWord) :
    State × Option (Nat × Nat) :=
  let n := if wide then 8 else 4
  let job : HostJob := .atomic op wide x y
  if hostQueued s.hostAtomics org a n then (s.hostBegin org lane a job 4 (fun _ => []), none)
  else
    match (if s.coherent a then s.agentLine a else none) with
    | some (true, d) =>
      let old := ofBytes ((List.range n).map (fun k => nth 0 d (a - halfOf a + k)))
      let r := atomApply op (8 * n) old (bits x.toNat 0 (8 * n)) (bits y.toNat 0 (8 * n))
      (match r.1 with | some v => s.agentWrite (cellsAt a (leBytes n v)) | none => s, some (old, r.2))
    | _ =>
      let f := s.hostFirst a op wide x y s.fresh
      (s.hostBegin org lane a job f.1 (fun t => [(s.hostFirst a op wide x y t).2]), none)

/-! ### One slot (R234) -/

/-- What the lanes of an atomic have produced so far. -/
structure AtomGather where
  g : Gather
  /-- flags of the results that are not poisoned (R235, R243) -/
  flags : Nat
  deriving DecidableEq, Repr

/-- The request of a lane to a slice. -/
def nearReq (g : Gang) (o : AtomOp) (p : Located) (d : AtomData) (tag : Nat) : NearReq :=
  { tag, addr := dpaLocal p.phys, wide := o.wide, elem := o.elem, poison := false, x := dw d.x, y := dw d.y, z := 0, w := 0,
    watched := leafWatch p.leaf, prot := leafProt p.leaf, depth := g.writer.depth, skind := g.writer.skind, ctx := g.ctx,
    org := .gang g.id }

/-- An atomic packet to a peer module: the operations of every lane that names its slot, in lane order (R234, R420). -/
def atomicPacket (s : State) (g : Gang) (q : Ask) (o : AtomOp) (p : Located) (ps : List Located) (data : Nat → AtomData) : Packet :=
  s.routed { blankPacket s.mgmt.modid (s.homeFor (dpaModule p.phys) (dpaLocal p.phys)) 5 s.fresh with
    ctx := g.ctx, depth := g.tdepth, skind := packetKind g.writer.skind, scope := q.scope, ord := q.ord,
    watched := leafWatch p.leaf, prot := leafProt p.leaf, addr := dpaLocal p.phys, len := o.size, op := o.op,
    near := ps.map (fun x => nearReq g o x (data x.part.lane) s.fresh) }

/-- A result enters the gather. -/
def AtomGather.result (r : AtomGather) (s : State) (o : AtomOp) (lane old flags : Nat) (bad : Bool) : AtomGather :=
  { g := { r.g with st := s, got := putBytes r.g.got lane 0 (leBytes o.size old),
                    poison := if bad then r.g.poison ||| laneBit lane else r.g.poison }
    flags := if bad then r.flags else r.flags ||| flags }

/-- A reply is awaited for a lane at host memory, whose slot is at a virtual address. -/
def AtomGather.later (r : AtomGather) (s : State) (o : AtomOp) (lane va tag : Nat) : AtomGather :=
  { r with g := { r.g with st := s, await := r.g.await ++
      [{ tag, lane, first := 0, count := o.size, skip := 0, base := va, line := none }] } }

/-- The answer that the lanes of one slot at a peer await: 16 bytes a lane; an accumulation answers no value. -/
def slotAwaits (tag base count : Nat) : Nat → List Located → List Await
  | _, [] => []
  | k, x :: xs => { tag, lane := x.part.lane, first := 0, count, skip := 16 * k, base, line := none } :: slotAwaits tag base count (k + 1) xs

/-- One lane of an atomic at host memory. -/
def AtomGather.hostLane (r : AtomGather) (id : Nat) (o : AtomOp) (p : Located) (d : AtomData) : AtomGather :=
  let s := r.g.st
  let q := s.hostAtomicBegin (.gang id) p.part.lane (dpaLocal p.phys) o.op o.wide (dw d.x) (dw d.y)
  match q.2 with
  | some (old, fl) => r.result q.1 o p.part.lane old fl false
  | none => r.later q.1 o p.part.lane p.part.va s.fresh

/-- One lane of an atomic at its slice on this module. -/
def AtomGather.ownLane (r : AtomGather) (g : Gang) (o : AtomOp) (p : Located) (d : AtomData) : AtomGather :=
  let q := r.g.st.nearOp o.op (nearReq g o p d 0)
  if o.op = 0xB then { r with g := { r.g with st := q.st } }
  else r.result q.st o p.part.lane q.x.toNat q.flags q.poison

/-- The lanes that name one slot, performed one after another: at its slice, at a peer module in one packet, or at the link
agent. Their gang's pending bytes of the line go first, and the unit leaves the cluster's L1 (R155, R234). An accumulation
at a peer is counted until it is acknowledged; on a strongly ordered page, and where it acquires, its answer is awaited (R226,
R328). -/
def AtomGather.slot (r : AtomGather) (id : Nat) (o : AtomOp) (q : Ask) (ps : List Located) (data : Nat → AtomData) : AtomGather :=
  match r.g.st.gang id, ps with
  | some g0, p :: _ =>
    let cl := clusterOf g0.core
    let s := (r.g.st.drainLine id (lineOf p.phys)).l1DropUnit cl p.phys
    let g := (s.gang id).getD g0
    let u : AtomGather := { r with g := { r.g with st := s } }
    if dpaModule p.phys ≠ s.mgmt.modid then
      let t := { s with out := s.out ++ [atomicPacket s g q o p ps data], fresh := s.fresh + 1 }
      if o.op = 0xB && leafOrd p.leaf != 0 && q.ord % 2 = 0 then
        let e : PeerStore :=
          { tag := s.fresh, org := .gang id, dest := s.homeFor (dpaModule p.phys) (dpaLocal p.phys), prot := leafProt p.leaf,
            cluster := some cl, cells := [], slot := some p.phys }
        { r with g := { r.g with st := (s.sendStore e (atomicPacket s g q o p ps data)).countAck (.gang id) } }
      else
        { r with g := { r.g with st := t, await := r.g.await ++ slotAwaits s.fresh p.phys (if o.op = 0xB then 0 else o.size) 0 ps } }
    else if isHost (dpaLocal p.phys) then ps.foldl (fun v x => v.hostLane id o x (data x.part.lane)) u
    else ps.foldl (fun v x => v.ownLane g o x (data x.part.lane)) u
  | _, _ => r

/-- The slots of a line, in ascending order of the first lane that names each (R226, R234). DEDUCED (unsafe), log entry 69. -/
def AtomGather.line (r : AtomGather) (id : Nat) (o : AtomOp) (q : Ask) (ps : List Located) (data : Nat → AtomData) : AtomGather :=
  (distinct (ps.map (·.phys))).foldl (fun u a => u.slot id o q (ps.filter (fun p => p.phys == a)) data) r

/-- Lines on strongly ordered pages are performed one at a time: those behind one whose answer is awaited wait for it
(R226). -/
def AtomGather.strongLines (r : AtomGather) (id : Nat) (o : AtomOp) (q : Ask) (ps : List Located) (data : Nat → AtomData) :
    AtomGather :=
  (linesOf ps).foldl (fun u line =>
    let mine := ps.filter (fun p => lineOf p.phys == line)
    if u.g.await.isEmpty then u.line id o q mine data else { u with g := { u.g with rest := u.g.rest ++ mine } }) r

/-- The lanes of an atomic, its checks passed and its release done: line by line (R226, R234).
DEDUCED (unsafe), log entry 69. -/
def State.atomLanes (s : State) (id : Nat) (o : AtomOp) (q : Ask) (ls : List Located) (data : Nat → AtomData) : AtomGather :=
  let r := AtomGather.strongLines { g := Gather.start s, flags := 0 } id o q (ls.filter (fun p => leafOrd p.leaf == 0)) data
  let free := ls.filter (fun p => leafOrd p.leaf != 0)
  (linesOf free).foldl (fun u line => u.line id o q (free.filter (fun p => lineOf p.phys == line)) data) r

/-- The operands of the lanes that a load keeps for later. -/
def PendLoad.operand (l : PendLoad) (lane : Nat) : AtomData :=
  match l.operands.find? (fun x => x.1 == lane) with
  | some x => { x := x.2.1, y := x.2.2 }
  | none => { x := 0, y := 0 }

/-- An atomic instruction: checks, release, lanes, results (R234, R235, R390). An acquire drains the write-combining buffer
first, as a release does (R326). -/
def atomic (i : Issue) (t : State) (o : AtomOp) (scalar : Bool) (es : List Elem) (limit : Option Nat) (poison : Nat → Bool)
    (kind reg : Nat) (data : Nat → AtomData) : Res :=
  match t.check i { pad := false, need := needBoth, elems := es, size := o.size, limit, aligned := true, scalar }
      (t.hostRefuses o) poison with
  | .stop r => r
  | .go u qs ls f =>
    if u.matrixHolds i.g then .wait u .matrix
    else
      releaseAtThen i (if ls.isEmpty then none else i.releaseAt ls) u (fun v0 =>
        let v := if i.sp.hints.order = 1 && !ls.isEmpty then v0.drainAll i.g.id else v0
        let r := (v.unreplayable i.g.crew).atomLanes i.g.id o { i.ask with scope := i.sp.hints.scopeOf } ls data
        let w := r.g.st.updGang i.g.id (fun h => h.raise r.flags)
        let k := if qs.isEmpty then 2 else if o.op = 0xB then (if r.g.await.isEmpty then 2 else if scalar then 14 else 13) else kind
        i.endLoad scalar w { (blankLoad i.g.id i.k k reg []).from r.g with
          size := if o.wide then 8 else 4, lanes := maskOf (qs.map (·.lane)), faults := f
          acquire := if ls.isEmpty then none else i.acquireAt ls
          near := some (o.op, o.wide, o.elem), operands := r.g.rest.map (fun p => (p.part.lane, (data p.part.lane).x, (data p.part.lane).y))
          ord := i.sp.hints.order, scope := i.sp.hints.scopeOf })

/-! ### Major 0x26 (R233) -/

/-- Registers of a vector atomic exist: the pairs that W and cas ask for (R233). -/
def Issue.atomRegs (i : Issue) (d : BitVec 6) (b : BitVec 5) (cas wide : Bool) : Bool :=
  b.toNat < i.g.nregs && d.toNat + (if cas then 2 else 1) * (if wide then 2 else 1) ≤ i.g.nregs

/-- A value of lane l in vd, or in a pair from vd on. -/
def Gang.lanePair (g : Gang) (r : Nat) (wide : Bool) (l : Nat) : Nat :=
  (g.vlane r l).toNat + (if wide then 2 ^ 32 * (g.vlane (r + 1) l).toNat else 0)

/-- Any of n registers from r on is poisoned in lane l. -/
def Gang.lanesMark (g : Gang) (r n l : Nat) : Bool := (List.range n).any (fun k => (g.vmarks (r + k)).getLsbD l)

/-- A vector atomic. -/
def vecAtomic (o : AtomOp) (d a : BitVec 6) (b : BitVec 5) (g : BitVec 4) (s : State) : Outcome :=
  issue { ord := 3, bnd := true } (fun i => i.atomRegs d b (o.op == 1) (o.wide && o.op != 0xB || o.elem == 4)) (fun i t =>
    let w := o.wide || o.elem == 4
    let n := if w then 2 else 1
    atomic i t o false (i.elems (i.act &&& i.g.guard g) 0 a (b.zeroExtend 6) o.size) i.limit
      (fun l => i.addrMark 0 a (b.zeroExtend 6) l || i.g.lanesMark d.toNat (if o.op = 1 then 2 * n else n) l) 1 d.toNat
      (fun l => { x := i.g.lanePair d.toNat w l, y := i.g.lanePair (d.toNat + n) w l })) s

/-- The operation of a code at the width of W. -/
def atomOf (op : Nat) (w : BitVec 1) : AtomOp := { op, wide := w == 1, elem := 0 }

/-- An fxadd of an element code. -/
def fxOf (elem : Nat) : AtomOp := { op := 0xB, wide := false, elem }

/-- vatswap (R232, R233). -/
def execVatswap (d a : BitVec 6) (b : BitVec 5) (w : BitVec 1) (g : BitVec 4) (s : State) : Outcome := vecAtomic (atomOf 0 w) d a b g s

/-- vatcas (R232, R233). -/
def execVatcas (d a : BitVec 6) (b : BitVec 5) (w : BitVec 1) (g : BitVec 4) (s : State) : Outcome := vecAtomic (atomOf 1 w) d a b g s

/-- vatadd (R232, R233). -/
def execVatadd (d a : BitVec 6) (b : BitVec 5) (w : BitVec 1) (g : BitVec 4) (s : State) : Outcome := vecAtomic (atomOf 2 w) d a b g s

/-- vatand (R232, R233). -/
def execVatand (d a : BitVec 6) (b : BitVec 5) (w : BitVec 1) (g : BitVec 4) (s : State) : Outcome := vecAtomic (atomOf 3 w) d a b g s

/-- vator (R232, R233). -/
def execVator (d a : BitVec 6) (b : BitVec 5) (w : BitVec 1) (g : BitVec 4) (s : State) : Outcome := vecAtomic (atomOf 4 w) d a b g s

/-- vatxor (R232, R233). -/
def execVatxor (d a : BitVec 6) (b : BitVec 5) (w : BitVec 1) (g : BitVec 4) (s : State) : Outcome := vecAtomic (atomOf 5 w) d a b g s

/-- vatsmin (R232, R233). -/
def execVatsmin (d a : BitVec 6) (b : BitVec 5) (w : BitVec 1) (g : BitVec 4) (s : State) : Outcome := vecAtomic (atomOf 6 w) d a b g s

/-- vatsmax (R232, R233). -/
def execVatsmax (d a : BitVec 6) (b : BitVec 5) (w : BitVec 1) (g : BitVec 4) (s : State) : Outcome := vecAtomic (atomOf 7 w) d a b g s

/-- vatumin (R232, R233). -/
def execVatumin (d a : BitVec 6) (b : BitVec 5) (w : BitVec 1) (g : BitVec 4) (s : State) : Outcome := vecAtomic (atomOf 8 w) d a b g s

/-- vatumax (R232, R233). -/
def execVatumax (d a : BitVec 6) (b : BitVec 5) (w : BitVec 1) (g : BitVec 4) (s : State) : Outcome := vecAtomic (atomOf 9 w) d a b g s

/-- vatfadd (R133, R232). -/
def execVatfadd (d a : BitVec 6) (b : BitVec 5) (g : BitVec 4) (s : State) : Outcome := vecAtomic (atomOf 10 0) d a b g s

/-- vatfxadd: .f32, or .s64 for W = 1 (R232). -/
def execVatfxadd (d a : BitVec 6) (b : BitVec 5) (w : BitVec 1) (g : BitVec 4) (s : State) : Outcome :=
  vecAtomic (fxOf (if w = 1 then 4 else 0)) d a b g s

/-- vatfxadd.s32 (R232). -/
def execVatfxaddS32 (d a : BitVec 6) (b : BitVec 5) (g : BitVec 4) (s : State) : Outcome := vecAtomic (fxOf 3) d a b g s

/-- vatfxadd.f16 (R232). -/
def execVatfxaddF16 (d a : BitVec 6) (b : BitVec 5) (g : BitVec 4) (s : State) : Outcome := vecAtomic (fxOf 1) d a b g s

/-- vatfxadd.bf16 (R232). -/
def execVatfxaddBf16 (d a : BitVec 6) (b : BitVec 5) (g : BitVec 4) (s : State) : Outcome := vecAtomic (fxOf 2) d a b g s

/-! ### Major 0x27 (R233) -/

/-- A scalar atomic: its slot at s[sa], its operand in sd; b names the compare register of cas. -/
def scalarAtomic (o : AtomOp) (d a : BitVec 6) (b : Option (BitVec 6)) (s : State) : Outcome :=
  issue { ord := 3 } (fun _ => true) (fun i t =>
    let y := match b with | some r => i.g.sreg r.toNat | none => 0
    let bad := i.g.smark a.toNat || i.g.smark d.toNat || (match b with | some r => i.g.smark r.toNat | none => false)
    atomic i t o true (scalarElem (i.g.sreg a.toNat).toNat) none (fun _ => bad) 0 d.toNat
      (fun _ => { x := (i.g.sreg d.toNat).toNat, y := y.toNat })) s

/-- atswap (R232, R233). -/
def execAtswap (d a : BitVec 6) (w : BitVec 1) (s : State) : Outcome := scalarAtomic (atomOf 0 w) d a none s

/-- atcas (R232, R233). -/
def execAtcas (d a b : BitVec 6) (w : BitVec 1) (s : State) : Outcome := scalarAtomic (atomOf 1 w) d a (some b) s

/-- atadd (R232, R233). -/
def execAtadd (d a : BitVec 6) (w : BitVec 1) (s : State) : Outcome := scalarAtomic (atomOf 2 w) d a none s

/-- atand (R232, R233). -/
def execAtand (d a : BitVec 6) (w : BitVec 1) (s : State) : Outcome := scalarAtomic (atomOf 3 w) d a none s

/-- ator (R232, R233). -/
def execAtor (d a : BitVec 6) (w : BitVec 1) (s : State) : Outcome := scalarAtomic (atomOf 4 w) d a none s

/-- atxor (R232, R233). -/
def execAtxor (d a : BitVec 6) (w : BitVec 1) (s : State) : Outcome := scalarAtomic (atomOf 5 w) d a none s

/-- atsmin (R232, R233). -/
def execAtsmin (d a : BitVec 6) (w : BitVec 1) (s : State) : Outcome := scalarAtomic (atomOf 6 w) d a none s

/-- atsmax (R232, R233). -/
def execAtsmax (d a : BitVec 6) (w : BitVec 1) (s : State) : Outcome := scalarAtomic (atomOf 7 w) d a none s

/-- atumin (R232, R233). -/
def execAtumin (d a : BitVec 6) (w : BitVec 1) (s : State) : Outcome := scalarAtomic (atomOf 8 w) d a none s

/-- atumax (R232, R233). -/
def execAtumax (d a : BitVec 6) (w : BitVec 1) (s : State) : Outcome := scalarAtomic (atomOf 9 w) d a none s

/-- atfadd (R133, R232). -/
def execAtfadd (d a : BitVec 6) (s : State) : Outcome := scalarAtomic (atomOf 10 0) d a none s

/-- atfxadd: .f32, or .s64 for W = 1 (R232). -/
def execAtfxadd (d a : BitVec 6) (w : BitVec 1) (s : State) : Outcome := scalarAtomic (fxOf (if w = 1 then 4 else 0)) d a none s

/-- atfxadd.s32 (R232). -/
def execAtfxaddS32 (d a : BitVec 6) (s : State) : Outcome := scalarAtomic (fxOf 3) d a none s

/-- atfxadd.f16 (R232). -/
def execAtfxaddF16 (d a : BitVec 6) (s : State) : Outcome := scalarAtomic (fxOf 1) d a none s

/-- atfxadd.bf16 (R232). -/
def execAtfxaddBf16 (d a : BitVec 6) (s : State) : Outcome := scalarAtomic (fxOf 2) d a none s

end Sys2Proof.Machine
end

