-- ==== Sys2Proof/Machine/Copies.lean ====
section
/-! DEFINITION. The copy engine and its instructions: major 0x2A (R161, R168 to R180, R183, R184, R388). -/

namespace Sys2Proof.Machine

/-! ### Slices and their addresses (R172, R174, R175) -/

/-- A place a copy reads or writes: (0, domain physical address), or (crew value + 1, pad address). -/
abbrev Place := Nat × Nat

/-- Byte pos of a slice's row-major sequence lies in this row at this column. -/
def CopySlice.row (c : CopySlice) (pos : Nat) : Nat := pos / c.len
def CopySlice.col (c : CopySlice) (pos : Nat) : Nat := pos % c.len

/-- Virtual or pad address of a source byte: virtual addresses are taken modulo 2^64. -/
def CopySlice.srcAddr (c : CopySlice) (pos : Nat) : Nat :=
  let a := c.src + c.row pos * c.spitch + c.col pos
  if c.sk = 1 then a else a % 2 ^ 64

/-- Bytes of the destination that a row of a slice takes. -/
def CopySlice.dstRow (c : CopySlice) : Nat := if c.op = 1 then 16 * (c.len / accWidth c.code) else c.len

/-- Virtual or pad address of a destination byte; of an element's slot for copy.acc. -/
def CopySlice.dstAddr (c : CopySlice) (pos : Nat) : Nat :=
  let a := c.dst + c.row pos * c.dpitch + (if c.op = 1 then 16 * (c.col pos / accWidth c.code) else c.col pos)
  if c.dk = 1 then a else a % 2 ^ 64

/-- Length of the run at byte pos: what remains of the row, of the destination half-line, and of the chunk; one element of
copy.acc. DEDUCED (unsafe), log entry 37. -/
def CopySlice.piece (c : CopySlice) (pos : Nat) : Nat :=
  if c.op = 1 then accWidth c.code
  else
    let n := min (c.len - c.col pos) (64 - c.dstAddr pos % 64)
    if c.op = 2 then min n (2 ^ c.code - pos % 2 ^ c.code) else n

/-- The cluster whose engine performs a slice. -/
def CopySlice.cluster (c : CopySlice) : Nat := clusterOf (crewCnum c.crew)

/-- The writer of a slice's destination writes (R174, R352, R354). -/
def CopySlice.writer (c : CopySlice) (coll : Nat) : Writer :=
  { org := .coll coll, ctx := c.ctx, tdepth := c.depth, depth := c.depth + 1, skind := 1, cluster := none, ord := 0, scope := 0,
    policy := c.policy }

/-! ### Where sources and destinations overlap (R174) -/

/-- The row-major position in rows of n bytes, a pitch apart, at which an address lies. -/
def posIn (base pitch rows n a : Nat) (wrap : Bool) : Option Nat :=
  (List.range rows).findSome? (fun r =>
    let b := if wrap then (base + r * pitch) % 2 ^ 64 else base + r * pitch
    if b ≤ a && a < b + n then some (r * n + (a - b)) else none)

/-- The addresses of a place as a slice's source or destination of a kind names them. -/
def CopySlice.namesOf (c : CopySlice) (pad : Bool) (x : Place) : List Nat :=
  if x.1 = 0 then (if pad then [] else xlVas c.xl x.2) else if pad && x.1 == c.crew + 1 then [x.2] else []

/-- Destination position of a place in a slice. -/
def CopySlice.dstPos (c : CopySlice) (x : Place) : Option Nat :=
  if c.empty then none
  else
    let as := if c.op = 3 then (if c.dests.any (fun d => d.1 + 1 == x.1) then [x.2] else []) else c.namesOf (c.dk == 1) x
    as.findSome? (fun a => posIn c.dst c.dpitch c.rows c.dstRow a (c.dk == 0))

/-- The slice's source covers a place. -/
def CopySlice.reads (c : CopySlice) (x : Place) : Bool :=
  !c.empty && ((c.namesOf (c.sk == 1) x).findSome? (fun a => posIn c.src c.spitch c.rows c.len a (c.sk == 0))).isSome

/-- The place of a source byte. -/
def CopySlice.srcPlace (c : CopySlice) (pos : Nat) : Option Place :=
  if c.sk = 1 then some (c.crew + 1, c.srcAddr pos) else (xlAt c.xl (c.srcAddr pos)).map (fun r => (0, r.1))

/-- The slice and position whose byte a collective writes at a place. -/
def Collective.writes (c : Collective) (x : Place) : Option (CopySlice × Nat) :=
  c.slices.findSome? (fun sl => (sl.dstPos x).map (fun p => (sl, p)))

/-- The byte now at a place of this module. -/
def State.byteAt (s : State) (x : Place) : Option Byte :=
  if x.1 = 0 then
    (if dpaModule x.2 == s.mgmt.modid && isDram (dpaLocal x.2) then some (s.byte (dpaLocal x.2)) else none)
  else (s.padPeek (x.1 - 1) x.2 1).head?

/-- The byte at a place before the collective. -/
def Collective.beforeAt (c : Collective) (s : State) (x : Place) : Option Byte :=
  match c.before.find? (fun e => e.1 == x) with
  | some e => some e.2
  | none => s.byteAt x

/-- A byte of an overlapped place: its value before, or the value written there, which is that of its own source (R174);
a value that comes from elsewhere, or that an accumulation leaves, is free. -/
def Collective.overlapped (c : Collective) (s : State) : Nat → Place → Byte
  | 0, x => (c.beforeAt s x).getD (Config.overlapByte s.freeCtr)
  | n + 1, x =>
    match c.writes x with
    | none => (c.beforeAt s x).getD (Config.overlapByte s.freeCtr)
    | some (sl, p) =>
      if sl.op = 1 then Config.overlapByte s.freeCtr
      else
        match sl.srcPlace p with
        | none => Config.overlapByte s.freeCtr
        | some y => Collective.overlapped c s n y

/-- Bytes of a transfer's source, those at overlapped places drawn freely among the values allowed. -/
def Collective.settleOverlap (c : Collective) (s : State) (sl : CopySlice) (pos : Nat) (data : List Byte) : State × List Byte :=
  let places := (List.range data.length).map (fun k => sl.srcPlace (pos + k))
  if places.all (fun x => match x with | some y => (c.writes y).isNone | none => true) then (s, data)
  else
    let r := (List.range data.length).foldl (fun (r : State × List Byte) k =>
      match nth none places k with
      | none => (r.1, r.2 ++ [nth 0 data k])
      | some y =>
        if (c.writes y).isNone then (r.1, r.2 ++ [nth 0 data k])
        else
          ({ r.1 with freeCtr := r.1.freeCtr + 1 },
            r.2 ++ [c.overlapped r.1 (Config.overlapHops r.1.freeCtr % (c.read + data.length + 2)) y])) (s, [])
    r

/-! ### The bytes of one destination half-line -/

/-- The half-line of a destination byte: of memory by domain physical address, or of a pad. -/
def CopySlice.halfAt (c : CopySlice) (pos : Nat) : Place :=
  if c.op = 3 || c.dk = 1 then (c.crew + 1, halfOf (c.dstAddr pos))
  else (0, ((xlAt c.xl (c.dstAddr pos)).map (fun r => halfOf r.1)).getD 0)

/-- A run of a slice cut where a chunk ends. -/
def CopySlice.cut (c : CopySlice) (r : Nat × Nat) : List (Nat × Nat) :=
  let k := 2 ^ c.code - r.1 % 2 ^ c.code
  if c.op = 2 && k < r.2 then [(r.1, k), (r.1 + k, r.2 - k)] else [r]

/-- The runs of a slice, position and length, that its rows lay into the 64 bytes from an address. -/
def CopySlice.runsInto (c : CopySlice) (a : Nat) : List (Nat × Nat) :=
  ((List.range c.rows).filterMap (fun r =>
    let b := c.dstAddr (r * c.len)
    let lo := max a b
    let hi := min (a + 64) (b + c.len)
    if lo < hi then some (r * c.len + (lo - b), hi - lo) else none)).flatMap c.cut

/-- The runs of a slice that reach a half-line. -/
def CopySlice.runsAt (c : CopySlice) (h : Place) : List (Nat × Nat) :=
  if c.empty then []
  else if h.1 = 0 then (if c.op = 3 || c.dk = 1 then [] else (xlVas c.xl h.2).flatMap c.runsInto)
  else if c.op = 3 || c.dk = 1 then c.runsInto h.2
  else []

/-- A collective writes half-lines of the same memory from two slices, or of the same pads. -/
def CopySlice.sharesPads (a b : CopySlice) : Bool := a.op != 3 || a.dests.any (fun d => b.dests.any (fun e => e.1 == d.1))

/-! ### Barrier counts of a collective (R183, R184) -/

/-- The engine changes the counts of an object; of a crew that no longer exists nothing is changed (R180). -/
def State.countBar (s : State) (v off : Nat) (f : Bar → Bar) : State :=
  if (s.crew v).isSome then s.barEvent v off f else s

/-- The offset of a barrier name of a crew. -/
def State.barOffset (s : State) (v : Nat) (name : Option Nat) : Option Nat :=
  name.bind (fun n => (s.crew v).bind (fun c => c.bound n))

/-- Source bytes of a slice have been read: OUTB falls in the object that they were added to. -/
def State.countRead (s : State) (sl : CopySlice) (n : Nat) : State :=
  match sl.sobj with
  | none => s
  | some off => s.countBar sl.crew off (fun b => b.sub 0 n)

/-- Destination bytes of a slice have landed: INB falls in the objects that they were added to; those of a chunk that has
not entered INB are kept for it. -/
def State.countLanded (s : State) (coll : Nat) (sl : CopySlice) (pos n : Nat) : State :=
  let t :=
    match sl.dobj with
    | none => s
    | some off =>
      match (if sl.op = 2 then s.colls.find? (fun c => c.id == coll && c.armed ≤ pos / 2 ^ sl.code) else none) with
      | some c => s.setColl { c with early := sput 0 c.early (pos / 2 ^ sl.code) (sget 0 c.early (pos / 2 ^ sl.code) + n) }
      | none => s.countBar sl.crew off (fun b => b.sub n 0)
  sl.dests.foldl (fun u d => match d.2 with | some off => u.countBar d.1 off (fun b => b.sub n 0) | none => u) t

/-! ### Reading -/

/-- The collective of an identity. -/
def State.coll (s : State) (id : Nat) : Option Collective := s.colls.find? (fun c => c.id == id)

/-- Source bytes over all slices. -/
def Collective.total (c : Collective) : Nat := c.slices.foldl (fun m x => m + x.srcBytes) 0

/-- The slice, by its place among the slices, and the position in it, of the n-th source byte. -/
def sliceAt : List CopySlice → Nat → Nat → Option (Nat × CopySlice × Nat)
  | [], _, _ => none
  | c :: l, k, n => if n < c.srcBytes then some (k, c, n) else sliceAt l (k + 1) (n - c.srcBytes)

/-- Place of a run among the source bytes of a collective. -/
def Collective.placeOf (c : Collective) (g : Seg) : Nat := (c.slices.take g.slice).foldl (fun m x => m + x.srcBytes) 0 + g.pos

/-- The run that is read next, past those that have been read already. -/
def Collective.nextSeg (c : Collective) : Nat → Nat → Option (Nat × Seg)
  | 0, _ => none
  | fuel + 1, n =>
    match sliceAt c.slices 0 n with
    | none => none
    | some (k, sl, pos) =>
      let g : Seg := { slice := k, pos, len := sl.piece pos }
      if c.ahead.contains g then Collective.nextSeg c fuel (n + g.len) else some (n, g)

/-- The runs that are read with one: all that reach its destination half-line and have not been read (R388). -/
def Collective.group (c : Collective) (n : Nat) (g : Seg) : List Seg :=
  match c.slices[g.slice]? with
  | none => [g]
  | some sl =>
    if sl.op = 1 then [g]
    else
      g :: ((List.range c.slices.length).flatMap (fun k =>
        match c.slices[k]? with
        | none => []
        | some x => if sl.sharesPads x then (x.runsAt (sl.halfAt g.pos)).map (fun r => ({ slice := k, pos := r.1, len := r.2 } : Seg)) else [])).filter
          (fun x => x != g && n ≤ c.placeOf x && !c.ahead.contains x)

/-- What a source part brought to the engine. -/
inductive Fetched where
  | data (b : List Byte) (bad : Bool)
  | await (w : Await)
  deriving DecidableEq, Repr

/-- The engine reads a part of a source: from this module, through the link agent, or from a peer. -/
def State.engineFetch (s : State) (coll : Nat) (sl : CopySlice) (first n phys : Nat) (leaf : Nat) : State × Fetched :=
  let a := dpaLocal phys
  let w : Await := { tag := s.fresh, lane := 0, first, count := n, skip := 0, base := phys, line := none }
  if dpaModule phys = s.mgmt.modid then
    if isHost a then
      if s.coherent a then
        match s.agentLine a with
        | some (_, d) => (s, .data ((List.range n).map (fun k => nth 0 d (a - halfOf a + k))) false)
        | none => (s.hostBegin (.coll coll) 0 a (.load n) 0 (fun t => [.own t (s.hostPhys (halfOf a)) false]), .await w)
      else (s.hostBegin (.coll coll) 0 a (.load n) 1 (fun t => [.read t (s.hostPhys a) n]), .await w)
    else
      let r := s.sliceBytesWith a n (leafGuarded leaf) sl.policy
      (r.1, .data r.2.1 r.2.2)
  else
    let sec := sectorsOf (a % 128) n
    ({ s with out := s.out ++ [s.routed { blankPacket s.mgmt.modid (s.homeFor (dpaModule phys) (lineOf a)) 1 s.fresh with
                ctx := sl.ctx, depth := sl.depth, addr := lineOf a, len := 128, mask := (List.range 4).map sec.getLsbD }],
              fresh := s.fresh + 1 }, .await { w with skip := a % 128, base := phys - a % 128 })

/-- The parts of a run of a slice's source, cut at half-lines, with their places in it. -/
def CopySlice.srcParts (c : CopySlice) (pos n : Nat) : List (Nat × Nat × Nat × Nat) :=
  ((partsOf 0 (c.srcAddr pos) n).filterMap (fun p =>
    (xlAt c.xl p.va).map (fun r => ({ part := p, phys := r.1, leaf := r.2, isSealed := false } : Located)))).flatMap (fun x =>
      x.halves.map (fun y => (y.part.first, y.part.len, y.phys, y.leaf)))

/-- The crew whose pad a slice reads: as it stands, or as it was when it ended (R180). -/
def State.padOwner (s : State) (c : Collective) : Option Crew := (s.crew c.crew).or c.ended

/-- Bytes that the engine reads from a crew's pad, byte by byte, and whether one is poisoned (R161, R386). -/
def State.padRead (s : State) (o : Option Crew) (a n : Nat) : List Byte × Bool :=
  match o with
  | none => (List.replicate n 0, false)
  | some c => ((List.range n).flatMap (fun k => s.padBytes c (a + k) 1), (List.range n).any (fun k => c.padBad (a + k)))

/-- The engine reads pad bytes: at their banks or in their backing, that of a crew that has ended too (R148, R161, R180). -/
def State.engineMeet (s : State) (c : Collective) (a n : Nat) : State :=
  match s.crew c.crew, c.ended with
  | none, some k => s.readBacking k a n
  | _, _ => s.padMeet c.crew a n

/-- A run is read into a transfer: its local bytes at once, the others when their replies come. A poisoned byte of a pad frame
lies in no half-line, and 0 stands for it as for a register (R375). DESIGN CHOICE (unsafe), log entry 123. -/
def State.readSeg (s : State) (c : Collective) (x : Xfer) (sl : CopySlice) (g : Seg) : State × Xfer :=
  let at_ := x.bytes.length
  let y := { x with segs := x.segs ++ [g], bytes := x.bytes ++ List.replicate g.len 0 }
  let put (x : Xfer) (first : Nat) (d : List Byte) (bad : Option Nat) : Xfer :=
    { x with bytes := (List.range d.length).foldl (fun l j => setNth l (at_ + first + j) (nth 0 d j)) x.bytes
             poison := x.poison.or bad }
  if sl.sk = 1 then
    let t := s.engineMeet c (sl.srcAddr g.pos) g.len
    let r := t.padRead (t.padOwner c) (sl.srcAddr g.pos) g.len
    (match (t.padOwner c).bind (fun k => t.padUnread k (sl.srcAddr g.pos) g.len) with
     | none => t
     | some va => (t.machineCheck 11 va sl.ctx).raiseCrew sl.crew va,
     put y 0 r.1 (if r.2 then some 0 else none))
  else
    (sl.srcParts g.pos g.len).foldl (fun r p =>
      let q := r.1.engineFetch c.id sl (at_ + p.1) p.2.1 p.2.2.1 p.2.2.2
      match q.2 with
      | .data d bad => (q.1, put r.2 p.1 d (if bad then some (halfOf p.2.2.1) else none))
      | .await w => (q.1, { r.2 with await := r.2.await ++ [w] })) (s, y)

/-- A transfer is read, run by run. -/
def State.readSegs (s : State) (c : Collective) (gs : List Seg) : State × Xfer :=
  gs.foldl (fun r g =>
    match c.slices[g.slice]? with
    | none => r
    | some sl => r.1.readSeg c r.2 sl g) (s, { segs := [], await := [], bytes := [], poison := none, wrote := false, acks := [] })

/-- With a transfer of a collective replaced. -/
def Collective.setXfer (c : Collective) (x : Xfer) : Collective :=
  { c with inflight := c.inflight.map (fun y => if y.segs == x.segs then x else y) }

/-- The runs of a transfer with their slices and their bytes. -/
def Collective.runs (c : Collective) (x : Xfer) : List (CopySlice × Seg × List Byte) :=
  (x.segs.foldl (fun (r : List (CopySlice × Seg × List Byte) × List Byte) g =>
    (match c.slices[g.slice]? with | some sl => r.1 ++ [(sl, g, r.2.take g.len)] | none => r.1, r.2.drop g.len)) ([], x.bytes)).1

/-- The bytes of a transfer are all read: OUTB falls, and its write may be performed. -/
def State.pieceRead (s : State) (id : Nat) (x : Xfer) : State :=
  match s.coll id with
  | none => s
  | some c =>
    let r := (c.runs x).foldl (fun (r : State × List Byte) q =>
      let y := c.settleOverlap r.1 q.1 q.2.1.pos q.2.2
      (y.1, r.2 ++ y.2)) (s, [])
    ((c.runs x).foldl (fun t q => t.countRead q.1 q.2.1.len) (r.1.setColl (c.setXfer { x with bytes := r.2 }))).postEvent
      (.copyByteLanded id)

/-- Transfers that the engine of a cluster has in flight (R168). -/
def State.inflight (s : State) (cl : Nat) : Nat :=
  (s.colls.filter (fun c => clusterOf (crewCnum c.crew) == cl)).foldl (fun n c => n + c.inflight.length) 0

/-- The engine may read on in a collective: bytes are left, and fewer than 64 transfers are in flight (R168). -/
def State.canRead (s : State) (c : Collective) : Bool :=
  c.started && c.read < c.total && s.inflight (clusterOf (crewCnum c.crew)) < Config.transfers

/-- The complete collectives of a crew that have not started may be looked at again (R170, R177). -/
def State.offerColls (s : State) (v : Nat) : State :=
  (s.colls.filter (fun d => d.crew == v && d.complete && !d.started)).foldl
    (fun u d => u.postOnce (.collectiveStart v (d.queues.headD 0))) s

/-- A collective whose bytes have all landed holds no queue any longer (R177, R178), and its place in the transfer queue is
free for the next (R168). -/
def State.finishColl (s : State) (id : Nat) : State :=
  match s.coll id with
  | none => s
  | some c =>
    if c.started && c.total ≤ c.read && c.inflight.isEmpty then
      let t := s.setColl { c with done := true }
      ((t.colls.filter (fun d => clusterOf (crewCnum d.crew) == clusterOf (crewCnum c.crew) && !d.complete)).foldl
        (fun u d => u.completeColl d) t).offerColls c.crew |>.retireColl id
    else s

/-- The engine reads the next transfer of a collective: slices in the order of their assembly, bytes ascending, with the
other bytes of the destination half-line. R174 fixes no order. DESIGN CHOICE (unsafe), log entry 90. -/
def State.copyRead (s : State) (id : Nat) : State :=
  match s.coll id with
  | none => s
  | some c =>
    if !s.canRead c then s
    else
      match c.nextSeg (c.ahead.length + 1) c.read with
      | none => (s.setColl { c with read := c.total, ahead := [] }).finishColl id
      | some (n, g) =>
        let gs := c.group n g
        let r := s.readSegs c gs
        let t := (r.1.setColl { c with
          read := n + g.len, ahead := (c.ahead ++ gs.drop 1).filter (fun x => n + g.len ≤ c.placeOf x)
          inflight := c.inflight ++ [r.2] }).postEvent (.copyByteRead id)
        if r.2.await.isEmpty then t.pieceRead id r.2 else t

/-! ### Writing -/

/-- Tags of what a write left to be acknowledged: writes to peers and the host, and, for survivable completion, deltas
(R175). -/
def State.newAcks (before s : State) (sv : Bool) : List Nat :=
  State.newTags before s ++ (if sv then (s.deltas.map (·.tag)).filter (fun t => before.fresh ≤ t) else [])

/-- Bytes of the collective's sources about to be overwritten are kept as they were (R174). -/
def State.keepBefore (s : State) (id : Nat) (places : List Place) : State :=
  match s.coll id with
  | none => s
  | some c =>
    let new := places.filter (fun x => c.slices.any (fun sl => sl.reads x) && !c.before.any (fun e => e.1 == x))
    if new.isEmpty then s
    else s.setColl { c with before := c.before ++ new.filterMap (fun x => (s.byteAt x).map (fun b => (x, b))) }

/-- Bytes of a transfer go to a pad; a backing that fails ends the crew (R161, R451). -/
def State.copyToPad (s : State) (id v a : Nat) (data : List Byte) : State :=
  let t := s.keepBefore id ((List.range data.length).map (fun k => (v + 1, a + k)))
  match t.padLand v a data with
  | (u, none) => u
  | (u, some va) => u.raiseCrew v va

/-- One accumulation of copy.acc (R84, R136, R175): at its slice, at a peer, or refused at the host; its unit leaves the L1
of the engine's cluster (R155). A slot that DPITCH places off 16 bytes, which R83 does not allow and R175 admits, is
accumulated at the address named. DESIGN CHOICE (unsafe), log entry 91. -/
def State.copyAcc (s : State) (id : Nat) (sl : CopySlice) (data : List Byte) (poison : Bool) (phys leaf : Nat) : State :=
  let q : NearReq :=
    { tag := s.fresh, addr := dpaLocal phys, wide := false, elem := sl.code, poison, x := dw (ofBytes data),
      y := 0, z := 0, w := 0, watched := leafWatch leaf, prot := leafProt leaf, depth := sl.depth + 1, skind := 1,
      ctx := sl.ctx, org := .coll id }
  if dpaModule phys ≠ s.mgmt.modid then
    s.sendStore
      { tag := s.fresh, org := .coll id, dest := s.homeFor (dpaModule phys) q.addr, prot := leafProt leaf,
        cluster := some sl.cluster, cells := [], slot := some phys }
      (s.routed { blankPacket s.mgmt.modid (s.homeFor (dpaModule phys) q.addr) 5 s.fresh with
        ctx := sl.ctx, depth := sl.depth, skind := 1, watched := q.watched, prot := q.prot, addr := q.addr, len := 16,
        op := 0xB, near := [q] })
  else if isHost q.addr then s.tellOrigin (.coll id) sl.ctx 0x13 phys
  else (s.nearFxWith sl.policy { q with tag := 0 }).st.l1DropUnit sl.cluster phys

/-- A run of a transfer is written (R174, R175). -/
def State.writeRun (s : State) (id : Nat) (sl : CopySlice) (g : Seg) (data : List Byte) (poison : Bool) : State :=
  if sl.op = 3 then sl.dests.foldl (fun t d => t.copyToPad id d.1 (sl.dstAddr g.pos) data) s
  else if sl.op != 1 && sl.dk == 1 then s.copyToPad id sl.crew (sl.dstAddr g.pos) data
  else
    match xlAt sl.xl (sl.dstAddr g.pos) with
    | none => s
    | some (phys, leaf) =>
      if sl.op = 1 then s.copyAcc id sl data poison phys leaf
      else
        let t := s.keepBefore id ((List.range data.length).map (fun k => (0, phys + k)))
        t.performWrite (sl.writer id) (cellsAt phys data) (leafWatch leaf) (leafProt leaf)

/-- The write of a transfer is performed: the destination half-line that a poisoned byte would reach is not written, and
the suppliers learn of the poisoned half-line (R375, R388). -/
def State.writePiece (s : State) (id : Nat) (c : Collective) (x : Xfer) : State :=
  match x.poison, c.op == 1 with
  | some a, false => s.tellOrigin (.coll id) c.ctx 0x09 a
  | bad, _ => (c.runs x).foldl (fun t q => t.writeRun id q.1 q.2.1 q.2.2 bad.isSome) s

/-- A transfer has landed: INB falls (R183). -/
def State.pieceLanded (s : State) (id : Nat) (x : Xfer) : State :=
  match s.coll id with
  | none => s
  | some c =>
    let t := s.setColl { c with inflight := c.inflight.filter (fun y => y.segs != x.segs) }
    ((c.runs x).foldl (fun u q => u.countLanded id q.1 q.2.1.pos (if q.1.op = 1 then 16 else q.2.1.len)) t).finishColl id

/-- The first transfer of a collective that may move on: its write is to be performed, or it has landed. R174 fixes no
order. DESIGN CHOICE (unsafe), log entry 90. -/
def Collective.ready (c : Collective) : Option Xfer :=
  c.inflight.find? (fun x => x.await.isEmpty && (!x.wrote || x.acks.isEmpty))

/-- A transfer's write is performed, and, once nothing is left to be acknowledged, its bytes land. -/
def State.copyLand (s : State) (id : Nat) : State :=
  match s.coll id with
  | none => s
  | some c =>
    match c.ready with
    | none => s
    | some x =>
      if x.wrote then s.pieceLanded id x
      else
        let t := s.writePiece id c x
        let acks := State.newAcks s t ((c.slices.head?.map (·.sv)).getD false)
        if acks.isEmpty then t.pieceLanded id x
        else
          match t.coll id with
          | none => t
          | some d => t.setColl (d.setXfer { x with wrote := true, acks })

/-- An acknowledgement reaches the engine. -/
def State.ackColl (s : State) (tag : Nat) : State :=
  match s.colls.find? (fun c => c.inflight.any (fun x => x.acks.contains tag)) with
  | none => s
  | some c =>
    (s.setColl { c with inflight := c.inflight.map (fun x => { x with acks := x.acks.filter (· != tag) }) }).postEvent
      (.copyByteLanded c.id)

/-- Data for a transfer of the engine has come; `bad` tells which bytes of the reply are poisoned. -/
def State.dataColl (s : State) (tag : Nat) (data : List Byte) (bad : Nat → Bool) : State :=
  match s.colls.find? (fun c => c.inflight.any (fun x => x.await.any (fun w => w.tag == tag))) with
  | none => s
  | some c =>
    match c.inflight.find? (fun x => x.await.any (fun w => w.tag == tag)) with
    | none => s
    | some x =>
      match x.await.find? (fun w => w.tag == tag) with
      | some w =>
        let y := { x with
          await := x.await.filter (fun v => v.tag != tag)
          poison := x.poison.or (((List.range w.count).find? (fun j => bad (w.skip + j))).map (fun j => halfOf (w.base + w.skip + j)))
          bytes := (List.range w.count).foldl (fun l j => setNth l (w.first + j) (nth 0 data (w.skip + j))) x.bytes }
        let t := s.setColl (c.setXfer y)
        if y.await.isEmpty then t.pieceRead c.id y else t
      | none => s

/-! ### Collectives (R169, R177, R178) -/

/-- The open collective of a queue of a crew. -/
def State.openColl (s : State) (v q : Nat) : Option Collective :=
  s.colls.find? (fun c => c.crew == v && !c.complete && c.queues.contains q)

/-- Fields that every slice of a collective carries alike. -/
def CopySlice.matches_ (a b : CopySlice) : Bool :=
  a.op == b.op && a.queues == b.queues && a.dbar == b.dbar && a.sbar == b.sbar && a.sv == b.sv && a.code == b.code

/-- Some named queue has an open collective that does not await the gang: the slice waits in its slot (R169, R201). -/
def State.sliceWaits (s : State) (c : CopySlice) : Bool :=
  c.queues.any (fun q => match s.openColl c.crew q with
    | some k => !k.awaited.contains c.gang
    | none => false)

/-- The open collective that the slice would join. -/
def State.sliceJoins (s : State) (c : CopySlice) : Option Collective := c.queues.findSome? (s.openColl c.crew)

/-- The slice matches the open collective it would join, in all its queues, or with none the other slices that wait in
the crew's slots for one of its queues. -/
def State.sliceFits (s : State) (c : CopySlice) : Bool :=
  if s.sliceWaits c then true
  else
    match s.sliceJoins c with
    | some k => k.queues == c.queues && (match k.slices.head? with | some x => x.matches_ c | none => true)
    | none =>
      (s.members c.crew).all (fun g =>
        match g.copySlot with
        | some x => g.id == c.gang || !x.queues.any (fun q => c.queues.contains q) || x.matches_ c
        | none => true)

/-- A collective that opens with its first slice. -/
def State.openWith (s : State) (c : CopySlice) : State :=
  let k : Collective :=
    { id := s.fresh, crew := c.crew, ctx := c.ctx, op := c.op, queues := c.queues, slices := [c],
      awaited := ((s.members c.crew).map (·.id)).filter (· != c.gang), complete := false, started := false, read := 0,
      ahead := [], inflight := [], done := false, armed := 1, early := [], before := [], ended := none }
  { s with colls := s.colls ++ [k], fresh := s.fresh + 1 }.completeColl k

/-- The counts that a slice has added to objects: crew, object, INB, OUTB (R183, R184). A copy.mc with DBE = 1 adds its R × L
bytes once to the object of its own name, however many destinations it has. DESIGN CHOICE (unsafe), log entry 121. -/
def CopySlice.charges (c : CopySlice) : List (Nat × Nat × Nat × Nat) :=
  let inb := if c.empty then 0 else if c.op = 2 then c.chunkBytes 0 else c.dstBytes
  (c.dobj.toList.map (fun o => (c.crew, o, inb, 0))) ++ (c.sobj.toList.map (fun o => (c.crew, o, 0, c.srcBytes)))
    ++ c.dests.filterMap (fun d => d.2.map (fun o => (d.1, o, c.dstBytes, 0)))

/-- The empty slice that stands for a refused one, its gang told (R176). -/
def CopySlice.refused (c : CopySlice) : CopySlice := { c with empty := true, dests := [], dobj := none, sobj := none, void := true }

/-- What a slice added is taken back: it enters its collective empty (R169). -/
def State.uncharge (s : State) (c : CopySlice) : State :=
  c.charges.foldl (fun t x => t.countBar x.1 x.2.1 (fun b => b.sub x.2.2.1 x.2.2.2)) s

/-- A slice moves from its slot into its collective (R170); one that differs enters empty, with its counts taken back, and
its gang learns of it by a deferred 0x13, unless it was refused at its issue (R169, R176). DESIGN CHOICE (unsafe), log
entry 119. -/
def State.assemble (s : State) (g : Nat) : State :=
  match (s.gang g).bind (·.copySlot) with
  | none => s
  | some c =>
    if s.sliceWaits c then s
    else
      let t := s.updGang g (fun h => { h with copySlot := none })
      match t.sliceJoins c with
      | none => t.openWith c
      | some k =>
        let fits := c.void || (k.queues == c.queues && (match k.slices.head? with | some x => x.matches_ c | none => true))
        let d := { k with slices := k.slices ++ [if fits then c else c.refused], awaited := k.awaited.filter (· != g) }
        ((if fits then t else t.deferTo g c.ctx 0x13 0).setColl d).completeColl d |> (fun u => if fits then u else u.uncharge c)

/-- The collective of a queue that starts next: complete, and none that opened before it in one of its queues is left. -/
def State.nextColl (s : State) (v q : Nat) : Option Collective :=
  (s.colls.find? (fun c => c.crew == v && c.queues.contains q && !c.started)).bind (fun c =>
    if c.complete && !(s.colls.takeWhile (fun d => d.id != c.id)).any (fun d => !d.done && d.crew == v && d.queues.any (c.queues.contains ·))
    then some c else none)

/-- A collective starts (R177): CHREM grows by its further chunks (R184), and its first bytes are read. A count that its 16 bits
cannot hold stays at 0xFFFF with OVR set. DESIGN CHOICE (unsafe), log entry 115. -/
def State.startColl (s : State) (v q : Nat) : State :=
  match s.nextColl v q with
  | none => s
  | some c =>
    let t := s.setColl { c with started := true }
    let more := c.chunks - 1
    let u := match (if c.op = 2 && more != 0 then c.slices.findSome? (·.dobj) else none) with
      | none => t
      | some off => t.countBar v off (fun b => { b with chrem := min (b.chrem + more) 0xFFFF, ovr := b.ovr || 0xFFFF < b.chrem + more })
    if c.total = 0 then u.finishColl c.id else u.postEvent (.copyByteRead c.id)

/-! ### Issue (R172, R173, R176, R179) -/

/-- The four descriptor registers of a copy. -/
structure CopyRegs where
  dst : Nat
  src : Nat
  rows : Nat
  dk : Nat
  sk : Nat
  code : Nat
  mbz : Nat
  len : Nat
  dpitch : Nat
  spitch : Nat
  deriving DecidableEq, Repr

/-- The registers sa to sa + 3 of a gang. -/
def Gang.copyRegs (g : Gang) (a : Nat) : CopyRegs :=
  let x := (g.sreg (a + 2)).toNat
  let p := (g.sreg (a + 3)).toNat
  { dst := (g.sreg a).toNat, src := (g.sreg (a + 1)).toNat, rows := bits x 48 16, dk := bits x 44 4, sk := bits x 40 4,
    code := bits x 32 8, mbz := bits x 24 8, len := bits x 0 24, dpitch := bits p 32 32, spitch := bits p 0 32 }

/-- A copy word's fields beside sa (R171). -/
structure CopyWord where
  op : Nat
  a : Nat
  q : Nat
  dbe : Bool
  db : Nat
  sbe : Bool
  sb : Nat
  sv : Bool
  deriving DecidableEq, Repr

/-- The word itself. -/
def CopyWord.toWord (w : CopyWord) : Word :=
  w32 (0x2A * 2 ^ 26 + w.op * 2 ^ 22 + w.a * 2 ^ 16 + w.q * 2 ^ 14 + 2 ^ 13 * b2n w.dbe + 2 ^ 9 * w.db + 2 ^ 8 * b2n w.sbe
    + 2 ^ 4 * w.sb + 2 ^ 3 * b2n w.sv)

/-- The slice of a gang, not empty unless R or L is 0. -/
def Gang.copySlice (g : Gang) (w : CopyWord) (r : CopyRegs) : CopySlice :=
  { gang := g.id, crew := g.crew, ctx := g.ctx, op := w.op, queues := [w.q],
    dbar := if w.dbe then some w.db else none, sbar := if w.sbe then some w.sb else none, sv := w.sv,
    dst := if w.op = 3 then r.dst % 2 ^ 32 else r.dst, src := r.src, rows := r.rows, dk := r.dk, sk := r.sk, code := r.code,
    len := r.len, dpitch := r.dpitch, spitch := r.spitch, depth := g.tdepth, policy := 0, empty := r.rows == 0 || r.len == 0,
    dests := [], dobj := none, sobj := none, void := false, xl := [], word := w.toWord, image := (List.range 4).map (fun k => g.sreg (w.a + k)) }

/-- First pad address beyond a crew's pad. -/
def State.padSize (s : State) (v : Nat) : Nat := ((s.crew v).map (fun c => 4096 * c.pads)).getD 0

/-- The first pad byte of rows of n bytes that lies at or beyond an end. -/
def padOverrun (base pitch rows n end_ : Nat) : Option Nat :=
  (List.range rows).findSome? (fun r => if end_ < base + r * pitch + n then some (max (base + r * pitch) end_) else none)

/-- Parts of rows of n bytes in global memory. -/
def rowParts (base pitch rows n : Nat) : List Part :=
  (List.range rows).flatMap (fun r => rangeParts 0 (n / 128 + 2) 0 ((base + r * pitch) % 2 ^ 64) n)

/-- The entries of a destination list (R173). -/
def State.destList (s : State) (v off n : Nat) : List Nat := (List.range n).map (fun k => ofBytes (s.padRead (s.crew v) (off + 8 * k) 8).1)

/-- A destination of the list is well formed for a context. -/
def State.destOk (s : State) (ctx e : Nat) : Bool :=
  bits e 32 15 == 0 &&
    (match s.crew (bits e 0 32) with
     | none => false
     | some c => c.ctx == ctx && (!bit e 47 || 16 * bits e 48 16 < 4096 * c.pads))

/-- A destination: crew, and the object it counts in. -/
def destOf (e : Nat) : Nat × Option Nat := (bits e 0 32, if bit e 47 then some (16 * bits e 48 16) else none)

/-- The first byte of a slice that its pads do not hold: source, destination, and the destinations of copy.mc with their
list. A slice of no bytes passes, its list too, and the entries of that list are still looked at for their form (`copyRegsOk`).
DESIGN CHOICE (unsafe), log entry 118. -/
def State.copyOverrun (s : State) (g : Gang) (c : CopySlice) (list : Nat) : Option Nat :=
  let own := s.padSize g.crew
  let n := if 1 ≤ c.code && c.code ≤ 8 then c.code else 0
  let src := if c.sk = 1 then padOverrun c.src c.spitch c.rows c.len own else none
  let dst :=
    if c.op = 3 then
      (padOverrun list 0 1 (8 * n) own).or
        ((s.destList g.crew list n).findSome? (fun e =>
          if s.destOk g.ctx e then padOverrun c.dst c.dpitch c.rows c.len (s.padSize (bits e 0 32)) else none))
    else if c.dk = 1 then padOverrun c.dst c.dpitch c.rows c.dstRow own else none
  if c.empty then none else src.or dst

/-- The registers break no rule of R172, R173 and R175. DEDUCED (unsafe), log entry 39. -/
def State.copyRegsOk (s : State) (g : Gang) (c : CopySlice) (mbz list : Nat) : Bool :=
  let w := accWidth c.code
  mbz == 0 && c.dk ≤ 1 && c.sk ≤ 1 && (c.op != 3 || c.dk == 1) && (c.op != 1 || c.dk == 0)
    && (match c.op with
        | 0 => c.code == 0
        | 1 => c.code ≤ 4 && c.len % w == 0 && c.src % w == 0 && c.spitch % w == 0 && c.dpitch % w == 0 && c.dst % 16 == 0
        | 2 => 7 ≤ c.code && c.code ≤ 24
        | _ => 1 ≤ c.code && c.code ≤ 8 && (s.destList g.crew list c.code).all (s.destOk g.ctx))

/-- A slice with the objects that it counts in: those its names are bound to at issue (R183). -/
def State.bindSlice (s : State) (c : CopySlice) : CopySlice :=
  if c.void then c else { c with dobj := s.barOffset c.crew c.dbar, sobj := s.barOffset c.crew c.sbar }

/-- Some object would overflow (R183). -/
def State.copyOverflows (s : State) (adds : List (Nat × Nat × Nat × Nat)) : Bool :=
  adds.any (fun x =>
    let b := s.bar x.1 x.2.1
    let mine := adds.filter (fun y => y.1 == x.1 && y.2.1 == x.2.1)
    0xFFFFFFFF < mine.foldl (fun m y => m + y.2.2.1) b.inb || 0xFFFFFFFF < mine.foldl (fun m y => m + y.2.2.2) b.outb)

/-- The slice goes to its gang's slot, with the counts it adds, and the instruction retires (R170, R183). -/
def State.supply (s : State) (c : CopySlice) : State :=
  let d := s.bindSlice c
  let t := d.charges.foldl (fun u x =>
    if x.2.2.1 = 0 && x.2.2.2 = 0 then u else u.barEvent x.1 x.2.1 (fun b => b.add x.2.2.1 x.2.2.2)) s
  (t.updGang c.gang (fun g => { g with copySlot := some d })).postEvent (.copySliceAssemble c.gang)

/-- The issuing gang waits for its slot, then releases at .mod, then supplies (R170, R179). -/
def supplyThen (i : Issue) (t : State) (go : State → Res) : Res :=
  if i.g.copySlot.isSome then .wait t .copySlot else releaseAtThen i (some scopeMod) t go

/-- An unbound name that a copy word enables (R182). -/
def State.unboundOf (s : State) (i : Issue) (c : CopySlice) : Option Nat :=
  (c.dbar.toList ++ c.sbar.toList).find? (fun n => (s.barOffset i.g.crew (some n)).isNone)

/-- Global memory that a slice names, checked and translated: rights of the source, then of the destination. -/
def State.copyReach (s : State) (i : Issue) (c : CopySlice) : State × Access × List Located × List Located :=
  let src := if c.empty || c.sk != 0 then [] else rowParts c.src c.spitch c.rows c.len
  let dst := if c.empty || c.dk != 0 || c.op == 3 then [] else rowParts c.dst c.dpitch c.rows c.dstRow
  let a := s.coalesce i.g needRead src
  match a.2 with
  | .ok ls =>
    let b := a.1.coalesce i.g (if c.op = 1 then needBoth else needWrite) dst
    match b.2 with
    | .ok ds => (b.1, .ok (ls ++ ds), ls, ds)
    | e => (b.1, e, [], [])
  | e => (a.1, e, [], [])

/-- A refused slice enters its collective empty, and its gang takes a cause (R176). -/
def refuseSlice (i : Issue) (t : State) (c : CopySlice) (cause addr : Nat) : Res :=
  supplyThen i t (fun u => .trap (u.supply c.refused) cause i.act addr)

/-- A copy instruction: the checks of R176 in their order, then poison (R385, R387), then its slice; one
that accumulates or writes to another module ends the crew's replayable interval (R390). DEDUCED (unsafe), log entry 39. -/
def copyBody (w : CopyWord) (i : Issue) (t : State) : Res :=
  let r := i.g.copyRegs w.a
  let c := { i.g.copySlice w r with policy := i.sp.hints.policy }
  let list := r.dst / 2 ^ 32
  let marked := (List.range 4).any (fun k => i.g.smark (w.a + k))
  if i.act != allLanes then .trap t 0x03 i.act 0
  else
    match t.unboundOf i c with
    | some n => .wait t (.name n)
    | none =>
      if i.g.copySlot.isSome then .wait t .copySlot
      else
        let v := if w.op = 3 && !c.empty then t.padMeet i.g.crew list (8 * c.code) else t
        match v.copyReach i c, v.copyOverrun i.g c list with
        | (u, .lease a, _), _ => .trap u 0x07 i.act a
        | (u, .resident a, _), _ => .done (u.machineCheck 3 a 0)
        | (u, .ok _, _), some a => .trap u 0x07 i.act a
        | (u, .ok ls, _, ds), none =>
          let d := { c with dests := if w.op = 3 && !c.empty then (u.destList i.g.crew list c.code).map destOf else [], xl := pagesOf ls }
          if !u.copyRegsOk i.g c r.mbz list || !u.sliceFits c || u.copyOverflows (u.bindSlice d).charges then refuseSlice i u c 0x13 0
          else
            match ds.find? (·.isSealed) with
            | some p => refuseSlice i u c 0x08 p.part.va
            | none =>
              if marked || (w.op == 3 && !c.empty && (u.padRead (u.crew i.g.crew) list (8 * c.code)).2) then .trap u 0x09 i.act 0
              else
                let keep := w.op != 1 && ds.all (fun p => dpaModule p.phys == u.mgmt.modid)
                supplyThen i u (fun x => .done ((if keep then x else x.unreplayable i.g.crew).supply d))

/-- A copy word issues; SA is a multiple of 4 (R171). -/
def copyWith (w : CopyWord) (s : State) : Outcome := issue { cache := true } (fun _ => true) (copyBody w) s

/-- copy (R171 to R174). -/
def execCopy (a : BitVec 6) (q : BitVec 2) (e : BitVec 1) (d : BitVec 4) (f : BitVec 1) (b : BitVec 4) (v : BitVec 1) (s : State) :
    Outcome :=
  copyWith { op := 0, a := a.toNat, q := q.toNat, dbe := e == 1, db := d.toNat, sbe := f == 1, sb := b.toNat, sv := v == 1 } s

/-- copy.acc (R175). -/
def execCopyAcc (a : BitVec 6) (q : BitVec 2) (e : BitVec 1) (d : BitVec 4) (f : BitVec 1) (b : BitVec 4) (v : BitVec 1) (s : State) :
    Outcome :=
  copyWith { op := 1, a := a.toNat, q := q.toNat, dbe := e == 1, db := d.toNat, sbe := f == 1, sb := b.toNat, sv := v == 1 } s

/-- copy.chk (R184). -/
def execCopyChk (a : BitVec 6) (q : BitVec 2) (e : BitVec 1) (d : BitVec 4) (f : BitVec 1) (b : BitVec 4) (v : BitVec 1) (s : State) :
    Outcome :=
  copyWith { op := 2, a := a.toNat, q := q.toNat, dbe := e == 1, db := d.toNat, sbe := f == 1, sb := b.toNat, sv := v == 1 } s

/-- copy.mc (R173). -/
def execCopyMc (a : BitVec 6) (q : BitVec 2) (e : BitVec 1) (d : BitVec 4) (f : BitVec 1) (b : BitVec 4) (s : State) : Outcome :=
  copyWith { op := 3, a := a.toNat, q := q.toNat, dbe := e == 1, db := d.toNat, sbe := f == 1, sb := b.toNat, sv := false } s

end Sys2Proof.Machine
end

