-- ==== Sys2Proof/Machine/Order.lean ====
section
/-! DEFINITION. Ordering instructions: major 0x28 (R20, R162, R178, R329 to R333, R339, R342 to R344, R353). -/

namespace Sys2Proof.Machine

/-! ### Fences (R331, R339) -/

/-- fence.acq: as every fence it drains the write-combining buffer, whose stores commit before it completes, and waits for
matrix and retrieval work; earlier loads have returned, and the L1 is invalidated by scope (R156, R290, R308, R329, R331). -/
def execFenceAcq (c : BitVec 3) (s : State) : Outcome :=
  issue {} (fun _ => true) (fun i t => releaseThen i c.toNat t (fun u => .done (u.acquireBy i.g c.toNat))) s

/-- fence.rel (R331). -/
def execFenceRel (c : BitVec 3) (s : State) : Outcome :=
  issue {} (fun _ => true) (fun i t => releaseThen i c.toNat t (fun u => .done u)) s

/-- fence.full (R331). -/
def execFenceFull (c : BitVec 3) (s : State) : Outcome :=
  issue {} (fun _ => true) (fun i t => releaseThen i c.toNat t (fun u => .done (u.acquireBy i.g c.toNat))) s

/-- fence.sv: a full fence at .dom that also waits for survivability and reports lost stores (R339). -/
def execFenceSv (d : BitVec 6) (s : State) : Outcome :=
  issue {} (fun _ => true) (fun i t => releaseThen i scopeSv t (fun u =>
    .done ((u.updGang i.g.id (fun g => { g.setS d.toNat (flag64 g.lostStore) false with lostStore := false })).acquireBy
      i.g scopeDom))) s

/-! ### fence.remote (R332) -/

/-- Stands among tags for the strongly ordered lines of a gang, which have none until they are sent. -/
def strongTag (id : Nat) : Nat := 2 ^ 64 + id

/-- Tags of what a gang has in flight: stores, loads, host accesses, matrix and retrieval work. -/
def State.inFlight (s : State) (g : Gang) : List Nat :=
  (s.peerPending.filter (fun p => p.org == .gang g.id)).map (·.tag)
    ++ (s.loads.filter (fun l => l.gang == g.id && l.kind != 2)).map (·.tag)
    ++ (s.hostAtomics.filter (fun h => h.org == .gang g.id)).map (·.tag)
    ++ ((s.core g.core).jobs.filter (fun j => j.gang == g.id)).map (·.id)
    ++ (s.retr.filter (fun r => r.gang == g.id && !r.held)).map (·.id)
    ++ (s.probes.filter (fun p => p.gang == g.id && !p.held)).map (·.tag)
    ++ (if g.strong.isEmpty && g.pendingAcks == 0 then [] else [strongTag g.id])

/-- Every gang of the module, resident or saved at a pre-emption. -/
def State.allGangs (s : State) : List Gang := s.gangs ++ s.crews.flatMap (·.saved)

/-- The tags of every access in flight. -/
def State.allInFlight (s : State) : List Nat := s.allGangs.flatMap s.inFlight

/-- What a gang has in flight as it takes a cut: its sent stores under their tags, its strongly ordered lines together. -/
def State.cutTags (s : State) (g : Gang) : List Nat :=
  if g.strong.isEmpty then (s.inFlight g).filter (· != strongTag g.id) else s.inFlight g

/-- The cut of a victim cluster: each of its gangs of the context drains, and the cluster's L1 is invalidated; a pre-empted
gang has taken its cut where it was pre-empted. Each cut is a release and an acquire (R309, R332). -/
def State.cutCluster (s : State) (i : Issue) (cl : Nat) : State × List Nat :=
  let victim (g : Gang) : Bool := g.ctx == i.g.ctx && clusterOf g.core == cl && g.id != i.g.id
  let vs := s.gangs.filter victim
  let t := (vs.foldl (fun u g => ((u.drainAll g.id).releaseSlots g.id).updGang g.id (fun h => { h with acquired := s.fresh })) s).l1Invalidate cl
  (t, ((vs.filterMap (fun g => t.gang g.id)) ++ ((s.crews.flatMap (·.saved)).filter victim)).flatMap t.cutTags)

/-- A gang has taken a cut and issues no later word until what it had in flight there is performed, as behind a fence.full.mod
(R331, R332). -/
def State.atCut (s : State) (g : Gang) : Bool :=
  s.gangs.any (fun h => h.id != g.id && h.ctx == g.ctx && h.live.any (fun p =>
    match p.2.blocked with
    | some (.cut ts) => (s.inFlight g).any ts.contains
    | _ => false))

/-- fence.remote (R332). -/
def execFenceRemote (a : BitVec 6) (s : State) : Outcome :=
  issue {} (fun _ => true) (fun i t =>
    let cl := (i.g.sreg a.toNat).toNat
    match i.sp.blocked with
    | some (.cut ts) =>
      let left := ts.filter (fun x => t.allInFlight.contains x)
      if left.isEmpty then .done (t.acquireBy i.g scopeMod) else .wait t (.cut left)
    | _ =>
      if 575 < cl then .trap t 0x13 i.act 0
      else releaseThen i scopeMod t (fun u =>
        let r := u.cutCluster i cl
        if r.2.isEmpty then .done (r.1.acquireBy i.g scopeMod) else .wait r.1 (.cut r.2))) s

/-! ### qfence (R178, R333) -/

/-- The slice of a qfence: the queues of its mask; queue 4 stands for the retrieval queue. -/
def Gang.fenceSlice (g : Gang) (q : BitVec 5) : CopySlice :=
  { gang := g.id, crew := g.crew, ctx := g.ctx, op := 4, queues := (List.range 5).filter (fun k => bit q.toNat k), dbar := none,
    sbar := none, sv := false, dst := 0, src := 0, rows := 0, dk := 0, sk := 0, code := 0, len := 0, dpitch := 0, spitch := 0,
    depth := g.tdepth, policy := 0, empty := true, dests := [], dobj := none, sobj := none, void := false, xl := [], word := w32 (0x28 * 2 ^ 26 + 5 * 2 ^ 22 + 4 * q.toNat),
    image := List.replicate 4 0 }

/-- qfence. The release that its issue makes waits for the gang's retrieval work, so that a complete qfence holds nothing
back in the retrieval queue (R179, R308). -/
def execQfence (q : BitVec 5) (s : State) : Outcome :=
  issue {} (fun _ => true) (fun i t =>
    let c := i.g.fenceSlice q
    if i.act != allLanes then .trap t 0x03 i.act 0
    else if i.g.copySlot.isSome then .wait t .copySlot
    else if !t.sliceFits c then refuseSlice i t c 0x13 0
    else supplyThen i t (fun u => .done (u.supply c))) s

/-! ### seal and unseal (R91, R342, R343) -/

/-- Bytes of addresses that a table entry which is missing or malformed at a level leaves without a page. -/
def missSpan (l : Nat) : Nat := if l = 0 then 2 ^ 48 else if l = 1 then 2 ^ 39 else if l = 2 then 2 ^ 30 else if l = 3 then 2 ^ 21 else 2 ^ 12

/-- The walks of the pages of a range read their entries at their slices (R93); fuel is at least the number of 4 KiB pages. -/
def State.walksIn (ctx end_ : Nat) : Nat → Nat → State → State
  | 0, _, s => s
  | n + 1, va, s =>
    if end_ ≤ va then s
    else
      let t := s.walked ctx va
      match walk t ctx va with
      | .leaf base size _ _ => State.walksIn ctx end_ n (base + size) t
      | .invalid l | .malformed l => State.walksIn ctx end_ n (alignDown va (missSpan l) + missSpan l) t

/-- The walks of n bytes from an address on. -/
def State.walksOver (s : State) (ctx va n : Nat) : State := s.walksIn ctx (va + n) (n / 4096 + 2) va

/-- Leaves whose pages lie wholly inside a range, with their virtual base, size, local address and entry; fuel is at least
the number of 4 KiB pages, and a table that is missing is stepped over whole. -/
def leavesIn (s : State) (ctx end_ : Nat) : Nat → Nat → List (Nat × Nat × Nat × Nat)
  | 0, _ => []
  | n + 1, va =>
    if end_ ≤ va then []
    else
      match walk s ctx va with
      | .leaf base size a e =>
        (if base == va && va + size ≤ end_ then [(base, size, a, e)] else []) ++ leavesIn s ctx end_ n (base + size)
      | .invalid l | .malformed l =>
        leavesIn s ctx end_ n (alignDown va (missSpan l) + missSpan l)

/-- The leaf after seal: SWR := WR, SEAL := 1, WR := 0. -/
def sealedLeaf (e : Nat) : Nat := e - 2 ^ 4 * b2n (leafWr e) - 2 ^ 2 * b2n (leafSwr e) + 2 ^ 2 * b2n (leafWr e) + 2 ^ 11

/-- The leaf after unseal: WR := SWR, SWR := 0, SEAL := 0. -/
def unsealedLeaf (e : Nat) : Nat := e - 2 ^ 4 * b2n (leafWr e) - 2 ^ 2 * b2n (leafSwr e) + 2 ^ 4 * b2n (leafSwr e) - 2 ^ 11

/-- A range of addresses leaves every TLB and every walker of the module. -/
def State.tlbDrop (s : State) (ctx base size : Nat) : State :=
  { s with tlb := s.tlb.filter (fun t => !(t.ctx == ctx && t.va < base + size && base < t.va + t.size))
           ptrs := s.ptrs.filter (fun p => !(p.ctx == ctx && p.va < base + size && base < p.va + ptrSpan p.level)) }

/-- A leaf is rewritten in its table, and its page leaves the TLBs. -/
def State.setLeaf (s : State) (ctx : Nat) (l : Nat × Nat × Nat × Nat) (e : Nat) : State :=
  (s.commitWrite (deviceWrite l.2.2.1 0 0 (leBytes 8 e))).tlbDrop ctx l.1 l.2.1

/-- The marked lines of a page leave every cluster L1, and none on its way from a peer enters one (R162, R343). -/
def State.dropMarked (s : State) (phys size : Nat) : State :=
  { s with l1 := s.l1.filter (fun x => !(x.sealed && phys ≤ x.line && x.line < phys + size)) : State }.cancelWhere
    (fun r base => r.mark && phys ≤ base && base < phys + size)

/-- The operands of seal and unseal: base, length and context, unless malformed. -/
def State.sealRange (s : State) (x y : DWord) : Option (Nat × Nat × Nat) :=
  let base := x.toNat
  let len := bits y.toNat 0 48
  let ctx := bits y.toNat 48 16
  if base % 4096 != 0 || bits base 56 8 != 0 || len == 0 || len % 4096 != 0 || (s.rootOf ctx).isNone then none
  else some (base, len, ctx)

/-- Captured pages meet a virtual range. -/
def xlMeets (xl : List (Nat × Nat × Nat × Nat)) (base len : Nat) : Bool := xl.any (fun p => p.1 < base + len && base < p.1 + p.2.1)

/-- The answer that a claim at a peer awaits: the pair of registers is its alone (R368). -/
def PendLoad.isClaim (l : PendLoad) : Bool := l.kind == 0 && l.size == 16

/-- Writes of a context to a range that were translated and have not committed: stores, atomics, copies, drains and bucket
operations, of pre-empted gangs too (R342). -/
def State.rangeBusy (s : State) (ctx base len : Nat) : Bool :=
  let gs := s.allGangs.filter (fun g => g.ctx == ctx)
  gs.any (fun g => g.owes || (match g.copySlot with | some c => xlMeets c.xl base len | none => false)
      || (s.core g.core).jobs.any (fun j => j.gang == g.id && xlMeets j.xl base len))
    || s.colls.any (fun c => !c.done && c.ctx == ctx && c.slices.any (fun sl => xlMeets sl.xl base len))
    || s.retr.any (fun r => r.ctx == ctx && !r.held && xlMeets r.req.xl base len)
    || s.loads.any (fun l => (l.near.isSome || l.isClaim) && gs.any (fun g => g.id == l.gang))

/-- The write-combining buffers of a context's gangs drain. -/
def State.drainCtx (s : State) (ctx : Nat) : State :=
  (s.gangs.filter (fun g => g.ctx == ctx)).foldl (fun t g => t.drainAll g.id) s

/-- Every leaf of a range is sealed, but for those that are already. -/
def State.sealAll (s : State) (ctx base len : Nat) : State :=
  (leavesIn s ctx (base + len) (len / 4096 + 1) base).foldl (fun t l =>
    if leafSeal l.2.2.2 then t.tlbDrop ctx l.1 l.2.1 else t.setLeaf ctx l (sealedLeaf l.2.2.2)) s

/-- Every sealed leaf of a range is unsealed. -/
def State.unsealAll (s : State) (ctx base len : Nat) : State :=
  (leavesIn s ctx (base + len) (len / 4096 + 1) base).foldl (fun t l =>
    if leafSeal l.2.2.2 then
      (t.setLeaf ctx l (unsealedLeaf l.2.2.2)).dropMarked (dpa (leafModule l.2.2.2) (leafFrame l.2.2.2)) l.2.1
    else t) s

/-- The frame of seal and unseal: the resident's alone, and its operands well formed (R330, R343). -/
def sealFrame (a b : BitVec 6) (s : State) (go : Issue → Nat × Nat × Nat → State → Res) : Outcome :=
  issue {} (fun _ => true) (fun i t =>
    if i.g.ctx ≠ 0 then .trap t 0x02 i.act 0
    else if i.g.smark a.toNat || i.g.smark b.toNat then .trap t 0x09 i.act 0
    else
      match t.sealRange (i.g.sreg a.toNat) (i.g.sreg b.toNat) with
      | none => .done (t.machineCheck 4 (i.g.sreg a.toNat).toNat 0)
      | some r => go i r t) s

/-- seal (R342). DEDUCED (unsafe), log entry 41. -/
def execSealPages (a b : BitVec 6) (s : State) : Outcome :=
  sealFrame a b s (fun i r t => releaseAtThen i (some scopeMod) t (fun u =>
    let v := u.drainCtx r.2.2
    if v.rangeBusy r.2.2 r.1 r.2.1 then .wait v (.quiet r.2.2 r.1 r.2.1) else .done ((v.walksOver r.2.2 r.1 r.2.1).sealAll r.2.2 r.1 r.2.1)))

/-- unseal (R343). DEDUCED (unsafe), log entry 41. -/
def execUnsealPages (a b : BitVec 6) (s : State) : Outcome :=
  sealFrame a b s (fun i r t => releaseAtThen i (some scopeMod) t (fun u => .done ((u.walksOver r.2.2 r.1 r.2.1).unsealAll r.2.2 r.1 r.2.1)))

/-! ### drysync (R20, R344) -/

/-- An island as a start leaves it: at FULL (R18). -/
def IslSt.zero : IslSt := { req := 0, cur := 0, busy := false, goal := 0, err := false, power := 0, thermal := 0, stepped := none, due := [] }

/-- Island n of the module (R15). -/
def State.island (s : State) (n : Nat) : IslSt := sget IslSt.zero s.islands n

/-- The island of a cluster (R15). -/
def islandOf (cluster : Nat) : Nat := 4 * (cluster / 36) + cluster % 36 / 12

/-- The core's island is gated (R17, R20). -/
def State.gated (s : State) (core : Nat) : Bool := (s.island (islandOf (core / 4))).cur == 6

/-- The clocks of a gang's core run: no island's gating stops a control core (R17, R20). -/
def State.clocked (s : State) (g : Gang) : Bool := g.onControl || !s.gated g.core

/-- A skim pass of the core is in progress: it begins as the core is closed and ends as it is opened or fails. -/
def State.inPass (s : State) (core : Nat) : Bool := (s.core core).closed

/-- Cores whose passes a drysync awaits: in service and not gated; n + 4096 while an earlier pass is in progress. -/
def State.skimCores (s : State) : List Nat :=
  ((List.range Config.cores).filter (fun c => !(s.core c).outOfService && !s.gated c)).map
    (fun c => if s.inPass c then c + 4096 else c)

/-- drysync (R344). -/
def execDrysync (d : BitVec 6) (s : State) : Outcome :=
  issue {} (fun _ => true) (fun i t =>
    let put (u : State) (bad : Bool) : Res := .done (u.updGang i.g.id (fun g => g.setS d.toNat (flag64 bad) false))
    match i.sp.blocked with
    | some (.skim [] bad) => put t bad
    | some (.skim cs bad) => .wait t (.skim cs bad)
    | _ =>
      match t.skimCores with
      | [] => put t false
      | cs => .wait t (.skim cs false)) s

end Sys2Proof.Machine
end

