-- ==== Sys2Proof/Machine/MatrixOps.lean ====
section
/-! DEFINITION. Matrix instructions: major 0x2B (R274 to R290). Each is checked at issue and enters its core's queue; the
events of the array, drain unit, tile port and trowel are in this file's second half. -/

namespace Sys2Proof.Machine

/-! ### Checks at issue (R277 to R279, R284) -/

/-- Tile registers and accumulators of the issuing crew. -/
def State.tileCounts (s : State) (i : Issue) : Nat × Nat := ((s.crew i.g.crew).map (fun c => (c.zregs, c.accs))).getD (0, 0)

/-- Extents register: ME, NE, KE, each at most a maximum (R279). -/
def extents (x : DWord) (m n k : Nat) : Nat × Nat × Nat :=
  (min (bits x.toNat 0 8) m, min (bits x.toNat 8 8) n, min (bits x.toNat 16 8) k)

/-- z registers from z on, as tiles of a crew. -/
def zTiles (v z n : Nat) : List (Nat × Nat) := (List.range n).map (fun k => (v, z + k))

/-- Accumulator n as a tile of a crew. -/
def accTileOf (v n : Nat) : Nat × Nat := (v, 16 + n)

/-- A pad bound broken by ranges of pad bytes: the address (R158). -/
def padBreach (rs : List (Nat × Nat)) (end_ : Nat) : Option Nat :=
  rs.findSome? (fun r => if r.2 ≠ 0 && end_ < r.1 + r.2 then some (max r.1 end_) else none)

/-- A matrix job of an instruction, with nothing but what is captured of its issuer. -/
def Issue.job (i : Issue) (op acc : Nat) : MatJob :=
  let none' : Operand := { kind := 0, base := 0, pitch := 0, scale := 0 }
  { id := 0, gang := i.g.id, crew := i.g.crew, op, acc, a := none', b := none', z := 0, cnt := 0, me := 0, ne := 0, ke := 0,
    fmt := i.sp.fmt, first := i.sp.firstPc, lanes := i.act, xl := [], started := false, acks := none, policy := i.sp.hints.policy, crew2 := i.g.crew, tiles := [] }

/-- A job enters its core's queue, and its unit learns of it. -/
def State.queueJob (s : State) (core : Nat) (j : MatJob) (e : Event) : State :=
  ({ s with fresh := s.fresh + 1 }.updCore core (fun c => { c with jobs := c.jobs ++ [{ j with id := s.fresh }] })).postEvent e

/-- Checks 1 and 2 of R284: legality, then 32 active lanes. -/
def matFrame (s : State) (legal : Issue → State → Bool) (body : Issue → State → Res) : Outcome :=
  issue {} (fun _ => true) (fun i t =>
    if !legal i t then .trap t 0x01 i.act 0
    else if i.act != allLanes then .trap t 0x03 i.act 0
    else body i t) s

/-! ### mma and mma.p (R282, R285) -/

/-- K of the issuing split's operand formats (R274). -/
def Issue.matK (i : Issue) : Nat := (Sys2Proof.Machine.matK (fmtAF i.sp.fmt) (fmtBF i.sp.fmt)).getD 0

/-- The operand of a field: tile registers from a z number, or the pad operand of a scalar (R277, R278). -/
def Issue.operand (i : Issue) (pad : Bool) (r : BitVec 6) (code lines : Nat) : Operand :=
  if pad then padOperand (i.g.sreg r.toNat) else tileOperand code lines i.matK r.toNat

/-- The accumulator and the operand spans of an mma exist, and its formats are a legal pair. -/
def mmaLegal (acc : Nat) (pa pb : Bool) (a b : BitVec 6) (cols : Nat) (i : Issue) (s : State) : Bool :=
  let w := i.sp.fmt
  let n := s.tileCounts i
  (Sys2Proof.Machine.matK (fmtAF w) (fmtBF w)).isSome && operandFmtOk w (fmtAF w) && operandFmtOk w (fmtBF w) && acc < n.2
    && (pa || a.toNat + tileSpan w (fmtAF w) 128 i.matK ≤ n.1) && (pb || b.toNat + tileSpan w (fmtBF w) cols i.matK ≤ n.1)

/-- The job of an mma or mma.p. -/
def Issue.mmaJob (i : Issue) (op acc : Nat) (pa pb : Bool) (a b x : BitVec 6) (cols crew2 : Nat) : MatJob :=
  let w := i.sp.fmt
  let e := extents (i.g.sreg x.toNat) 128 cols i.matK
  { i.job op acc with
    a := i.operand pa a (fmtAF w) 128, b := i.operand pb b (fmtBF w) cols, me := e.1, ne := e.2.1, ke := e.2.2, crew2,
    tiles := (if pa then [] else zTiles i.g.crew a.toNat (tileSpan w (fmtAF w) 128 i.matK))
      ++ (if pb then [] else zTiles i.g.crew b.toNat (tileSpan w (fmtBF w) cols i.matK))
      ++ [accTileOf i.g.crew acc] ++ (if op = 1 then [accTileOf crew2 acc] else []) }

/-- Check 3 of R284 for an mma. -/
def State.mmaBreach (s : State) (i : Issue) (j : MatJob) : Option Nat :=
  let w := i.sp.fmt
  padBreach (operandRanges j.a w (fmtAF w) i.matK j.me ++ operandRanges j.b w (fmtBF w) i.matK j.ne) (s.padSize i.g.crew)

/-- Two issued mma wait to start at an array (R275). DEDUCED (unsafe), log entry 77. -/
def State.arrayFull (s : State) (core : Nat) : Bool := 2 ≤ ((s.core core).jobs.filter (fun j => j.op ≤ 1 && !j.started)).length

/-- A scalar register that names or bounds an mma's operands is poisoned (R387). -/
def Issue.mmaMarked (i : Issue) (pa pb : Bool) (a b x : BitVec 6) : Bool :=
  (pa && i.g.smark a.toNat) || (pb && i.g.smark b.toNat) || i.g.smark x.toNat

/-- The job enters the array's queue unless two wait there, or its pad operands are yet to be written (R290, R308). -/
def enterArray (i : Issue) (t : State) (marked : Bool) (j : MatJob) : Res :=
  if t.arrayFull i.g.core then .wait t .unit
  else if (j.a.kind == 1 || j.b.kind == 1) && t.retrHolds i.g then .wait t .matrix
  else if marked then .trap t 0x09 i.act 0
  else .done (t.queueJob i.g.core j (.mmaStart i.g.core))

/-- mma (R285). -/
def execMma (c : BitVec 2) (p : BitVec 1) (a : BitVec 6) (q : BitVec 1) (b x : BitVec 6) (s : State) : Outcome :=
  matFrame s (mmaLegal c.toNat (p == 1) (q == 1) a b 64) (fun i t =>
    let j := i.mmaJob 0 c.toNat (p == 1) (q == 1) a b x 64 i.g.crew
    match t.mmaBreach i j with
    | some addr => .trap t 0x07 i.act addr
    | none =>
      if !t.holdsTrowel i.g then .trap t 0x04 i.act 0
      else enterArray i t (i.mmaMarked (p == 1) (q == 1) a b x) j)

/-- The gang that holds the partner's trowel open, of the leader's context (R282). -/
def State.follower (s : State) (g : Gang) : Option Gang :=
  match (s.core (partner g.core)).trowel with
  | some (id, true) => (s.gang id).bind (fun h => if h.ctx = g.ctx then some h else none)
  | _ => none

/-- The holder's trowel is open. -/
def State.trowelOpen (s : State) (core : Nat) : Bool := ((s.core core).trowel.map (·.2)).getD false

/-- mma.p (R282). -/
def execMmaP (c : BitVec 2) (p : BitVec 1) (a : BitVec 6) (q : BitVec 1) (b x : BitVec 6) (s : State) : Outcome :=
  matFrame s (mmaLegal c.toNat (p == 1) (q == 1) a b 128) (fun i t =>
    let j := i.mmaJob 1 c.toNat (p == 1) (q == 1) a b x 128
    match t.mmaBreach i (j i.g.crew) with
    | some addr => .trap t 0x07 i.act addr
    | none =>
      if !t.holdsTrowel i.g || t.trowelOpen i.g.core then .trap t 0x04 i.act 0
      else
        match t.follower i.g with
        | none => .wait t .follower
        | some h =>
          if (t.crew h.crew).all (fun k => k.accs ≤ c.toNat) then .trap t 0x04 i.act 0
          else enterArray i t (i.mmaMarked (p == 1) (q == 1) a b x) (j h.crew))

/-! ### mzero, mtake, mgive (R281, R286) -/

/-- mzero (R286). -/
def execMzero (c : BitVec 2) (s : State) : Outcome :=
  matFrame s (fun i t => decide (c.toNat < (t.tileCounts i).2)) (fun i t =>
    .done (t.queueJob i.g.core { i.job 2 c.toNat with tiles := [accTileOf i.g.crew c.toNat] } (.mzeroRetire i.g.core)))

/-- The gang holds its core's trowel, open or not. -/
def State.hold (s : State) (g : Gang) (f : Bool) : State :=
  s.updCore g.core (fun c => { c with trowel := some (g.id, f), passing := none })

/-- The frame of mtake and mtake.f. -/
def take (f : Bool) (s : State) : Outcome :=
  matFrame s (fun _ _ => true) (fun i t =>
    let c := t.core i.g.core
    if t.holdsTrowel i.g || (c.trowel.isNone && c.passing.isNone) then .done (t.hold i.g f) else .wait t (.trowel f))

/-- mtake (R281). -/
def execMtake (s : State) : Outcome := take false s

/-- mtake.f (R281). -/
def execMtakeF (s : State) : Outcome := take true s

/-- mgive (R281). -/
def execMgive (s : State) : Outcome :=
  matFrame s (fun _ _ => true) (fun i t =>
    if t.holdsTrowel i.g then .done (t.passTrowel i.g.core (t.ringPlace i.g)) else .trap t 0x04 i.act 0)

/-! ### Drains (R287, R288) -/

/-- The destination of a copy: tile registers, pad, or memory. -/
def Issue.drainTo (i : Issue) (k : Nat) (d : BitVec 6) (code lines n : Nat) : Operand :=
  if k = 0 then tileOperand code lines n d.toNat
  else if k = 1 then padOperand (i.g.sreg d.toNat)
  else memOperand (i.g.sreg d.toNat) (i.g.sreg (d.toNat + 1))

/-- The formats and the destination spans of a drain are legal. -/
def drainLegal (acc k : Nat) (d : BitVec 6) (t : Option (BitVec 6)) (i : Issue) (s : State) : Bool :=
  let w := i.sp.fmt
  let n := s.tileCounts i
  acc < n.2 && drainFmtOk w (fmtDF w) && (k != 0 || d.toNat + tileSpan w (fmtDF w) 128 64 ≤ n.1)
    && (match t with
        | none => true
        | some r => drainFmtOk w (fmtTF w) && (k != 0 || r.toNat + tileSpan w (fmtTF w) 64 128 ≤ n.1))

/-- Global memory that a matrix instruction names, by ranges. -/
def State.reachRanges (s : State) (i : Issue) (need : Nat) (rs : List (Nat × Nat)) : State × Access :=
  s.coalesce i.g need (rs.flatMap (fun r => rangeParts 0 (r.2 / 128 + 2) 0 r.1 r.2))

/-- The checks of a drain or move over what it names, in the order of R284, and its job; stores to strongly ordered pages are
a release first, and loads from them wait for earlier strongly ordered stores (R288, R289, R325). -/
def matReach (i : Issue) (t : State) (kind need : Nat) (rs : List (Nat × Nat)) (marked : Bool) (go : State → List Located → Res) : Res :=
  if kind = 1 then
    match padBreach rs (t.padSize i.g.crew) with
    | some addr => .trap t 0x07 i.act addr
    | none => if t.retrHolds i.g then .wait t .matrix else if marked then .trap t 0x09 i.act 0 else go t []
  else if kind = 2 then
    match t.reachRanges i need rs with
    | (u, .lease addr) => .trap u 0x07 i.act addr
    | (u, .resident addr) => .done (u.machineCheck 3 addr 0)
    | (u, .ok ls) =>
      match (if need = needWrite then ls.find? (·.isSealed) else none) with
      | some p => .trap u 0x08 i.act p.part.va
      | none =>
        if marked then .trap u 0x09 i.act 0
        else if need = needWrite then releaseAtThen i (if anyStrong ls then some scopeMod else none) u (fun v => go v ls)
        else
          let v := if anyStrong ls then u.drainAll i.g.id else u
          if strongWaits v i.g ls then .wait v .drain else go v ls
  else if marked then .trap t 0x09 i.act 0
  else go t []

/-- A drain, with its transposed destination if there is one. -/
def drain (acc : BitVec 2) (k : BitVec 2) (d : BitVec 6) (tr : Option (BitVec 6)) (x : BitVec 6) (s : State) : Outcome :=
  matFrame s (drainLegal acc.toNat k.toNat d tr) (fun i t =>
    let w := i.sp.fmt
    let v := i.g.crew
    let e := extents (i.g.sreg x.toNat) 128 64 255
    let a := i.drainTo k.toNat d (fmtDF w) 128 64
    let b := i.drainTo k.toNat (tr.getD d) (fmtTF w) 64 128
    let rs := drainRanges a w (fmtDF w) 64 e.2.1 e.1 ++ (if tr.isSome then drainRanges b w (fmtTF w) 128 e.1 e.2.1 else [])
    let reg (r : BitVec 6) : Bool := i.g.smark r.toNat || (k == 2 && i.g.smark (r.toNat + 1))
    let marked := i.g.smark x.toNat || (k != 0 && (reg d || (match tr with | some r => reg r | none => false)))
    matReach i t k.toNat needWrite rs marked (fun u ls =>
      .done (u.queueJob i.g.core { i.job (if tr.isSome then 4 else 3) acc.toNat with
        a, b := if tr.isSome then b else a, me := e.1, ne := e.2.1, xl := pagesOf ls,
        tiles := [accTileOf v acc.toNat] ++ (if k != 0 then [] else
          zTiles v d.toNat (tileSpan w (fmtDF w) 128 64)
            ++ (match tr with | some r => zTiles v r.toNat (tileSpan w (fmtTF w) 64 128) | none => [])) }
        (.mdrainStart i.g.core))))

/-- mdrain (R287). -/
def execMdrain (c k : BitVec 2) (d x : BitVec 6) (s : State) : Outcome := drain c k d none x s

/-- mdrain.t (R287). -/
def execMdrainT (c k : BitVec 2) (d t x : BitVec 6) (s : State) : Outcome := drain c k d (some t) x s

/-! ### zld and zst (R289) -/

/-- The memory or pad side of a zld or zst. -/
def Issue.moveOperand (i : Issue) (pad : Bool) (r : BitVec 6) : Operand :=
  let x := (i.g.sreg r.toNat).toNat
  let y := (i.g.sreg (r.toNat + 1)).toNat
  { kind := if pad then 1 else 2, base := if pad then x % 2 ^ 32 else x, pitch := bits y 0 32, scale := bits y 32 16 }

/-- A zld or zst. -/
def move (op need : Nat) (z n : BitVec 4) (k : BitVec 1) (r : BitVec 6) (s : State) : Outcome :=
  matFrame s (fun i t => decide (z.toNat + n.toNat < (t.tileCounts i).1)) (fun i t =>
    let o := i.moveOperand (k == 1) r
    let cnt := n.toNat + 1
    let rs := (moveRuns o (8192 * cnt)).map (fun x => (x.1, x.2.1))
    matReach i t o.kind need rs (i.g.smark r.toNat || i.g.smark (r.toNat + 1)) (fun u ls =>
      .done (u.queueJob i.g.core { i.job op 0 with
        a := o, z := z.toNat, cnt, xl := pagesOf ls, tiles := zTiles i.g.crew z.toNat cnt } (.tilePortRetire i.g.core))))

/-- zld (R289). -/
def execZld (z n : BitVec 4) (k : BitVec 1) (r : BitVec 6) (s : State) : Outcome := move 5 needRead z n k r s

/-- zst (R289). -/
def execZst (z n : BitVec 4) (k : BitVec 1) (r : BitVec 6) (s : State) : Outcome := move 6 needWrite z n k r s

/-! ### The units at work (R275, R276, R281, R290) -/

/-- The first job of a kind that has not started. -/
def State.firstJob (s : State) (core : Nat) (kind : Nat → Bool) : Option MatJob :=
  (s.core core).jobs.find? (fun j => kind j.op && !j.started)

/-- The first job of a kind that has started. -/
def State.startedJob (s : State) (core : Nat) (kind : Nat → Bool) : Option MatJob :=
  (s.core core).jobs.find? (fun j => kind j.op && j.started)

/-- Operations of the array, the drain unit and the tile port. -/
def isMma (op : Nat) : Bool := op ≤ 1
def isDrain (op : Nat) : Bool := op == 3 || op == 4
def isMove (op : Nat) : Bool := op == 5 || op == 6

/-- The units of a core make progress: its island's clocks run (R17). -/
def State.unitsRun (s : State) (core : Nat) : Bool := !s.gated core

/-- The mma that the array starts next, when it may: the array is free, and so is the follower's for mma.p (R275, R282,
R290). -/
def State.nextMma (s : State) (core : Nat) : Option MatJob :=
  if (s.startedJob core isMma).isSome || !s.unitsRun core then none
  else (s.firstJob core isMma).bind (fun j => if s.jobReady core j then some j else none)

/-- The mma that the array is performing. -/
def State.runningMma (s : State) (core : Nat) : Option MatJob := if s.unitsRun core then s.startedJob core isMma else none

/-- The drain that the drain unit starts next, when it may (R276, R290). -/
def State.nextDrain (s : State) (core : Nat) : Option MatJob :=
  if (s.startedJob core isDrain).isSome || !s.unitsRun core then none
  else (s.firstJob core isDrain).bind (fun j => if s.jobReady core j then some j else none)

/-- The drain that the drain unit performs, or has performed and whose stores have all committed (R276). -/
def State.runningDrain (s : State) (core : Nat) : Option MatJob :=
  if s.unitsRun core then (s.startedJob core isDrain).bind (fun j => if s.committedJob j then some j else none) else none

/-- A job starts, and its retirement is due. -/
def State.startJob (s : State) (core : Nat) (j : MatJob) (e : Event) : State := (s.setJob core { j with started := true }).postEvent e

/-- The next mzero, zld or zst that may take effect. -/
def State.nextReady (s : State) (core : Nat) (kind : Nat → Bool) : Option MatJob :=
  if s.unitsRun core then (s.firstJob core kind).bind (fun j => if s.jobReady core j then some j else none) else none

/-- The zst that has taken effect and whose stores have all committed, or the next move of the tile port. -/
def State.nextMove (s : State) (core : Nat) : Option MatJob :=
  if s.unitsRun core then
    ((s.core core).jobs.find? (fun j => j.op == 6 && j.acks.isSome && s.committedJob j)).or (s.nextReady core isMove)
  else none

/-- Job n has not retired, and its retirement is due again. -/
def State.dueAgain (s : State) (core id : Nat) (e : Event) : State :=
  if (s.core core).jobs.any (fun j => j.id == id) then s.postEvent e else s

/-- MMA_START (R275). -/
def execMmaStart (core : Nat) (s : State) : Outcome :=
  happen (match s.nextMma core with | some j => s.startJob core j (.mmaRetire core) | none => s)

/-- MMA_RETIRE (R285). -/
def execMmaRetire (core : Nat) (s : State) : Outcome :=
  happen (match s.runningMma core with
    | some j => (s.runJob core j).postEvent (.mmaStart core)
    | none => s)

/-- MDRAIN_START (R276). -/
def execMdrainStart (core : Nat) (s : State) : Outcome :=
  happen (match s.nextDrain core with | some j => s.startJob core j (.mdrainRetire core) | none => s)

/-- MDRAIN_RETIRE (R276, R287): to memory, once every store has committed. -/
def execMdrainRetire (core : Nat) (s : State) : Outcome :=
  happen (match s.runningDrain core with
    | some j => ((s.runJob core j).postEvent (.mdrainStart core)).dueAgain core j.id (.mdrainRetire core)
    | none => s)

/-- MZERO_RETIRE (R276, R286). -/
def execMzeroRetire (core : Nat) (s : State) : Outcome :=
  happen (match s.nextReady core (· == 2) with | some j => s.runJob core j | none => s)

/-- TILE_PORT_RETIRE (R276, R289): of a zst to memory, once every store has committed. -/
def execTilePortRetire (core : Nat) (s : State) : Outcome :=
  happen (match s.nextMove core with
    | some j => if j.op = 6 then (s.runJob core j).dueAgain core j.id (.tilePortRetire core) else s.runJob core j
    | none => s)

/-- The trowel arrives at the gang it was passed to: it holds it, open as its mtake or its restore asks. A gang that no
longer waits passes it on (R281, R291). -/
def State.arriveTrowel (s : State) (core : Nat) : State :=
  match (s.core core).passing with
  | none => s
  | some id =>
    match s.gang id with
    | none => s.passTrowel core (s.core core).last
    | some g =>
      match g.retake, g.live.findSome? (fun p => match p.2.blocked with | some (.trowel f) => some f | _ => none) with
      | some f, _ => (s.hold g f).updGang id (fun h => { h with retake := none })
      | none, some f => s.hold g f
      | none, none => s.passTrowel core (s.core core).last

/-- TROWEL_PASS (R281). -/
def execTrowelPass (core : Nat) (s : State) : Outcome := happen (if s.unitsRun core then s.arriveTrowel core else s)

end Sys2Proof.Machine
end

