-- ==== Sys2Proof/Machine/RetrievalOps.lean ====
section
/-! DEFINITION. Retrieval instructions: major 0x2C (R292 to R316, R452), and the events of a retrieval unit. -/

namespace Sys2Proof.Machine

/-! ### Checks (R294, R314) -/

/-- What a retrieval instruction names for its checks: byte ranges by virtual address, with the lanes they belong to, or
no lane. -/
structure Named where
  va : Nat
  len : Nat
  lane : Option Nat
  deriving DecidableEq, Repr

/-- The parts of a range; the lane of each part is kept as lane + 1, or 0. -/
def Named.parts (n : Named) : List Part :=
  rangeParts (match n.lane with | some l => l + 1 | none => 0) (n.len / 128 + 2) 0 n.va n.len

/-- A located part breaks R294: a foreign home or a watched page. -/
def offends (m : Nat) (p : Located) : Bool := dpaModule p.phys != m || leafWatch p.leaf || !isDram (dpaLocal p.phys)

/-- The cause 0x11 of order 3: lanes at fault, or the active mask (R314). -/
def tableError (i : Issue) (t : State) (lanes : List Nat) (addr : Nat) : Res :=
  .trap t 0x11 (if lanes.isEmpty then i.act else maskOf lanes) addr

/-- The order of R314's checks past decoding: lease, descriptor and key errors, pages, seal, then poisoned operands.
`pad`: a pad address beyond the crew's pad. `bad`: lanes at fault, or a fault of the whole with its address. -/
def retrCheck (i : Issue) (t : State) (need : Nat) (ns : List Named) (pad : Option Nat) (lanes : List Nat) (bad : Option Nat)
    (marked : Bool) (go : State → List Located → Res) : Res :=
  match t.coalesce i.g need (ns.flatMap Named.parts) with
  | (u, .lease a) => .trap u 0x07 i.act a
  | (u, .resident a) => .done (u.machineCheck 3 a 0)
  | (u, .ok ls) =>
    let wrong := ls.filter (offends u.mgmt.modid)
    match pad, bad with
    | some a, _ => .trap u 0x07 i.act a
    | none, some a => tableError i u lanes a
    | none, none =>
      if !lanes.isEmpty || !wrong.isEmpty then
        tableError i u (lanes ++ (wrong.map (·.part.lane)).filterMap (fun l => if l = 0 then none else some (l - 1)))
          ((wrong.head?.map (·.part.va)).getD 0)
      else
        match ls.find? (·.isSealed) with
        | some p => .trap u 0x08 i.act p.part.va
        | none => if marked then .trap u 0x09 i.act 0 else go u ls

/-- The ranges of a slot's pool under POLICY 3. -/
def poolNamed (c : List DWord) : List Named :=
  if cfgPolicy c = 3 then [{ va := cfgPool c, len := 64 * cfgPoolN c, lane := none }] else []

/-- The bucket of each lane's key. -/
def bucketNamed (c : List DWord) (l : Nat) (k : Word) : Named := { va := bucketVa c k, len := 64, lane := some l }

/-- An empty slot is named (R314, order 3). -/
def emptySlot (i : Issue) (t : State) : Res := tableError i t [] 0

/-! ### rfam (R311) -/

/-- A gang installs contents in the slot h of its context; what it installed there and has not released is seen by no
gang any longer (R309). -/
def State.setSlot (s : State) (g : Gang) (h va desc : Nat) (config : List DWord) (empty : Bool) : State :=
  { s with hashes := s.hashes.filter (fun y => !(y.ctx == g.ctx && y.h == h && y.gang == g.id && y.released.isNone)) ++
      [{ ctx := g.ctx, h, gang := g.id, stamp := s.fresh, released := none, descVa := va, desc, config, empty }] }

/-- The 64 bytes at a local address as words. -/
def State.eightWords (s : State) (a : Nat) : List DWord := (List.range 8).map (fun k => dw (s.readLe (a + 8 * k) 8))

/-- rfam (R311). -/
def execRfam (h : BitVec 3) (a : BitVec 6) (s : State) : Outcome :=
  issue {} (fun _ => true) (fun i t =>
    let x := (i.g.sreg a.toNat).toNat
    if i.g.smark a.toNat then .trap t 0x09 i.act 0
    else if x = 0 then .done (t.setSlot i.g h.toNat 0 0 [] true)
    else
      retrCheck i t needRead [{ va := x, len := 64, lane := none }] none [] (if x % 64 ≠ 0 then some x else none) false (fun u ls =>
        let d := (homeOf (pagesOf ls) x).1
        let v := (u.drainVa i.g.id (pagesOf ls) [x]).touch d 64
        let c := v.eightWords d
        if v.poisoned d then .trap v 0x09 i.act (dpa v.mgmt.modid d)
        else if !cfgOk c then tableError i v [] x
        else .done (v.setSlot i.g h.toNat x d c false))) s

/-! ### rprobe (R301 to R303) -/

/-- Distinct buckets that lanes name, by local address, in the order of the lanes. -/
def namedBuckets (ls : List (Nat × Nat)) : List Nat := distinct (ls.map (·.2))

/-- A probe with its buckets still to read. -/
def Issue.probe (i : Issue) (x : HashSlot) (tag dest list cap : Nat) (xl : List (Nat × Nat × Nat × Nat)) (keys : List (Nat × Word)) : Probe :=
  let lanes := keys.map (fun k => (k.1, (homeOf xl (bucketVa x.config k.2)).1))
  { tag, gang := i.g.id, split := i.k, ctx := i.g.ctx, core := i.g.core, policy := cfgPolicy x.config, pool := cfgPool x.config,
    pooln := cfgPoolN x.config, xl, dest, list, cap, lanes, todo := (namedBuckets lanes).map (fun b => (b, b)), begun := false,
    held := false, rows := [], first := i.sp.firstPc, active := i.act }

/-- A probe begins: its buckets are to be read, or its empty list is written at once. -/
def State.beginProbe (s : State) (p : Probe) : Res :=
  let t := { s with probes := s.probes ++ [p], fresh := s.fresh + 1 }
  if p.todo.isEmpty then .as (t.finishProbe p)
  else .wait (p.todo.foldl (fun u e => u.postEvent (.bucketRead p.tag e.2)) t) (.reply p.tag)

/-- rprobe (R301, R302). DEDUCED (unsafe), log entry 77. -/
def execRprobe (h : BitVec 3) (d k a : BitVec 6) (s : State) : Outcome :=
  issue {} (fun i => decide (k.toNat < i.g.nregs)) (fun i t =>
    let x := (i.g.sreg a.toNat).toNat
    let list := bits x 0 32
    let cap := bits x 32 8
    let keys := ((lanesOf i.act).map (fun l => (l, i.g.vlane k.toNat l))).filter (fun q => !keySkip q.2)
    match t.hashSlot i.g h.toNat with
    | none =>
      (match padBreach [(list, 16 + 5 * cap)] (t.padSize i.g.crew) with
       | some a => .trap t 0x07 i.act a
       | none => emptySlot i t)
    | some slot =>
      let c := slot.config
      let bad := keys.filter (fun q => !keyOk c q.2)
      let good := keys.filter (fun q => keyOk c q.2)
      let marked := i.g.smark a.toNat || ((i.g.vmarks k.toNat) &&& i.act) != 0
      if 8 ≤ t.probesOpen i.g.core then .wait t .unit
      else
        retrCheck i t needRead (good.map (fun q => bucketNamed c q.1 q.2) ++ poolNamed c)
          (padBreach [(list, 16 + 5 * cap)] (t.padSize i.g.crew)) (bad.map (·.1))
          (if cap = 0 || 128 < cap || list % 16 ≠ 0 then some 0 else none) marked (fun u ls =>
            if u.matrixHolds i.g then .wait u .matrix
            else u.beginProbe (i.probe slot u.fresh d.toNat list cap (pagesOf ls) good))) s

/-! ### rins, rdel, rmove (R305, R306) -/

/-- The request of a bucket operation for a row. -/
def Issue.request (i : Issue) (x : HashSlot) (xl : List (Nat × Nat × Nat × Nat)) (key row : Word) : BucketReq :=
  let b := homeOf xl (bucketVa x.config key)
  let d := homeOf xl x.descVa
  { bucket := b.1, row, policy := cfgPolicy x.config, pool := cfgPool x.config, pooln := cfgPoolN x.config, desc := d.1,
    descProt := leafProt d.2, xl, prot := leafProt b.2, ctx := i.g.ctx, org := .gang i.g.id,
    cluster := clusterOf i.g.core }

/-- A bucket operation enters the retrieval queue. -/
def State.queueRetr (s : State) (i : Issue) (ins : Bool) (q : BucketReq) (batch : Nat) (after : Option Nat) : State :=
  { s with
    retr := s.retr ++ [{ id := s.fresh, gang := i.g.id, ctx := i.g.ctx, ins, req := q, batch, after, probes := [], held := false }],
    fresh := s.fresh + 1 }

/-- The lanes of rins or rdel enter the queue; one event performs the lanes that name one bucket. -/
def State.queueLanes (s : State) (i : Issue) (ins : Bool) (qs : List BucketReq) : State :=
  let batch := s.fresh
  let t := qs.foldl (fun u q => u.queueRetr i ins q batch none) { s with fresh := s.fresh + 1 }
  (distinct (qs.map (·.bucket))).foldl (fun u b =>
    match qs.find? (fun q => q.bucket == b) with
    | some q => u.postEvent (bucketEvent ins q)
    | none => u) t

/-- Lanes of a guarded retrieval instruction with their row ids. -/
def Issue.rowLanes (i : Issue) (a : BitVec 6) (g : BitVec 4) : List (Nat × Word) :=
  (lanesOf (i.act &&& i.g.guard g)).map (fun l => (l, i.g.vlane a.toNat l))

/-- Lanes with a row id that no row has. -/
def noRow (ls : List (Nat × Word)) : List Nat := (ls.filter (fun x => x.2 == 0xFFFFFFFF)).map (·.1)

/-- The frame of rins, rdel and rmove: keys from n registers from k on. -/
def updateRows (h : BitVec 3) (a : BitVec 6) (k n : Nat) (g : BitVec 4) (pairBad : List DWord → List Word → Bool)
    (go : Issue → HashSlot → List (Nat × Nat × Nat × Nat) → List (Nat × Word) → State → State) (s : State) : Outcome :=
  issue {} (fun i => decide (a.toNat < i.g.nregs) && decide (k + n ≤ i.g.nregs)) (fun i t =>
    match t.hashSlot i.g h.toNat with
    | none => emptySlot i t
    | some slot =>
      let c := slot.config
      let rows := i.rowLanes a g
      let keysOf (l : Nat) : List Word := (List.range n).map (fun j => i.g.vlane (k + j) l)
      let bad := (rows.filter (fun x => !(keysOf x.1).all (keyOk c) || pairBad c (keysOf x.1))).map (·.1)
      let named := rows.flatMap (fun x => ((keysOf x.1).filter (keyOk c)).map (bucketNamed c x.1))
      let marked := rows.any (fun x => (i.g.vmarks a.toNat).getLsbD x.1 || i.g.lanesMark k n x.1)
      retrCheck i t needBoth (named ++ poolNamed c ++ [{ va := slot.descVa, len := 64, lane := none }]) none
        (distinct (bad ++ noRow rows)) none marked (fun u ls => .done ((go i slot (pagesOf ls) rows u).unreplayable i.g.crew))) s

/-- rins and rdel. -/
def updateOne (ins : Bool) (h : BitVec 3) (a k : BitVec 6) (g : BitVec 4) (s : State) : Outcome :=
  updateRows h a k.toNat 1 g (fun _ _ => false) (fun i slot xl rows u =>
    u.queueLanes i ins (rows.map (fun x => i.request slot xl (i.g.vlane k.toNat x.1) x.2))) s

/-- rins (R305). -/
def execRins (h : BitVec 3) (a k : BitVec 6) (g : BitVec 4) (s : State) : Outcome := updateOne true h a k g s

/-- rdel (R305). -/
def execRdel (h : BitVec 3) (a k : BitVec 6) (g : BitVec 4) (s : State) : Outcome := updateOne false h a k g s

/-- One lane of rmove: the insert, and after it the delete (R306). -/
def State.moveRow (s : State) (i : Issue) (slot : HashSlot) (xl : List (Nat × Nat × Nat × Nat)) (old new row : Word) : State :=
  let qo := i.request slot xl old row
  let qn := i.request slot xl new row
  if qo.bucket = qn.bucket then s
  else
    let t := s.queueRetr i true qn s.fresh none
    ((t.queueRetr i false qo t.fresh (some s.fresh)).postEvent (.insert qn)).postEvent (.delete qo)

/-- rmove: keys from the pair vk, vk + 1 (R306). -/
def execRmove (h : BitVec 3) (a : BitVec 6) (k : BitVec 5) (g : BitVec 4) (s : State) : Outcome :=
  updateRows h a (2 * k.toNat) 2 g
    (fun _ ks => keyT (nth 0 ks 0) != keyT (nth 0 ks 1))
    (fun i slot xl rows u => rows.foldl (fun v x =>
      v.moveRow i slot xl (i.g.vlane (2 * k.toNat) x.1) (i.g.vlane (2 * k.toNat + 1) x.1) x.2) u) s

/-! ### rgath (R304) -/

/-- The rows of the list at a pad address. -/
def Crew.listRows (c : Crew) (list n : Nat) : List Nat :=
  (List.range n).map (fun j => ofBytes ((List.range 4).map (fun b => c.padByte (list + 16 + 4 * j + b))))

/-- The lines of a gather that have come, up to the first poisoned one, as pad bytes. -/
def PendLoad.lineCells (l : PendLoad) : List (Nat × Byte) :=
  let stop := (l.faults.map (·.1)).foldl min l.lines.2.2.2
  (List.range stop).flatMap (fun j => (List.range l.lines.2.2.1).map (fun b =>
    (l.lines.1 + j * l.lines.2.1 + b, sget 0 l.got (gotKey j b))))

/-- The poisoned line of a gather that was met first, with its address. -/
def PendLoad.poisonedLine (l : PendLoad) : Option Nat :=
  ((sortBy (fun (a b : Nat × Nat × Nat) => a.1 ≤ b.1) l.faults).head?).map (·.2.2)

/-- Rows that have come enter a gather; a poisoned part marks its line (R304). -/
def PendLoad.takeRows (l : PendLoad) (ps : List (Located × List Byte × Bool)) : PendLoad :=
  ps.foldl (fun m p => { m with
    got := putBytes m.got 0 p.1.part.first p.2.1
    faults := if p.2.2 then m.faults ++ [(p.1.part.first / 65536, 0x09, halfOf p.1.phys)] else m.faults }) l

/-- The parts of gathered rows, half-line by half-line; the offset of a part names its row, which is its lane, too. -/
def rowPieces (xs : List Located) : List Located :=
  halfParts (xs.map (fun x => { x with part := { x.part with first := gotKey x.part.lane x.part.first } }))

/-- Fetches the parts of the gathered rows. DEDUCED (unsafe), log entry 42. -/
def State.fetchRows (s : State) (id : Nat) (l : PendLoad) (xs : List Located) : State × PendLoad :=
  let p := s.fetchPieces id (rowPieces xs)
  (p.st, { l.takeRows p.come with await := p.await, rest := p.rest })

/-- A gather whose rows have all come writes its lines. DEDUCED (unsafe), log entry 42. -/
def State.landLines (s : State) (l : PendLoad) : State :=
  match s.gang l.gang with
  | none => s
  | some g => s.padWrite g.crew l.lineCells

/-- rgath's reads, its checks passed. -/
def gatherRows (i : Issue) (u : State) (ls : List Located) (base pitch len n : Nat) : Res :=
  let r := u.fetchRows i.g.id { blankLoad i.g.id i.k 3 0 [] with lines := (base, pitch, len, n) } ls
  if !r.2.await.isEmpty then .wait (r.1.addLoad r.2) (.reply r.1.fresh)
  else
    let t := r.1.landLines r.2
    match r.2.poisonedLine with
    | some a => .trap t 0x09 i.act a
    | none => .done t

/-- rgath past its list: lease of the rows, bound of the lines, and poisoned operands. -/
def gatherFrom (i : Issue) (t : State) (s' e : Nat) (rows : List Nat) (marked : Bool) : Res :=
  let y := (i.g.sreg (s' + 1)).toNat
  let o := padOperand (i.g.sreg e)
  let len := bits y 32 16
  let parts := (List.range rows.length).flatMap (fun j =>
    rangeParts j (len / 128 + 2) 0 (((i.g.sreg s').toNat + nth 0 rows j * bits y 0 32) % 2 ^ 64) len)
  match t.coalesce i.g needRead parts with
  | (u, .lease a) => .trap u 0x07 i.act a
  | (u, .resident a) => .done (u.machineCheck 3 a 0)
  | (u, .ok ls) =>
    match padBreach ((List.range rows.length).map (fun j => (o.base + j * o.pitch, len))) (u.padSize i.g.crew) with
    | some a => .trap u 0x07 i.act a
    | none => if marked then .trap u 0x09 i.act 0 else gatherRows i u ls o.base o.pitch len rows.length

/-- rgath (R304). -/
def execRgath (l : BitVec 6) (s' e : BitVec 5) (s : State) : Outcome :=
  issue {} (fun _ => true) (fun i t =>
    let list := bits (i.g.sreg l.toNat).toNat 0 32
    let end_ := t.padSize i.g.crew
    if t.padHolds i.g then .wait t .matrix
    else
      match padBreach [(list, 16)] end_ with
      | some a => .trap t 0x07 i.act a
      | none =>
        let head := t.padTakeRange i.g.crew list 16
        match head.1.crew i.g.crew with
        | none => .trap t 0x07 i.act list
        | some c0 =>
          let n := ofBytes ((List.range 4).map (fun b => c0.padByte (list + b)))
          if head.2.isSome then .done (head.1.raiseCrew i.g.crew (head.2.getD 0))
          else
            match (if n ≤ 128 then padBreach [(list, 16 + 4 * n)] end_ else none) with
            | some a => .trap head.1 0x07 i.act a
            | none =>
              if list % 16 ≠ 0 || 128 < n then tableError i head.1 [] 0
              else
                let r := head.1.padTakeRange i.g.crew list (16 + 4 * n)
                let c := (r.1.crew i.g.crew).getD c0
                let rows := c.listRows list n
                let marked := i.g.smark l.toNat || i.g.smark (2 * s'.toNat) || i.g.smark (2 * s'.toNat + 1)
                  || i.g.smark (2 * e.toNat) || (List.range (16 + 4 * n)).any (fun k => c.padPoison.contains (list + k))
                if r.2.isSome then .done (r.1.raiseCrew i.g.crew (r.2.getD 0))
                else if rows.contains 0xFFFFFFFF then tableError i r.1 [] 0
                else gatherFrom i r.1 (2 * s'.toNat) (2 * e.toNat) rows marked) s

/-! ### rstat (R312) -/

/-- The value that rstat reads from memory or the slot for a selector; the local address of the half-line it reads. -/
def State.statValue (s : State) (x : HashSlot) (desc bucket sel : Nat) : DWord × Option Nat :=
  match sel with
  | 0 => (dw x.descVa, none)
  | 1 => (dw (s.readLe (desc + 32) 4), some desc)
  | 2 => (dw (s.readLe (desc + 36) 4), some desc)
  | 3 => (dw (s.readLe (desc + 40) 4), some desc)
  | 4 => (dw (s.readLe bucket 4), some bucket)
  | 5 => (dw (bits (nth 0 x.config 3).toNat 32 32), none)
  | _ => (dw (cfgProj x.config), none)

/-- rstat: waits for the gang's earlier retrieval instructions (R312). -/
def execRstat (h : BitVec 3) (d a : BitVec 6) (sel : BitVec 3) (s : State) : Outcome :=
  issue {} (fun _ => true) (fun i t =>
    let put (u : State) (x : DWord) : Res := .done (u.updGang i.g.id (fun g => g.setS d.toNat x false))
    match t.hashSlot i.g h.toNat with
    | none => if sel = 0 then put t 0 else emptySlot i t
    | some slot =>
      let key := (i.g.sreg a.toNat).truncate 32
      let bad := sel == 4 && !keyOk slot.config key
      let named : List Named := { va := slot.descVa, len := 64, lane := none }
        :: (if sel = 4 && !bad then [{ va := bucketVa slot.config key, len := 64, lane := none }] else [])
      if t.retrievalBusy i.g then .wait t .matrix
      else
        retrCheck i t needRead named none [] (if bad then some 0 else none) (sel == 4 && i.g.smark a.toNat) (fun u0 ls =>
          let xl := pagesOf ls
          let u := u0.drainVa i.g.id xl (named.map (·.va))
          let desc := (homeOf xl slot.descVa).1
          let bucket := (homeOf xl (bucketVa slot.config key)).1
          let v := match (u.statValue slot desc bucket sel.toNat).2 with | some x => u.touch (halfOf x) 64 | none => u
          match v.statValue slot desc bucket sel.toNat with
          | (y, none) => put v y
          | (y, some x) => if v.poisoned x then .trap v 0x09 i.act (dpa v.mgmt.modid (halfOf x)) else put v y)) s

/-! ### Events of a retrieval unit (R298, R302) -/

/-- INSERT (R298). -/
def execInsert (q : BucketReq) (s : State) : Outcome := happen (s.performBucket true q)

/-- DELETE (R298). -/
def execDelete (q : BucketReq) (s : State) : Outcome := happen (s.performBucket false q)

/-- A bucket of a probe is read; with the last, its list is written. -/
def State.readBucket (s : State) (tag addr : Nat) : State :=
  match s.probes.find? (fun p => p.tag == tag) with
  | none => s
  | some p =>
    match p.todo.find? (fun e => e.2 == addr && s.probeReady p e) with
    | none => s
    | some e =>
      let t := s.probeRead p e.1 e.2
      match t.probes.find? (fun q => q.tag == tag) with
      | none => t
      | some q => if q.todo.isEmpty then t.finishProbe q else t

/-- BUCKET_READ (R302). -/
def execBucketRead (tag addr : Nat) (s : State) : Outcome := happen (s.readBucket tag addr)

end Sys2Proof.Machine
end

