-- ==== Sys2Proof/Machine/Triggers.lean ====
section
/-! DEFINITION. Watches, task descriptors and range counters: major 0x2D (R345 to R351, R357 to R362, R368 to R370,
R374), and the events of trigger units. -/

namespace Sys2Proof.Machine

/-! ### Shapes (R362) -/

def shapeGangs (x : Nat) : Nat := bits x 0 6
def shapeRegs (x : Nat) : Nat := 16 * (bits x 6 2 + 1)
def shapePads (x : Nat) : Nat := bits x 8 7
def shapeAccs (x : Nat) : Nat := bits x 15 3
def shapeZregs (x : Nat) : Nat := bits x 18 5
def shapePrio (x : Nat) : Nat := bits x 23 2

/-- A shape word is within the limits of R362. -/
def shapeOk (x : Nat) : Bool :=
  bits x 25 7 == 0 && shapeZregs x ≤ 16 && shapeAccs x ≤ 4 && shapePads x ≤ 64 && 1 ≤ shapeGangs x && shapeGangs x ≤ 32

/-! ### Watch descriptors (R346, R347) -/

/-- The watch that the 512 bits of a descriptor configure, its D fields zero. -/
def watchOf (ctx id descVa desc n : Nat) (pages : List (Nat × Nat × Nat)) : Watch :=
  { ctx, id, descVa, desc, base := bits n 0 64, len := bits n 64 64, glog := bits n 356 5, quota := bits n 349 7,
    dlim := bits n 345 4, filter := bits n 361 4, shape := bits n 320 25, arg := bits n 288 32, entry := bits n 256 32,
    spill := bits n 192 64, spilln := bits n 400 16, lease := bits n 128 64, pages, lostn := 0, fired := 0, stail := 0,
    shead := 0, lostf := false }

/-- The descriptor is well formed (R346, R347). -/
def watchFormed (n : Nat) : Bool :=
  let w := watchOf 0 0 0 0 n []
  bits n 365 19 == 0 && bits n 385 15 == 0 && 6 ≤ w.glog && w.glog ≤ 16 && w.len != 0 && w.len % 2 ^ w.glog == 0
    && w.base % 2 ^ w.glog == 0 && w.base + w.len ≤ 2 ^ 56 && 1 ≤ w.quota && w.quota ≤ 64 && w.filter != 0
    && w.entry % 4 == 0 && w.spill % 64 == 0 && (w.spilln != 0 || w.spill == 0) && w.spilln ≤ 0x8000 && shapeOk w.shape

/-- The pages of a range, if each is a valid leaf for which f holds: virtual base, size, local base; fuel is at least the
number of 4 KiB pages. -/
def pagesIn (s : State) (ctx end_ : Nat) (f : Nat → Bool) : Nat → Nat → Option (List (Nat × Nat × Nat))
  | 0, _ => some []
  | n + 1, va =>
    if end_ ≤ va then some []
    else
      match leafAt s ctx va with
      | none => none
      | some (base, size, e) =>
        if f e then (pagesIn s ctx end_ f n (base + size)).map (fun l => (base, size, leafFrame e) :: l) else none

/-- The leaf may be watched here (R347). -/
def watchable (m e : Nat) : Bool := leafWatch e && leafTier e ≤ 1 && leafModule e == m

/-- The leaf may hold a watch descriptor or spill ring (R347). -/
def holdsWatchData (m e : Nat) : Bool :=
  leafTier e ≤ 1 && leafRd e && leafWr e && !leafWatch e && !leafProt e && leafModule e == m

/-- Pages of a range of n bytes. -/
def pagesOver (s : State) (ctx va n : Nat) (f : Nat → Bool) : Option (List (Nat × Nat × Nat)) :=
  pagesIn s ctx (va + n) f (n / 4096 + 2) va

/-- Two frames meet. -/
def framesMeet (p q : Nat × Nat × Nat) : Bool := p.2.2 < q.2.2 + q.2.1 && q.2.2 < p.2.2 + p.2.1

/-- The pages that a watch binds, or the code that its check fails with (R347): −1, −2 or −3. DEDUCED (unsafe), log entry 43. -/
def State.watchPages (s : State) (ctx descVa n : Nat) : List (Nat × Nat × Nat) ⊕ Nat :=
  let w := watchOf ctx 0 descVa 0 n []
  let m := s.mgmt.modid
  if !watchFormed n then .inr 1
  else
    match pagesOver s ctx w.base w.len (watchable m), pagesOver s ctx descVa 64 (holdsWatchData m),
        pagesOver s ctx w.spill (8 * w.spilln) (holdsWatchData m) with
    | some ps, some _, some _ =>
      if s.watches.any (fun v => v.pages.any (fun q => ps.any (framesMeet q))) then .inr 3 else .inl ps
    | _, _, _ => .inr 2

/-- The lowest watch id of a context that is free. -/
def State.freeWatch (s : State) (ctx : Nat) : Option Nat :=
  (List.range 1024).find? (fun k => !s.watches.any (fun w => w.ctx == ctx && w.id == k))

/-- Page records in the watch index. -/
def State.watchRecords (s : State) : Nat := s.watches.foldl (fun n w => n + w.pages.length) 0

/-- −k as a 64-bit value. -/
def minus (k : Nat) : DWord := BitVec.ofInt 64 (-(k : Int))

/-- A scalar result. -/
def Issue.putS (i : Issue) (s : State) (d : BitVec 6) (x : DWord) : State := s.updGang i.g.id (fun g => g.setS d.toNat x false)

/-- The walks that the checks of a watch make (R93, R347). -/
def State.watchWalks (s : State) (ctx descVa n : Nat) : State :=
  let w := watchOf ctx 0 descVa 0 n []
  if watchFormed n then ((s.walksOver ctx w.base w.len).walksOver ctx descVa 64).walksOver ctx w.spill (8 * w.spilln) else s

/-- Installs a watch, its checks passed, or refuses it for want of room (R347). -/
def installWatch (i : Issue) (t : State) (d : BitVec 6) (va n : Nat) (ps : List (Nat × Nat × Nat)) : Res :=
  match t.freeWatch i.g.ctx with
  | none => .trap t 0x12 i.act 0
  | some k =>
    if Config.watchIndex < t.watchRecords + ps.length then .trap t 0x12 i.act 0
    else
      let w := watchOf i.g.ctx k va (((deviceAddr t i.g.ctx va 64 true true).map (·.1)).getD 0) n ps
      .done (i.putS (({ t with watches := t.watches ++ [w] }).writeDFields w |>.unreplayable i.g.crew) d (dw k))

/-- watch: the descriptor's lease, its alignment, its half-line, then the codes of R347 (R374).
DEDUCED (unsafe), log entry 43. -/
def execWatch (d a : BitVec 6) (s : State) : Outcome :=
  issue {} (fun _ => true) (fun i t =>
    let va := (i.g.sreg a.toNat).toNat
    match t.coalesce i.g needBoth (partsOf 0 va 64) with
    | (u, .lease x) => .trap u 0x07 i.act x
    | (u, .resident x) => .done (u.machineCheck 3 x 0)
    | (u, .ok ls) =>
      if i.g.smark a.toNat then .trap u 0x09 i.act 0
      else if va % 64 ≠ 0 then .done (i.putS u d (minus 1))
      else
        match ls.head? with
        | none => .done u
        | some p =>
          let v := u.drainLine i.g.id (lineOf p.phys)
          let r := v.fetchPast i.g p
          let x := r.st
          let n := element r.got p.part.lane 64
          if !r.await.isEmpty then
            .wait (x.addLoad { (blankLoad i.g.id i.k 6 d.toNat []).from r with size := 64, faults := [(0, 0x09, halfOf p.phys)] })
              (.reply x.fresh)
          else if r.poison != 0 then .trap x 0x09 i.act (halfOf p.phys)
          else
            let y := x.watchWalks i.g.ctx va n
            match y.watchPages i.g.ctx va n with
            | .inr k => .done (i.putS y d (minus k))
            | .inl ps => installWatch i y d va n ps) s

/-! ### unwatch and wstat (R357, R358) -/

/-- The watch of a context with an id given as a scalar. -/
def State.watchOfId (s : State) (ctx : Nat) (x : DWord) : Option Watch := s.watches.find? (fun w => w.ctx == ctx && w.id == x.toNat)

/-- The pins that a queued task holds are released (R99, R101). -/
def State.unpin (s : State) (die ctx : Nat) (rs : List LeaseRange) : State :=
  { s with pinned := s.pinned.filterMap (fun p =>
      if p.die == die && p.ctx == ctx && rs.contains p.range then
        (if p.pins ≤ 1 then none else some { p with pins := p.pins - 1 })
      else some p) }

/-- The reservation of a task ends (R366). -/
def State.unreserve (s : State) (task : Nat) : State :=
  { s with cores := s.cores.map (fun c =>
      (c.1, { c.2 with reserved := if c.2.reserved = some task then none else c.2.reserved })) }

/-- A task leaves its hub, with whatever its lease has pinned and the core it has reserved. -/
def State.dropTask (s : State) (k : HubTask) : State :=
  let t := match k.lease with
    | .ready rs => s.unpin k.die k.ctx rs
    | _ => s
  { t.unreserve k.id with tasks := t.tasks.filter (fun x => x.id != k.id) }

/-- The task comes from a watch. -/
def HubTask.isOf (k : HubTask) (ctx watch : Nat) : Bool :=
  match k.source with
  | .trigger _ w _ _ _ => k.ctx == ctx && w == watch
  | _ => false

/-- A watch is removed, with its page records, pending entries and queued tasks (R357). -/
def State.removeWatch (s : State) (w : Watch) : State :=
  let t := (s.tasks.filter (fun k => k.isOf w.ctx w.id)).foldl State.dropTask s
  { t with
    watches := t.watches.filter (fun v => !(v.ctx == w.ctx && v.id == w.id))
    pending := t.pending.filter (fun e => !(e.ctx == w.ctx && e.watch == w.id))
    watchCache := t.watchCache.filter (fun c => !w.pages.any (fun p => p.2.2 == c.2)) }

/-- unwatch (R357). -/
def execUnwatch (d a : BitVec 6) (s : State) : Outcome :=
  issue {} (fun _ => true) (fun i t =>
    match t.watchOfId i.g.ctx (i.g.sreg a.toNat) with
    | none => .done (i.putS t d 1)
    | some w => .done (i.putS ((t.removeWatch w).unreplayable i.g.crew) d 0)) s

/-- The value of wstat for a watch (R358). -/
def State.watchStat (s : State) (w : Watch) (sel : Nat) : Nat :=
  match sel with
  | 0 => w.descVa
  | 1 => w.lostn
  | 2 => w.fired
  | 3 => (s.pending.filter (fun e => e.ctx == w.ctx && e.watch == w.id)).length
  | 4 => (w.stail + 2 ^ 16 - w.shead) % 2 ^ 16
  | _ => b2n w.lostf

/-- wstat (R358). -/
def execWstat (d a : BitVec 6) (sel : BitVec 4) (s : State) : Outcome :=
  issue {} (fun _ => true) (fun i t =>
    match t.watchOfId i.g.ctx (i.g.sreg a.toNat) with
    | none => .done (i.putS t d (if sel = 0 then 0 else minus 1))
    | some w =>
      let u := if sel = 6 then t.writeDFields { w with lostf := false } else t
      .done (i.putS u d (dw (t.watchStat w sel.toNat)))) s

/-! ### qpost (R360, R361, R363) -/

/-- Posted descriptors that a hub holds on chip. -/
def State.onChip (s : State) (die : Nat) : Nat :=
  (s.tasks.filter (fun k => k.die == die && k.spilled.isNone && (k.source == .post || k.source == .resident))).length

/-- Virtual address of a place in a context's hub spill region (R393). -/
def State.hubSpillVa (s : State) (ctx die n : Nat) : Nat := s.ctxSave ctx + 0x800000 * die + 128 * n

/-- Spilled descriptors that a context posted at a hub, in order. -/
def State.spilledOf (s : State) (die ctx : Nat) : List Nat :=
  (s.tasks.filter (fun k => k.die == die && k.poster == ctx)).filterMap (·.spilled)

/-- The bytes of a task descriptor (R360). -/
def HubTask.toBytes (k : HubTask) : List Byte :=
  (List.range 8).flatMap (fun n => leBytes 8 (nth 0 k.args n).toNat) ++ leBytes 8 k.leaseVa ++ leBytes 4 k.entry
    ++ leBytes 4 k.shape ++ leBytes 48 0

/-- A task that a descriptor of 128 bytes describes (R360). -/
def taskOf (id die ctx clock tdepth poster : Nat) (source : TaskSource) (d : List Byte) : HubTask :=
  let fld (o n : Nat) : Nat := ofBytes ((d.drop o).take n)
  { id, die, ctx, source, entry := fld 72 4, args := (List.range 8).map (fun k => dw (fld (8 * k) 8)), shape := fld 76 4,
    leaseVa := fld 64 8, tdepth, cls := shapePrio (fld 76 4), arrival := clock, since := clock, lease := .none, poster, spilled := none
    unwritten := false }

/-- The descriptor breaks R360 or R362. -/
def descriptorBad (d : List Byte) : Bool :=
  ofBytes (d.drop 80) != 0 || ofBytes ((d.drop 72).take 4) % 4 != 0 || !shapeOk (ofBytes ((d.drop 76).take 4))

/-- The events that a task at a hub gives rise to. -/
def taskEvents (id : Nat) : List Event := [.leaseEstablish id, .taskAging id, .coreReservation id]

/-- A task is queued on chip. -/
def State.queueTask (s : State) (k : HubTask) : State :=
  { s with tasks := s.tasks ++ [k], agenda := s.agenda ++ taskEvents k.id, fresh := s.fresh + 1 }

/-- The place in its region that the next descriptor posted by a context takes. -/
def State.spillPlace (s : State) (die ctx : Nat) : Nat :=
  match (s.spilledOf die ctx).getLast? with | some x => (x + 1) % 65536 | none => 0

/-- A task's descriptor is written to the spill region of its poster: the place it takes, or machine check subcode 11 (R451). -/
def State.spillTask (s : State) (k : HubTask) : State × Option Nat :=
  let n := s.spillPlace k.die k.poster
  let va := s.hubSpillVa k.poster k.die n
  match s.areaStore k.poster va k.toBytes with
  | (t, true) => (t.postEvent (.hubSpillRefill k.die), some n)
  | (t, false) => (t.machineCheck 11 va k.poster, none)

/-- The hub tries once more to write out what stayed on chip because a write to its poster's region failed (R451). -/
def State.rewrite (s : State) (die poster : Nat) : State :=
  match s.tasks.find? (fun k => k.die == die && k.poster == poster && k.unwritten) with
  | none => s
  | some k =>
    let r := s.spillTask k
    { r.1 with tasks := r.1.tasks.map (fun x =>
        if x.id == k.id then { x with spilled := r.2, unwritten := r.2.isNone } else x) }

/-- A posted task is queued: on chip while there is room, else in its poster's spill region, in order (R363). The code of
R361: 1 when the region is full, or while a descriptor that could not be written holds it up (R451). DEDUCED (unsafe), log entry 82. -/
def State.postTask (s0 : State) (k : HubTask) : State × Nat :=
  let s := s0.rewrite k.die k.poster
  let sp := s.spilledOf k.die k.poster
  if s.tasks.any (fun x => x.die == k.die && x.poster == k.poster && x.unwritten) then (s, 1)
  else if s.onChip k.die < 1024 && sp.isEmpty then (s.queueTask k, 0)
  else if 65536 ≤ sp.length then (s, 1)
  else
    let r := s.spillTask k
    (r.1.queueTask { k with spilled := r.2, unwritten := r.2.isNone }, 0)

/-- The hub takes a copy of a descriptor: the code of R361. -/
def State.takeDescriptor (s : State) (g : Gang) (ctx : Nat) (d : List Byte) : State × Nat :=
  if descriptorBad d then (s, 2)
  else s.postTask (taskOf s.fresh (dieOf g.core) ctx s.clock (if g.onControl then 0 else g.tdepth) g.ctx
    (if g.onControl then .resident else .post) d)

/-- The bytes of a descriptor read as two half-lines, the lanes of its parts. -/
def descriptorBytes (got : Store Byte) : List Byte := (List.range 128).map (fun k => sget 0 got (gotKey (k / 64) k))

/-- The first poisoned half-line of a line read from an address on, by the lanes of its parts (R375). -/
def firstBad (a : Nat) (poison : Mask) : Nat := if poison.getLsbD 0 then a else a + 64

/-- qpost's read of its descriptor, one of 128 bytes wherever it lies (R327), and its task. -/
def postFrom (i : Issue) (t : State) (d : BitVec 6) (ctx : Nat) (p : Located) : Res :=
  let host := dpaModule p.phys == t.mgmt.modid && isHost (dpaLocal p.phys)
  let r := if host then (Gather.start t).hostParts i.g (halfParts [p]) else (Gather.start t).beyond i.g (halfParts [p]) Ask.past
  let u := r.st
  if !r.await.isEmpty then
    .wait (u.addLoad { (blankLoad i.g.id i.k 7 d.toNat []).from r with size := ctx, faults := [(0, 0x09, halfOf p.phys)] })
      (.reply u.fresh)
  else if r.poison != 0 then .trap u 0x09 i.act (firstBad (halfOf p.phys) r.poison)
  else
    let q := u.takeDescriptor i.g ctx (descriptorBytes r.got)
    .done (i.putS (q.1.unreplayable i.g.crew) d (dw q.2))

/-- qpost (R361, R374). -/
def execQpost (d a b : BitVec 6) (s : State) : Outcome :=
  issue {} (fun _ => true) (fun i t =>
    let va := (i.g.sreg a.toNat).toNat
    let ctx := if b = 0 then i.g.ctx else bits (i.g.sreg b.toNat).toNat 0 16
    if b ≠ 0 && i.g.ctx ≠ 0 then .trap t 0x02 i.act 0
    else
      match t.coalesce i.g needRead (rangeParts 0 3 0 va 128) with
      | (u, .lease x) => .trap u 0x07 i.act x
      | (u, .resident x) => .done (u.machineCheck 3 x 0)
      | (u, .ok ls) =>
        if i.g.smark a.toNat || (b != 0 && i.g.smark b.toNat) then .trap u 0x09 i.act 0
        else
          releaseAtThen i (some scopeMod) u (fun v =>
            if va % 128 ≠ 0 || (v.rootOf ctx).isNone then .done (i.putS v d 2)
            else
              match ls.head? with
              | none => .done v
              | some p => postFrom i v d ctx p)) s

/-! ### claim and rinit (R368 to R370) -/

/-- Registers s[d] and s[d + 1] take a claim's answer. -/
def Issue.putClaim (i : Issue) (s : State) (d : Nat) (r : NearResult) : State :=
  s.updGang i.g.id (fun g => (g.setS d r.x r.poison).setS (d + 1) r.y r.poison)

/-- An access to a range counter: the checks of R370, then a release at .mod, then the operation. -/
def counterOp (i : Issue) (t : State) (a : BitVec 6) (marked : Bool) (go : State → Located → Res) : Res :=
  match t.check i { pad := false, need := needBoth, elems := scalarElem (i.g.sreg a.toNat).toNat, size := 32, limit := none,
                    aligned := true, scalar := true }
      (fun ls => ls.any (fun p => dpaModule p.phys == t.mgmt.modid && isHost (dpaLocal p.phys))) (fun _ => marked) with
  | .stop r => r
  | .go u _ ls f =>
    match reported f, ls.head? with
    | some (c, _, x), _ => .trap u c i.act x
    | none, none => .done u
    | none, some p =>
      if u.matrixHolds i.g then .wait u .matrix
      else releaseAtThen i (some scopeMod) u (fun v =>
        go ((v.l1DropUnit (clusterOf i.g.core) p.phys).unreplayable i.g.crew) p)

/-- The packet of a claim or rinit at a peer module. -/
def counterPacket (s : State) (g : Gang) (op ord : Nat) (q : NearReq) (p : Located) : Packet :=
  s.routed { blankPacket s.mgmt.modid (s.homeFor (dpaModule p.phys) q.addr) 5 s.fresh with
    ctx := g.ctx, depth := g.tdepth, skind := packetKind g.writer.skind, scope := scopeMod, ord, watched := q.watched, prot := q.prot,
    addr := q.addr, len := 32, op, near := [{ q with tag := s.fresh }] }

/-- claim: SD = 2d (R368). -/
def execClaim (d : BitVec 5) (a : BitVec 6) (s : State) : Outcome :=
  issue {} (fun _ => true) (fun i t =>
    counterOp i t a (i.g.smark a.toNat) (fun u p =>
      let q := nearReq i.g { op := 0xC, wide := true, elem := 0 } p { x := 0, y := 0 } 0
      if dpaModule p.phys = u.mgmt.modid then
        let r := u.nearOp 0xC q
        .done ((i.putClaim r.st (2 * d.toNat) r).acquireBy i.g scopeMod)
      else
        let v := { u with out := u.out ++ [counterPacket u i.g 0xC 3 q p], fresh := u.fresh + 1 }
        .wait (v.addLoad { blankLoad i.g.id i.k 0 (2 * d.toNat) [{ tag := u.fresh, lane := 0, first := 0, count := 16, skip := 0, base := p.phys, line := none }] with
          size := 16, lanes := 1, acquire := some scopeMod }) (.reply v.fresh))) s

/-- rinit: the four registers from 4b on (R369). -/
def execRinit (a : BitVec 6) (b : BitVec 4) (s : State) : Outcome :=
  issue {} (fun _ => true) (fun i t =>
    let r (k : Nat) : DWord := i.g.sreg (4 * b.toNat + k)
    counterOp i t a (i.g.smark a.toNat || (List.range 4).any (fun k => i.g.smark (4 * b.toNat + k))) (fun u p =>
      let q := { nearReq i.g { op := 0xD, wide := true, elem := 0 } p { x := 0, y := 0 } 0 with
                 x := r 0, y := r 1, z := r 2, w := r 3 }
      if dpaModule p.phys = u.mgmt.modid then .done (u.nearOp 0xD q).st
      else
        let e : PeerStore :=
          { tag := u.fresh, org := .gang i.g.id, dest := u.homeFor (dpaModule p.phys) (dpaLocal p.phys), prot := leafProt p.leaf,
            cluster := some (clusterOf i.g.core), cells := [], slot := some p.phys }
        .done ((u.sendStore e (counterPacket u i.g 0xD 2 q p)).countAck (.gang i.g.id)))) s

/-! ### Events of trigger units (R348, R351) -/

/-- WATCH_CACHE_FILL: the record of a watched page enters a die's watch cache, which holds 2,048 (R348). -/
def execWatchCacheFill (die page : Nat) (s : State) : Outcome :=
  happen (if s.watches.any (fun w => w.pages.any (fun p => p.2.2 == page)) && !s.watchCache.contains (die, page) then
      let mine := s.watchCache.filter (fun c => c.1 == die)
      { s with watchCache := (die, page) :: s.watchCache.filter (fun c => c.1 != die) ++ mine.take 2047 }
    else s)

/-- What becomes of the record at SHEAD of a watch's spill ring (R351). -/
inductive Refill where
  /-- the ring is empty, or the record's slice has no room -/
  | held
  /-- the record cannot be read -/
  | unread (va : Nat)
  /-- passed over -/
  | skip
  | move (gidx depth kind : Nat)
  deriving DecidableEq, Repr

/-- The record at SHEAD, and whether its slice has room for it (R351). -/
def State.refillOf (s : State) (w : Watch) : Refill :=
  if w.stail = w.shead || w.spilln = 0 then .held
  else
    let va := w.spill + 8 * (w.shead % w.spilln)
    match (s.deviceRead w.ctx va 8).2 with
    | none => .unread va
    | some b =>
      let n := ofBytes b
      let g := bits n 0 50
      let slice := sliceOf (w.granuleAddr g)
      if w.len ≤ g * 2 ^ w.glog || 4 < bits n 61 3 || bits n 50 7 != 0 then .skip
      else if s.pending.any (fun e => e.isFor slice w g)
          || (s.pendingCount slice (some w) < w.quota && s.pendingCount slice none < Config.pendingTable) then
        .move g (bits n 57 4) (bits n 61 3)
      else .held

/-- SHEAD advances past the record, and the next one follows, unless the descriptor cannot be written (R451). -/
def State.advanceHead (s : State) (w : Watch) : State :=
  let w' := { w with shead := (w.shead + 1) % 2 ^ 16 }
  let t := s.writeDFields w'
  if t.watches.contains w' then t.postEvent (.spillRefill w.ctx w.id) else t

/-- The record at SHEAD is read in its ring: what its lines hold is met there (R140, R451). -/
def State.readRing (s : State) (w : Watch) : State :=
  if w.stail = w.shead || w.spilln = 0 then s else (s.deviceRead w.ctx (w.spill + 8 * (w.shead % w.spilln)) 8).1

/-- SPILL_REFILL (R351, R451). -/
def execSpillRefill (ctx watch : Nat) (s : State) : Outcome :=
  happen (match s.watches.find? (fun w => w.ctx == ctx && w.id == watch) with
    | none => s
    | some w =>
      let t := s.readRing w
      match t.refillOf w with
      | .held => t
      | .unread va => t.machineCheck 11 va ctx
      | .skip => t.advanceHead w
      | .move g depth kind => (t.enterTrigger w g depth kind).advanceHead w)

end Sys2Proof.Machine
end

