-- ==== Sys2Proof/Machine/Preempt.lean ====
section
/-! DEFINITION. Pre-emption and restore of crews (R159 to R161, R215, R291, R393 to R397), and what a restore finds of its
lease (R102, R396). -/

namespace Sys2Proof.Machine

/-! ### Asking for a pre-emption (R395, R397) -/

/-- Every live split is blocked. -/
def Gang.allBlocked (g : Gang) : Bool := g.live.all (fun p => p.2.blocked.isSome)

/-- A pre-emption of a crew is asked for: its gangs stop at unit boundaries, in forerunner mode at safepoints. -/
def State.askPreempt (s : State) (drain : Bool) (v : Nat) : State :=
  match s.crew v with
  | none => s
  | some c =>
    if c.preempted || c.preempting then s
    else
      let t := (s.updCrew v (fun k => { k with preempting := true, asked := s.clock, drain })).postEvent (.preemptSaveDone v)
      if s.forerunner c.ctx then (s.members v).foldl (fun u g => u.postEvent (.forerunnerTimeout g.id)) t else t

/-- preempt and unlease ask for it; a drain of the skim controller does so too, and leaves no 0x23 (R395). -/
def State.startPreempt (s : State) (v : Nat) : State := s.askPreempt false v

/-- A packet goes to a module that is lost, whose frame has no replacement yet. -/
def State.toLost (s : State) (tag : Nat) : Bool :=
  (s.out.filter (fun p => p.tag == tag && (p.kind == 1 || p.kind == 3 || p.kind == 5))).getLast?.any (fun p => s.lost.contains p.dst)

/-- A load awaits nothing but replies of a lost module: it is given up when its crew is pre-empted, and its instruction
issues again after the restore (R403). DEDUCED (unsafe), log entry 85. -/
def State.loadStuck (s : State) (l : PendLoad) : Bool := !l.await.isEmpty && l.await.all (fun w => s.toLost w.tag)

/-- Stores of a gang that wait for a lost module (R403). -/
def State.stuckStores (s : State) (id : Nat) : List PeerStore :=
  s.peerPending.filter (fun e => e.org == .gang id && s.lost.contains e.dest)

/-- A split that waited for loads that are given up issues its word again. -/
def Split.freed (sp : Split) (ls : List PendLoad) : Split :=
  if ls.any (fun l => sp.blocked == some (.reply l.tag)) then { sp with blocked := none } else sp

/-- What a gang that is pre-empted has under way to a lost module is given up (R403). -/
def State.giveUp (s : State) (id : Nat) : State :=
  let ls := s.loads.filter (fun l => l.gang == id && s.loadStuck l)
  let es := s.stuckStores id
  let t : State := { s with
    loads := s.loads.filter (fun l => !ls.contains l), peerPending := s.peerPending.filter (fun e => !es.contains e) }
  t.updGang id (fun g =>
    { g with pendingAcks := g.pendingAcks - es.length, strong := if es.isEmpty then g.strong else []
             splits := g.splits.map (fun o => o.map (fun sp => sp.freed ls)) })

/-- A gang of a crew being pre-empted has stopped: no split within a unit, and in forerunner mode taken at a safepoint, at
a blocking word or by the timeout (R215, R397). DEDUCED (unsafe), log entry 36. -/
def State.stopped (s : State) (g : Gang) : Bool :=
  g.live.all (fun p => !p.2.midGroup) && (!s.forerunner g.ctx || g.taken.isSome || g.allBlocked)
    && !s.loads.any (fun l => l.gang == g.id && l.kind != 2 && !s.loadStuck l)

/-- Every gang of a crew that is being pre-empted has stopped. -/
def State.savable (s : State) (v : Nat) : Bool :=
  ((s.crew v).map (·.preempting)).getD false && (s.members v).all s.stopped

/-! ### Saving (R395) -/

/-- Registers that a safepoint's map marks dead hold zero at the restore (R215). DEDUCED (unsafe), log entry 36. -/
def Gang.keepLive (g : Gang) : Gang :=
  match g.taken with
  | none => g
  | some (sm, vm, pm) =>
    { g with
      s := g.s.filter (fun e => bit sm e.1), sPoison := g.sPoison &&& dw sm
      v := g.v.filter (fun e => bit vm (e.1 / 32)), vPoison := g.vPoison.filter (fun e => bit vm e.1)
      p := g.p.filter (fun e => bit pm e.1), taken := none }

/-- A gang that is pre-empted gives up the trowel, and takes it back at its restore with the same OPEN (R291). -/
def State.lendTrowel (s : State) (g : Gang) : State :=
  let mine := match (s.core g.core).trowel with
    | some (id, f) => if id = g.id then some f else none
    | none => none
  (s.giveTrowel g (s.ringPlace g)).updGang g.id (fun h => { h with retake := mine.or g.retake })

/-- The 0x23 record of a pre-emption (R395). DEDUCED (unsafe), log entry 32. -/
def preemptRecord (v : Nat) : LogRec := { residentRec 0x23 0 0 0 with crewv := v }

/-- A saved crew is queued at the hub of its die as a restore, in the class it held (R396). -/
def State.queueRestore (s : State) (c : Crew) (cls : Nat) : State :=
  s.queueTask
    { id := s.fresh, die := dieOf c.core, ctx := c.ctx, source := .restore c.val, entry := c.entry, args := [], shape := 0,
      leaseVa := 0, tdepth := 0, cls, arrival := s.clock, since := s.clock, lease := .none, poster := 0, spilled := none, unwritten := false }

/-- Words of a list that its length precedes. -/
def counted (l : List (List Nat)) : List Nat := l.length :: l.flatten

/-- The words of captured translations. -/
def xlWords (xl : List (Nat × Nat × Nat × Nat)) : List Nat := counted (xl.map (fun p => [p.1, p.2.1, p.2.2.1, p.2.2.2]))

/-- A bucket operation that was not sent, as crew control holds it, with the slot contents it captured (R315). -/
def RetrJob.words (j : RetrJob) (slot : Nat) : List Nat :=
  [slot, j.id, b2n j.ins, (j.after.map (· + 1)).getD 0, j.batch, j.req.row.toNat, j.req.bucket, j.req.policy, j.req.pool, j.req.pooln,
    j.req.desc, b2n j.req.descProt + 2 * b2n j.req.prot] ++ counted (j.probes.map (fun p => [p])) ++ xlWords j.req.xl

/-- A probe and its partial union, as crew control holds them (R315). -/
def Probe.words (p : Probe) (slot : Nat) : List Nat :=
  [slot, p.split, p.tag, p.policy, p.pool, p.pooln, p.dest, p.list, p.cap, b2n p.begun, p.first.toNat, p.active.toNat]
    ++ counted (p.lanes.map (fun l => [l.1, l.2])) ++ counted (p.todo.map (fun t => [t.1, t.2]))
    ++ counted (p.rows.map (fun r => r.1 :: counted (r.2.map (fun x => [x])))) ++ xlWords p.xl

/-- Crew control (R393, R395): the 16 bindings, unbound as all ones, the crew's place in the ring, the gangs that take the
trowel back with OPEN, the retrieval operations and the probes that were written out; 64 KiB of 8-byte words at the most.
DESIGN CHOICE (unsafe), log entry 35. -/
def State.controlWords (s : State) (c : Crew) : List Nat :=
  let ms := s.members c.val
  let slot (id : Nat) : Nat := ((ms.find? (fun g => g.id == id)).map (·.slot)).getD 0
  ((List.range 16).map (fun b => (c.bound b).getD (2 ^ 64 - 1)) ++ [c.ring]
    ++ counted (ms.filterMap (fun g => g.retake.map (fun o => [g.slot, b2n o])))
    ++ counted ((s.retr.filter (fun j => j.held && ms.any (fun g => g.id == j.gang))).map (fun j => j.words (slot j.gang)))
    ++ counted ((s.probes.filter (fun p => p.held && ms.any (fun g => g.id == p.gang))).map (fun p => p.words (slot p.gang)))).take 8192

/-- Gang states and tiles are written to the save area; a failed access ends the crew (R395, R451). -/
def State.saveGangs (s : State) (c : Crew) : State :=
  let t := (s.members c.val).foldl (fun u g => u.saveFields c.val c.ctx (u.gangBlock g) (g.image (u.leaseIndex g))) s
  t.saveFields c.val c.ctx (t.crewBlock c + 0x40000) (((t.crew c.val).getD c).tileImage)

/-- Crew control follows them (R395). DESIGN CHOICE (unsafe), log entry 35. -/
def State.saveArea (s : State) (c : Crew) : State :=
  let u := s.saveGangs c
  u.saveFields c.val c.ctx (u.crewBlock c + 0xC1000) [(0, (u.controlWords ((u.crew c.val).getD c)).flatMap (leBytes 8))]

/-- The crew leaves its core: pads unpinned, slots free, one restore queued (R395). -/
def State.parkCrew (s : State) (c : Crew) : State :=
  let ms := s.members c.val
  let t : State := { (s.leaveFifos (fun w => ms.any (fun h => h.id == w.1))).updCrew c.val (fun k => { k with
      saved := ms.map (fun g => g.keepLive.offCore), preempted := true, preempting := false
      padStates := k.padStates.map (fun e => (e.1, if e.2 = .pinned then .unpinned else e.2)) }) with
    gangs := s.gangs.filter (fun g => !(ms.any (fun h => h.id == g.id)))
    suspects := s.suspects.filter (fun p => !(ms.any (fun h => h.id == p.2.1))) }
  let w := if c.drain then t else t.post (preemptRecord c.val)
  (w.queueRestore c ((ms.head?.map (·.cls)).getD 0)).postEvent (.hubConsider (dieOf c.core))

/-- The members of a crew have nothing under way: their matrix work has retired, and every store that drained or was sent
has committed (R156, R291). -/
def State.quiet (s : State) (c : Crew) : Bool :=
  !s.matrixPending c.core c.val
    && (s.members c.val).all (fun g => g.pendingAcks == (s.stuckStores g.id).length && (g.strong.isEmpty || g.pendingAcks != 0))

/-- A crew is saved, once its write-combining buffers have drained, its matrix work has retired, its stores have committed
and no cause is raised by them (R156, R291, R395). Operations of its retrieval instructions that were not sent are written
out (R315). -/
def State.saveCrew (s : State) (v : Nat) : State :=
  match s.crew v with
  | none => s
  | some c =>
    let a := (s.members v).foldl (fun t g => t.drainAll g.id) s
    if !a.raises.isEmpty || !a.quiet c || !(a.members v).all a.stopped then a.postEvent (.preemptSaveDone v)
    else
      let b := (a.members v).foldl (fun t g => t.lendTrowel g) a
      let d := (b.holdRetrieval ((b.members v).map (·.id))).saveArea c
      if !d.raises.isEmpty then d else ((d.members v).foldl (fun t g => t.giveUp g.id) d).parkCrew c

/-- PREEMPT_SAVE_DONE (R395). -/
def execPreemptSaveDone (crew : Nat) (s : State) : Outcome := happen (if s.savable crew then s.saveCrew crew else s)

/-- 10 ms after the pre-emption was asked for (R397). -/
def State.forerunnerDue (s : State) (g : Nat) : Bool :=
  match (s.gang g).bind (fun h => s.crew h.crew) with
  | some c => c.preempting && c.asked + 10000000 ≤ s.clock
  | none => false

/-- FORERUNNER_TIMEOUT: the gang is taken at its next boundary, every register live (R397). -/
def execForerunnerTimeout (g : Nat) (s : State) : Outcome :=
  happen (if s.forerunnerDue g then s.updGang g (fun h => { h with taken := h.taken.or (some allLive) }) else s)

/-! ### Restoring (R396) -/

/-- The restore task of a crew. -/
def State.restoreTask (s : State) (v : Nat) : Option HubTask := s.tasks.find? (fun k => k.source == .restore v)

/-- Pad frames reserved in a cluster (R160). -/
def State.padsReserved (s : State) (cl : Nat) : Nat :=
  (s.crews.filter (fun c => clusterOf c.core == cl && !c.preempted)).foldl (fun n c => n + c.pads) 0

/-- Pad frames of a cluster: 32 for each bank in the pad role (R149). -/
def State.padFrames (s : State) (cl : Nat) : Nat :=
  32 * ((List.range 48).filter (fun b => (s.bank cl b).cur == 1 && !(s.bank cl b).busy)).length

/-- Tiles and tile registers that the crews resident on a core hold. -/
def State.tilesHeld (s : State) (core : Nat) : Nat × Nat :=
  ((s.crewsOf core).filter (fun c => !c.preempted)).foldl (fun n c => (n.1 + c.accs, n.2 + c.zregs)) (0, 0)

/-- The core takes crews at all: it is open, in service, and its island is not gated (R20, R399, R400). -/
def State.coreOpen (s : State) (core : Nat) : Bool :=
  !(s.core core).closed && !(s.core core).outOfService && !s.gated core

/-- Tiles, tile registers and pad frames for a crew are free on a core (R197). -/
def State.roomFor (s : State) (core pads accs zregs : Nat) : Bool :=
  let h := s.tilesHeld core
  h.1 + accs ≤ 4 && h.2 + zregs ≤ 16 && (pads == 0 || s.padsReserved (clusterOf core) + pads ≤ s.padFrames (clusterOf core))

/-- A slot of a core is free. -/
def State.slotFree (s : State) (core slot : Nat) : Bool := !s.gangs.any (fun g => g.core == core && g.slot == slot)

/-- A pre-empted crew can be admitted again, in the same slots (R396); a reserved core admits no other task (R366). -/
def State.restorable (s : State) (c : Crew) : Bool :=
  c.preempted && s.coreOpen c.core && (s.core c.core).reserved.isNone && s.roomFor c.core c.pads c.accs c.zregs && c.saved.all (fun g => s.slotFree c.core g.slot)

/-- A gang returns: a trowel it held is taken back before it issues (R291). -/
def State.returnTrowel (s : State) (g : Gang) : State :=
  match g.retake with
  | none => s
  | some _ =>
    let c := s.core g.core
    if c.trowel.isNone && c.passing.isNone then
      (s.updCore g.core (fun k => { k with passing := some g.id })).postEvent (.trowelPass g.core)
    else s

/-- Virtual ranges that a restore reads: the gang blocks, the tiles with their marks, and crew control (R393, R396). -/
def State.savedRanges (s : State) (c : Crew) : List (Nat × Nat) :=
  c.saved.map (fun g => (s.gangBlock g, 0x4000))
    ++ (List.range c.accs).map (fun n => (s.crewBlock c + 0x40000 + 0x18000 * n, 0x18000))
    ++ (List.range c.zregs).map (fun z => (s.crewBlock c + 0xA0000 + 0x2000 * z, 0x2000))
    ++ [(s.crewBlock c + 0xC0000, 0x11000)]

/-- The device reads the pages of ranges of a context; the first byte that it cannot read (R375, R451). -/
def State.readPages (s : State) (ctx : Nat) (rs : List (Nat × Nat)) : State × Option Nat :=
  (rs.flatMap (fun r => (List.range (r.2 / 4096)).map (fun k => r.1 + 4096 * k))).foldl (fun q va =>
    if q.2.isSome then q
    else match q.1.deviceRead ctx va 4096 with
      | (t, none) => if (areaAway t ctx va 4096 true false).isSome then (t, none) else (t.machineCheck 11 (t.firstUnread ctx va 4096) ctx, some (t.firstUnread ctx va 4096))
      | (t, some _) => (t, none)) (s, none)

/-- The lines of those pages that lie elsewhere. -/
def State.awayLines (s : State) (ctx : Nat) (rs : List (Nat × Nat)) : List Located :=
  (rs.flatMap (fun r => (List.range (r.2 / 4096)).map (fun k => r.1 + 4096 * k))).flatMap (fun va =>
    match areaAway s ctx va 4096 true false with
    | none => []
    | some (x, e) => (List.range 32).map (fun k =>
        { part := { lane := 0, first := va + 128 * k, va := va + 128 * k, len := 128 }, phys := x + 128 * k, leaf := e, isSealed := false }))

/-- Leases of the crew's tasks take over the pins that the lease unit took for the restore; pins of ranges that another
restore has brought back meanwhile are released (R396). DEDUCED (unsafe), log entry 29. -/
def State.retakeLeases (s : State) (k : HubTask) (rs : List LeaseRange) (tasks : List Nat) : State :=
  let back (l : Lease) : Bool := tasks.contains l.task && l.loose.any rs.contains
  let extra := rs.filter (fun r => !s.leases.any (fun l => back l && l.loose.contains r))
  { s.unpin k.die k.ctx extra with
    leases := s.leases.map (fun l => if back l then { l with loose := l.loose.filter (fun r => !rs.contains r) } else l) }

/-- The crew is back on its core: gangs, leases, pages held in frames, slices in their slots, retrieval operations that were
written out (R159, R315, R396). DESIGN CHOICE (unsafe), log entry 35. -/
def State.restoreCrew (s : State) (c : Crew) (k : HubTask) (rs : List LeaseRange) : State :=
  let t : State := { s.retakeLeases k rs (c.saved.map (·.task)) with
    gangs := s.gangs ++ c.saved.map (fun g => { g with cls := k.cls })
    tasks := s.tasks.filter (fun x => x.id != k.id) }
  let u := (t.updCrew c.val (fun x => { x with
      saved := [], preempted := false
      padStates := x.padStates.map (fun e => (e.1, if e.2 = .unpinned then .pinned else e.2)) })).wakeSlices c.val
  let v := c.saved.foldl (fun x g => (x.acquireBy g scopeMod).resendRetrieval g) u
  c.saved.foldl State.returnTrowel v

/-- The areas of a saved crew that lie elsewhere are being read. -/
def State.restoring (s : State) (v : Nat) : Bool := s.fetching 19 v

/-- The saved crew's areas are read, those elsewhere with a wait, and it returns, or ends with 0x07 (R396, R451). -/
def State.tryRestore (s : State) (c : Crew) (k : HubTask) (rs : List LeaseRange) : State :=
  match s.readPages c.ctx (s.savedRanges c) with
  | (t, some va) => (t.dropTask k).raiseCrew c.val va
  | (t, none) =>
    let r := (t.awayLines c.ctx (t.savedRanges c)).foldl (fun (q : Gather) x => q.beyond (deviceGang c.ctx) [x] Ask.past) (Gather.start t)
    if r.await.isEmpty then r.st.restoreCrew c k rs
    else r.st.addLoad (blankLoad (noGang + c.ctx) 0 19 c.val r.await)

/-- The areas elsewhere have come: the crew returns when it still can, ends when a byte of them is poisoned, or is read anew
later. DESIGN CHOICE (unsafe), log entry 35. -/
def State.areasCome (s : State) (l : PendLoad) : State :=
  match s.crew l.reg, s.restoreTask l.reg with
  | some c, some k =>
    (match l.faults.head? with
     | some f => ((s.machineCheck 11 f.2.2 c.ctx).dropTask k).raiseCrew c.val f.2.2
     | none =>
       match k.lease with
       | .ready rs =>
         if s.restorable c then (s.restoreCrew c k rs).postEvent (.hubConsider k.die) else s.postEvent (.crewRestore c.val)
       | _ => s.postEvent (.crewRestore c.val))
  | _, _ => s

/-- CREW_RESTORE (R396). -/
def execCrewRestore (crew : Nat) (s : State) : Outcome :=
  happen (match s.crew crew, s.restoreTask crew with
    | some c, some k =>
      (match k.lease with
       | .ready rs => if s.restorable c && !s.restoring crew then (s.tryRestore c k rs).postEvent (.hubConsider k.die) else s
       | _ => s)
    | _, _ => s)

/-- What a crew that cannot be restored ends with (R403): its restore is dropped. -/
def State.failRestore (s : State) (k : HubTask) (v addr : Nat) : State :=
  let t := s.dropTask k
  match (t.crew v).bind (fun c => c.saved.head?) with
  | some g => t.faultCrew g 0x07 false 0 0 addr
  | none => t

end Sys2Proof.Machine
end

