-- ==== Sys2Proof/Machine/Leases.lean ====
section
/-! DEFINITION. Lease sets, the lease unit and lease faults (R97 to R103), and tasks that are discarded (R98, R450, R453). -/

namespace Sys2Proof.Machine

/-! ### Lease sets (R97, R98) -/

/-- A range entry of a lease set. -/
def rangeOf (n : Nat) : LeaseRange := { base := bits n 0 64, len := bits n 64 56, rights := bits n 120 8 }

/-- The entry is well formed. -/
def LeaseRange.ok (r : LeaseRange) : Bool := r.base < 2 ^ 56 && 1 ≤ r.len && r.base + r.len ≤ 2 ^ 56 && r.rights < 8

/-- The count that a header names, if it is well formed. -/
def setCount (header : Nat) : Option Nat := if 1 ≤ header && header ≤ 16 then some header else none

/-- Where 16 bytes of a lease set lie: a local address of this module, or a domain physical address of another. -/
inductive SetUnit where
  | here (a : Nat)
  | away (phys : Nat)
  deriving DecidableEq, Repr

/-- The unit of a lease set at a virtual address, if its page may hold one and it is not poisoned here. -/
def setUnit (s : State) (ctx va : Nat) : Option SetUnit :=
  match leafAt s ctx va with
  | none => none
  | some (base, _, e) =>
    let x := leafPhys e base va
    if 1 < leafTier e || !leafRd e then none
    else if leafModule e != s.mgmt.modid then some (.away x)
    else if s.anyPoison (dpaLocal x) 16 then none else some (.here (dpaLocal x))

/-- What has been read of a run of units: bytes by place, and replies to come. -/
abbrev SetRead := State × Store Byte × List Await

/-- Reads n units of a lease set from a virtual address; none when one is malformed. -/
def State.readUnits (s : State) (ctx va n : Nat) : Option SetRead :=
  (List.range n).foldl (fun (o : Option SetRead) k =>
    match o with
    | none => none
    | some (t0, got, aw) =>
      let t := t0.walked ctx (va + 16 * k)
      match setUnit t ctx (va + 16 * k) with
      | none => none
      | some (.here a) =>
        let u := t.touch a 16
        if u.anyPoison a 16 then none else some (u, putBytes got 0 (16 * k) (u.bytes a 16), aw)
      | some (.away x) =>
        let base := alignDown (dpaLocal x) 32
        some ({ t with
            out := t.out ++ [t.routed { blankPacket t.mgmt.modid (t.homeFor (dpaModule x) base) 1 t.fresh with
              ctx, addr := base, len := 32, mask := [true] }]
            fresh := t.fresh + 1 },
          got, aw ++ [{ tag := t.fresh, lane := 0, first := 16 * k, count := 16, skip := dpaLocal x - base,
                        base := x - (dpaLocal x - base), line := none }])) (some (s, [], []))

/-- The ranges that n entries read hold, if each is well formed. -/
def rangesOf (got : Store Byte) (n : Nat) : Option (List LeaseRange) :=
  let rs := (List.range n).map (fun k => rangeOf (ofBytes ((List.range 16).map (fun j => sget 0 got (gotKey 0 (16 * k + j))))))
  if rs.all LeaseRange.ok then some rs else none

/-! ### The pages of a lease (R98) -/

/-- A page that fails: address, kind, level, rights needed. -/
structure PageFault where
  va : Nat
  kind : Nat
  level : Nat
  rights : Nat
  deriving DecidableEq, Repr

/-- Rights of every range that touches n bytes from va. -/
def rightsOver (rs : List LeaseRange) (va n : Nat) : Nat :=
  rs.foldl (fun m r => if r.base < va + n && va < r.base + r.len then m ||| r.rights else m) 0

/-- A leaf grants a lease's rights to a context: a sealed one no write (R98, R342). -/
def leafLeases (e need ctx : Nat) : Bool :=
  (!bit need 0 || leafRd e) && (!bit need 1 || leafWr e) && (!bit need 2 || leafEx e) && (!leafPriv e || ctx == 0)

/-- What the walk of a page finds, and where the next page begins (R98, R100): a page that no table reaches is one of 4 KiB.
DEDUCED (unsafe), log entry 52. -/
def pageCheck (s : State) (ctx : Nat) (rs : List LeaseRange) (va : Nat) : Option PageFault × Nat :=
  let bad (kind l : Nat) : Option PageFault × Nat :=
    let n := if l = 5 then 65536 else 4096
    let base := alignDown va n
    (some { va := base, kind, level := min l 4, rights := rightsOver rs base n }, base + n)
  match walk s ctx va with
  | .leaf base size _ e =>
    let need := rightsOver rs base size
    (if leafLeases e need ctx then none else some { va := base, kind := 2, level := if size = 2 ^ 21 then 3 else 4, rights := need },
      base + size)
  | .invalid l => bad 1 l
  | .malformed l => bad 3 l

/-- The failing pages up to an end; fuel is at least the number of 4 KiB pages. -/
def faultsTo (s : State) (ctx : Nat) (rs : List LeaseRange) (end_ : Nat) : Nat → Nat → List PageFault
  | 0, _ => []
  | n + 1, va =>
    if end_ ≤ va then []
    else
      let r := pageCheck s ctx rs va
      r.1.toList ++ faultsTo s ctx rs end_ n r.2

/-- The walks of the pages up to an end read their entries at their slices (R93). -/
def State.walksTo (ctx end_ : Nat) : Nat → Nat → State → State
  | 0, _, s => s
  | n + 1, va, s =>
    if end_ ≤ va then s
    else
      let t := s.walked ctx va
      State.walksTo ctx end_ n (pageCheck t ctx [] va).2 t

/-- The walks of the pages of a lease. -/
def State.leaseWalks (s : State) (ctx : Nat) (rs : List LeaseRange) : State :=
  rs.foldl (fun t r => State.walksTo ctx (r.base + r.len) (r.len / 4096 + 2) r.base t) s

/-- The failing pages of a lease. -/
def leaseFaults (s : State) (ctx : Nat) (rs : List LeaseRange) : List PageFault :=
  distinct (rs.flatMap (fun r => faultsTo s ctx rs (r.base + r.len) (r.len / 4096 + 2) r.base))

/-! ### The pinned-range table (R99) -/

/-- Free entries of a die's table. -/
def State.pinsFree (s : State) (die : Nat) : Nat := Config.pinnedTable - (s.pinned.filter (fun p => p.die == die)).length

/-- The table holds a range of a context. -/
def State.hasPin (s : State) (die ctx : Nat) (r : LeaseRange) : Bool :=
  s.pinned.any (fun p => p.die == die && p.ctx == ctx && p.range == r)

/-- Entries that a lease would add. -/
def State.pinsNeeded (s : State) (die ctx : Nat) (rs : List LeaseRange) : Nat :=
  ((distinct rs).filter (fun r => !s.hasPin die ctx r)).length

/-- One more pin of a range. -/
def State.pin (s : State) (die ctx : Nat) (r : LeaseRange) : State :=
  if s.hasPin die ctx r then
    { s with pinned := s.pinned.map (fun p => if p.die == die && p.ctx == ctx && p.range == r then { p with pins := p.pins + 1 } else p) }
  else { s with pinned := s.pinned ++ [{ die, ctx, range := r, pins := 1 }] }

/-- The ranges of a lease are pinned. -/
def State.pinAll (s : State) (die ctx : Nat) (rs : List LeaseRange) : State := (distinct rs).foldl (fun t r => t.pin die ctx r) s

/-! ### Tasks (R98, R453) -/

/-- Ranges that a task's lease has pinned, once it is established. -/
def HubTask.ready (k : HubTask) : Option (List LeaseRange) := match k.lease with | .ready rs => some rs | _ => none

/-- The task of an identity. -/
def State.task (s : State) (id : Nat) : Option HubTask := s.tasks.find? (fun k => k.id == id)

/-- With the lease of a task changed. -/
def State.setLease (s : State) (id : Nat) (l : LeaseState) : State :=
  { s with tasks := s.tasks.map (fun k => if k.id == id then { k with lease := l } else k) }

/-- The trigger entry of a task is freed, and its watch's spill ring may move on (R349, R351). -/
def State.freeEntry (s : State) (k : HubTask) : State :=
  match k.source with
  | .trigger slice w gidx _ _ =>
    let t : State := { s with
      pending := s.pending.filter (fun e => !(e.slice == slice && e.ctx == k.ctx && e.watch == w && e.gidx == gidx)) }
    (t.watches.filter (fun v => v.stail != v.shead)).foldl (fun u v => u.postEvent (.spillRefill v.ctx v.id)) t
  | _ => s

/-- AUX of a KIND 3 record. -/
def HubTask.aux (k : HubTask) : Nat :=
  match k.source with
  | .trigger _ w _ _ _ => k.ctx + 2 ^ 16 + w * 2 ^ 32
  | _ => k.ctx

/-- The KIND 3 record of a task, in the log of a context. -/
def taskRecord (k : HubTask) (ctx info addr : Nat) : LogRec :=
  { ctx, cause := 0x07, kind := 3, aux := k.aux, who := 0, info, crewv := 0, lanes := 0, pc := 0, addr }

/-- A task is discarded (R98): its trigger entry is freed, FIRED stays, and its context's log takes a record. -/
def State.discard (s : State) (k : HubTask) (info addr : Nat) : State :=
  ((((s.dropTask k).freeEntry k).post (taskRecord k k.ctx info addr)).postEvent (.hubSpillRefill k.die)).postEvent (.hubConsider k.die)

/-- A task for a context that does not exist is dropped (R450). -/
def State.dropUnknown (s : State) (k : HubTask) : State :=
  ((((s.dropTask k).freeEntry k).post (taskRecord k 0 8 0)).postEvent (.hubSpillRefill k.die)).postEvent (.hubConsider k.die)

/-! ### Fault records (R100) -/

/-- The sequence number of a fault record: never zero, 64 bits. DESIGN CHOICE (safe), log entry 51. -/
def seqOf (fresh : Nat) : Nat := fresh % (2 ^ 32 - 1) + 1

/-- The bytes of a fault record. -/
def FaultRec.toBytes (r : FaultRec) : List Byte :=
  leBytes 8 r.va ++ leBytes 2 r.ctx ++ leBytes 1 r.rights ++ leBytes 1 r.kind ++ leBytes 2 r.reqmod ++ leBytes 1 r.reqdie
    ++ leBytes 1 r.level ++ leBytes 8 r.reply ++ leBytes 8 r.seq ++ leBytes 32 0

/-- The record that 64 bytes hold. -/
def FaultRec.ofBytes (b : List Byte) : FaultRec :=
  let n := Sys2Proof.Machine.ofBytes b
  { seq := bits n 192 64, task := 0, va := bits n 0 64, ctx := bits n 64 16, rights := bits n 80 8, kind := bits n 88 8,
    level := bits n 120 8, reqmod := bits n 96 9, reqdie := bits n 112 8, reply := bits n 128 64 }

/-- The fault of a page goes to the queue of its home module (R96, R100). -/
def State.sendFault (s : State) (k : HubTask) (f : PageFault) : State :=
  let seq := seqOf s.fresh
  let r : FaultRec :=
    { seq, task := k.id, va := f.va, ctx := k.ctx, rights := f.rights, kind := f.kind, level := f.level,
      reqmod := s.mgmt.modid, reqdie := k.die, reply := dpa s.mgmt.modid (replyAt seq) }
  let m := homeModule s k.ctx f.va
  let t := { s with fresh := s.fresh + 1 }
  let u := if m = s.mgmt.modid then { t with faultRecs := t.faultRecs ++ [r] }.postEvent .faultRecordWrite
    else { t with out := t.out ++ [t.routed { blankPacket s.mgmt.modid m 9 0 with ctx := k.ctx, data := r.toBytes, len := 64 }] }
  match u.task k.id with
  | some q =>
    (match q.lease with
     | .waiting rs ss => u.setLease k.id (.waiting rs (ss ++ [(seq, f.va, f.kind)]))
     | _ => u)
  | none => u

/-- The queue of this module: log2 of its size and its address, when LFQ is well formed. DEDUCED (unsafe), log entry 52. -/
def State.faultQueue (s : State) : Option (Nat × Nat) :=
  let v := s.lfq
  let n := bits v 59 5
  let a := bits v 6 45 * 64
  if 6 ≤ n && n ≤ 16 && bits v 51 8 == 0 && a % (64 * 2 ^ n) == 0 && isDram a && isDram (a + 64 * 2 ^ n - 1) then some (n, a)
  else none

/-- The slot for the next fault record, when it is free. -/
def State.faultSlot (s : State) : Option Nat :=
  match s.faultQueue with
  | none => none
  | some (n, a) =>
    let x := a + 64 * (s.lfqIndex % 2 ^ n)
    if s.readLe (x + 24) 8 = 0 then some x else none

/-- The oldest fault record goes to its slot: a write of the resident's kind. DEDUCED (unsafe), log entry 52. -/
def State.writeFault (s : State) : State :=
  match s.faultRecs, s.faultSlot with
  | r :: rest, some x =>
    let w : SliceWrite :=
      { cells := cellsAt x r.toBytes, watched := true, prot := (s.hostAttr x).2, depth := 1, skind := 4, ctx := 0, org := .device, policy := 0 }
    let t := { s with faultRecs := rest, lfqIndex := s.lfqIndex + 1 }.commitWrite w
    if rest.isEmpty then t else t.postEvent .faultRecordWrite
  | _, _ => s

/-- FAULT_RECORD_WRITE (R100). -/
def execFaultRecordWrite (s : State) : Outcome := happen s.writeFault

/-! ### Establishing (R98 to R101) -/

/-- The lease of a task is established once its ranges fit the pinned-range table; until then it waits (R99). -/
def State.pinTask (s : State) (k : HubTask) (rs : List LeaseRange) : State :=
  if s.pinsNeeded k.die k.ctx rs ≤ s.pinsFree k.die then
    ((s.pinAll k.die k.ctx rs).setLease k.id (.ready rs)).postEvent (.hubConsider k.die)
  else (s.setLease k.id (.waiting rs [])).postEvent (.leaseEstablish k.id)

/-- Some valid page up to an end has a leaf for which f holds; fuel is at least the number of 4 KiB pages. -/
def anyLeafTo (s : State) (ctx end_ : Nat) (f : Nat → Bool) : Nat → Nat → Bool
  | 0, _ => false
  | n + 1, va =>
    if end_ ≤ va then false
    else
      match leafAt s ctx va with
      | none => anyLeafTo s ctx end_ f n (alignDown va 4096 + 4096)
      | some (base, size, e) => f e || anyLeafTo s ctx end_ f n (base + size)

/-- Some page of ranges has a leaf for which f holds. -/
def anyLeaf (s : State) (ctx : Nat) (rs : List LeaseRange) (f : Nat → Bool) : Bool :=
  rs.any (fun r => anyLeafTo s ctx (r.base + r.len) f (r.len / 4096 + 2) r.base)

/-- A lease on pages homed on a lost module waits until they have been rebuilt (R401, R403). -/
def State.leaseHeld (s : State) (ctx : Nat) (rs : List LeaseRange) : Bool :=
  !s.lost.isEmpty && anyLeaf s ctx rs (fun e => s.lost.contains (s.homeFor (leafModule e) (leafFrame e)))

/-- Leases of the tasks of a pre-empted crew. -/
def State.savedLeases (s : State) (v : Nat) : List Lease :=
  match s.crew v with
  | none => []
  | some c => s.leases.filter (fun l => c.saved.any (fun g => g.task == l.task))

/-- Ranges that the lease unit looks at for a task: of a restore, those of its crew's leases, whether or not they are still
pinned (R103, R396). -/
def State.wholeLease (s : State) (k : HubTask) (rs : List LeaseRange) : List LeaseRange :=
  match k.source with
  | .restore v => (s.savedLeases v).flatMap (·.ranges)
  | _ => rs

/-- The ranges of a task are known: its pages are walked, unless every range is present, and each fault is sent. -/
def State.walkTask (s0 : State) (k : HubTask) (rs : List LeaseRange) : State :=
  let all := s0.wholeLease k rs
  let there := all.all (s0.hasPin k.die k.ctx)
  let s := if there then s0 else s0.leaseWalks k.ctx all
  let fs := if there then [] else leaseFaults s k.ctx all
  if fs.isEmpty then
    (if s.leaseHeld k.ctx all then (s.setLease k.id (.waiting rs [])).postEvent (.leaseEstablish k.id) else s.pinTask k rs)
  else fs.foldl (fun t f => t.sendFault k f) (s.setLease k.id (.waiting rs []))

/-- A task's lease set is malformed (R98). -/
def State.badSet (s : State) (k : HubTask) : State := s.discard k 0 k.leaseVa

/-- The entries of a task's lease set have been read. -/
def State.setEntries (s : State) (k : HubTask) (n : Nat) (got : Store Byte) : State :=
  match rangesOf got n with
  | none => s.badSet k
  | some rs => s.walkTask k rs

/-- Reads the entries that a header names. -/
def State.setHeader (s : State) (k : HubTask) (header : Nat) : State :=
  match setCount header with
  | none => s.badSet k
  | some n =>
    match s.readUnits k.ctx (k.leaseVa + 16) n with
    | none => s.badSet k
    | some (t, got, []) => t.setEntries k n got
    | some (t, got, aw) =>
      (t.addLoad { blankLoad noGang 0 9 k.id aw with size := 16 * n, got }).setLease k.id .reading

/-- The lease unit reads a task's lease set. -/
def State.readSet (s : State) (k : HubTask) : State :=
  if k.leaseVa = 0 then s.pinTask k []
  else if k.leaseVa % 16 ≠ 0 then s.badSet k
  else
    match s.readUnits k.ctx k.leaseVa 1 with
    | none => s.badSet k
    | some (t, got, []) => t.setHeader k (element got 0 16)
    | some (t, _, aw) => (t.addLoad { blankLoad noGang 0 8 k.id aw with size := 16 }).setLease k.id .reading

/-- Ranges that a restore has to pin again: those whose pins unlease released (R396). DEDUCED (unsafe), log entry 29. -/
def State.restoreRanges (s : State) (v : Nat) : List LeaseRange := (s.savedLeases v).flatMap (·.loose)

/-- Tasks of a die whose leases are being established. -/
def State.establishing (s : State) (die : Nat) : Nat :=
  (s.tasks.filter (fun k => k.die == die && (match k.lease with | .reading | .waiting _ _ => true | _ => false))).length

/-- The lease unit can act on a task now: it has a place for it, or room to pin what it has walked. -/
def State.canEstablish (s : State) (id : Nat) : Bool :=
  match s.task id with
  | none => true
  | some k =>
    match k.lease with
    | .none => k.spilled.isNone && s.establishing k.die < 256
    | .waiting rs [] => s.pinsNeeded k.die k.ctx rs ≤ s.pinsFree k.die && !s.leaseHeld k.ctx rs
    | _ => true

/-- The lease unit acts on a task. -/
def State.establish (s : State) (k : HubTask) : State :=
  match k.lease, k.source with
  | .none, .restore v => if (s.crew v).isSome then s.walkTask k (s.restoreRanges v) else s.dropTask k
  | .none, _ => if (s.rootOf k.ctx).isNone then s.postEvent (.hubConsider k.die) else s.readSet k
  | .waiting rs [], _ => s.walkTask k rs
  | _, _ => s

/-- LEASE_ESTABLISH (R98, R99). -/
def execLeaseEstablish (task : Nat) (s : State) : Outcome :=
  happen (match s.task task with
    | some k => if s.canEstablish task then s.establish k else s
    | none => s)

/-! ### Replies (R101) -/

/-- A page of a task is walked again; with the last that failed, the whole lease, so that every page of it is pinned. -/
def State.walkAgain (s0 : State) (k : HubTask) (rs : List LeaseRange) (rest : List (Nat × Nat × Nat)) (va : Nat) : State :=
  let s := s0.walked k.ctx va
  match (pageCheck s k.ctx rs va).1 with
  | some f => (s.setLease k.id (.waiting rs rest)).sendFault k f
  | none =>
    if rest.isEmpty then s.walkTask k rs else s.setLease k.id (.waiting rs rest)

/-- A task denied its lease is discarded; a restore fails, and its crew ends (R101, R403). -/
def State.deny (s : State) (k : HubTask) (va kind : Nat) : State :=
  match k.source with
  | .restore v => s.failRestore k v va
  | _ => s.discard k (kind + 4) va

/-- A reply reaches the lease unit: retry walks the page again, deny discards the task; others are ignored (R101). -/
def State.leaseReply (s : State) (seq code : Nat) : State :=
  match s.tasks.find? (fun k => match k.lease with | .waiting _ ss => ss.any (fun x => x.1 == seq) | _ => false) with
  | none => s
  | some k =>
    match k.lease with
    | .waiting rs ss =>
      let p := ((ss.find? (fun x => x.1 == seq)).map (·.2)).getD (0, 0)
      if code = 1 then s.walkAgain k rs (ss.filter (fun x => x.1 != seq)) p.1
      else if code = 2 then s.deny k p.1 p.2
      else s
    | _ => s

/-- The home module of the page that a sequence number's record was about, from whose resident the reply comes (R100). -/
def State.answerer (s : State) (seq : Nat) : Option Nat :=
  s.tasks.findSome? (fun k =>
    match k.lease with
    | .waiting _ ss => (ss.find? (fun x => x.1 == seq)).map (fun x => homeModule s k.ctx x.2.1)
    | _ => none)

/-- LEASE_REPLY (R101): one of a module declared lost is dropped (R422). Its packet was heard as it wrote the reply word. -/
def execLeaseReply (seq code : Nat) (s : State) : Outcome :=
  happen (if (s.answerer seq).any s.lost.contains then s else s.leaseReply seq code)

/-! ### Standing leases and revocation (R103, R405) -/

/-- The failing pages of a standing lease; one whose ranges are all present is not walked (R99). -/
def State.standFaults (s : State) (die ctx : Nat) (rs : List LeaseRange) : List PageFault :=
  if rs.all (s.hasPin die ctx) then [] else leaseFaults s ctx rs

/-- A standing lease whose ranges are known: pins, or the result that its first failing page gives. -/
def State.standLease (s0 : State) (die ctx : Nat) (rs : List LeaseRange) : State × Nat :=
  let s := if rs.all (s0.hasPin die ctx) then s0 else s0.leaseWalks ctx rs
  match s.standFaults die ctx rs with
  | f :: _ => (s, f.kind + alignDown f.va 4096)
  | [] => ({ s.pinAll die ctx rs with standing := s.standing ++ [{ task := 0, die, ctx, ranges := rs, loose := [] }] }, 0)

/-- Virtual addresses that the pages of a range cover. -/
def pageSpan (s : State) (ctx : Nat) (r : LeaseRange) : Nat × Nat :=
  let lo := match leafAt s ctx r.base with | some (b, _, _) => b | none => alignDown r.base 4096
  let last := r.base + r.len - 1
  let hi := match leafAt s ctx last with | some (b, n, _) => b + n | none => alignDown last 4096 + 4096
  (lo, hi)

/-- A range pins a page of a virtual range. -/
def State.pinsPage (s : State) (ctx base len : Nat) (r : LeaseRange) : Bool :=
  let p := pageSpan s ctx r
  len != 0 && p.1 < base + len && base < p.2

/-- A lease of a context pins a page of a virtual range. -/
def State.leasePins (s : State) (ctx base len : Nat) (l : Lease) : Bool :=
  l.ctx == ctx && l.ranges.any (fun r => !l.loose.contains r && s.pinsPage ctx base len r)

/-- Running crews with a gang whose lease pins a page of a range. -/
def State.crewsPinning (s : State) (ctx base len : Nat) : List Nat :=
  (s.crews.filter (fun c => !c.preempted &&
    (s.members c.val).any (fun g => s.leases.any (fun l => l.task == g.task && s.leasePins ctx base len l)))).map (·.val)

/-- The pins that a task's lease, its crews saved, holds on pages of a range are released (R103, R405). -/
def State.loosen (s : State) (ctx base len : Nat) (l : Lease) : State :=
  let rs := l.ranges.filter (fun r => !l.loose.contains r && s.pinsPage ctx base len r)
  { s.unpin l.die l.ctx rs with
    leases := s.leases.map (fun x => if x.task == l.task then { x with loose := x.loose ++ rs } else x) }

/-- A queued task whose lease has to pass the lease unit again: it holds pins of pages of a range, or it is a restore whose
crew's leases do (R396). -/
def State.unsettled (s : State) (ctx base len : Nat) (k : HubTask) : Bool :=
  match k.lease, k.source with
  | .ready rs, .restore v => rs.any (s.pinsPage ctx base len) || (s.savedLeases v).any (s.leasePins ctx base len)
  | .ready rs, _ => rs.any (s.pinsPage ctx base len)
  | _, _ => false

/-- Every pin on a page of a range is released: of tasks' leases, of standing leases, and of queued tasks, whose leases pass
the lease unit again. -/
def State.revoke (s : State) (ctx base len : Nat) : State :=
  let again := s.tasks.filter (fun k => k.ctx == ctx && s.unsettled ctx base len k)
  let a := (s.leases.filter (s.leasePins ctx base len)).foldl (fun u l => u.loosen ctx base len l) s
  let b := (a.standing.filter (a.leasePins ctx base len)).foldl (fun u l => u.unpin l.die l.ctx l.ranges)
    { a with standing := a.standing.filter (fun l => !a.leasePins ctx base len l) }
  again.foldl (fun u k =>
    ((u.unpin k.die ctx (k.ready.getD [])).setLease k.id .none).postEvent (.leaseEstablish k.id)) b

end Sys2Proof.Machine
end

