-- ==== Sys2Proof/Machine/Islands.lean ====
section
/-! DEFINITION. Islands: ISLCTL, changes of operating point, power and thermal steps (R15 to R24). -/

namespace Sys2Proof.Machine

/-! ### ISLCTL (R17 to R20) -/

/-- With an island changed. -/
def State.setIsland (s : State) (n : Nat) (x : IslSt) : State := { s with islands := sput IslSt.zero s.islands n x }

/-- The value of ISLCTL (R18). -/
def IslSt.word (x : IslSt) : Nat := x.req + 2 ^ 16 * x.cur + 2 ^ 22 * b2n x.busy + 2 ^ 23 * b2n x.err

/-- Operating points that an island refuses (R19). -/
def islRefuses (n code : Nat) : Bool := 7 ≤ code || (n % 4 == 3 && 4 ≤ code)

/-- The point that an island is due at: the lowest that its request, the power rules and the thermal rules demand. -/
def IslSt.target (x : IslSt) : Nat := if x.req = 6 then 6 else max x.req (max x.power x.thermal)

/-- Cores of an island. -/
def islCores (n : Nat) : List Nat := (List.range 48).map (fun k => 144 * (n / 4) + 48 * (n % 4) + k)

/-- Cores whose skim pass a change to GATED awaits: every core of the island, n + 4096 while a pass begun before is in
progress (R20): one out of service too, which no pass follows. DEDUCED (unsafe), log entry 94. -/
def State.gateCores (s : State) (n : Nat) : List Nat := (islCores n).map (fun c => if s.inPass c then c + 4096 else c)

/-- An island that is not on its way moves toward its target. -/
def State.moveIsland (s : State) (n : Nat) : State :=
  let x := s.island n
  if x.busy || x.target = x.cur then s
  else
    (s.setIsland n { x with busy := true, goal := x.target, due := if x.target = 6 then s.gateCores n else [] }).postEvent
      (.operatingPointChangeDone n)

/-- A write to ISLCTL (R18, R19). -/
def State.writeIsl (s : State) (n : Nat) (x : DWord) : State :=
  let i := s.island n
  let code := bits x.toNat 0 4
  let err := i.err && !bit x.toNat 23
  if islRefuses n code then s.setIsland n { i with err := true }
  else (s.setIsland n { i with err, req := code }).moveIsland n

/-- ISLCTL: a write of the resident to an island's register (R19). -/
def execIslctl (island : Nat) (x : BitVec 64) (s : State) : Outcome := happen (if island < 64 then s.writeIsl island x else s)

/-- The change in progress may end: one to GATED once every core has passed (R20). -/
def State.changeDue (s : State) (n : Nat) : Bool := !(s.island n).busy || (s.island n).due.isEmpty

/-- An island's change ends, at a point that the power and the thermal rules still allow, and it goes straight on if another
is due by now. -/
def State.endChange (s : State) (n : Nat) : State :=
  let x := s.island n
  if x.busy && x.due.isEmpty then
    let cur := if x.goal = 6 then 6 else max x.goal (max x.power x.thermal)
    let t := (s.setIsland n { x with cur, busy := false }).moveIsland n
    if x.cur = 6 && x.goal ≠ 6 then t.postEvent (.hubConsider (n / 4)) else t
  else s

/-- OPERATING_POINT_CHANGE_DONE (R19). -/
def execOperatingPointChangeDone (island : Nat) (s : State) : Outcome := happen (s.endChange island)

/-! ### Steps (R22, R24) -/

/-- Lowest point that a step takes an island to: LOW, STEP3 for island 3. -/
def islFloor (n : Nat) : Nat := if n % 4 = 3 then 3 else 5

/-- The other rule has stepped the island down within the last 100 µs: that step serves this rule too (R24).
DEDUCED (unsafe), log entry 31. -/
def IslSt.servedBy (x : IslSt) (now : Nat) (thermal : Bool) : Bool :=
  match x.stepped with
  | some (t, at_) => t != thermal && now < at_ + 100000
  | none => false

/-- With the point that a rule demands: the point in force. -/
def IslSt.demand (x : IslSt) (thermal : Bool) (point : Nat) : IslSt :=
  if thermal then { x with thermal := point } else { x with power := point }

/-- A step down: CUR is lowered by one point, and that point is what the rule demands (R22, R24). A step that the other rule
has made for both lowers nothing more. An island at its lowest point, or gated, is passed over. -/
def IslSt.down (x : IslSt) (n now : Nat) (thermal : Bool) : IslSt :=
  if x.servedBy now thermal then { x.demand thermal (min x.cur (islFloor n)) with stepped := none }
  else if islFloor n ≤ x.cur then x
  else { x.demand thermal (x.cur + 1) with cur := x.cur + 1, stepped := some (thermal, now) }

/-- What a rule demands with one step less: nothing, where REQ is as low. -/
def IslSt.less (x : IslSt) (point : Nat) : Nat := if x.req < 6 && point - 1 ≤ x.req then 0 else point - 1

/-- With what a rule demands changed by a step up: CUR rises by one point, as far as REQ and the other rule allow. -/
def IslSt.up (x : IslSt) (f : IslSt → IslSt) : IslSt :=
  let y := { f x with stepped := none }
  if x.cur ≤ 5 && y.target < x.cur then { y with cur := x.cur - 1 } else y

/-! ### Power (R22) -/

/-- The power controller steps an island down. DEDUCED (unsafe), log entry 31. -/
def State.powerDown (s : State) (n : Nat) : State :=
  s.setIsland n ((s.island n).down n s.clock false)

/-- A die whose islands 0 to 2, or whose island 3, can step down. -/
def State.canStep (s : State) (high : Bool) (d : Nat) : Bool :=
  if high then (s.island (4 * d + 3)).cur < 3 else (List.range 3).any (fun k => (s.island (4 * d + k)).cur < 5)

/-- The dies in ascending order from the next one. -/
def dieOrder (next : Nat) : List Nat := (List.range 16).map (fun k => (next + k) % 16)

/-- Islands are stepped down, the first step of a spell with a machine check. -/
def State.stepDie (s : State) (ns : List Nat) : State :=
  let t := ns.foldl State.powerDown s
  let u := { t with power := { t.power with active := true } }
  if s.power.active then u else u.machineCheck 1 (ns.headD 0) 0

/-- POWER_STEP_DOWN: over the limit for 100 µs (R22). -/
def execPowerStepDown (s : State) : Outcome :=
  happen (match (dieOrder s.power.next).find? (s.canStep false) with
    | some d => { s with power := { s.power with next := (d + 1) % 16 } }.stepDie ((List.range 3).map (4 * d + ·))
    | none =>
      match (dieOrder s.power.next3).find? (s.canStep true) with
      | some d => { s with power := { s.power with next3 := (d + 1) % 16 } }.stepDie [4 * d + 3]
      | none => if s.power.capped then s else { s with power := { s.power with capped := true } }.machineCheck 1 63 0)

/-- The power controller takes back one step of an island. -/
def State.powerUp (s : State) (n : Nat) : State := s.setIsland n ((s.island n).up (fun x => { x with power := x.less x.power }))

/-- A die of which the power controller still holds an island down. -/
def State.heldDown (s : State) (d : Nat) : Bool := (List.range 4).any (fun k => (s.island (4 * d + k)).power != 0)

/-- POWER_STEP_UP: the islands of the die whose turn it is rise one point (R22). DEDUCED (unsafe), log entry 31. -/
def execPowerStepUp (die : Nat) (s : State) : Outcome :=
  happen (if (dieOrder s.power.rise).find? s.heldDown = some die then
      (List.range 4).foldl (fun t k => t.powerUp (4 * die + k))
        { s with power := { s.power with active := false, capped := false, rise := (die + 1) % 16 } }
    else s)

/-! ### Cooling (R24) -/

/-- THERMAL_STEP: an island above 100 °C steps down, with a machine check; one step serves the power rule too. -/
def execThermalStep (island : Nat) (s : State) : Outcome :=
  happen ((s.setIsland island ((s.island island).down island s.clock true)).machineCheck 2 island 0)

/-- THERMAL_RECOVER: an island below 95 °C returns toward REQ. -/
def execThermalRecover (island : Nat) (s : State) : Outcome :=
  happen (s.setIsland island ((s.island island).up (fun x => { x with thermal := x.less x.thermal })))

/-- THERMAL_TRIP: every clock stops, and every context is lost; the module accepts only a cold start (R24, R412). -/
def execThermalTrip (s : State) : Outcome :=
  .next { s with
    gangs := [], crews := [], leases := [], standing := [], pinned := [], tasks := [], watches := [], pending := [], colls := [],
    loads := [], retr := [], probes := [], raises := [], agenda := [], logQueue := [], mgmt := { s.mgmt with ttrip := true } }

end Sys2Proof.Machine
end

