-- ==== Sys2Proof/Machine/System.lean ====
section
/-! DEFINITION. System instructions: major 0x2E (R30, R42, R382 to R384, R398, R402 to R405, R424), and hint words (R32
to R37). -/

namespace Sys2Proof.Machine

/-! ### Privilege (R30, R382) -/

/-- A split in handler mode counts as the resident for sysrd, syswr and tret. -/
def Issue.mayAccess (i : Issue) : Bool := i.g.ctx == 0 || i.sp.hm

/-- The other words of the major: the resident's alone, and not in handler mode. -/
def Issue.mayCommand (i : Issue) : Bool := i.g.ctx == 0 && !i.sp.hm

/-- A command of the resident, its operands unpoisoned (R382, R387). DEDUCED (unsafe), log entry 27. -/
def command (regs : List (BitVec 6)) (body : Issue → State → Res) (s : State) : Outcome :=
  issue {} (fun _ => true) (fun i t =>
    if !i.mayCommand then .trap t 0x02 i.act 0
    else if regs.any (fun r => i.g.smark r.toNat) then .trap t 0x09 i.act 0
    else body i t) s

/-! ### System registers (R42, R383) -/

/-- The value of a system register for a split, if the table grants it the read. -/
def State.sysValue (s : State) (i : Issue) (n : Nat) : Option DWord :=
  let own (x : Nat) : Option DWord := some (dw (if i.g.onControl then 0 else x))
  let cl := clusterOf i.g.core
  match n with
  | 0x000 => some (i.sp.fmt.zeroExtend 64)
  | 0x001 => some (i.g.fst.zeroExtend 64)
  | 0x002 => some (dw i.g.ctx)
  | 0x003 => some (dw s.mgmt.modid)
  | 0x004 => some (dw (cl / 36))
  | 0x005 => some (dw (cl % 36))
  | 0x006 => some (dw (if i.g.onControl then 4 else i.g.core % 4))
  | 0x007 => own i.g.crew
  | 0x008 => own (i.g.slot + 256 * i.g.tidx)
  | 0x009 => own i.g.tdepth
  | 0x00A => some (dw s.clock)
  | 0x010 => own i.sp.trapCause
  | 0x011 => own i.sp.trapPc.toNat
  | 0x012 => own i.sp.trapLanes.toNat
  | 0x013 => own i.sp.trapAddr.toNat
  | 0x014 => some (s.trapVec i.g.ctx)
  | _ => if i.g.ctx = 0 then some (dw (s.island (n - 0x400)).word) else none

/-- sysrd (R383). -/
def execSysrd (d : BitVec 6) (n : BitVec 12) (s : State) : Outcome :=
  issue {} (fun _ => true) (fun i t =>
    if !i.mayAccess then .trap t 0x02 i.act 0
    else
      match t.sysValue i n.toNat with
      | none => .trap t 0x02 i.act 0
      | some x => .done (i.putS t d x)) s

/-- FST as written: reserved bits read zero (R64). -/
def fstWritten (x : Word) : Word := x &&& 0x3F

/-- A trap register of the issuing split is written; on a control core the write is ignored. -/
def State.writeTrap (s : State) (i : Issue) (f : Split → Split) : State :=
  if i.g.onControl then s else s.updGang i.g.id (fun g => g.updSplit i.k f)

/-- The state after a write of a system register, if the table grants it. -/
def State.sysWrite (s : State) (i : Issue) (n : Nat) (x : DWord) : Option State :=
  match n with
  | 0x000 => some (s.updGang i.g.id (fun g => g.updSplit i.k (fun sp => { sp with fmt := fmtWritten (x.truncate 32) })))
  | 0x001 => some (s.updGang i.g.id (fun g => { g with fst := fstWritten (x.truncate 32) }))
  | 0x010 => some (s.writeTrap i (fun sp => { sp with cause := x.truncate 8 }))
  | 0x011 => some (s.writeTrap i (fun sp => { sp with trapPc := x }))
  | 0x012 => some (s.writeTrap i (fun sp => { sp with trapLanes := x.truncate 32 }))
  | 0x013 => some (s.writeTrap i (fun sp => { sp with trapAddr := x }))
  | _ => if 0x400 ≤ n && i.g.ctx = 0 then some (s.writeIsl (n - 0x400) x) else none

/-- syswr: a register that the table grants no write of raises 0x02; poison is consumed (R383, R387). -/
def execSyswr (a : BitVec 6) (n : BitVec 12) (s : State) : Outcome :=
  issue {} (fun _ => true) (fun i t =>
    if !i.mayAccess then .trap t 0x02 i.act 0
    else
      match t.sysWrite i n.toNat (i.g.sreg a.toNat) with
      | none => .trap t 0x02 i.act 0
      | some u => if i.g.smark a.toNat then .trap t 0x09 i.act 0 else .done u) s

/-! ### Return from handler mode (R384) -/

/-- Causes that tret.r performs again with the lanes that had them. -/
def resumable (c : Nat) : Bool := c == 0x05 || c == 0x06 || c == 0x08 || c == 0x0C

/-- The frame of tret.r and tret.s: outside handler mode nothing is performed, and the resident reports subcode 6.
DEDUCED (unsafe), log entry 46. -/
def tret (go : Issue → State → Res) (s : State) : Outcome :=
  issue {} (fun _ => true) (fun i t =>
    if !i.mayAccess then .trap t 0x02 i.act 0
    else if !i.sp.hm then .done (t.machineCheck 6 i.sp.pc.toNat 0)
    else go i t) s

/-- A split leaves handler mode, and goes on where f says. -/
def State.leaveTrap (s : State) (i : Issue) (f : Split → Split) : Res :=
  .as (s.updGang i.g.id (fun g => g.updSplit i.k (fun sp => f { sp.next sp.pc with hm := false })))

/-- tret.r: the group at TRAPPC again, for a resumable cause with the lanes of TRAPLANES alone. -/
def execTretR (s : State) : Outcome :=
  tret (fun i t => t.leaveTrap i (fun sp =>
    { sp with pc := sp.trapPc, retry := if resumable sp.cause.toNat then some sp.trapLanes else none })) s

/-- The word at an address of a context's text, when it lies in own memory. -/
def State.textWord (s : State) (ctx va : Nat) : Option Nat :=
  match leafAt s ctx va with
  | none => none
  | some (base, _, e) =>
    let a := leafFrame e + (va - base)
    if va % 4 = 0 && leafModule e == s.mgmt.modid && isDram a then some (s.readLe a 4) else none

/-- Hint words at an address, before the instruction they serve, as memory holds them; fuel is the longest group. -/
def State.hintsAt (s : State) (ctx : Nat) : Nat → Nat → Nat
  | 0, _ => 0
  | n + 1, va =>
    match s.textWord ctx va with
    | some w => if bits w 26 6 = 0x3F then State.hintsAt s ctx n (va + 4) + 1 else 0
    | none => 0

/-- Hint words of the group at TRAPPC: those that stand there, or, where they cannot be read, GLEN.
DEDUCED (unsafe), log entry 46. -/
def State.hintsAtTrap (s : State) (ctx : Nat) (sp : Split) : Nat :=
  if (s.textWord ctx sp.trapPc.toNat).isSome then s.hintsAt ctx 8 sp.trapPc.toNat else sp.glen

/-- A split goes on after the group at TRAPPC, which has n hint words. -/
def State.skipGroup (s : State) (i : Issue) (n : Nat) : Res :=
  s.leaveTrap i (fun sp => { sp with pc := sp.trapPc + dw (4 * (n + 1)) })

/-- The parts of the longest group that may stand at an address of a context, as far as its pages grant fetch. -/
def State.groupParts (s : State) (ctx va : Nat) : List Located :=
  (((rangeParts 0 3 0 va 36).map (fun p => (p, leafAt s ctx p.va))).takeWhile (fun x => x.2.any (fun l => leafGrants l.2.2 4 ctx))).filterMap
    (fun x => x.2.map (fun l => { part := x.1, phys := leafPhys l.2.2 l.1 x.1.va, leaf := l.2.2, isSealed := false }))

/-- Hint words before the first instruction among the words that a load brought, of n bytes; GLEN where there is none among
them, or one cannot be consumed. DEDUCED (unsafe), log entry 46. -/
def Split.hintsIn (sp : Split) (got : Store Byte) (n : Nat) (bad : Bool) : Nat :=
  if bad then sp.glen
  else ((List.range (n / 4)).find? (fun k => bits (ofBytes ((List.range 4).map (fun j => sget 0 got (gotKey 0 (4 * k + j))))) 26 6 != 0x3F)).getD sp.glen

/-- tret.s: the word after the instruction of the group at TRAPPC, whose words are awaited where a peer or the host holds
them. -/
def execTretS (s : State) : Outcome :=
  tret (fun i t =>
    let ps := t.groupParts i.g.ctx i.sp.trapPc.toNat
    if ps.all (fun p => p.ownDram t) || i.sp.trapPc.toNat % 4 != 0 then t.skipGroup i (t.hintsAtTrap i.g.ctx i.sp)
    else
      let r := ps.foldl (fun (r : Gather) x => r.beyond i.g [x] Ask.past) (Gather.start t)
      let n := ps.foldl (fun k p => k + p.part.len) 0
      if r.await.isEmpty then r.st.skipGroup i (i.sp.hintsIn r.got n (r.poison != 0))
      else .wait (r.st.addLoad { (blankLoad i.g.id i.k 15 0 []).from r with size := n }) (.reply r.st.fresh)) s

/-! ### Range operands and leases (R405) -/

/-- A range operand: base, length and context, unless malformed. -/
def rangeOperand (x y : DWord) : Option (Nat × Nat × Nat) :=
  if x.toNat % 4096 = 0 && bits y.toNat 0 48 % 4096 = 0 then some (x.toNat, bits y.toNat 0 48, bits y.toNat 48 16) else none

/-- A malformed operand: nothing is performed, and subcode 4 is reported with it. -/
def malformed (t : State) (x : DWord) : Res := .done (t.machineCheck 4 x.toNat 0)

/-- The range operand of an instruction, or the value that makes it malformed. DEDUCED (unsafe), log entry 27. -/
def withRange (i : Issue) (t : State) (a b : BitVec 6) (go : Nat × Nat × Nat → Res) : Res :=
  match rangeOperand (i.g.sreg a.toNat) (i.g.sreg b.toNat) with
  | some r => go r
  | none => malformed t (if (i.g.sreg a.toNat).toNat % 4096 ≠ 0 then i.g.sreg a.toNat else i.g.sreg b.toNat)

/-- A standing lease is established, or waits for entries of the pinned-range table (R99). -/
def standRanges (i : Issue) (t : State) (d : BitVec 6) (ctx : Nat) (rs : List LeaseRange) : Res :=
  let die := dieOf i.g.core
  if (t.standFaults die ctx rs).isEmpty && t.pinsFree die < t.pinsNeeded die ctx rs then .wait t (.pins die (t.pinsNeeded die ctx rs))
  else
    let r := t.standLease die ctx rs
    .done (i.putS r.1 d (dw r.2))

/-- The entries of a standing lease's set have been read. -/
def standEntries (i : Issue) (t : State) (d : BitVec 6) (ctx : Nat) (va : DWord) (n : Nat) (got : Store Byte) : Res :=
  match rangesOf got n with
  | none => malformed t va
  | some rs => standRanges i t d ctx rs

/-- Reads the entries of a standing lease's set. -/
def standHeader (i : Issue) (t : State) (d : BitVec 6) (ctx : Nat) (va : DWord) (header : Nat) : Res :=
  match setCount header with
  | none => malformed t va
  | some n =>
    match t.readUnits ctx (va.toNat + 16) n with
    | none => malformed t va
    | some (u, got, []) => standEntries i u d ctx va n got
    | some (u, got, aw) =>
      .wait (u.addLoad { blankLoad i.g.id i.k 11 d.toNat aw with size := ctx, got, lines := (16 * n, va.toNat, 0, 0) }) (.reply u.fresh)

/-- lease: a malformed set is a malformed operand (R405). DEDUCED (unsafe), log entry 28. -/
def execLease (d a b : BitVec 6) (s : State) : Outcome :=
  command [a, b] (fun i t =>
    let va := i.g.sreg a.toNat
    let ctx := bits (i.g.sreg b.toNat).toNat 0 16
    if va.toNat % 16 ≠ 0 then malformed t va
    else
      match t.readUnits ctx va.toNat 1 with
      | none => malformed t va
      | some (u, got, []) => standHeader i u d ctx va (element got 0 16)
      | some (u, _, aw) =>
        .wait (u.addLoad { blankLoad i.g.id i.k 10 d.toNat aw with size := ctx, lines := (16, va.toNat, 0, 0) }) (.reply u.fresh)) s

/-- Crews are still being pre-empted. -/
def State.saving (s : State) (vs : List Nat) : List Nat := vs.filter (fun v => ((s.crew v).map (·.preempting)).getD false)

/-- The crews that hold a page of a range are pre-empted; when there are none, every pin left is released. -/
def State.revokeRange (t : State) (ctx base len : Nat) : Res :=
  let vs := t.crewsPinning ctx base len
  if vs.isEmpty then .done (t.revoke ctx base len) else .wait (vs.foldl State.startPreempt t) (.saved vs)

/-- unlease (R103, R405): crews that were placed or restored while it waited are pre-empted too. -/
def execUnlease (a b : BitVec 6) (s : State) : Outcome :=
  command [a, b] (fun i t => withRange i t a b (fun r =>
    match i.sp.blocked with
    | some (.saved vs) => if (t.saving vs).isEmpty then t.revokeRange r.2.2 r.1 r.2.1 else .wait t (.saved vs)
    | _ => t.revokeRange r.2.2 r.1 r.2.1)) s

/-- Everything cached of a virtual range leaves the TLBs, the walkers and the pinned-range tables; length 0 is the whole context. -/
def State.dropRange (s : State) (ctx base len : Nat) : State :=
  let t := if len = 0 then { s with tlb := s.tlb.filter (fun e => e.ctx != ctx), ptrs := s.ptrs.filter (fun p => p.ctx != ctx) } else s.tlbDrop ctx base len
  { t with pinned := t.pinned.filter (fun p => !(p.ctx == ctx && (len == 0 || t.pinsPage ctx base len p.range))) }

/-- tlbinv (R405). -/
def execTlbinv (a b : BitVec 6) (s : State) : Outcome :=
  command [a, b] (fun i t => withRange i t a b (fun r => .done (t.dropRange r.2.2 r.1 r.2.1))) s

/-! ### ctxkill and halt (R398, R405) -/

/-- The accesses of a context at the link agent: those sent to the host, by tag. -/
def State.hostTags (s : State) (ctx : Nat) : List Nat :=
  (s.hostAtomics.filter (fun h => h.phase != 0 && h.phase != 4 && h.ctx == ctx)).map (·.tag)

/-- Modules to which packets of a context have gone, its deltas among them; nothing returns from a lost one. -/
def State.ctxPeers (s : State) (ctx : Nat) : List Nat :=
  (distinct ((s.out.filter (fun p => p.ctx == ctx)).map (·.dst))).filter (fun m => !s.lost.contains m)

/-- A drain token goes to a module. -/
def State.sendToken (s : State) (ctx m : Nat) : State :=
  { s with out := s.out ++ [s.routed { blankPacket s.mgmt.modid m 0x0D s.fresh with ctx }], tokens := s.tokens ++ [(ctx, s.fresh)],
           fresh := s.fresh + 1 }

/-- Steps 1 to 3 of R398: tasks, watches, crews, collectives and updates of a context go, and drain tokens leave. Its
hash-family slots are empty when it is created again (R292). -/
def State.killCtx (s : State) (ctx : Nat) : State :=
  let vs := (s.crews.filter (fun c => c.ctx == ctx)).map (·.val)
  let a := (s.tasks.filter (fun k => k.ctx == ctx)).foldl State.dropTask s
  let b := (a.watches.filter (fun w => w.ctx == ctx)).foldl State.removeWatch a
  let d := vs.foldl (fun t v => t.endCrew v true) b
  let e : State := { d with
    colls := d.colls.filter (fun c => c.ctx != ctx), retr := d.retr.filter (fun r => r.ctx != ctx)
    probes := d.probes.filter (fun p => p.ctx != ctx), hashes := d.hashes.filter (fun h => h.ctx != ctx), pending := d.pending.filter (fun p => p.ctx != ctx) }
  let h := e.hostTags ctx
  let f : State := { e with
    tokens := e.tokens ++ h.map (fun t => (ctx, t))
    hostAtomics := e.hostAtomics.filter (fun x => h.contains x.tag || x.ctx != ctx) }
  (f.ctxPeers ctx).foldl (fun t m => t.sendToken ctx m) f

/-- Some drain token of a context is still out. -/
def State.tokensOut (s : State) (ctx : Nat) : Bool := s.tokens.any (fun t => t.1 == ctx)

/-- ctxkill (R398). -/
def execCtxkill (d a : BitVec 6) (s : State) : Outcome :=
  command [a] (fun i t =>
    let c := bits (i.g.sreg a.toNat).toNat 0 16
    match i.sp.blocked with
    | some (.tokens c) => if t.tokensOut c then .wait t (.tokens c) else .done (i.putS t d 0)
    | _ =>
      if c = 0 || (t.rootOf c).isNone then .done (i.putS t d 1)
      else
        let u := t.killCtx c
        if u.tokensOut c then .wait u (.tokens c) else .done (i.putS u d 0)) s

/-- Contexts but 0 of which anything is left to kill, traffic on its way among it. -/
def State.liveCtxs (s : State) : List Nat :=
  (distinct (s.crews.map (·.ctx) ++ s.tasks.map (·.ctx) ++ s.watches.map (·.ctx) ++ s.colls.map (·.ctx) ++ s.retr.map (·.ctx)
    ++ s.out.map (·.ctx) ++ s.hostAtomics.map (·.ctx))).filter (· != 0)

/-- Every clock stops; the module accepts only a start (R405, R411). -/
def State.stopClocks (s : State) : State := { s with mgmt := { s.mgmt with halted := true } }

/-- Context that stands for all of them in a wait for drain tokens. -/
def anyCtx : Nat := 2 ^ 16

/-- halt (R405). -/
def execHalt (s : State) : Outcome :=
  command [] (fun i t =>
    match i.sp.blocked with
    | some (.tokens _) => if t.tokens.isEmpty then .done t.stopClocks else .wait t (.tokens anyCtx)
    | _ =>
      let u := t.liveCtxs.foldl State.killCtx t
      if u.tokens.isEmpty then .done u.stopClocks else .wait u (.tokens anyCtx)) s

/-! ### Events and signals (R405, R424) -/

/-- The event flag of a control core is cleared. -/
def State.clearFlag (s : State) (n : Nat) : State := { s with eventFlags := s.eventFlags.filter (· != n) }

/-- wfe: the split waits for the flag of its cluster's control core, or for its deadline. -/
def execWfe (a : BitVec 6) (s : State) : Outcome :=
  command [a] (fun i t =>
    let n := clusterOf i.g.core
    let deadline := match i.sp.blocked with
      | some (.event x) => x
      | _ => (i.g.sreg a.toNat).toNat
    if t.eventFlags.contains n || deadline ≤ t.clock then .done (t.clearFlag n) else .wait t (.event deadline)) s

/-- DEFFMT and ENTRY of entry record 0 of the resident image; zero for a module with no image known. -/
def State.residentImage (s : State) : Word × Nat := ((s.images.find? (fun m => m.ctx == 0)).map (fun m => (fmtWritten m.deffmt, m.entry))).getD (0, 0)

/-- The gang of a control core that a signal starts (R424). -/
def State.controlGang (s : State) (n : Nat) : Gang :=
  { Gang.start s.fresh (Config.cores + n) 0 0 0 (controlCrew n) 0 64 (Split.start (dw (s.ctxCb 0 + s.residentImage.2)) allLanes s.residentImage.1) with
    s := [(0, dw s.mgmt.modid), (1, dw s.mgmt.kind), (2, dw n)].filter (fun e => e.2 != 0) }

/-- A signal of kind 1: it starts a control core that waits since the start, and sets the flag of any other. -/
def State.signalCore (s : State) (n : Nat) : State :=
  if n = 0 || s.started.contains n then
    { s with eventFlags := if s.eventFlags.contains n then s.eventFlags else n :: s.eventFlags }
  else { s with gangs := s.gangs ++ [s.controlGang n], started := n :: s.started, fresh := s.fresh + 1 }

/-- signal: a release at .mod first, which waits for the completions of earlier host writes. -/
def execSignal (a b : BitVec 6) (s : State) : Outcome :=
  command [a, b] (fun i t =>
    let x := (i.g.sreg a.toNat).toNat
    let kind := bits (i.g.sreg b.toNat).toNat 0 2
    if 2 ≤ kind then malformed t (i.g.sreg b.toNat)
    else if kind = 1 && 576 ≤ bits x 0 10 then malformed t (i.g.sreg a.toNat)
    else releaseAtThen i (some scopeMod) t (fun u =>
      let v := u.unreplayable i.g.crew
      if kind = 0 then .done { v with hostOut := v.hostOut ++ [.msix (bits x 0 11)] }
      else .done (v.signalCore (bits x 0 10)))) s

/-! ### preempt and rbld (R395, R402, R405) -/

/-- preempt: 1 when no crew has that CREW value; a crew that is saved already needs nothing. DEDUCED (unsafe), log entry 28. -/
def execPreempt (d a : BitVec 6) (s : State) : Outcome :=
  command [a] (fun i t =>
    let v := bits (i.g.sreg a.toNat).toNat 0 32
    match i.sp.blocked, t.crew v with
    | some (.saved vs), _ => if (t.saving vs).isEmpty then .done (i.putS t d 0) else .wait t (.saved vs)
    | _, none => .done (i.putS t d 1)
    | _, some c => if c.preempted then .done (i.putS t d 0) else .wait (t.startPreempt v) (.saved [v])) s

/-- A member of a group is lost. -/
def Group.lostAt (g : Group) (p : Nat) : Bool := bit g.lostm p

/-- Position of the member that rebuilds stripe f (R402). -/
def Group.rebuilder (g : Group) (f : Nat) : Nat :=
  if !g.lostAt (f % g.n) then f % g.n else (f + 1) % g.n

/-- The record names a module as lost and another as its replacement. -/
def Group.rebuilds (g : Group) (lost repl : Nat) : Bool :=
  g.valid && g.repl == repl + 2 ^ 15 && (List.range g.n).any (fun p => g.lostAt p && nth 0 g.members p == lost)

/-- Stripes of a group whose rebuilder this module is. -/
def State.shareOf (s : State) (g : Group) : List Nat :=
  (List.range g.frames).filter (fun f => nth 0 g.members (g.rebuilder f) == s.mgmt.modid)

/-- A lease or an access waits on a stripe of a group at a lost module (R402). -/
def State.stripeWanted (s : State) (g : Group) (lost f : Nat) : Bool :=
  let there (m a : Nat) : Bool := m == lost && g.covers a && g.stripe a == f
  let awaited (w : Await) : Bool := there (dpaModule w.base) (dpaLocal w.base)
  let names (e : PeerStore) : Bool := (e.cells.map (·.1) ++ e.slot.toList).any (fun a => there (dpaModule a) (dpaLocal a))
  s.loads.any (fun l => l.await.any awaited) || s.peerPending.any names || s.colls.any (fun c => c.inflight.any (fun x => x.await.any awaited))
    || s.tasks.any (fun k => match k.lease with
      | .waiting rs [] => anyLeaf s k.ctx rs (fun e => there (leafModule e) (leafFrame e))
      | _ => false)

/-- The stripe that a rebuild takes next: one waited on, else the lowest (R402). -/
def State.nextStripe (s : State) (b : Rebuild) : Option Nat :=
  (b.stripes.find? (s.stripeWanted (s.group b.record) b.lost)).or b.stripes.head?

/-- A module has rebuilt its share: a record tells the resident (R402). -/
def rebuildRecord (b : Rebuild) : LogRec := residentRec 0x22 (b.lost + 2 ^ 16) 0 b.done

/-- With a rebuild replaced. -/
def State.setRebuild (s : State) (b : Rebuild) : State :=
  { s with rebuilds := s.rebuilds.map (fun x => if x.record == b.record && x.lost == b.lost then b else x) }

/-- The other group records of a share of which part is still to be rebuilt. -/
def State.restOfShare (s : State) (b : Rebuild) : Option Rebuild :=
  s.rebuilds.find? (fun x => x.lost == b.lost && x.record != b.record)

/-- A rebuild goes on with its next stripe, or is over: the last of a share's tells the resident, with the stripes of all of
them (R402). -/
def State.goOnRebuild (s : State) (b : Rebuild) : State :=
  match s.nextStripe b with
  | some f => s.postEvent (.rebuildStripe b.record f)
  | none =>
    let t := { s with rebuilds := s.rebuilds.filter (fun x => !(x.record == b.record && x.lost == b.lost)) }
    match t.restOfShare b with
    | some x => t.setRebuild { x with done := x.done + b.done }
    | none => if b.lost = s.mgmt.modid then t else t.post (rebuildRecord b)

/-- The rebuild of stripes of a group record. -/
def newRebuild (r lost repl : Nat) (fs : List Nat) : Rebuild :=
  { record := r, lost, repl, stripes := fs, done := 0, stripe := none, half := 0, got := [], wait := [] }

/-- A rebuild of stripes of some group records begins. -/
def State.startRebuild (s : State) (rs : List Nat) (lost repl : Nat) (fs : Nat → List Nat) : State :=
  rs.foldl (fun t r =>
    match t.rebuilds.find? (fun b => b.record == r && b.lost == lost) with
    | some b => t.goOnRebuild b
    | none => t) { s with rebuilds := s.rebuilds ++ rs.map (fun r => newRebuild r lost repl (fs r)) }

/-- rbld (R402, R405). -/
def execRbld (d a b : BitVec 6) (s : State) : Outcome :=
  command [a, b] (fun i t =>
    let lost := bits (i.g.sreg a.toNat).toNat 0 9
    let repl := bits (i.g.sreg b.toNat).toNat 0 9
    let rs := (List.range 16).filter (fun r => (t.group r).rebuilds lost repl)
    if rs.isEmpty then malformed t (i.g.sreg a.toNat)
    else
      let n := rs.foldl (fun m r => m + (t.shareOf (t.group r)).length) 0
      .done (i.putS (t.startRebuild rs lost repl (fun r => t.shareOf (t.group r))) d (dw n))) s

/-! ### Hint words (R32 to R37) -/

/-- A hint word is read into the group of its split: more than seven words, or a kind that stands already, raise 0x01. -/
def hint (dup : Hints → Bool) (f : Hints → Hints) (s : State) : Outcome :=
  match s.issuer with
  | none => .fault .noIssuer
  | some i =>
    let h := i.sp.hints
    let first := if h.words = 0 then i.sp.pc else h.first
    if 7 ≤ h.words || dup h then .next (i.finish (.trap s 0x01 i.act 0))
    else
      .next (State.settle ({ s with fresh := s.fresh + 1 }.updGang i.g.id (fun g => g.setSplit i.k
        (some { i.sp with pc := i.sp.pc + 4, stamp := s.fresh, demoted := false, word := none,
                          hints := { f h with words := h.words + 1, first } }))))

/-- hint.imm: two at most, the first highest (R33, R34). -/
def execHintImm (i : BitVec 22) (s : State) : Outcome :=
  hint (fun h => decide (2 ≤ h.imms.length)) (fun h => { h with imms := h.imms ++ [i] }) s

/-- hint.ord. -/
def execHintOrd (o : BitVec 3) (s : State) : Outcome := hint (fun h => h.ord.isSome) (fun h => { h with ord := some o.toNat }) s

/-- hint.scope. -/
def execHintScope (c : BitVec 3) (s : State) : Outcome := hint (fun h => h.scope.isSome) (fun h => { h with scope := some c.toNat }) s

/-- hint.cache. -/
def execHintCache (c : BitVec 3) (s : State) : Outcome := hint (fun h => h.cache.isSome) (fun h => { h with cache := some c.toNat }) s

/-- hint.sched. -/
def execHintSched (p : BitVec 2) (s : State) : Outcome := hint (fun h => h.sched.isSome) (fun h => { h with sched := some p.toNat }) s

/-- hint.bnd. -/
def execHintBnd (r : BitVec 6) (s : State) : Outcome := hint (fun h => h.bnd.isSome) (fun h => { h with bnd := some r.toNat }) s

end Sys2Proof.Machine
end

