-- ==== Sys2Proof/Machine/Hub.lean ====
section
/-! DEFINITION. The dispatch hubs: the choice of tasks, admission and placement, aging, reservations, spilled descriptors,
and the wait-for detector (R195 to R198, R336, R345, R355, R363 to R366, R371, R372, R450). -/

namespace Sys2Proof.Machine

/-! ### Shapes of tasks -/

/-- Gangs that a task needs; a restore brings its own, and reserves no core. DEDUCED (unsafe), log entry 92. -/
def HubTask.gangs (k : HubTask) : Nat := match k.source with | .restore _ => 0 | _ => shapeGangs k.shape

/-- Free gang slots of a core. -/
def State.freeSlots (s : State) (core : Nat) : Nat := 64 - (s.onCore core).length

/-- A core can admit a task (R197, R366). -/
def State.admits (s : State) (core : Nat) (k : HubTask) : Bool :=
  s.coreOpen core && ((s.core core).reserved.all (· == k.id)) && shapeGangs k.shape ≤ s.freeSlots core
    && s.roomFor core (shapePads k.shape) (shapeAccs k.shape) (shapeZregs k.shape) && (s.freeCrewNum core).isSome

/-- Cores of a die. -/
def dieCores (d : Nat) : List Nat := (List.range 144).map (144 * d + ·)

/-- Among cores for which f holds, the one with the most free slots, the lowest on a tie (R365). -/
def State.roomiest (s : State) (d : Nat) (f : Nat → Bool) : Option Nat :=
  ((dieCores d).filter f).foldl (fun b c => match b with
    | none => some c
    | some x => if s.freeSlots x < s.freeSlots c then some c else some x) none

/-- The core of a die on which a task would be placed; a restore goes back to its own (R396). -/
def State.coreFor (s : State) (d : Nat) (k : HubTask) : Option Nat :=
  match k.source with
  | .restore v => (s.crew v).bind (fun c => if s.restorable c then some c.core else none)
  | _ => s.roomiest d (fun c => s.admits c k)

/-- Links between two dies of the grid (R7, R8). -/
def dieDistance (a b : Nat) : Nat := (a % 4 - b % 4) + (b % 4 - a % 4) + ((a / 4 - b / 4) + (b / 4 - a / 4))

/-- The other dies, in order of distance and then ascending (R365). -/
def otherDies (d : Nat) : List Nat :=
  sortBy (fun a b => dieDistance d a ≤ dieDistance d b) ((List.range 16).filter (· != d))

/-- A hub has a place on chip for a task of another: posted descriptors take one (R363). -/
def State.hubRoom (s : State) (d : Nat) (k : HubTask) : Bool := !(k.source == .post || k.source == .resident) || s.onChip d < 1024

/-- The other hub that would take a task (R363, R365). -/
def State.takerOf (s : State) (d : Nat) (k : HubTask) : Option Nat :=
  match k.source with
  | .restore _ => none
  | _ => (otherDies d).find? (fun e => s.hubRoom e k && (s.coreFor e k).isSome)

/-! ### The choice (R364) -/

/-- A task can be placed now, here or at another hub. -/
def State.placeable (s : State) (d : Nat) (k : HubTask) : Bool :=
  k.ready.isSome && ((s.coreFor d k).isSome || (s.takerOf d k).isSome)

/-- The share-table weight of a context: 0 counts as 1 (R345, R364). -/
def State.weight (s : State) (ctx : Nat) : Nat := max 1 (s.byte (0x800000 + ctx)).toNat

/-- Where a hub stands. -/
def State.hub (s : State) (d : Nat) : HubSt := sget { rounds := [], skim := 0 } s.hubs d

/-- With a hub's state replaced. -/
def State.setHub (s : State) (d : Nat) (h : HubSt) : State := { s with hubs := sput { rounds := [], skim := 0 } s.hubs d h }

/-- The context that a class serves next, with its placements in this round: the one being visited while it has share
left, else the next in ascending order, wrapping round. -/
def nextCtx (cur : Nat × Nat) (weight : Nat → Nat) (ctxs : List Nat) : Option (Nat × Nat) :=
  if ctxs.contains cur.1 && cur.2 < weight cur.1 then some (cur.1, cur.2 + 1)
  else
    let cs := sortBy (fun (a b : Nat) => a ≤ b) (distinct ctxs)
    ((cs.find? (fun c => cur.1 < c)).or cs.head?).map (fun c => (c, 1))

/-- The task that arrived first at its hub, of tasks listed as they came. -/
def firstArrival (ks : List HubTask) : Option HubTask := (sortBy (fun (a b : HubTask) => a.arrival ≤ b.arrival) ks).head?

/-- The next task of a class at a hub, with the context visited. -/
def State.choiceIn (s : State) (d c : Nat) : Option (HubTask × Nat × Nat) :=
  let ks := s.tasks.filter (fun k => k.die == d && k.spilled.isNone && k.cls == c && s.placeable d k)
  (nextCtx (sget (0, 0) (s.hub d).rounds c) s.weight (ks.map (·.ctx))).bind (fun v =>
    (firstArrival (ks.filter (fun k => k.ctx == v.1))).map (fun k => (k, v)))

/-- The hub's next task: of the highest class that holds a placeable one. -/
def State.hubChoice (s : State) (d : Nat) : Option (HubTask × Nat × Nat) := [3, 2, 1, 0].findSome? (s.choiceIn d)

/-! ### Placement (R197, R198, R355, R365) -/

/-- The lowest free slots of a core. DESIGN CHOICE (unsafe), log entry 56. -/
def State.slotsFor (s : State) (core n : Nat) : List Nat := ((List.range 64).filter (s.slotFree core)).take n

/-- The pending entry of a triggered task, as merged by now (R349). -/
def State.entryOf (s : State) (k : HubTask) : Option Pending :=
  match k.source with
  | .trigger slice w gidx _ _ =>
    s.pending.find? (fun e => e.slice == slice && e.ctx == k.ctx && e.watch == w && e.gidx == gidx)
  | _ => none

/-- s0 to s7 of a task's gangs, and their depth (R354, R355). -/
def State.argsOf (s : State) (k : HubTask) : List DWord × Nat :=
  match k.source with
  | .trigger _ wid gidx depth kind =>
    let d := ((s.entryOf k).map (·.depth)).getD depth
    match s.watches.find? (fun w => w.ctx == k.ctx && w.id == wid) with
    | some w => ([dw (w.base + gidx * 2 ^ w.glog), dw wid, dw d, dw kind, dw w.arg], d)
    | none => ([], d)
  | _ => (k.args, k.tdepth)

/-- DEFFMT of a context's image (R71). DESIGN CHOICE (unsafe), log entry 25. -/
def State.deffmt (s : State) (ctx : Nat) : Word := fmtWritten (((s.images.find? (fun m => m.ctx == ctx)).map (·.deffmt)).getD 0)

/-- A gang of a placed task (R198). -/
def State.placedGang (s : State) (k : HubTask) (core val slot tidx : Nat) : Gang :=
  let a := s.argsOf k
  { Gang.start (s.fresh + tidx) core slot tidx k.ctx val k.id (shapeRegs k.shape)
      (Split.start (dw (s.ctxCb k.ctx + k.entry)) allLanes (s.deffmt k.ctx)) with
    s := ((List.range a.1.length).map (fun j => (j, nth 0 a.1 j))).filter (fun e => e.2 != 0)
    tdepth := a.2, cls := k.cls }

/-- The leaf entries of a lease go to the cluster TLB (R98); fuel is at least the number of 4 KiB pages. -/
def State.tlbRange (cl ctx end_ : Nat) : Nat → State → Nat → State
  | 0, s, _ => s
  | n + 1, s, va =>
    if end_ ≤ va then s
    else
      match leafAt s ctx va with
      | none => s
      | some (base, size, e) =>
        let t := if (s.tlbFind false cl ctx base).isSome then s
          else s.tlbAdd { inCore := false, unit := cl, ctx, va := base, size, leaf := dw e }
        State.tlbRange cl ctx end_ n t (base + size)

/-- FIRED rises as a triggered task is placed (R349). -/
def State.countFired (s : State) (k : HubTask) : State :=
  match k.source with
  | .trigger _ wid _ _ _ =>
    match s.watches.find? (fun w => w.ctx == k.ctx && w.id == wid) with
    | some w => s.writeDFields { w with fired := satAdd 32 w.fired 1 }
    | none => s
  | _ => s

/-- A task is placed on a core: one new crew, all its gangs in one step (R197, R198, R365). -/
def State.place (s : State) (k : HubTask) (core : Nat) (rs : List LeaseRange) : State :=
  let num := (s.freeCrewNum core).getD 0
  let val := s.newCrewVal core num
  let slots := s.slotsFor core (shapeGangs k.shape)
  let gs := (List.range slots.length).map (fun i => s.placedGang k core val (nth 0 slots i) i)
  let c := Crew.start val k.ctx core (shapePads k.shape) (shapeAccs k.shape) (shapeZregs k.shape) k.entry (s.newRing core)
  let crew : Crew := { c with base := s.crewBlock c }
  let t : State := { s.useCrewNum core num with
    gangs := s.gangs ++ gs, crews := s.crews ++ [crew], fresh := s.fresh + slots.length
    leases := s.leases ++ [{ task := k.id, die := k.die, ctx := k.ctx, ranges := rs, loose := [] }]
    tasks := s.tasks.filter (fun x => x.id != k.id) }
  let u := rs.foldl (fun q r => State.tlbRange (clusterOf core) k.ctx (r.base + r.len) (r.len / 4096 + 2) q r.base) t
  let v := u.unreserve k.id
  gs.foldl (fun q g => q.acquireBy g scopeMod) (((v.countFired k).freeEntry k).postEvent (.hubSpillRefill k.die))

/-- Another hub takes the task, which arrives there now, whose lease its own lease unit establishes, and which may reserve a core
of that die in its time (R364 to R366). -/
def State.handOver (s : State) (k : HubTask) (taker : Nat) : State :=
  let t := s.dropTask k
  (({ t with tasks := t.tasks ++ [{ k with die := taker, lease := .none, arrival := s.clock }] }.postEvent (.leaseEstablish k.id)).postOnce
    (.coreReservation k.id)).postEvent (.hubSpillRefill k.die)

/-- The hub deals with the task it has chosen. -/
def State.serve (s : State) (d : Nat) (k : HubTask) : State :=
  match k.ready, k.source, s.coreFor d k with
  | none, _, _ => s
  | some _, .restore v, _ => s.postEvent (.crewRestore v)
  | some rs, _, some core => s.place k core rs
  | some _, _, none => match s.takerOf d k with | some e => s.handOver k e | none => s

/-- A task at a hub for a context, or a crew, that does not exist. -/
def State.orphan (s : State) (d : Nat) : Option HubTask :=
  s.tasks.find? (fun k => k.die == d && (match k.source with
    | .restore v => (s.crew v).isNone
    | _ => (s.rootOf k.ctx).isNone))

/-- The hub considers its next task (R364, R450). -/
def State.consider (s : State) (d : Nat) : State :=
  match s.orphan d with
  | some k => (match k.source with | .restore _ => s.dropTask k | _ => s.dropUnknown k)
  | none =>
    match s.hubChoice d with
    | none => s
    | some (k, v) =>
      let h := s.hub d
      let t := s.setHub d { h with rounds := sput (0, 0) h.rounds k.cls (if (s.coreFor d k).isSome then v else (v.1, v.2 - 1)) }
      (match k.source with | .restore _ => t.serve d k | _ => (t.serve d k).postEvent (.hubConsider d))

/-- HUB_CONSIDER (R364). -/
def execHubConsider (die : Nat) (s : State) : Outcome := happen (s.consider die)

/-! ### Aging and reservations (R364, R366) -/

/-- With a task changed. -/
def State.updTask (s : State) (id : Nat) (f : HubTask → HubTask) : State :=
  { s with tasks := s.tasks.map (fun k => if k.id == id then f k else k) }

/-- The task has waited 64 µs in its class, or is gone. -/
def State.agingDue (s : State) (id : Nat) : Bool := (s.task id).all (fun k => 3 ≤ k.cls || k.since + 64000 ≤ s.clock)

/-- A task moves up one class. -/
def State.age (s : State) (id : Nat) : State :=
  match s.task id with
  | none => s
  | some k =>
    if k.cls < 3 && k.since + 64000 ≤ s.clock then
      ((s.updTask id (fun x => { x with cls := x.cls + 1, since := x.since + 64000 })).postEvent (.taskAging id)).postEvent
        (.hubConsider k.die)
    else s

/-- TASK_AGING (R364). -/
def execTaskAging (task : Nat) (s : State) : Outcome := happen (s.age task)

/-- Reservations that a hub holds. -/
def State.reservations (s : State) (d : Nat) : Nat := ((dieCores d).filter (fun c => (s.core c).reserved.isSome)).length

/-- The core that a task would reserve: after 256 µs, for 16 gangs or more, at a hub with fewer than four reservations. -/
def State.reservable (s : State) (k : HubTask) : Option Nat :=
  if k.gangs < 16 || s.clock < k.arrival + 256000 || 4 ≤ s.reservations k.die
      || (dieCores k.die).any (fun c => (s.core c).reserved == some k.id) then none
  else s.roomiest k.die (fun c => (s.core c).reserved.isNone && s.coreOpen c)

/-- The task's reservation can be made, or never will be. -/
def State.reservationDue (s : State) (id : Nat) : Bool :=
  (s.task id).all (fun k => k.gangs < 16 || (s.reservable k).isSome)

/-- CORE_RESERVATION (R366). -/
def execCoreReservation (task : Nat) (s : State) : Outcome :=
  happen (match s.task task with
    | none => s
    | some k =>
      match s.reservable k with
      | none => s
      | some c => s.updCore c (fun x => { x with reserved := some task }))

/-! ### Spilled descriptors (R363, R451) -/

/-- The first descriptor that a hub has spilled. -/
def State.firstSpilled (s : State) (d : Nat) : Option HubTask := s.tasks.find? (fun k => k.die == d && k.spilled.isSome)

/-- The descriptor of a task has been read back. -/
def State.takeSpilled (s : State) (k : HubTask) (va : Nat) (b : List Byte) : State :=
  let r := taskOf k.id k.die k.ctx k.arrival k.tdepth k.poster k.source b
  if descriptorBad b then s.machineCheck 11 va k.poster
  else (s.updTask k.id (fun x => { r with cls := x.cls, since := x.since })).postEvent (.hubSpillRefill k.die)

/-- It returns to chip while there is room. A descriptor that breaks R360 or R362 by now is invalid (R4) and stays where it is, as
one that cannot be read does. DESIGN CHOICE (unsafe), log entry 103. -/
def State.unspill (s : State) (d : Nat) : State :=
  match s.firstSpilled d with
  | none => s
  | some k =>
    if 1024 ≤ s.onChip d || s.fetching 17 d then s
    else
      let va := s.hubSpillVa k.poster d (k.spilled.getD 0)
      match s.areaRead k.poster va 128 with
      | .failed t => t.machineCheck 11 va k.poster
      | .here t b => t.takeSpilled k va b
      | .coming t aw => t.addLoad { blankLoad (noGang + k.poster) 0 17 d aw with size := k.id, lines := (0, va, 0, 0) }

/-- A descriptor has come from a spill region elsewhere: the task that is still spilled there takes it. -/
def State.descriptorComes (s : State) (l : PendLoad) : State :=
  match s.task l.size with
  | none => s.postEvent (.hubSpillRefill l.reg)
  | some k =>
    if k.die != l.reg || k.spilled.isNone then s.postEvent (.hubSpillRefill l.reg)
    else if l.poison != 0 then s.machineCheck 11 l.lines.2.1 k.poster
    else s.takeSpilled k l.lines.2.1 (l.bytes 128)

/-- HUB_SPILL_REFILL (R363). -/
def execHubSpillRefill (die : Nat) (s : State) : Outcome := happen (s.unspill die)

/-! ### The wait-for detector (R371, R372) -/

/-- A gang is blocked: every live split it has is blocked, and none merely yields. -/
def Gang.isBlocked (g : Gang) : Bool := !g.live.isEmpty && g.allBlocked

/-- Member gangs of a crew with a live lane that has not arrived at an object in its phase. -/
def State.notArrived (s : State) (v off : Nat) : List Nat :=
  match s.crew v with
  | none => []
  | some c =>
    let gen := (s.bar v off).gen
    ((s.members v).filter (fun g =>
      g.live.any (fun p => p.2.mask &&& ~~~ (g.arrivedAt (c.namesOf off) gen) != 0))).map (·.id)

/-- Other gangs of a context on a cluster for which f does not hold. -/
def State.fifoOthers (s : State) (g : Gang) (f : Wait → Bool) : List Nat :=
  (s.gangs.filter (fun h => h.id != g.id && h.ctx == g.ctx && !h.onControl && clusterOf h.core == clusterOf g.core
    && !h.live.any (fun p => match p.2.blocked with | some w => f w | none => false))).map (·.id)

/-- The gangs that a blocked split waits on; none when it waits on a running agent or may go on.
DEDUCED (unsafe), log entry 26. -/
def State.waitsOn (s : State) (g : Gang) : Wait → Option (List Nat)
  | .name b =>
    if ((s.crew g.crew).bind (fun c => c.bound b)).isSome then none
    else some (((s.members g.crew).map (·.id)).filter (· != g.id))
  | .gen b gen _ =>
    match (s.crew g.crew).bind (fun c => c.bound b) with
    | none => none
    | some off =>
      let x := s.bar g.crew off
      if x.gen != gen || x.inb != 0 || x.outb != 0 then none else some (s.notArrived g.crew off)
  | .trowel _ => (s.core g.core).trowel.map (fun h => [h.1])
  | .follower =>
    let c := s.core (partner g.core)
    if (s.follower g).isSome || c.passing.isSome then none
    else match c.trowel with
      | some h => some [h.1]
      | none => some ((s.onCore (partner g.core)).map (·.id))
  | .copySlot =>
    match g.copySlot with
    | none => none
    | some sl =>
      match (s.colls.find? (fun c => c.crew == sl.crew && !c.complete && c.queues.any (sl.queues.contains ·))) with
      | some c => if s.sliceWaits sl then some c.awaited else none
      | none => none
  | .fifoPush f => some (s.fifoOthers g (fun w => match w with | .fifoPush k => k == f | _ => false))
  | .fifoPop f => some (s.fifoOthers g (fun w => match w with | .fifoPop k => k == f | _ => false))
  | _ => none

/-- Every wait of every split of a gang names only gangs of a set. -/
def State.waitsWithin (s : State) (ids : List Nat) (g : Gang) : Bool :=
  g.live.all (fun p => match p.2.blocked with
    | none => false
    | some w => match s.waitsOn g w with | none => false | some l => l.all ids.contains)

/-- The greatest set within a set in which every wait names only gangs of the set; fuel is its size.
DEDUCED (unsafe), log entry 26. -/
def State.closed (s : State) : Nat → List Gang → List Gang
  | 0, gs => gs
  | n + 1, gs => State.closed s n (gs.filter (s.waitsWithin (gs.map (·.id))))

/-- The blocked gangs of a die that the detector looks at: a gated island's gangs wait on no gang. -/
def State.blockedOn (s : State) (d : Nat) : List Gang :=
  s.gangs.filter (fun g => !g.onControl && dieOf g.core == d && !s.gated g.core && g.isBlocked)

/-- Stamps of the last issues of a gang's splits. -/
def Gang.stamps (g : Gang) : List Nat := g.live.map (fun p => p.2.stamp)

/-- A gang's deadlock: each of its blocked splits takes 0x0B, its wait abandoned, a place at a FIFO with it. -/
def State.breakWaits (s : State) (g : Gang) : State :=
  g.live.foldl (fun t p => t.takeCause g.id p.1 0x0B p.2.mask 0) (s.leaveFifos (fun w => w.1 == g.id))

/-- One scan of a die: what two scans find, with no word issued in between, is declared. -/
def State.scan (s : State) (d : Nat) : State :=
  let bs := s.blockedOn d
  let now := s.closed bs.length bs
  let again := now.filter (fun g => s.suspects.contains (d, g.id, g.stamps))
  let dead := s.closed again.length again
  let t := dead.foldl State.breakWaits s
  { t with suspects := t.suspects.filter (fun x => x.1 != d)
      ++ (now.filter (fun g => !dead.any (fun h => h.id == g.id))).map (fun g => (d, g.id, g.stamps)) }

/-- DETECTOR_SCAN (R372). -/
def execDetectorScan (die : Nat) (s : State) : Outcome := happen (s.scan die)

end Sys2Proof.Machine
end

