-- ==== Sys2Proof/Machine/Units.lean ====
section
/-! DEFINITION. Events of gangs, clusters and the copy engine: joins, yields, translations, completed loads, buffers,
banks, pads, collectives (R107, R148 to R161, R170, R177, R183, R203, R205, R214, R223, R405). -/

namespace Sys2Proof.Machine

/-! ### Splits (R203, R205, R214) -/

/-- The entry that a split belongs to has been spilled. -/
def Gang.topSpilled (g : Gang) (k : Nat) : Bool :=
  match (g.split k).bind (fun sp => sp.top.bind g.entry) with
  | some e => e.spilled
  | none => false

/-- The split stands at its join, its entry at hand, and its core's clocks run (R17). -/
def State.canJoin (s : State) (id k : Nat) : Bool :=
  match s.gang id with
  | some g => g.atJoin k && !g.topSpilled k && s.clocked g
  | none => false

/-- JOIN_ARRIVAL (R205, R206). -/
def execJoinArrival (g k : Nat) (s : State) : Outcome :=
  happen (if s.canJoin g k then (s.updGang g (fun h => h.arriveJoin k)).spillEntries g else s)

/-- A split's spilled entry could not be read back: its crew ends (R203, R451). -/
def State.refillFails (s : State) (g : Gang) (va : Nat) : State := (s.machineCheck 11 va g.ctx).raiseCrew g.crew va

/-- A split's spilled entry is read back; a failed access ends the crew (R203, R451). -/
def State.refillEntry (s : State) (id k : Nat) : State :=
  match s.gang id with
  | none => s
  | some g =>
    match (g.split k).bind (fun sp => sp.top.bind g.entry) with
    | none => s
    | some e =>
      let va := s.gangBlock g + 0x2000 + 64 * e.idx
      if !e.spilled || s.refilling id k then s
      else
        match s.areaRead g.ctx va 64 with
        | .failed t => t.refillFails g va
        | .here t d => t.updGang id (fun h => h.setEntry (e.ofImage d))
        | .coming t aw => t.addLoad { blankLoad id k 16 e.idx aw with lines := (0, va, 0, 0) }

/-- A spilled entry has come from elsewhere. -/
def State.entryComes (s : State) (l : PendLoad) : State :=
  match s.gang l.gang with
  | none => s
  | some g =>
    if l.poison != 0 then s.refillFails g l.lines.2.1
    else match g.entry l.reg with
      | none => s
      | some e => if e.spilled then s.updGang g.id (fun h => h.setEntry (e.ofImage (l.bytes 64))) else s

/-- RECONVERGENCE_REFILL (R203). -/
def execReconvergenceRefill (g k : Nat) (s : State) : Outcome := happen (s.refillEntry g k)

/-- YIELD_EXPIRY: the split competes as the least recently issued (R214). -/
def execYieldExpiry (g k : Nat) (s : State) : Outcome :=
  happen (if (s.gang g).all s.clocked then s.updGang g (fun h => h.updSplit k Split.unyield) else s)

/-! ### Translation (R93, R107) -/

/-- TABLE_WALK: a cluster's walker ends at a leaf, which the cluster TLB takes; nothing invalid is held (R108). -/
def execTableWalk (cluster ctx va : Nat) (s : State) : Outcome :=
  happen (if (s.tlbFind false cluster ctx va).isSome || 2 ^ 56 ≤ va then s
    else match s.walkFor cluster ctx va with
      | (t, some (base, size, e)) => t.tlbAdd { inCore := false, unit := cluster, ctx, va := base, size, leaf := dw e }
      | (t, none) => t)

/-- CLUSTER_TLB_HIT: the cluster TLB's entry goes to a core TLB. -/
def execClusterTlbHit (core ctx va : Nat) (s : State) : Outcome :=
  happen (match s.tlbFind true core ctx va, s.tlbFind false (clusterOf core) ctx va with
    | none, some t => s.tlbAdd { t with inCore := true, unit := core }
    | _, _ => s)

/-! ### Loads from elsewhere (R154, R223) -/

/-- The load that awaits a reply. -/
def State.loadOf (s : State) (tag : Nat) : Option PendLoad := s.loads.find? (fun l => l.await.any (fun w => w.tag == tag))

/-- With a load replaced. -/
def State.setLoad (s : State) (l : PendLoad) : State := { s with loads := s.loads.map (fun x => if x.tag == l.tag then l else x) }

/-- A store of a cluster to bytes of a line is on its way to a peer. -/
def State.storePending (s : State) (cl line : Nat) : Bool :=
  s.peerPending.any (fun e => e.cluster == some cl && (e.cells.any (fun c => lineOf c.1 == line) || e.slot.any (fun a => lineOf a == line)))

/-- The L1 line holds other bytes in some of a number of sectors than a reply brought. -/
def L1Line.differs (l : L1Line) (sec : BitVec 4) (data : List Byte) : Bool :=
  (List.range 128).any (fun k => sec.getLsbD (k / 32) && l.sectors.getLsbD (k / 32) && nth 0 l.data k != nth 0 data k)

/-- Sectors of a line leave a cluster's L1. -/
def State.l1DropSectors (s : State) (cl line : Nat) (sec : BitVec 4) : State :=
  { s with l1 := s.l1.map (fun x => if x.cluster == cl && x.line == line then { x with sectors := x.sectors &&& ~~~ sec } else x) }

/-- A reply brings sectors of a peer's line: they enter the L1, when nothing has made them stale and nothing the cluster
holds or has on its way contradicts them; else what contradicts them leaves it. Replies asked for before fill no more of
the line (R154, R320 to R322). DEDUCED (safe), log entry 84. -/
def State.fillLine (s : State) (r : LineRead) (line : Nat) (sec : BitVec 4) (data : List Byte) : State :=
  let cl := r.cluster
  let t := s.cancelFills cl (fun q b => q.brings b line)
  if t.storePending cl line || (t.l1Find cl line).any (fun x => x.differs sec data) then t.l1DropSectors cl line sec
  else if r.allocate && sec != 0 then t.l1Put cl line sec data r.grain r.mark r.policy
  else t

/-- The sectors of line j of a reply that were asked for and lie in no poisoned half-line (R386). -/
def LineRead.clean (r : LineRead) (j : Nat) (bad : Nat → Bool) : BitVec 4 :=
  (List.range 4).foldl (fun m k =>
    if nth false r.sectors (4 * j + k) && !bad (128 * j + 64 * (k / 2)) then m ||| BitVec.ofNat 4 (2 ^ k) else m) 0

/-- A reply to a read of a peer's line passes the L1 of the loading gang's cluster (R154, R386). -/
def State.fillFrom (s : State) (w : Await) (data : List Byte) (bad : Nat → Bool) : State :=
  match w.line with
  | none => s
  | some r =>
    (List.range ((r.sectors.length + 3) / 4)).foldl (fun t j =>
      t.fillLine r (w.base + 128 * j) (r.clean j bad) ((data.drop (128 * j)).take 128)) s

/-- Bytes of a zld arrive in their tile registers (R289). -/
def State.tileReply (s : State) (l : PendLoad) (w : Await) (data : List Byte) (bad : Bool) : State :=
  match (s.gang l.gang).bind (fun g => (s.core g.core).jobs.find? (fun j => j.id == l.reg)) with
  | none => s
  | some j => s.tileArrive j.crew j.z w.first data bad

/-- The operands that a load's requests carry. -/
def PendLoad.ask (l : PendLoad) : Ask := { direct := true, policy := 0, ord := l.ord, scope := l.scope }

/-- The parts of a load that waited for earlier lines of strongly ordered pages are performed, as far as they go (R226). -/
def State.resumeLoad (s : State) (l : PendLoad) : State :=
  match l.near with
  | some (op, wide, elem) =>
    let r := AtomGather.strongLines { g := { st := s, got := l.got, poison := l.poison, await := [], rest := [] }, flags := 0 }
      l.gang { op, wide, elem } l.ask l.rest l.operand
    (r.g.st.updGang l.gang (fun g => g.raise r.flags)).setLoad (l.from r.g)
  | none =>
    if l.kind = 3 || l.kind = 4 then
      let p := Pieces.strongLines { st := s, come := [], await := [], rest := [] } l.gang l.rest
      if l.kind = 3 then p.st.setLoad { l.takeRows p.come with await := p.await, rest := p.rest }
      else
        (p.come.foldl (fun t x => t.tileReply l
          { tag := 0, lane := 0, first := x.1.part.first, count := 0, skip := 0, base := 0, line := none } x.2.1 x.2.2) p.st).setLoad
            { l with await := p.await, rest := p.rest }
    else
      let r := Gather.strongLines { st := s, got := l.got, poison := l.poison, await := [], rest := [] } l.gang l.rest l.ask
      r.st.setLoad (l.from r)

/-- A load whose replies have come goes on with what is left of it, or is complete. -/
def State.loadOn (s : State) (tag : Nat) : State :=
  match s.loads.find? (fun l => l.tag == tag) with
  | none => s
  | some l =>
    if !l.await.isEmpty then s
    else
      let t := if l.rest.isEmpty then s else s.resumeLoad l
      if t.loads.any (fun x => x.tag == tag && x.await.isEmpty) then t.postEvent (.loadComplete tag) else t

/-- A part of a load has come: its bytes, and whether one is poisoned; a gathered row is marked with its half-line (R304). -/
def PendLoad.arrive (l : PendLoad) (w : Await) (data : List Byte) (bad : Bool) : PendLoad :=
  let b := (data.drop w.skip).take w.count
  if l.kind = 19 then
    { l with faults := if bad then l.faults ++ [(0, 0x07, halfOf w.first)] else l.faults }
  else if l.kind = 3 then
    { l with got := putBytes l.got 0 w.first b
             faults := if bad then l.faults ++ [(w.first / 65536, 0x09, halfOf (w.base + w.skip))] else l.faults }
  else
    { l with got := putBytes l.got w.lane w.first b, poison := if bad then l.poison ||| laneBit w.lane else l.poison }

/-- Data for a load has come from a peer or the host, poisoned where f says; the last of it completes the load. -/
def State.dataLoad (s : State) (tag : Nat) (data : List Byte) (f : Nat → Bool) : State :=
  match s.loadOf tag with
  | none => s
  | some l =>
    let ws := l.await.filter (fun w => w.tag == tag)
    let bad (w : Await) : Bool := (List.range w.count).any (fun k => f (w.skip + k))
    let m := ws.foldl (fun (x : PendLoad) w => x.arrive w data (bad w)) { l with await := l.await.filter (fun w => w.tag != tag) }
    let t := ws.foldl (fun (u : State) w =>
      let v := u.fillFrom w data f
      if l.kind = 4 then v.tileReply l w ((data.drop w.skip).take w.count) (bad w) else v) (s.setLoad m)
    t.loadOn l.tag

/-- The data of a reply, poisoned at the offsets that f names, goes to whoever asked: a load, or a transfer of the copy
engine. -/
def State.deliver (s : State) (tag : Nat) (data : List Byte) (f : Nat → Bool) : State :=
  if (s.loadOf tag).isSome then s.dataLoad tag data f else s.dataColl tag data f

/-- The split of a load, as it waits. -/
def State.waiting (s : State) (l : PendLoad) : Option Issue :=
  match s.gang l.gang with
  | none => none
  | some g => (g.split l.split).map (fun sp =>
      { g, k := l.split, sp := { sp with blocked := none }, act := match sp.retry with | some m => sp.mask &&& m | none => sp.mask })

/-- The state in which the waiting split's instruction goes on. -/
def State.unblock (s : State) (id k : Nat) : State := s.updGang id (fun g => g.updSplit k (fun sp => { sp with blocked := none }))

/-- Address of the first awaited half-line of a load; kept by its first fault where it is needed. -/
def PendLoad.addr (l : PendLoad) : Nat := ((l.faults.head?).map (·.2.2)).getD 0

/-- How the instruction of a completed load ends. -/
def State.endWait (s : State) (i : Issue) (l : PendLoad) : Res :=
  let d : BitVec 6 := BitVec.ofNat 6 l.reg
  let bad := l.poison != 0
  match l.kind with
  | 3 =>
    let t := s.landLines l
    (match l.poisonedLine with
     | some a => .trap t 0x09 i.act a
     | none => .done t)
  | 5 =>
    if bad then .trap (s.updGang l.gang (fun g => g.updSplit l.split (fun sp => { sp with hints := Hints.none }))) 0x09 i.act l.addr
    else .as (s.updGang l.gang (fun g => g.updSplit l.split (fun sp => { sp with word := some (sp.pc, w32 (element l.got 0 4)) })))
  | 6 => if bad then .trap s 0x09 i.act l.addr else .done (i.putS s d (minus 2))
  | 7 =>
    if bad then .trap s 0x09 i.act (firstBad l.addr l.poison)
    else
      let r := s.takeDescriptor i.g l.size (descriptorBytes l.got)
      .done (i.putS (r.1.unreplayable i.g.crew) d (dw r.2))
  | 10 =>
    let va := dw l.lines.2.1
    if bad then malformed s va else standHeader i s d l.size va (element l.got 0 16)
  | 11 =>
    let va := dw l.lines.2.1
    if bad then malformed s va else standEntries i s d l.size va (l.lines.1 / 16) l.got
  | 12 => .done (s.takeAt l.gang l.got bad)
  | 15 => s.skipGroup i (i.sp.hintsIn l.got l.size bad)
  | _ => i.ended (l.kind == 0 || l.kind == 14) l.faults (s.landLoad l)

/-- A load is complete: its destination is written and its split goes on (R223), or the unit that asked does. -/
def State.completeLoad (s : State) (l : PendLoad) : State :=
  let t := { s with loads := s.loads.filter (fun x => x.tag != l.tag) }
  if l.kind = 2 then t
  else if l.kind = 4 then
    match t.gang l.gang with
    | none => t
    | some g =>
      let u := match l.acquire with | some c => t.acquireBy g c | none => t
      ((u.dropJob g.core l.reg).postEvent (.mmaStart g.core)).postEvent (.mdrainStart g.core)
  else if l.kind = 8 || l.kind = 9 then
    match t.task l.reg with
    | none => t
    | some k =>
      let u := t.setLease k.id .none
      if l.poison != 0 then u.badSet k
      else if l.kind = 8 then u.setHeader { k with lease := .none } (element l.got 0 16)
      else u.setEntries { k with lease := .none } (l.size / 16) l.got
  else if l.kind = 16 then t.entryComes l
  else if l.kind = 17 then t.descriptorComes l
  else if l.kind = 18 then t.slotRead l.reg l.lines.2.1 l
  else if l.kind = 19 then t.areasCome l
  else
    match t.waiting l with
    | none => t
    | some i => i.finish ((t.unblock l.gang l.split).endWait i l)

/-- The register that a load ends in can be written: its core's clocks run, or the spill engine takes the crew's registers away
(R17, R20, R395). DEDUCED (safe), log entry 105. -/
def State.landsNow (s : State) (l : PendLoad) : Bool :=
  l.kind == 2 || (s.gang l.gang).all (fun g => s.clocked g || ((s.crew g.crew).map (·.preempting)).getD false)

/-- The load of a tag, when everything it awaited has come. -/
def State.loadReady (s : State) (tag : Nat) : Option PendLoad :=
  s.loads.find? (fun l => l.tag == tag && l.await.isEmpty && s.landsNow l)

/-- LOAD_COMPLETE (R223). -/
def execLoadComplete (tag : Nat) (s : State) : Outcome :=
  happen (match s.loadReady tag with | some l => s.completeLoad l | none => s)

/-! ### Write-combining buffers (R156) -/

/-- WCB_IDLE_DRAIN: an entry that has not been touched for 256 clocks drains, while its core's clocks run (R17). -/
def execWcbIdleDrain (g line : Nat) (s : State) : Outcome :=
  happen (match s.gang g with
    | some h => if s.clocked h then s.drainLine g line else s
    | none => s)

/-! ### Banks (R148 to R152) -/

/-- Local address of a bank's status word (R146). -/
def bankStatusAt (c b : Nat) : Nat := 0x648000 + 512 * c + 8 * b

/-- A bank's status word (R148). -/
def BankSt.word (k : BankSt) : Nat :=
  let filled := (k.fifo.filter (fun e => match e with | .filled _ => true | _ => false)).length
  let held := (k.fifo.filter (fun e => match e with | .reserved _ => true | _ => false)).length
  k.sce + 2 ^ 16 * k.sue + 2 ^ 32 * held + 2 ^ 43 * filled + 2 ^ 54 * b2n k.reenc + 2 ^ 55 * b2n k.busy + 2 ^ 56 * k.cur
    + 2 ^ 58 * b2n k.err

/-- BANK_STATUS_WRITE: a write of the resident's kind. -/
def execBankStatusWrite (cluster bank : Nat) (s : State) : Outcome :=
  happen (s.commitWrite (deviceWrite (bankStatusAt cluster bank) 0 0 (leBytes 8 (s.bank cluster bank).word)))

/-- The pages held in the frames of a bank: crew and page (R149). -/
def State.bankPages (s : State) (c b : Nat) : List (Nat × Nat) :=
  ((s.framesOf c).filter (fun p => frameBank p.2.frame == b)).map (fun p => (p.1, p.2.page))

/-- State of a page of a crew. -/
def State.pageState (s : State) (p : Nat × Nat) : PadState := ((s.crew p.1).map (fun c => c.padState p.2)).getD .initial

/-- A bank in the midst of a change can go on with it (R149, R152): a pad bank once enough frames remain, to have its pages
evacuated and then to leave; a FIFO bank once it is empty. -/
def State.bankMayLeave (s : State) (c b : Nat) : Bool :=
  let k := s.bank c b
  k.busy && (if k.cur = 1 then s.padsReserved c ≤ s.padFrames c && (s.bankPages c b).all (fun p => s.pageState p != .evacuating)
    else if k.cur = 2 then k.fifo.all (fun e => e == .void) else true)

/-- The pages in a bank's frames are to be evacuated, each when its turn comes (R149, R159). -/
def State.evacuateBank (s : State) (c b : Nat) : State :=
  (s.bankPages c b).foldl (fun t p =>
    (t.updCrew p.1 (fun k => { k with padStates := sput .initial k.padStates p.2 .evacuating })).postEvent (.padEvacuate p.1 p.2)) s

/-- The pushes that still wait at a bank that has left the FIFO role find no FIFO: their crews end (R163, R166). -/
def State.endPushes (s : State) (c b : Nat) : State :=
  (s.fifoQueue c b true).foldl (fun t w =>
    match s.gang w.1 with
    | none => t
    | some g =>
      match g.split w.2 with
      | none => t
      | some sp => t.raise { crew := g.crew, gang := g.id, cause := 0x07, pc := sp.firstPc, lanes := sp.mask, addr := 0 }) s

/-- A bank that has left its role enters the one asked for, empty; it then goes on to a newer request (R149, R150). -/
def State.changeRole (s : State) (c b : Nat) : State :=
  let k := s.bank c b
  match k.change with
  | none => s
  | some q =>
    let t := (((s.endPushes c b).setBank c b { k with
        cur := q.role, ctx := q.ctx, fnum := q.fnum, change := k.next, next := none, fifo := [], head := 0, waiting := [] }).postEvent
      (.bankStatusWrite c b)).postEvent (.hubConsider (c / 36))
    if k.next.isSome then (t.dropWay c b).postEvent (.bankRoleChange c b) else t

/-- BANK_ROLE_CHANGE (R149). -/
def execBankRoleChange (cluster bank : Nat) (s : State) : Outcome :=
  happen (if !s.bankMayLeave cluster bank then s
    else if (s.bank cluster bank).cur == 1 && !(s.bankPages cluster bank).isEmpty then
      (s.evacuateBank cluster bank).postEvent (.bankRoleChange cluster bank)
    else s.changeRole cluster bank)

/-- The sector of a bank is read as its role in force reads it (R148, R150). -/
def State.readSector (s : State) (c b n : Nat) : State :=
  let k := s.bank c b
  if k.cur = 0 then
    match s.l1.find? (fun x => x.cluster == c && x.way == b && l1Set x.line == n / 4 && x.sectors.getLsbD (n % 4)) with
    | some x => s.meetLine x n
    | none => (s.meetSector c b n).1
  else if k.cur = 1 then
    match (s.framesOf c).find? (fun p => frameBank p.2.frame == b && p.2.frame % 32 == n / 128) with
    | some (v, f) => (match s.crew v with | some e => s.meetPad e f n | none => (s.meetSector c b n).1)
    | none => (s.meetSector c b n).1
  else
    let pos := (n / 4 + 1024 - k.head) % 1024
    let r := s.meetSlot c b (n / 4)
    r.1.setBank c b { r.1.bank c b with fifo := (List.range k.fifo.length).map (fun i =>
      match nth .void k.fifo i with
      | .filled ls => if i = pos then .filled (strayEntry s.freeCtr r.2 ls) else .filled ls
      | e => e) }

/-- Every sector of a bank carries the code that its control word names (R150). -/
def BankSt.reencoded (k : BankSt) : BankSt := { k with code := k.ecc, codes := [], reenc := false }

/-- BANK_REENCODE: every sector of the bank is read and carries the new code (R150); what flaws it held are found. -/
def execBankReencode (cluster bank : Nat) (s : State) : Outcome :=
  let t := ((s.bank cluster bank).flaws.map (·.sector)).foldl (fun u n => u.readSector cluster bank n) s
  happen ((t.setBank cluster bank (t.bank cluster bank).reencoded).postEvent (.bankStatusWrite cluster bank))

/-! ### Pads (R159) -/

/-- PAD_FILL: a page takes its frame; a backing that cannot be read ends the crew (R451). -/
def execPadFill (crew page : Nat) (s : State) : Outcome :=
  happen (match s.crew crew with
    | none => s
    | some c =>
      if c.pads ≤ page || c.preempted then s
      else
        match s.padTake crew page with
        | (t, none) => t
        | (t, some va) => t.raiseCrew crew va)

/-- A page is to be evacuated, since its bank leaves the pad role; one that gives its frame to another page is evacuated when
that page takes it (R159). -/
def State.mayEvacuate (s : State) (v page : Nat) : Bool :=
  match s.crew v with
  | none => false
  | some c => c.padState page == .evacuating

/-- PAD_EVACUATE: a page's dirty parts go to its backing; the last page of a bank that leaves its role lets it go on. -/
def execPadEvacuate (crew page : Nat) (s : State) : Outcome :=
  happen (if s.mayEvacuate crew page then s.evacuate crew page else s)

/-! ### The copy engine (R168 to R178, R183) -/

/-- COPY_SLICE_ASSEMBLE (R170). -/
def execCopySliceAssemble (g : Nat) (s : State) : Outcome := happen (s.assemble g)

/-- COLLECTIVE_START (R177). -/
def execCollectiveStart (crew q : Nat) (s : State) : Outcome := happen (s.startColl crew q)

/-- COPY_BYTE_READ (R183). -/
def execCopyByteRead (coll : Nat) (s : State) : Outcome := happen (s.copyRead coll)

/-- COPY_BYTE_LANDED (R183). -/
def execCopyByteLanded (coll : Nat) (s : State) : Outcome := happen (s.copyLand coll)

/-! ### wfe (R405) -/

/-- WFE_TIMEOUT: the splits that wait on a control core's flag with a deadline that CLOCK has reached wait no longer. -/
def execWfeTimeout (cc : Nat) (s : State) : Outcome :=
  happen { s with gangs := s.gangs.map (fun g =>
    if clusterOf g.core != cc then g
    else { g with splits := g.splits.map (fun o => o.map (fun sp =>
      match sp.blocked with
      | some (.event x) => if x ≤ s.clock then { sp with blocked := none } else sp
      | _ => sp)) }) }

end Sys2Proof.Machine
end

