-- ==== Sys2Proof/Machine/Ports.lean ====
section
/-! DEFINITION. Berog ports: routing, what is heard on them, and their events (R415, R418 to R422). -/

namespace Sys2Proof.Machine

/-! ### Port status (R415) -/

/-- A port status word. -/
def PortSt.word (p : PortSt) : Nat := b2n p.up + 2 * b2n p.trained + 2 ^ 16 * p.retry + 2 ^ 32 * p.peer

/-- With a port changed, and its status word with it. -/
def State.updPort (s : State) (n : Nat) (f : PortSt → PortSt) : State :=
  { s with ports := sput PortSt.zero s.ports n (f (s.port n)) }.setCells (cellsAt (0xA00500 + 8 * n) (leBytes 8 (f (s.port n)).word))

/-! ### Hearing a peer (R415, R422) -/

/-- Something has come from a peer, on a port if it is known. DEDUCED (unsafe), log entry 61. -/
def State.hearOn (s : State) (src : Nat) (port : Option Nat) : State :=
  let t := { s with heard := sput 0 s.heard src s.clock }
  match port with
  | some n => if (t.port n).peer = src then t else t.updPort n (fun p => { p with peer := src })
  | none => t

/-- A packet is received: one from a lost module is dropped (R422). A packet comes on the plane that its sender routed it
to, which bears the same number here. -/
def receive (p : Packet) (f : State → State) (s : State) : Outcome :=
  happen (if s.lost.contains p.src then s else f (s.hearOn p.src (s.route p.dst p.addr)))

/-! ### Events of ports -/

/-- A port counts one flit more in RETRY. -/
def State.countRetry (s : State) (n : Nat) : State := s.updPort n (fun p => { p with retry := satAdd 16 p.retry 1 })

/-- HEARTBEAT (R422). -/
def execHeartbeat (p : Packet) (port : Nat) (s : State) : Outcome :=
  happen (if s.lost.contains p.src then s else s.hearOn p.src (some port))

/-- RESERVED_PACKET_KIND (R420): dropped, and counted in RETRY of the receiving port. -/
def execReservedPacketKind (p : Packet) (port : Nat) (s : State) : Outcome :=
  happen (if s.lost.contains p.src then s else (s.hearOn p.src (some port)).countRetry port)

/-- HEARTBEAT_TIMER (R422): every UP port sends a heartbeat to whom it last heard on its plane. -/
def execHeartbeatTimer (s : State) : Outcome :=
  happen { s with out := s.out ++ ((List.range 48).filter (fun n => (s.port n).up)).map (fun n =>
    { blankPacket s.mgmt.modid (s.port n).peer 0x10 0 with port := some n }) }

/-- FLIT_RETRANSMIT (R415, R418). -/
def execFlitRetransmit (port : Nat) (s : State) : Outcome := happen (if port < 48 then s.countRetry port else s)

/-- Packets that have been sent on a port. -/
def State.sentOn (s : State) (port : Nat) : List Packet := s.out.filter (fun p => p.port == some port)

/-- The far end of a port has acknowledged n packets more, in the order in which they were sent (R421). -/
def State.linkAck (s : State) (port n : Nat) : State :=
  s.updPort port (fun p => { p with acked := min (p.acked + n) (s.sentOn port).length })

/-- What the retry buffer of a port holds: sent and not acknowledged; heartbeats are not kept. -/
def State.retryBuffer (s : State) (port : Nat) : List Packet :=
  ((s.sentOn port).drop (s.port port).acked).filter (fun p => p.kind != 0x10)

/-- PORT_DOWN (R421): routing passes the port over from now on, and what its retry buffer holds is sent again on the ports that
routing gives, in order and before anything later. DEDUCED (unsafe), log entry 61. -/
def execPortDown (port : Nat) (s : State) : Outcome :=
  happen (if port < 48 then
      let t := s.updPort port (fun p => { p with up := false, acked := (s.sentOn port).length })
      { t with out := t.out ++ (s.retryBuffer port).map t.routed }
    else s)

/-! ### The header (R419) -/

/-- The 16-byte header of a packet, its tag by the 14 bits that the field has. -/
def packetHeader (p : Packet) : Nat :=
  p.addr % 2 ^ 51 + 2 ^ 51 * (p.len % 2 ^ 9) + 2 ^ 60 * b2n p.prot + 2 ^ 61 * b2n p.watched + 2 ^ 62 * (p.tag % 2 ^ 14)
    + 2 ^ 76 * (p.dst % 2 ^ 9) + 2 ^ 85 * (p.src % 2 ^ 9) + 2 ^ 94 * (p.ord % 4) + 2 ^ 96 * (p.scope % 8)
    + 2 ^ 99 * (p.skind % 8) + 2 ^ 102 * (p.depth % 16) + 2 ^ 106 * (p.ctx % 2 ^ 16) + 2 ^ 122 * (p.kind % 64)

/-- Bytes of payload that follow the header: of a read, none. -/
def packetPayload (p : Packet) : Nat := if p.kind = 1 then 0 else p.len

/-- The flits of 64 bytes that a packet takes. -/
def packetFlits (p : Packet) : Nat := (16 + packetPayload p + 63) / 64

end Sys2Proof.Machine
end

