-- ==== Sys2Proof/Machine/SliceEvents.lean ====
section
/-! DEFINITION. Events of slices: writes, reads and near-memory operations that reach one, parity deltas and their
acknowledgements, scrubbing and status records (R114, R121, R123, R130, R132, R144, R145, R339, R341). -/

namespace Sys2Proof.Machine

/-! ### Writes, reads and operations -/

/-- SLICE_WRITE_COMMIT (R114, R123): of bytes that slices home. -/
def execSliceWriteCommit (w : SliceWrite) (s : State) : Outcome :=
  happen (if w.cells.all (fun c => isDram c.1) then s.commitWrite w else s)

/-- SLICE_READ (R114): the reply carries the bytes as they stand in the commit order, and whether one is poisoned. -/
def execSliceRead (tag addr n : Nat) (s : State) : Outcome :=
  happen (if isDram addr then
      let r := s.sliceBytes addr n
      { r.1 with replies := r.1.replies ++ [{ tag, data := r.2.1, poison := r.2.2, flags := 0 }] }
    else s)

/-- A near-memory operation at its slice, with its answer (R132, R235). -/
def nearEvent (op : Nat) (q : NearReq) (s : State) : Outcome :=
  happen (if isDram q.addr then
      let r := s.nearOp op q
      { r.st with replies := r.st.replies ++
          [{ tag := q.tag, data := leBytes 8 r.x.toNat ++ leBytes 8 r.y.toNat, poison := r.poison, flags := w32 r.flags }] }
    else s)

/-- NEAR_SWAP (R132). -/
def execNearSwap (q : NearReq) (s : State) : Outcome := nearEvent 0x0 q s

/-- NEAR_CAS (R132). -/
def execNearCas (q : NearReq) (s : State) : Outcome := nearEvent 0x1 q s

/-- NEAR_ADD (R132). -/
def execNearAdd (q : NearReq) (s : State) : Outcome := nearEvent 0x2 q s

/-- NEAR_AND (R132). -/
def execNearAnd (q : NearReq) (s : State) : Outcome := nearEvent 0x3 q s

/-- NEAR_OR (R132). -/
def execNearOr (q : NearReq) (s : State) : Outcome := nearEvent 0x4 q s

/-- NEAR_XOR (R132). -/
def execNearXor (q : NearReq) (s : State) : Outcome := nearEvent 0x5 q s

/-- NEAR_SMIN (R132). -/
def execNearSmin (q : NearReq) (s : State) : Outcome := nearEvent 0x6 q s

/-- NEAR_SMAX (R132). -/
def execNearSmax (q : NearReq) (s : State) : Outcome := nearEvent 0x7 q s

/-- NEAR_UMIN (R132). -/
def execNearUmin (q : NearReq) (s : State) : Outcome := nearEvent 0x8 q s

/-- NEAR_UMAX (R132). -/
def execNearUmax (q : NearReq) (s : State) : Outcome := nearEvent 0x9 q s

/-- NEAR_FADD (R133). -/
def execNearFadd (q : NearReq) (s : State) : Outcome := nearEvent 0xA q s

/-- NEAR_FXADD (R84, R85, R136). -/
def execNearFxadd (q : NearReq) (s : State) : Outcome := nearEvent 0xB q s

/-- NEAR_CLAIM (R368). -/
def execNearClaim (q : NearReq) (s : State) : Outcome := nearEvent 0xC q s

/-- NEAR_RINIT (R369). -/
def execNearRinit (q : NearReq) (s : State) : Outcome := nearEvent 0xD q s

/-! ### Parity deltas (R130) -/

/-- The weight that a parity half-line of this module takes a delta with: none unless a valid record places P or Q of the
stripe here at the target (R130). -/
def State.deltaScale (s : State) (d : DeltaMsg) : Option (Nat → Nat) :=
  match s.groupOf d.target with
  | none => none
  | some (_, g) =>
    if g.stripe d.target != d.stripe then none
    else if g.pMember d.stripe == s.mgmt.modid then some id
    else if g.hasQ && g.qMember d.stripe == s.mgmt.modid then some (gfScale d.pos)
    else none

/-- The half-line with a delta applied: no comparator, trigger or further delta takes part. -/
def State.applyDelta (s : State) (d : DeltaMsg) (f : Nat → Nat) : State :=
  let t := s.touchLine (halfOf d.target) 64
  t.putCells (d.bytes.map (fun b => (d.target + b.1, t.byte (d.target + b.1) ^^^ lowByte (f b.2.toNat))))

/-- A parity member takes a delta and acknowledges to the originator's tag, or refuses it (R130). -/
def State.takeDelta (s : State) (d : DeltaMsg) : State :=
  let ack := blankPacket s.mgmt.modid d.src 8 d.tag
  match s.deltaScale d with
  | some f =>
    let t := s.applyDelta d f
    { t with out := t.out ++ [s.routed { ack with addr := d.target }] }
  | none =>
    let t := s.machineCheck 12 d.target d.src
    { t with out := t.out ++ [s.routed { ack with addr := d.target, status := 0x13 }] }

/-- DELTA (R130): one from a lost module is dropped (R422). -/
def execDelta (d : DeltaMsg) (s : State) : Outcome := 
  happen (if s.lost.contains d.src then s else (s.hearOn d.src (s.route s.mgmt.modid d.target)).takeDelta d)

/-- A gang has one delta less to wait for, and its store is lost if that delta was refused (R130, R339). -/
def State.deltaDone (s : State) (id : Nat) (isLost : Bool) : State :=
  s.updHeld id (fun g => { g with unacked := g.unacked - 1, lostStore := g.lostStore || isLost })

/-- What the acknowledgement of a delta does for whoever made the write: a gang, a copy, or the peer module that sent
it, to which it is passed on. -/
def State.settleDelta (s : State) (d : PendDelta) (refused : Bool) : State :=
  match d.org with
  | .gang id => s.deltaDone id refused
  | .coll id =>
    let t := if refused then s.tellOrigin (.coll id) (((s.coll id).map (·.ctx)).getD 0) 0x13 (dpa s.mgmt.modid d.msg.target) else s
    if t.deltas.any (fun x => x.tag == d.tag) then t else (t.ackColl d.tag).retireColl id
  | .peer m tag =>
    { s with out := s.out ++ [s.routed { blankPacket s.mgmt.modid m 8 tag with addr := d.msg.target, status := if refused then 0x13 else 0 }] }
  | .host | .resident | .device => s

/-- The acknowledgement of a delta, by the tag it went out under. -/
def State.ackDelta (s : State) (tag : Nat) (refused : Bool) : State :=
  match s.deltas.find? (fun d => d.tag == tag) with
  | none => s
  | some d => { s with deltas := s.deltas.eraseP (fun x => x.tag == tag) }.settleDelta d refused

/-- The module from which a delta's acknowledgement comes: the parity member, or the home of the store, which passes it on. -/
def State.acker (s : State) (tag : Nat) : Option Nat :=
  (s.deltas.find? (fun d => d.tag == tag)).map (fun d => if d.msg.src == s.mgmt.modid then d.dest else d.msg.src)

/-- DELTA_ACK (R130, R339): heard from its sender, or dropped when that is lost (R422). -/
def execDeltaAck (tag : Nat) (refused : Bool) (s : State) : Outcome :=
  happen (match s.acker tag with
    | none => s
    | some m => if s.lost.contains m then s else (s.hearOn m none).ackDelta tag refused)

/-! ### Scrubbing (R144, R145) -/

/-- The first line from a on that a slice homes, among n lines. -/
def findLine (k : Nat) : Nat → Nat → Option Nat
  | 0, _ => none
  | n + 1, a => if sliceOf a == k then some a else findLine k n (a + 128)

/-- The next line of a slice from an address on: of its HBM4E, then of its share of the LP-DRAM of its die (R111, R112).
DEDUCED (unsafe), log entry 66. -/
def nextLine (k at_ : Nat) : Option Nat :=
  let hbm := 2 ^ 36 * (k / 16)
  let lp := 0x40000000000 + 2 ^ 39 * (k / 48)
  let inHbm := if at_ < hbm + 2 ^ 36 then (findLine k 32 (max at_ hbm)).filter (· < hbm + 2 ^ 36) else none
  inHbm.or ((findLine k 4096 (max at_ lp)).filter (· < lp + 2 ^ 39))

/-- A line of the DRAM sweep has been read: the sweep goes on with the next in ascending order; after the last, SWEEPS rises,
LAG clears and the next sweep begins (R144). DEDUCED (unsafe), log entry 66. -/
def State.sweepOn (s : State) (k line : Nat) : State :=
  if nextLine k (s.slice k).swept ≠ some line then s
  else if (nextLine k (line + 128)).isSome then s.setSlice k (fun c => { c with swept := line + 128 })
  else
    (s.setSlice k (fun c => { c with sweeps := satAdd 32 c.sweeps 1, lag := false, swept := 0, since := s.clock })).postEvent
      (.sliceStatusWrite k)

/-- The scrubber reads a line in DRAM, unless its sweeps are disabled (R120, R140, R144). -/
def State.scrubDram (s : State) (line : Nat) : State :=
  if (s.slice (sliceOf line)).dscrub = 0xFF then s
  else ((s.decodeHalf line).decodeHalf (line + 64)).sweepOn (sliceOf line) line

/-- The scrubber reads a line that its SRAM holds, unless those sweeps are disabled, and encodes it under the strength in
force where a change of strength asks for it (R120, R143 to R145). -/
def State.scrubSram (s : State) (line : Nat) : State :=
  let k := s.slice (sliceOf line)
  if (s.sramLine line).isNone || (k.sscrub = 0xFF && !k.walk.contains line) then s
  else
    let t := s.meetSectors line 0xF#4
    (if k.walk.contains line then t.updSram line (fun x => { x with code := t.codeMask line }) else t).leaveWalk line

/-- SCRUB: the scrubber reads and corrects a line, in its slice's SRAM and in DRAM. -/
def execScrub (addr : Nat) (s : State) : Outcome :=
  happen (if isDram addr then (s.scrubSram (lineOf addr)).scrubDram (lineOf addr) else s)

/-- SWEEP_PERIOD_EXPIRY: the DRAM sweep has passed its period unfinished (R120, R144). -/
def execSweepPeriodExpiry (slice : Nat) (s : State) : Outcome :=
  let c := s.slice slice
  happen (if c.dscrub = 0xFF || s.clock < c.since + 60000000000 * c.dscrub then s
    else (s.setSlice slice (fun c => { c with lag := true })).postEvent (.sliceStatusWrite slice))

/-! ### Status records (R121) -/

/-- A slice's status record. -/
def SliceSt.toBytes (c : SliceSt) : List Byte :=
  leBytes 4 c.dce ++ leBytes 4 c.due ++ leBytes 4 c.sce ++ leBytes 4 c.sue ++ leBytes 2 c.lcregen ++ leBytes 2 c.lcbad
    ++ leBytes 2 c.poisonw ++ leBytes 2 c.rmiss ++ leBytes 2 (b2n c.lag + 2 * b2n c.reenc) ++ leBytes 2 c.prefuse
    ++ leBytes 4 c.sweeps

/-- SLICE_STATUS_WRITE: a write of the resident's kind to the slice table frame (R118). -/
def execSliceStatusWrite (slice : Nat) (s : State) : Outcome :=
  happen (if slice < 768 then s.commitWrite (deviceWrite (0x404000 + 32 * slice) 0 0 (s.slice slice).toBytes) else s)

end Sys2Proof.Machine
end

