-- ==== Sys2Proof/Machine/HostPort.lean ====
section
/-! DEFINITION. Events of the host port: CXL.mem accesses of the host, and the link agent's transactions with it (R235 to
R237, R335, R406 to R409, R414). -/

namespace Sys2Proof.Machine

/-! ### CXL.mem (R407, R408) -/

/-- The local address that a host offset of a decoder names. -/
def hostLocal (dec h : Nat) : Option Nat :=
  if dec = 0 then (if h < 0x30000000000 then some h else none)
  else if dec = 1 then (if h < 0x80000000000 then some (0x40000000000 + h) else none)
  else none

/-- The range that the host may not reach. -/
def hostRefused (a : Nat) : Bool := a < 0xE00000

/-- A host write of a line of 64 bytes: its status is that of the host frame attribute table (R122), its depth 1 (R352),
its source kind host (R354). -/
def hostLineWrite (s : State) (a : Nat) (data : List Byte) : SliceWrite :=
  { cells := cellsAt a data, watched := (s.hostAttr a).1, prot := (s.hostAttr a).2, depth := 1, skind := 3, ctx := 0,
    org := .host, policy := 0 }

/-- HOST_WRITE: whole aligned lines; one in the refused range is dropped. -/
def execHostWrite (dec h : Nat) (data : List Byte) (s : State) : Outcome :=
  happen (match hostLocal dec h with
    | none => s
    | some a => if hostRefused a || a % 64 != 0 || data.length != 64 then s else s.commitWrite (hostLineWrite s a data))

/-- With an answer to the host. DESIGN CHOICE (safe), log entry 1. -/
def State.tellHost (s : State) (x : HostTx) : State := { s with hostOut := s.hostOut ++ [x] }

/-- HOST_READ: a refused line reads as zero. DEDUCED (unsafe), log entry 67. -/
def execHostRead (dec h n : Nat) (s : State) : Outcome :=
  happen (match hostLocal dec h with
    | none => s
    | some a =>
      if hostRefused a then s.tellHost (.reply a (List.replicate n 0) false)
      else
        let r := s.sliceBytes a n
        r.1.tellHost (.reply a r.2.1 r.2.2))

/-! ### The agent cache (R409) -/

/-- Lines that the agent cache holds: 1 MiB of 64-byte lines. -/
def agentLines : Nat := 16384

/-- A line leaves the agent cache: one held exclusive is written back to the host. DEDUCED (unsafe), log entry 67. -/
def State.agentEvict (s : State) (e : Nat × Bool × List Byte) : State :=
  if e.2.1 then s.tellHost (.write 0 (cellsAt (s.hostPhys e.1) e.2.2)) else s

/-- A line is granted to the agent cache, in place of the one it has held longest when it is full. A line held exclusive
keeps its own bytes. -/
def State.agentPut (s : State) (line : Nat) (excl : Bool) (data : List Byte) : State :=
  match s.agentLine line with
  | some (true, _) => s
  | _ =>
    let l := (line, excl, data) :: s.agentCache.filter (fun e => e.1 != line)
    (l.drop agentLines).foldl State.agentEvict { s with agentCache := l.take agentLines }

/-- HOST_SNOOP of a line by host physical address: the agent answers from its cache, and keeps the line shared unless it
is invalidated. -/
def execHostSnoop (line : Nat) (invalidate : Bool) (s : State) : Outcome :=
  let hit (e : Nat × Bool × List Byte) : Bool := s.hostPhys e.1 == line
  let kept : Option (List Byte) := (s.agentCache.find? hit).map (fun e => e.2.2)
  happen ({ s with agentCache :=
      if invalidate then s.agentCache.filter (fun e => !hit e)
      else s.agentCache.map (fun e => if hit e then (e.1, false, e.2.2) else e) }.tellHost
    (.snoop line kept))

/-! ### Accesses of gangs and engines (R236, R237, R335) -/

/-- The access of a tag at the link agent. -/
def State.hostAccess (s : State) (tag : Nat) : Option HostAtomic := s.hostAtomics.find? (fun h => h.tag == tag)

/-- With an access changed. -/
def State.setHost (s : State) (h : HostAtomic) : State :=
  { s with hostAtomics := s.hostAtomics.map (fun x => if x.tag == h.tag then h else x) }

/-- The agent cache holds the line of an access as the access needs it. -/
def State.agentServes (s : State) (h : HostAtomic) : Bool :=
  match h.job, s.agentLine h.addr with
  | .load n, _ => (s.agentLacks h.addr n).isNone
  | _, some (excl, _) => excl
  | _, none => false

/-- The line that an access asks for next: of a load over two, the first that is missing. -/
def State.lineAsked (s : State) (h : HostAtomic) : Nat :=
  match h.job with
  | .load n => (s.agentLacks h.addr n).getD (halfOf h.addr)
  | _ => halfOf h.addr

/-- Bytes of the slot of an access. -/
def HostAtomic.width (h : HostAtomic) : Nat := match h.job with | .atomic _ wide _ _ => if wide then 8 else 4 | _ => 0

/-- The first atomic that waits behind earlier accesses to its slot, once they are over (R237, R321). -/
def State.hostWaiting (s : State) : Option HostAtomic :=
  s.hostAtomics.find? (fun x => x.phase == 4 && !hostQueued (s.hostAtomics.takeWhile (fun h => h.tag != x.tag)) x.org x.addr x.width)

/-- An atomic that waited begins, with its first transaction unless its line is at hand. -/
def State.hostNext (s : State) : State :=
  match s.hostWaiting with
  | none => s
  | some x =>
    match x.job with
    | .atomic op wide a b =>
      let f := s.hostFirst x.addr op wide a b x.tag
      let t := s.setHost { x with phase := f.1 }
      if f.1 = 0 && s.agentServes x then t else t.tellHost f.2
    | _ => s

/-- An access is over: it leaves the agent, with the token that may wait for it (R398), and the next may begin. -/
def State.hostDone (s : State) (h : HostAtomic) : State :=
  { s with hostAtomics := s.hostAtomics.filter (fun x => x.tag != h.tag), tokens := s.tokens.filter (fun t => t.2 != h.tag) }.hostNext

/-- A store's completion reaches whoever releases on it, and the next of its gang's strongly ordered lines may be performed
(R226, R335). -/
def State.hostAcked (s : State) (h : HostAtomic) : State :=
  match h.org with
  | .gang id => (s.updHeld id (fun g => { g with pendingAcks := g.pendingAcks - 1 })).nextStrong id
  | _ => s.ackColl h.tag

/-- An atomic was performed on an old value: its lane takes it, and the gang's FST the flags (R235, R237). -/
def State.hostPerformed (s : State) (h : HostAtomic) (old n flags : Nat) : State :=
  let t := match h.org with
    | .gang id => s.updHeld id (fun g => g.raise flags)
    | _ => s
  (t.hostDone h).deliver h.tag (leBytes n old) (fun _ => false)

/-- The loop is exhausted: its lane has cause 0x0C, and nothing is written to its destination (R237). -/
def State.hostExhausted (s : State) (h : HostAtomic) : State :=
  let t := s.hostDone h
  match t.loadOf h.tag with
  | none => t
  | some l =>
    let ws := l.await.filter (fun w => w.tag == h.tag)
    (t.setLoad { l with
      await := l.await.filter (fun w => w.tag != h.tag), lanes := l.lanes &&& ~~~ (maskOf (ws.map (·.lane)))
      faults := l.faults ++ ws.map (fun w => (w.lane, 0x0C, w.base)) }).loadOn l.tag

/-- One round of the loop: a CAS of the new value against the old one (R237). -/
def State.hostLoop (s : State) (h : HostAtomic) (op : Nat) (wide : Bool) (x : DWord) (old : Nat) : State :=
  let n := atomBits wide
  let r := atomApply op n old (bits x.toNat 0 n) 0
  (s.setHost { h with old := dw old, phase := 3, attempts := h.attempts + 1 }).tellHost
    (.cas h.tag (s.hostPhys h.addr) wide (dw old) (dw (r.1.getD old)))

/-- A completion with data for an atomic: one request's old value, the first read of the loop, or a CAS of it. -/
def State.hostAtomicGot (s : State) (h : HostAtomic) (op : Nat) (wide : Bool) (x : DWord) (got : Nat) : State :=
  let n := if wide then 8 else 4
  if h.phase = 1 then s.hostPerformed h got n 0
  else if h.phase = 2 then s.hostLoop h op wide x got
  else if h.phase = 3 then
    (if got = h.old.toNat then s.hostPerformed h got n (atomApply op (8 * n) got (bits x.toNat 0 (8 * n)) 0).2
     else if 64 ≤ h.attempts then s.hostExhausted h
     else s.hostLoop h op wide x got)
  else s

/-- An access that waited for its line is performed on it in the agent cache (R236, R409). -/
def State.hostOnLine (s : State) (h : HostAtomic) : State :=
  let d := ((s.agentLine h.addr).map (·.2)).getD []
  let o := h.addr - halfOf h.addr
  match h.job with
  | .load n => (s.hostDone h).deliver h.tag (s.agentBytes h.addr n) (fun _ => false)
  | .store cells => ((s.agentWrite cells).hostDone h).hostAcked h
  | .atomic op wide x y =>
    let n := if wide then 8 else 4
    let old := ofBytes ((d.drop o).take n)
    let r := atomApply op (8 * n) old (bits x.toNat 0 (8 * n)) (bits y.toNat 0 (8 * n))
    (match r.1 with | some v => s.agentWrite (cellsAt h.addr (leBytes n v)) | none => s).hostPerformed h old n r.2

/-- Every access that waits for a line is performed, in order, as far as the line's state serves it; fuel is the number of
accesses. -/
def State.agentServe : Nat → State → State
  | 0, s => s
  | n + 1, s =>
    match s.hostAtomics.find? (fun h => h.phase == 0 && s.agentServes h) with
    | none => s
    | some h => State.agentServe n (s.hostOnLine h)

/-- What the agent's lines serve is performed. -/
def State.agentGoes (s : State) : State := State.agentServe s.hostAtomics.length s

/-- HOST_ATOMIC_COMPLETION: a CXL.io completion with data. -/
def execHostAtomicCompletion (tag : Nat) (data : List Byte) (s : State) : Outcome :=
  happen (match s.hostAccess tag with
    | none => s
    | some h =>
      match h.job with
      | .load _ => if h.phase = 1 then ((s.hostDone h).deliver tag data (fun _ => false)).agentGoes else s
      | .store _ => s
      | .atomic op wide x _ => (s.hostAtomicGot h op wide x (ofBytes (data.take (if wide then 8 else 4)))).agentGoes)

/-- HOST_WRITE_COMPLETION: an uncached store has been performed at the host. -/
def execHostWriteCompletion (tag : Nat) (s : State) : Outcome :=
  happen (match s.hostAccess tag with
    | none => s
    | some h =>
      match h.job, h.phase with
      | .store _, 1 => ((s.hostDone h).hostAcked h).agentGoes
      | _, _ => s)

/-- An access whose load spans two lines asks for the one still missing. -/
def State.askFurther (s : State) (h : HostAtomic) : State :=
  match h.job with
  | .load n => (match s.agentLacks h.addr n with | some l => s.tellHost (.own h.tag (s.hostPhys l) false) | none => s)
  | _ => s

/-- CXL_CACHE_OWNERSHIP: the host grants a line, shared for a load and exclusive for a store or an atomic. A load of two lines is
performed when the agent holds both (R327). -/
def execCxlCacheOwnership (tag : Nat) (data : List Byte) (s : State) : Outcome :=
  happen (match s.hostAccess tag with
    | none => s
    | some h =>
      if h.phase = 0 then
        let t := s.agentPut (s.lineAsked h) (match h.job with | .load _ => false | _ => true) data
        (t.askFurther h).agentGoes
      else s)

/-! ### The link (R406, R414) -/

/-- HOST_LINK_TRAINING: the trained width and rate, and completer support in agent status. -/
def execHostLinkTraining (width rate : Nat) (support : BitVec 6) (s : State) : Outcome :=
  happen ({ s with mgmt := { s.mgmt with linkWidth := width, linkRate := rate } }.setCells (cellsAt 0xA00080 (leBytes 8 support.toNat)))

end Sys2Proof.Machine
end

