-- ==== Sys2Proof/Machine/Admission.lean ====
section
/-! DEFINITION. How requests enter the queues of the slices: the classes, their rotation, and the scrubber's place (R116,
R144). -/

namespace Sys2Proof.Machine

/-! ### Requests and their classes -/

/-- The die that homes a slice. -/
def sliceDie (k : Nat) : Nat := k / 48

/-- The die of a core at its slice's die network, or beyond a die-to-die link. -/
def dieClass (k core : Nat) : Nat := if dieOf core = sliceDie k then 1 else 2

/-- Class of a request of an origin to slice k (R116). -/
def State.originClass (s : State) (k : Nat) : Origin → Nat
  | .gang id => match s.gang id with | some g => dieClass k g.core | none => 1
  | .coll id => match s.coll id with | some c => dieClass k (crewCnum c.crew) | none => 1
  | .resident | .device => 1
  | .host | .peer _ _ => 3

/-- A near-memory request. -/
def nearReqOf : Event → Option NearReq
  | .nearSwap q | .nearCas q | .nearAdd q | .nearAnd q | .nearOr q | .nearXor q | .nearSmin q | .nearSmax q | .nearUmin q
  | .nearUmax q | .nearFadd q | .nearFxadd q | .nearClaim q | .nearRinit q => some q
  | _ => none

/-- The slice that an event is a request to, and its class: 1 the die network, 2 the die-to-die links, 3 the fabric ports and
the host link agent, 4 parity applications, and 5 for the scrubber (R116). -/
def State.request (s : State) (e : Event) : Option (Nat × Nat) :=
  match e with
  | .sliceWriteCommit w => (w.cells.head?).map (fun c => (sliceOf c.1, s.originClass (sliceOf c.1) w.org))
  | .sliceRead _ a _ => some (sliceOf a, 1)
  | .hostWrite dec h _ | .hostRead dec h _ => (hostLocal dec h).map (fun a => (sliceOf a, 3))
  | .read p | .write p | .atomic p => some (sliceOf p.addr, 3)
  | .delta d => some (sliceOf d.target, 4)
  | .rebuildQuery p => if p.op = 0 then some (sliceOf p.addr, 4) else none
  | .insert q | .delete q => some (sliceOf q.bucket, 1)
  | .bucketRead _ a => some (sliceOf a, 1)
  | .tableWalk _ c va => (s.rootTable c).map (fun r => (sliceOf (r + 8 * walkIndex 0 va), 1))
  | .scrub a => some (sliceOf a, 5)
  | _ => (nearReqOf e).map (fun q => (sliceOf q.addr, s.originClass (sliceOf q.addr) q.org))

/-! ### The queue of a slice -/

/-- The queue of a slice. -/
def State.sliceQueue (s : State) (k : Nat) : SliceQueue := sget SliceQueue.empty s.queues k

/-- With the queue of a slice replaced. -/
def State.setQueue (s : State) (k : Nat) (q : SliceQueue) : State := { s with queues := sput SliceQueue.empty s.queues k q }

/-- Entries that the scrubber holds. -/
def SliceQueue.scrubs (q : SliceQueue) : Nat := (q.queue.filter (fun e => match e with | .scrub _ => true | _ => false)).length

/-- A request of a class waits. -/
def SliceQueue.waits (q : SliceQueue) (c : Nat) : Bool := q.waiting.any (fun e => e.1 == c)

/-- A request of some class but the scrubber's waits. -/
def SliceQueue.crowded (q : SliceQueue) : Bool := q.waiting.any (fun e => e.1 != 5)

/-- The queue has room for a request of a class. Of its 32 entries, a slice with LAG set keeps one in 16 for the scrubber,
which else enters only when no class is waiting (R116, R144). -/
def SliceQueue.room (q : SliceQueue) (lag : Bool) (c : Nat) : Bool :=
  if c = 5 then q.queue.length < 32 && (!q.crowded || (lag && q.scrubs < 2))
  else q.queue.length + (if lag then 2 - q.scrubs else 0) < 32

/-- The class that enters next: in rotation after the last that did, empty classes skipped, the scrubber after them. -/
def SliceQueue.next (q : SliceQueue) (lag : Bool) : Option Nat :=
  (((List.range 4).map (fun i => (q.last + i) % 4 + 1)) ++ [5]).find? (fun c => q.waits c && q.room lag c)

/-- The first waiting request of a class enters: within a class, in the order of arrival. -/
def SliceQueue.enter (q : SliceQueue) (c : Nat) : SliceQueue :=
  match q.waiting.find? (fun e => e.1 == c) with
  | none => q
  | some e => { queue := q.queue ++ [e.2], waiting := q.waiting.eraseP (fun x => x.1 == c), last := if c = 5 then q.last else c }

/-- Requests enter while the queue has room; fuel is the number of entries. -/
def SliceQueue.fillUp (lag : Bool) : Nat → SliceQueue → SliceQueue
  | 0, q => q
  | n + 1, q => match q.next lag with | none => q | some c => SliceQueue.fillUp lag n (q.enter c)

/-- Waiting requests enter the queue of slice k. -/
def State.admitTo (s : State) (k : Nat) (q : SliceQueue) : State := s.setQueue k (SliceQueue.fillUp (s.slice k).lag 32 q)

/-- A request arrives at its slice: its sender waits until it has entered the queue. -/
def State.arrive (s : State) (e : Event) : State :=
  match s.request e with
  | none => s
  | some (k, c) => s.admitTo k { s.sliceQueue k with waiting := (s.sliceQueue k).waiting ++ [(c, e)] }

/-- The n-th entry of the queue of slice k leaves it, to be performed, and waiting requests take its place. -/
def State.leaveQueue (s : State) (k n : Nat) : Option (Event × State) :=
  let q := s.sliceQueue k
  (q.queue[n]?).map (fun e => (e, s.admitTo k { q with queue := q.queue.eraseIdx n }))

/-- At some slice a sender's request waits to enter, or the queue has no room for one of the die network; no instruction and no
internal event makes a further one meanwhile. DESIGN CHOICE (safe), log entry 101. -/
def State.crowded (s : State) : Bool := s.queues.any (fun q => q.2.crowded || !q.2.room (s.slice q.1).lag 1)

/-- A request may enter its slice's queue, and be performed, in the same step. DESIGN CHOICE (safe), log entry 101. -/
def State.mayEnter (s : State) (e : Event) : Bool :=
  match s.request e with
  | none => true
  | some (k, c) => (s.sliceQueue k).room (s.slice k).lag c

/-- The first slice whose queue holds a request. -/
def State.servable (s : State) : Option Nat := (s.queues.find? (fun q => !q.2.queue.isEmpty)).map (·.1)

end Sys2Proof.Machine
end

