-- ==== Sys2Proof/Machine/Loader.lean ====
section
/-! DEFINITION. What the resident's loader, and step 2 of a start, read of a Miotil image: the header, its sections, entry
records, templates and symbols, when an image is refused, and where its sections go (R50, R52 to R57, R424). -/

namespace Sys2Proof.Machine

/-- An image, as the reader of n bytes at a file offset. -/
abbrev ImageFile := Nat → Nat → Nat

/-- n bytes of a file as a number. -/
def fileLe (d : List Byte) : ImageFile := fun off n => ofBytes ((d.drop off).take n)

/-! ### Sections (R53) -/

/-- A section record. -/
structure ImageSection where
  kind : Nat
  align : Nat
  fileOff : Nat
  cbOff : Nat
  fsize : Nat
  msize : Nat
  deriving DecidableEq, Repr

/-- Section record k. -/
def imageSection (f : ImageFile) (k : Nat) : ImageSection :=
  let a := f 16 8 + 32 * k
  { kind := f a 1, align := f (a + 1) 1, fileOff := f (a + 8) 8, cbOff := f (a + 16) 8, fsize := f (a + 24) 4, msize := f (a + 28) 4 }

/-- The sections of an image. -/
def imageSections (f : ImageFile) : List ImageSection := (List.range (f 8 2)).map (imageSection f)

/-- A section record is as R53 has it, and its bytes are in the file. -/
def sectionOk (f : ImageFile) (k : Nat) : Bool :=
  let x := imageSection f k
  1 ≤ x.kind && x.kind ≤ 4 && 2 ≤ x.align && x.align ≤ 21 && f (f 16 8 + 32 * k + 2) 6 == 0 && x.cbOff % 2 ^ x.align == 0
    && x.fsize ≤ x.msize && x.fileOff + x.fsize ≤ f 56 8

/-- Two sections do not overlap in the context; one without a byte that lies inside another does. DESIGN CHOICE (safe), log
entry 110. -/
def ImageSection.apart (x y : ImageSection) : Bool := x.cbOff + x.msize ≤ y.cbOff || y.cbOff + y.msize ≤ x.cbOff

/-! ### Symbols and templates (R55) -/

/-- NSYM; none without a symbol table. -/
def imageSyms (f : ImageFile) : Nat := if f 48 8 = 0 then 0 else f (f 48 8) 4

/-- A symbol index of an entry or template record is good (R56). -/
def symbolOk (f : ImageFile) (x : Nat) : Bool := if f 48 8 = 0 then x == 0xFFFFFFFF else x < imageSyms f

/-- The symbol table is good (R55, R56). -/
def symbolsOk (f : ImageFile) : Bool :=
  let o := f 48 8
  o == 0 || (f (o + 8) 8 == 0 && o + 16 + 16 * imageSyms f + f (o + 4) 4 ≤ f 56 8
    && (List.range (imageSyms f)).all (fun k => f (o + 16 + 16 * k + 8) 4 < f (o + 4) 4 && f (o + 16 + 16 * k + 14) 2 == 0))

/-- The template records are good (R55, R56). -/
def templatesOk (f : ImageFile) : Bool :=
  (List.range (f 36 4)).all (fun k => f (f 40 8 + 16 * k + 9) 3 == 0 && symbolOk f (f (f 40 8 + 16 * k + 12) 4))

/-! ### Entry records (R54) -/

/-- An entry record. -/
structure ImageEntry where
  entry : Nat
  regs : Nat
  gangs : Nat
  pads : Nat
  accs : Nat
  zregs : Nat
  padtmpl : Nat
  lease : Nat
  name : Nat
  deriving DecidableEq, Repr

/-- Entry record k. -/
def imageEntry (f : ImageFile) (k : Nat) : ImageEntry :=
  let a := f 24 8 + 32 * k
  { entry := f a 3, regs := f (a + 3) 1, gangs := f (a + 4) 1, pads := f (a + 5) 1, accs := f (a + 6) 1, zregs := f (a + 7) 1,
    padtmpl := f (a + 8) 8, lease := f (a + 16) 8, name := f (a + 24) 4 }

/-- The entry records of an image. -/
def imageEntries (f : ImageFile) : List ImageEntry := (List.range (f 32 4)).map (imageEntry f)

/-- An entry record is as R54 has it, its ENTRY within text (R56). -/
def entryOk (f : ImageFile) (k : Nat) : Bool :=
  let x := imageEntry f k
  [16, 32, 48, 64].contains x.regs && 1 ≤ x.gangs && x.gangs ≤ 32 && x.pads ≤ 64 && x.accs ≤ 4 && x.zregs ≤ 16
    && x.entry % 4 == 0 && f (f 24 8 + 32 * k + 28) 4 == 0 && symbolOk f x.name
    && (imageSections f).any (fun t => t.kind == 1 && t.cbOff ≤ x.entry && x.entry < t.cbOff + t.msize)

/-! ### The whole image (R52, R56) -/

/-- The loader accepts an image. That every table lies within it, and NSECT and NENT in their ranges, it checks too.
DEDUCED (unsafe), log entry 23. -/
def imageOk (f : ImageFile) : Bool :=
  f 0 4 == 0x544F494D && f 4 2 == 2 && f 6 2 < 2 && f 10 2 == 64 && 1 ≤ f 8 2 && f 8 2 ≤ 64 && 1 ≤ f 32 4
    && fmtWritten (w32 (f 12 4)) == w32 (f 12 4)
    && f 16 8 + 32 * f 8 2 ≤ f 56 8 && f 24 8 + 32 * f 32 4 ≤ f 56 8 && f 40 8 + 16 * f 36 4 ≤ f 56 8
    && (List.range (f 8 2)).all (sectionOk f) && decide ((imageSections f).Pairwise (fun x y => x.apart y))
    && (List.range (f 32 4)).all (entryOk f) && symbolsOk f && templatesOk f

/-- Where the block of a pad template ends: at the next label of its padtmpl section, or with the section (R50). -/
def padBlockEnd (f : ImageFile) (x : ImageSection) (p : Nat) : Nat :=
  ((List.range (imageSyms f)).filterMap (fun k =>
    let a := f 48 8 + 16 + 16 * k
    if f (a + 12) 1 = 1 || f (a + 12) 1 = 2 then some (f a 8) else none)).foldl
      (fun m o => if p < o && o < m then o else m) (x.cbOff + x.msize)

/-- The bytes of the pad template of an entry; none where its pads start as zeros (R50, R54). -/
def padBlock (f : ImageFile) (e : ImageEntry) : List Byte :=
  match (imageSections f).find? (fun x => x.kind == 4 && x.cbOff ≤ e.padtmpl && e.padtmpl < x.cbOff + x.msize) with
  | none => []
  | some x =>
    if e.padtmpl = 0 then []
    else (List.range (min (padBlockEnd f x e.padtmpl - e.padtmpl) (4096 * e.pads))).map (fun k =>
      let o := e.padtmpl - x.cbOff + k
      if o < x.fsize then lowByte (f (x.fileOff + o) 1) else 0)

/-- What the loader knows of the image of a context. -/
def imageOf (f : ImageFile) (ctx : Nat) : Image :=
  { ctx, entry := (imageEntry f 0).entry, deffmt := w32 (f 12 4), forerunner := bit (f 6 2) 0,
    templates := (imageEntries f).map (fun e => (e.entry, padBlock f e)) }

/-- Byte k of a section in the context: zero beyond what the file holds. -/
def sectionByte (f : ImageFile) (x : ImageSection) (k : Nat) : Byte := if k < x.fsize then lowByte (f (x.fileOff + k) 1) else 0

/-- A context's image is known. -/
def State.setImage (s : State) (m : Image) : State := { s with images := s.images.filter (fun x => x.ctx != m.ctx) ++ [m] }

/-! ### The resident's loader (R56) -/

/-- The resident as the writer of an image (R352, R354). -/
def loaderWriter : Writer :=
  { org := .resident, ctx := 0, tdepth := 0, depth := 1, skind := 4, cluster := none, ord := 0, scope := 0, policy := 0 }

/-- The lines that a section takes in a context. -/
def State.sectionLines (s : State) (ctx : Nat) (x : ImageSection) : List Nat :=
  if x.msize = 0 then [] else linesFrom (s.ctxCb ctx + x.cbOff) x.msize

/-- A section is stored at its place in a context, line by line, as stores of the resident to wherever its pages are homed. -/
def State.loadSection (s : State) (f : ImageFile) (ctx : Nat) (x : ImageSection) : State :=
  let base := s.ctxCb ctx + x.cbOff
  (s.sectionLines ctx x).foldl (fun t va =>
    match leafAt t ctx va with
    | none => t
    | some (b, _, e) =>
      let a := dpa (leafModule e) (leafFrame e + (va - b))
      let ks := (List.range 128).filter (fun j => base ≤ va + j && va + j < base + x.msize)
      t.performWrite loaderWriter (ks.map (fun j => (a + j, sectionByte f x (va + j - base)))) (leafWatch e) (leafProt e)) s

/-- The resident's loader sets up an image for a context that exists and maps every page of its sections, or refuses it (R56).
DESIGN CHOICE (unsafe), log entry 25. -/
def State.loadImage (s : State) (ctx : Nat) (d : List Byte) : State :=
  let f := fileLe d
  if (s.rootOf ctx).isSome && f 56 8 == d.length && imageOk f
      && (imageSections f).all (fun x => (s.sectionLines ctx x).all (fun va => (leafAt s ctx va).isSome)) then
    (imageSections f).foldl (fun t x => t.loadSection f ctx x) (s.setImage (imageOf f ctx))
  else s

end Sys2Proof.Machine
end

