-- ==== Sys2Proof/Machine/Crews.lean ====
section
/-! DEFINITION. Barrier and crew instructions: major 0x14 (R186 to R201, R353). -/

namespace Sys2Proof.Machine

/-! ### Barrier operations (R191 to R193) -/

/-- Some split of the crew waits at the object at an offset. -/
def State.hasWaiter (s : State) (c : Crew) (off : Nat) : Bool :=
  (s.members c.val).any (fun g => g.live.any (fun p =>
    match p.2.blocked with
    | some (.gen b _ _) => (c.namesOf off).contains b
    | _ => false))

/-- The object at an offset is in use, so that no bar.init may replace it (R193). -/
def State.barBusy (s : State) (c : Crew) (off : Nat) : Bool :=
  let b := s.bar c.val off
  !(c.namesOf off).isEmpty && (b.pend != b.exp || b.inb != 0 || b.outb != 0 || b.chrem != 0 || b.hold || s.hasWaiter c off)

/-- The object that bar.init writes (R192). -/
def Bar.fresh (x : Nat) : Bar :=
  { gen := 0, exp := bits x 0 12, pend := bits x 0 12, ckpt := bit x 12, mtrk := bit x 13, hold := false, ovr := false,
    inb := 0, outb := 0, chrem := 0, ogen := 0 }

/-- No lane of the crew has arrived at a new object through any of its names; the observer bits stay as they are. DESIGN CHOICE
(unsafe), log entry 117. -/
def State.clearArrivals (s : State) (v : Nat) (names : List Nat) : State :=
  { s with gangs := s.gangs.map (fun g =>
      if g.crew == v then
        names.foldl (fun h b => h.setArrival b { mask := 0, gen := 0, obs := (h.arrival b).obs }) g
      else g) }

/-- bar.init binds name n to an offset and writes its object (R192). -/
def State.initBar (s : State) (v n off x : Nat) : State :=
  match s.padTake v (off / 4096) with
  | (u, some va) => u.raiseCrew v va
  | (u, none) =>
    let t := u.updCrew v (fun c => { c with bind := sins n off (sdel c.bind n) })
    (t.clearArrivals v (((t.crew v).map (fun c => c.namesOf off)).getD [])).setBar v off (Bar.fresh x)

/-- bar.init (R192, R193). -/
def execBarInit (n : BitVec 4) (a b : BitVec 6) (s : State) : Outcome :=
  issue {} (fun _ => true) (fun i t =>
    let off := (i.g.sreg a.toNat).toNat
    let x := (i.g.sreg b.toNat).toNat
    match t.crew i.g.crew with
    | none => .trap t 0x07 i.act off
    | some c =>
      if 4096 * c.pads ≤ off then .trap t 0x07 i.act off
      else if i.g.smark a.toNat || i.g.smark b.toNat then .trap t 0x09 i.act 0
      else if off % 16 ≠ 0 || 2 ^ 14 ≤ x || 1024 < bits x 0 12 || t.barBusy c off then .trap t 0x13 i.act 0
      else .done (t.initBar c.val n.toNat off x)) s

/-- The offset that a name of the issuing gang's crew is bound to (R182). -/
def State.boundTo (s : State) (i : Issue) (n : BitVec 4) : Option Nat := (s.crew i.g.crew).bind (fun c => c.bound n.toNat)

/-- The objects on a core that have a waiter, each of which a barrier slot caches: crew and offset (R182).
DESIGN CHOICE (safe), log entry 76. -/
def State.waitedObjects (s : State) (core : Nat) : List (Nat × Nat) :=
  distinct ((s.onCore core).flatMap (fun g => g.live.filterMap (fun p =>
    match p.2.blocked with
    | some (.gen b _ _) => ((s.crew g.crew).bind (fun c => c.bound b)).map (fun off => (g.crew, off))
    | _ => none)))

/-- Every barrier slot of a core caches another object, which has a waiter (R182). DESIGN CHOICE (safe), log entry 76. -/
def State.slotsTaken (s : State) (core crew off : Nat) : Bool :=
  Config.barrierSlots ≤ (s.waitedObjects core).length && !(s.waitedObjects core).contains (crew, off)

/-- The split has waited at its object, which a slot has cached since. -/
def Split.atObject (sp : Split) : Bool :=
  match sp.blocked with
  | some (.gen _ _ _) | some .released => true
  | _ => false

/-- An instruction at the object of a bound name, which is read where it lies (R148); an unbound name is waited for, and a slot
for its object when every slot has a waiter (R182). -/
def atBar (n : BitVec 4) (body : Issue → Nat → State → Res) (s : State) : Outcome :=
  issue {} (fun _ => true) (fun i t =>
    match t.boundTo i n with
    | none => .wait t (.name n.toNat)
    | some off =>
      if !i.sp.atObject && t.slotsTaken i.g.core i.g.crew off then .wait t (.slot off)
      else body i off (t.padMeet i.g.crew off 16)) s

/-- bar.arrive (R186, R189, R192). -/
def execBarArrive (n : BitVec 4) (d : BitVec 6) (g : BitVec 4) (s : State) : Outcome :=
  atBar n (fun i off t => releaseThen i 1 t (fun u =>
    let v := (u.goOn i.g.id i.k (i.sp.pc + 4)).updGang i.g.id (fun h => h.setS d.toNat (dw (u.bar i.g.crew off).gen) false)
    .as (v.arriveBar ((v.gang i.g.id).getD i.g) n.toNat off (i.act &&& i.g.guard g)))) s

/-- A look at the object by its observer: OGEN takes GEN, and a deferred completion takes place (R187). -/
def State.lookBar (s : State) (i : Issue) (n off : Nat) : State :=
  match s.gang i.g.id with
  | none => s
  | some g =>
    if (g.arrival n).obs then
      (s.setBar i.g.crew off { s.bar i.g.crew off with ogen := (s.bar i.g.crew off).gen }).undefer i.g.crew off
    else s

/-- A wait at an object has succeeded (R189): an acquire; the split goes on before a deferred completion takes place. The
wait of bar.sync by the observer refreshes OGEN as bar.wait's does, where R187 names bar.wait and bar.gen.
DEDUCED (unsafe), log entry 89. -/
def State.waited (s : State) (i : Issue) (n off : Nat) : Res :=
  .as (((s.goOn i.g.id i.k (i.sp.pc + 4)).acquireBy i.g scopeMod).lookBar i n off)

/-- bar.wait (R192, R194). -/
def execBarWait (n : BitVec 4) (a : BitVec 6) (s : State) : Outcome :=
  atBar n (fun i off t =>
    let gen := (t.bar i.g.crew off).gen
    let awaited := match i.sp.blocked with
      | some (.gen _ g _) => g
      | _ => (i.g.sreg a.toNat).toNat % 16
    if i.sp.blocked = some .released || gen ≠ awaited then t.waited i n.toNat off
    else .wait t (.gen n.toNat awaited none)) s

/-- bar.sync: arrives, then waits on the generation it arrived in (R192, R194). -/
def execBarSync (n : BitVec 4) (d : BitVec 6) (g : BitVec 4) (s : State) : Outcome :=
  atBar n (fun i off t =>
    let gen := (t.bar i.g.crew off).gen
    match i.sp.blocked with
    | some .released => t.waited i n.toNat off
    | some (.gen b w _) =>
      if gen ≠ w then (t.updGang i.g.id (fun h => h.setS d.toNat (dw gen) false)).waited i n.toNat off
      else .wait t (.gen b w (some d.toNat))
    | _ => releaseThen i 1 t (fun u =>
      let v := u.block i.g.id i.k (.gen n.toNat (u.bar i.g.crew off).gen (some d.toNat))
      .as (v.arriveBar ((v.gang i.g.id).getD i.g) n.toNat off (i.act &&& i.g.guard g)))) s

/-- bar.gen (R187, R192). -/
def execBarGen (n : BitVec 4) (d : BitVec 6) (s : State) : Outcome :=
  atBar n (fun i off t =>
    let u := (t.goOn i.g.id i.k (i.sp.pc + 4)).updGang i.g.id (fun h => h.setS d.toNat (dw (t.bar i.g.crew off).gen) false)
    .as (u.lookBar i n.toNat off)) s

/-- The observer bit of a gang for a name. -/
def Gang.setObs (g : Gang) (n : Nat) (x : Bool) : Gang := g.setArrival n { g.arrival n with obs := x }

/-- bar.obs (R187, R193). -/
def execBarObs (n : BitVec 4) (s : State) : Outcome :=
  atBar n (fun i off t =>
    let b := t.bar i.g.crew off
    if b.hold then .trap t 0x13 i.act 0
    else .done ((t.setBar i.g.crew off { b with hold := true, ogen := b.gen }).updGang i.g.id (fun g => g.setObs n.toNat true))) s

/-- bar.drop (R187, R193). -/
def execBarDrop (n : BitVec 4) (s : State) : Outcome :=
  atBar n (fun i off t =>
    if !(i.g.arrival n.toNat).obs then .trap t 0x13 i.act 0
    else
      .as ((((t.goOn i.g.id i.k (i.sp.pc + 4)).setBar i.g.crew off { t.bar i.g.crew off with hold := false }).updGang i.g.id
        (fun g => g.setObs n.toNat false)).undefer i.g.crew off)) s

/-! ### Crew instructions (R199, R200) -/

/-- cjoin and cleave are refused to a gang that has diverged or that holds the trowel (R200). -/
def State.boundToCrew (s : State) (g : Gang) : Bool := 1 < g.live.length || !g.rc.isEmpty || s.holdsTrowel g

/-- The gang leaves its crew: step 2 of R200. -/
def State.leaveCrew (s : State) (g : Gang) (lanes : Mask) : State :=
  ((((s.unreplayable g.crew).leaveBars g lanes).dropObservers g).unawait g).updGang g.id (fun h => { h with arrivals := [] })

/-- The gang becomes a member of a crew: step 3 of R200; a crew left without members dissolves (R201). -/
def State.enterCrew (s : State) (g : Gang) (v : Nat) (lanes : Mask) : State :=
  let t := ((s.updGang g.id (fun h => { h with crew := v })).unreplayable v).joinBars v lanes
  if (t.members g.crew).isEmpty then t.dissolve g.crew else t

/-- A move between crews, its checks passed: it waits for the pending-copy slot, then takes effect at one instant
(R200). -/
def moveCrew (i : Issue) (t : State) (go : State → State) : Res :=
  if i.g.copySlot.isSome then .wait t .copySlot
  else
    match t.release i.g.id 1 with
    | (u, some w) => .wait u w
    | (u, none) => .as ((go (u.goOn i.g.id i.k (i.sp.pc + 4))).acquireBy i.g 1)

/-- The crew that cjoin names, if the gang may join it (R200). DEDUCED (unsafe), log entry 81. -/
def State.joinable (s : State) (g : Gang) (x : Nat) : Option Crew :=
  match s.crew x with
  | none => none
  | some c =>
    if c.ctx == g.ctx && c.core == g.core && !c.preempted && (s.members x).length < 32 then some c else none

/-- cjoin (R200). -/
def execCjoin (a : BitVec 6) (s : State) : Outcome :=
  issue {} (fun _ => true) (fun i t =>
    let x := (i.g.sreg a.toNat).toNat
    if t.boundToCrew i.g || 2 ^ 32 ≤ x then .trap t 0x13 i.act 0
    else if x = i.g.crew then .done t
    else
      match t.joinable i.g x with
      | none => .trap t 0x13 i.act 0
      | some c => moveCrew i t (fun u => (u.leaveCrew i.g i.sp.mask).enterCrew i.g c.val i.sp.mask)) s

/-- cleave makes a crew of the gang alone (R200, R196). -/
def State.cleave (s : State) (i : Issue) (d num : Nat) : State :=
  let v := s.newCrewVal i.g.core num
  let t := (s.leaveCrew i.g i.sp.mask).useCrewNum i.g.core num
  let c := Crew.start v i.g.ctx i.g.core 0 0 0 0 (t.newRing i.g.core)
  let u := { t with crews := t.crews ++ [{ c with base := t.crewBlock c }] }
  (u.enterCrew i.g v i.sp.mask).updGang i.g.id (fun h => h.setS d (dw v) false)

/-- cleave (R200). -/
def execCleave (d : BitVec 6) (s : State) : Outcome :=
  issue {} (fun _ => true) (fun i t =>
    if t.boundToCrew i.g then .trap t 0x13 i.act 0
    else if (t.members i.g.crew).length ≤ 1 then
      .done (t.updGang i.g.id (fun h => h.setS d.toNat (dw i.g.crew) false))
    else
      match t.freeCrewNum i.g.core with
      | none => .trap t 0x13 i.act 0
      | some n => moveCrew i t (fun u => u.cleave i d.toNat n)) s

/-- cmask (R199). -/
def execCmask (d : BitVec 6) (s : State) : Outcome :=
  issue {} (fun _ => true) (fun i t =>
    let m := (t.members i.g.crew).foldl (fun m g => m ||| 2 ^ g.slot) 0
    .done (t.updGang i.g.id (fun h => h.setS d.toNat (dw m) false))) s

/-- crank (R199). -/
def execCrank (d : BitVec 6) (s : State) : Outcome :=
  issue {} (fun _ => true) (fun i t =>
    let ms := t.members i.g.crew
    let r := (ms.filter (fun g => g.slot < i.g.slot)).length
    .done (t.updGang i.g.id (fun h => h.setS d.toNat (dw (r + 256 * ms.length)) false))) s

end Sys2Proof.Machine
end

