-- ==== Sys2Proof/Machine/Vector.lean ====
section
/-! DEFINITION. Vector floating-point and integer instructions: majors 0x15 to 0x1F (R241 to R244, R252 to R264). -/

namespace Sys2Proof.Machine

/-! ### Frames -/

/-- Lanes a vector instruction acts on: the split's lanes that the guard selects (R241). -/
def Issue.lanes (i : Issue) (g : BitVec 4) : Mask := i.act &&& i.g.guard g

/-- Every vector register named exists (R28). -/
def Issue.hasV (i : Issue) (rs : List Nat) : Bool := rs.all (fun r => r < i.g.nregs)

/-- FMT.RM and FMT.SAT of the issuing split (R244). -/
def Issue.rm (i : Issue) : Nat := fmtRM i.sp.fmt
def Issue.sat (i : Issue) : Bool := fmtSAT i.sp.fmt

/-- Lane l of va. -/
def Issue.lane (i : Issue) (a : BitVec 6) (l : Nat) : Word := i.g.vlane a.toNat l

/-- Poison mark of lane l of va. -/
def Issue.mark (i : Issue) (a : BitVec 6) (l : Nat) : Bool := (i.g.vmarks a.toNat).getLsbD l

/-- What a lane of a destination takes: value, poison mark, flags. -/
structure LaneResult where
  val : Word
  mark : Bool
  flags : Nat := 0
  deriving DecidableEq, Repr

/-- Flags of the lanes of a mask; a poisoned element sets none (R243). -/
def laneFlags (m : Mask) (f : Nat → LaneResult) : Nat :=
  (lanesOf m).foldl (fun r l => if (f l).mark then r else r ||| (f l).flags) 0

/-- vd := f, in the active lanes (R241). -/
def Issue.writeV (i : Issue) (t : State) (d : BitVec 6) (m : Mask) (f : Nat → LaneResult) : State :=
  t.updGang i.g.id (fun h =>
    (h.setLanes d.toNat m (fun l => (f l).val) (fun l => (f l).mark)).raise (laneFlags m f))

/-- A vector instruction that writes vd lane by lane. -/
def vecOp (acc : Accepts) (legal : Issue → Bool) (d : BitVec 6) (g : BitVec 4) (f : Issue → Nat → LaneResult) (s : State) :
    Outcome :=
  issue acc (fun i => i.hasV [d.toNat] && legal i) (fun i t => .done (i.writeV t d (i.lanes g) (f i))) s

/-- A vector instruction that writes the bits of pd of its active lanes; a poisoned source element of one of them raises
0x09, and nothing is written (R243, R257); also where pd is p0, which discards the write. DESIGN CHOICE (unsafe), log entry
95. -/
def vecCmp (legal : Issue → Bool) (d : BitVec 6) (g : BitVec 4) (f : Issue → Nat → Bool × Bool × Nat) (s : State) : Outcome :=
  issue {} legal (fun i t =>
    let m := i.lanes g
    if (lanesOf m).any (fun l => (f i l).2.1) then .trap t 0x09 i.act 0
    else .done (t.updGang i.g.id (fun h =>
      (h.setP d.toNat m (maskWhere m (fun l => (f i l).1))).raise
        ((lanesOf m).foldl (fun r l => r ||| (f i l).2.2) 0)))) s

/-! ### Packed elements (R74, R252) -/

/-- The element format of P: FP32, or FMT.NF. -/
def Issue.elemFmt (i : Issue) (p : BitVec 1) : Fmt := if p = 1 then fmtOf (fmtNF i.sp.fmt) else fp32

/-- NF is legal where it is used (R73). -/
def Issue.elemOk (i : Issue) (p : BitVec 1) : Bool := p == 0 || narrowOk i.sp.fmt

/-- Element k of a lane. -/
def elem (f : Fmt) (x : Word) (k : Nat) : Nat := bits x.toNat (k * f.width) f.width

/-- A lane of elements computed one by one, and their flags. -/
def elems (f : Fmt) (op : Nat → Nat × Nat) : Word × Nat :=
  let rs := (List.range (32 / f.width)).map op
  (w32 (packCodes f.width (rs.map (·.1))), rs.foldl (fun r x => r ||| x.2) 0)

/-- Two sources, element by element, under P. -/
def vfOp2 (op : Fmt → Nat → Bool → Nat → Nat → Nat × Nat) (d a b : BitVec 6) (p : BitVec 1) (g : BitVec 4) (s : State) :
    Outcome :=
  vecOp {} (fun i => i.hasV [a.toNat, b.toNat] && i.elemOk p) d g (fun i l =>
    let f := i.elemFmt p
    let r := elems f (fun k => op f i.rm i.sat (elem f (i.lane a l) k) (elem f (i.lane b l) k))
    { val := r.1, mark := i.mark a l || i.mark b l, flags := r.2 }) s

/-- One source under P; no flag. -/
def vfOp1 (op : Fmt → Nat → Nat) (d a : BitVec 6) (p : BitVec 1) (g : BitVec 4) (s : State) : Outcome :=
  vecOp {} (fun i => i.hasV [a.toNat] && i.elemOk p) d g (fun i l =>
    let f := i.elemFmt p
    { val := (elems f (fun k => (op f (elem f (i.lane a l) k), 0))).1, mark := i.mark a l }) s

/-- The fused instructions: vd is a source (R255). -/
def vfFma (negP negD : Bool) (d a b : BitVec 6) (p : BitVec 1) (g : BitVec 4) (s : State) : Outcome :=
  vecOp {} (fun i => i.hasV [a.toNat, b.toNat] && i.elemOk p) d g (fun i l =>
    let f := i.elemFmt p
    let r := elems f (fun k => fmaF f i.rm i.sat negP negD (elem f (i.lane a l) k) (elem f (i.lane b l) k)
      (elem f (i.lane d l) k))
    { val := r.1, mark := i.mark a l || i.mark b l || i.mark d l, flags := r.2 }) s

/-- One FP32 source, rounded under a mode: none is FMT.RM (R256, R258). -/
def vfUnary (op : Nat → FVal → FVal × Nat) (rm : Option Nat) (d a : BitVec 6) (g : BitVec 4) (s : State) : Outcome :=
  vecOp {} (fun i => i.hasV [a.toNat]) d g (fun i l =>
    let m := rm.getD i.rm
    let r := finish fp32 m i.sat (op m (decodeF fp32 (i.lane a l).toNat))
    { val := w32 r.1, mark := i.mark a l, flags := r.2 }) s

/-- An FP32 comparison (R257): the relation on numbers, its value when an operand is NaN, and whether a quiet NaN sets
NV. -/
def vfCmp (rel : FVal → FVal → Bool) (onNan quiet : Bool) (d a b : BitVec 6) (g : BitVec 4) (s : State) : Outcome :=
  vecCmp (fun i => i.hasV [a.toNat, b.toNat]) d g (fun i l =>
    let x := decodeF fp32 (i.lane a l).toNat
    let y := decodeF fp32 (i.lane b l).toNat
    let nan := x.isNan || y.isNan
    (if nan then onNan else rel x y, i.mark a l || i.mark b l,
      if (quiet && nan) || x.isSig || y.isSig then flagNV else 0)) s

/-! ### Major 0x15 (R253, R254) -/

/-- vfadd (R253, R254). -/
def execVfadd (d a b : BitVec 6) (p : BitVec 1) (g : BitVec 4) (s : State) : Outcome := vfOp2 addF d a b p g s

/-- vfsub (R253, R254). -/
def execVfsub (d a b : BitVec 6) (p : BitVec 1) (g : BitVec 4) (s : State) : Outcome := vfOp2 subF d a b p g s

/-- vfmul (R253, R254). -/
def execVfmul (d a b : BitVec 6) (p : BitVec 1) (g : BitVec 4) (s : State) : Outcome := vfOp2 mulF d a b p g s

/-- vfdiv (R253, R254). -/
def execVfdiv (d a b : BitVec 6) (p : BitVec 1) (g : BitVec 4) (s : State) : Outcome := vfOp2 divF d a b p g s

/-- vfmin (R253, R254). -/
def execVfmin (d a b : BitVec 6) (p : BitVec 1) (g : BitVec 4) (s : State) : Outcome := vfOp2 (fun f _ _ x y => minMaxF f false x y) d a b p g s

/-- vfmax (R253, R254). -/
def execVfmax (d a b : BitVec 6) (p : BitVec 1) (g : BitVec 4) (s : State) : Outcome := vfOp2 (fun f _ _ x y => minMaxF f true x y) d a b p g s

/-- vfabs: on the sign bit of every encoding (R254). -/
def execVfabs (d a : BitVec 6) (p : BitVec 1) (g : BitVec 4) (s : State) : Outcome := vfOp1 absF d a p g s

/-- vfneg: on the sign bit of every encoding (R254). -/
def execVfneg (d a : BitVec 6) (p : BitVec 1) (g : BitVec 4) (s : State) : Outcome := vfOp1 negF d a p g s

/-! ### Major 0x16 (R255) -/

/-- vffma: a × b + d (R255). -/
def execVffma (d a b : BitVec 6) (p : BitVec 1) (g : BitVec 4) (s : State) : Outcome := vfFma false false d a b p g s

/-- vffms: a × b − d (R255). -/
def execVffms (d a b : BitVec 6) (p : BitVec 1) (g : BitVec 4) (s : State) : Outcome := vfFma false true d a b p g s

/-- vfnma: −(a × b) + d (R255). -/
def execVfnma (d a b : BitVec 6) (p : BitVec 1) (g : BitVec 4) (s : State) : Outcome := vfFma true false d a b p g s

/-- vfnms: −(a × b) − d (R255). -/
def execVfnms (d a b : BitVec 6) (p : BitVec 1) (g : BitVec 4) (s : State) : Outcome := vfFma true true d a b p g s

/-! ### Major 0x17 (R256) -/

/-- vfsqrt (R256). -/
def execVfsqrt (d a : BitVec 6) (g : BitVec 4) (s : State) : Outcome := vfUnary (fun _ v => sqrtV v) none d a g s

/-- vfrcp (R256). -/
def execVfrcp (d a : BitVec 6) (g : BitVec 4) (s : State) : Outcome := vfUnary (fun _ v => divV (.fin false 1 0) v) none d a g s

/-- vfrsq (R256). -/
def execVfrsq (d a : BitVec 6) (g : BitVec 4) (s : State) : Outcome := vfUnary (fun _ v => rsqrtV v) (some 0) d a g s

/-- vfexp (R256). -/
def execVfexp (d a : BitVec 6) (g : BitVec 4) (s : State) : Outcome := vfUnary (fun _ v => exp2V v) (some 0) d a g s

/-- vflog2 (R256). -/
def execVflog2 (d a : BitVec 6) (g : BitVec 4) (s : State) : Outcome := vfUnary (fun _ v => log2V v) (some 0) d a g s

/-! ### Major 0x18 (R257) -/

/-- vfcmp.eq (R257). -/
def execVfcmpEq (d a b : BitVec 6) (g : BitVec 4) (s : State) : Outcome := vfCmp eqV false false d a b g s

/-- vfcmp.ne (R257). -/
def execVfcmpNe (d a b : BitVec 6) (g : BitVec 4) (s : State) : Outcome := vfCmp (fun x y => !eqV x y) true false d a b g s

/-- vfcmp.lt (R257). -/
def execVfcmpLt (d a b : BitVec 6) (g : BitVec 4) (s : State) : Outcome := vfCmp ltV false true d a b g s

/-- vfcmp.le (R257). -/
def execVfcmpLe (d a b : BitVec 6) (g : BitVec 4) (s : State) : Outcome := vfCmp (fun x y => ltV x y || eqV x y) false true d a b g s

/-- vfcmp.gt (R257). -/
def execVfcmpGt (d a b : BitVec 6) (g : BitVec 4) (s : State) : Outcome := vfCmp (fun x y => ltV y x) false true d a b g s

/-- vfcmp.ge (R257). -/
def execVfcmpGe (d a b : BitVec 6) (g : BitVec 4) (s : State) : Outcome := vfCmp (fun x y => ltV y x || eqV x y) false true d a b g s

/-- vfcmp.un (R257). -/
def execVfcmpUn (d a b : BitVec 6) (g : BitVec 4) (s : State) : Outcome := vfCmp (fun _ _ => false) true false d a b g s

/-- vfcmp.ord (R257). -/
def execVfcmpOrd (d a b : BitVec 6) (g : BitVec 4) (s : State) : Outcome := vfCmp (fun _ _ => true) false false d a b g s

/-! ### Major 0x19 (R258) -/

/-- vfrint.ne (R258). -/
def execVfrintNe (d a : BitVec 6) (g : BitVec 4) (s : State) : Outcome := vfUnary rintV (some 0) d a g s

/-- vfrint.z (R258). -/
def execVfrintZ (d a : BitVec 6) (g : BitVec 4) (s : State) : Outcome := vfUnary rintV (some 1) d a g s

/-- vfrint.dn (R258). -/
def execVfrintDn (d a : BitVec 6) (g : BitVec 4) (s : State) : Outcome := vfUnary rintV (some 2) d a g s

/-- vfrint.up (R258). -/
def execVfrintUp (d a : BitVec 6) (g : BitVec 4) (s : State) : Outcome := vfUnary rintV (some 3) d a g s

/-- vfrint (R258). -/
def execVfrint (d a : BitVec 6) (g : BitVec 4) (s : State) : Outcome := vfUnary rintV none d a g s

/-- vfscale: a × 2^n, n the .s32 value of vb's lane (R258). -/
def execVfscale (d a b : BitVec 6) (g : BitVec 4) (s : State) : Outcome :=
  vecOp {} (fun i => i.hasV [a.toNat, b.toNat]) d g (fun i l =>
    let r := finish fp32 i.rm i.sat (scaleV (i.lane b l).toInt (decodeF fp32 (i.lane a l).toNat))
    { val := w32 r.1, mark := i.mark a l || i.mark b l, flags := r.2 }) s

/-! ### Major 0x1A (R75, R259, R260) -/

/-- Width of an integer of a conversion's code. -/
def cvtWidth (c : BitVec 2) : Nat := 8 * 2 ^ c.toNat

/-- Registers of an operand under a conversion's code: a pair for 64 bits (R219). -/
def cvtRegs (c : BitVec 2) (r : BitVec 6) : List Nat := if c = 3 then [r.toNat, r.toNat + 1] else [r.toNat]

/-- FP32 to an integer of a code's width between lo and hi, wrapped to 64 bits, with its flags. -/
def cvtToInt (rm : Nat) (lo hi : Int) (x : Word) : Nat × Nat :=
  let r := toIntF rm lo hi (decodeF fp32 x.toNat)
  (wrapInt 64 r.1, r.2)

/-- FP32 to integers: the low word goes to vd, and the high word to vd + 1 for a pair. -/
def vecToInt (lo hi : Int) (d a : BitVec 6) (c : BitVec 2) (g : BitVec 4) (s : State) : Outcome :=
  issue {} (fun i => i.hasV (cvtRegs c d) && i.hasV [a.toNat]) (fun i t =>
    let m := i.lanes g
    let f (l : Nat) : LaneResult :=
      let r := cvtToInt i.rm lo hi (i.lane a l)
      { val := w32 r.1, mark := i.mark a l, flags := r.2 }
    let u := i.writeV t d m f
    .done (if c = 3 then
        u.updGang i.g.id (fun h => h.setLanes (d.toNat + 1) m
          (fun l => w32 ((cvtToInt i.rm lo hi (i.lane a l)).1 / 2 ^ 32)) (i.mark a))
      else u)) s

/-- The integer of a code in lane l of va, or of the pair va, va + 1. -/
def Issue.intLane (i : Issue) (signed : Bool) (c : BitVec 2) (a : BitVec 6) (l : Nat) : Int :=
  let n := cvtWidth c
  let x := (i.lane a l).toNat + (if c = 3 then 2 ^ 32 * (i.g.vlane (a.toNat + 1) l).toNat else 0)
  if signed then toInt n x else (x % 2 ^ n : Nat)

/-- Integers to FP32. -/
def vecOfInt (signed : Bool) (d a : BitVec 6) (c : BitVec 2) (g : BitVec 4) (s : State) : Outcome :=
  vecOp {} (fun i => i.hasV (cvtRegs c a)) d g (fun i l =>
    let r := convertF fp32 i.rm i.sat (ofIntV (i.intLane signed c a l))
    { val := w32 r.1, mark := i.mark a l || (c == 3 && (i.g.vmarks (a.toNat + 1)).getLsbD l), flags := r.2 }) s

/-- vcvt.sW.f32 (R259). -/
def execVcvtSF32 (d a : BitVec 6) (c : BitVec 2) (g : BitVec 4) (s : State) : Outcome :=
  vecToInt (-(2 ^ (cvtWidth c - 1))) (2 ^ (cvtWidth c - 1) - 1) d a c g s

/-- vcvt.zW.f32 (R259). -/
def execVcvtZF32 (d a : BitVec 6) (c : BitVec 2) (g : BitVec 4) (s : State) : Outcome :=
  vecToInt 0 (2 ^ cvtWidth c - 1) d a c g s

/-- vcvt.f32.sW (R259). -/
def execVcvtF32S (d a : BitVec 6) (c : BitVec 2) (g : BitVec 4) (s : State) : Outcome := vecOfInt true d a c g s

/-- vcvt.f32.zW (R259). -/
def execVcvtF32Z (d a : BitVec 6) (c : BitVec 2) (g : BitVec 4) (s : State) : Outcome := vecOfInt false d a c g s

/-- NF is legal, and k is below its elements per lane (R259). -/
def Issue.narrowElem (i : Issue) (k : BitVec 2) : Bool :=
  narrowOk i.sp.fmt && k.toNat < 32 / (fmtOf (fmtNF i.sp.fmt)).width

/-- x with element k of a format replaced. -/
def setElem (f : Fmt) (x : Word) (k v : Nat) : Word := (elems f (fun j => (if j = k then v else elem f x j, 0))).1

/-- vcvt.nf.f32: the lane's other elements are kept (R259). -/
def execVcvtNfF32 (d a : BitVec 6) (k : BitVec 2) (g : BitVec 4) (s : State) : Outcome :=
  vecOp {} (fun i => i.hasV [a.toNat] && i.narrowElem k) d g (fun i l =>
    let f := fmtOf (fmtNF i.sp.fmt)
    let r := convertF f i.rm i.sat (decodeF fp32 (i.lane a l).toNat)
    { val := setElem f (i.lane d l) k.toNat r.1, mark := i.mark a l || i.mark d l, flags := r.2 }) s

/-- vcvt.f32.nf: exact (R75, R259). -/
def execVcvtF32Nf (d a : BitVec 6) (k : BitVec 2) (g : BitVec 4) (s : State) : Outcome :=
  vecOp {} (fun i => i.hasV [a.toNat] && i.narrowElem k) d g (fun i l =>
    let f := fmtOf (fmtNF i.sp.fmt)
    let r := convertF fp32 0 false (decodeF f (elem f (i.lane a l) k.toNat))
    { val := w32 r.1, mark := i.mark a l, flags := r.2 }) s

/-! ### Major 0x1B (R261) -/

/-- Two sources, 32-bit integers. -/
def viOp2 (op : Word → Word → Word) (d a b : BitVec 6) (g : BitVec 4) (s : State) : Outcome :=
  vecOp {} (fun i => i.hasV [a.toNat, b.toNat]) d g (fun i l =>
    { val := op (i.lane a l) (i.lane b l), mark := i.mark a l || i.mark b l }) s

/-- Two 32-bit integers compared into a predicate (R262). -/
def viCmp (rel : Word → Word → Bool) (d a b : BitVec 6) (g : BitVec 4) (s : State) : Outcome :=
  vecCmp (fun i => i.hasV [a.toNat, b.toNat]) d g (fun i l =>
    (rel (i.lane a l) (i.lane b l), i.mark a l || i.mark b l, 0)) s

/-- Shift amount in bits 4:0. -/
def amount5 (x : Word) : Nat := x.toNat % 32

/-- a + b clamped to the signed range (R261). -/
def addSat (x y : Word) : Word := BitVec.ofInt 32 (max (-(2 ^ 31)) (min (2 ^ 31 - 1) (x.toInt + y.toInt)))

/-- vadd (R261). -/
def execVadd (d a b : BitVec 6) (g : BitVec 4) (s : State) : Outcome := viOp2 (fun x y => x + y) d a b g s

/-- vsub (R261). -/
def execVsub (d a b : BitVec 6) (g : BitVec 4) (s : State) : Outcome := viOp2 (fun x y => x - y) d a b g s

/-- vmul (R261). -/
def execVmul (d a b : BitVec 6) (g : BitVec 4) (s : State) : Outcome := viOp2 (fun x y => x * y) d a b g s

/-- vmulhS32 (R261). -/
def execVmulhS32 (d a b : BitVec 6) (g : BitVec 4) (s : State) : Outcome := viOp2 (fun x y => BitVec.ofInt 32 (x.toInt * y.toInt / 2 ^ 32)) d a b g s

/-- vmulhZ32 (R261). -/
def execVmulhZ32 (d a b : BitVec 6) (g : BitVec 4) (s : State) : Outcome := viOp2 (fun x y => w32 (x.toNat * y.toNat / 2 ^ 32)) d a b g s

/-- vand (R261). -/
def execVand (d a b : BitVec 6) (g : BitVec 4) (s : State) : Outcome := viOp2 (fun x y => x &&& y) d a b g s

/-- vor (R261). -/
def execVor (d a b : BitVec 6) (g : BitVec 4) (s : State) : Outcome := viOp2 (fun x y => x ||| y) d a b g s

/-- vxor (R261). -/
def execVxor (d a b : BitVec 6) (g : BitVec 4) (s : State) : Outcome := viOp2 (fun x y => x ^^^ y) d a b g s

/-- vsll (R261). -/
def execVsll (d a b : BitVec 6) (g : BitVec 4) (s : State) : Outcome := viOp2 (fun x y => x <<< amount5 y) d a b g s

/-- vsrl (R261). -/
def execVsrl (d a b : BitVec 6) (g : BitVec 4) (s : State) : Outcome := viOp2 (fun x y => x >>> amount5 y) d a b g s

/-- vsra (R261). -/
def execVsra (d a b : BitVec 6) (g : BitVec 4) (s : State) : Outcome := viOp2 (fun x y => x.sshiftRight (amount5 y)) d a b g s

/-- vminS32 (R261). -/
def execVminS32 (d a b : BitVec 6) (g : BitVec 4) (s : State) : Outcome := viOp2 (fun x y => if y.slt x then y else x) d a b g s

/-- vmaxS32 (R261). -/
def execVmaxS32 (d a b : BitVec 6) (g : BitVec 4) (s : State) : Outcome := viOp2 (fun x y => if x.slt y then y else x) d a b g s

/-- vminZ32 (R261). -/
def execVminZ32 (d a b : BitVec 6) (g : BitVec 4) (s : State) : Outcome := viOp2 (fun x y => if y.ult x then y else x) d a b g s

/-- vmaxZ32 (R261). -/
def execVmaxZ32 (d a b : BitVec 6) (g : BitVec 4) (s : State) : Outcome := viOp2 (fun x y => if x.ult y then y else x) d a b g s

/-- vaddsatS32 (R261). -/
def execVaddsatS32 (d a b : BitVec 6) (g : BitVec 4) (s : State) : Outcome := viOp2 (fun x y => addSat x y) d a b g s

/-! ### Major 0x1C (R262) -/

/-- vcmpEqZ32 (R262). -/
def execVcmpEqZ32 (d a b : BitVec 6) (g : BitVec 4) (s : State) : Outcome := viCmp (fun x y => x == y) d a b g s

/-- vcmpNeZ32 (R262). -/
def execVcmpNeZ32 (d a b : BitVec 6) (g : BitVec 4) (s : State) : Outcome := viCmp (fun x y => x != y) d a b g s

/-- vcmpLtS32 (R262). -/
def execVcmpLtS32 (d a b : BitVec 6) (g : BitVec 4) (s : State) : Outcome := viCmp (fun x y => x.slt y) d a b g s

/-- vcmpLeS32 (R262). -/
def execVcmpLeS32 (d a b : BitVec 6) (g : BitVec 4) (s : State) : Outcome := viCmp (fun x y => x.sle y) d a b g s

/-- vcmpGtS32 (R262). -/
def execVcmpGtS32 (d a b : BitVec 6) (g : BitVec 4) (s : State) : Outcome := viCmp (fun x y => y.slt x) d a b g s

/-- vcmpGeS32 (R262). -/
def execVcmpGeS32 (d a b : BitVec 6) (g : BitVec 4) (s : State) : Outcome := viCmp (fun x y => y.sle x) d a b g s

/-- vcmpLtZ32 (R262). -/
def execVcmpLtZ32 (d a b : BitVec 6) (g : BitVec 4) (s : State) : Outcome := viCmp (fun x y => x.ult y) d a b g s

/-- vcmpLeZ32 (R262). -/
def execVcmpLeZ32 (d a b : BitVec 6) (g : BitVec 4) (s : State) : Outcome := viCmp (fun x y => x.ule y) d a b g s

/-- vcmpGtZ32 (R262). -/
def execVcmpGtZ32 (d a b : BitVec 6) (g : BitVec 4) (s : State) : Outcome := viCmp (fun x y => y.ult x) d a b g s

/-- vcmpGeZ32 (R262). -/
def execVcmpGeZ32 (d a b : BitVec 6) (g : BitVec 4) (s : State) : Outcome := viCmp (fun x y => y.ule x) d a b g s

/-- vtest (R262). -/
def execVtest (d a b : BitVec 6) (g : BitVec 4) (s : State) : Outcome := viCmp (fun x y => x &&& y != 0) d a b g s

/-! ### Major 0x1D (R263) -/

/-- The scalar operand: s[sb]<31:0>. -/
def Issue.x32 (i : Issue) (b : BitVec 6) : Word := (i.g.sreg b.toNat).truncate 32

/-- A lane and a scalar: a poisoned scalar poisons every lane. -/
def vsOp (op : Issue → Word → Word → Word × Nat) (d a b : BitVec 6) (g : BitVec 4) (s : State) : Outcome :=
  vecOp {} (fun i => i.hasV [a.toNat]) d g (fun i l =>
    let r := op i (i.lane a l) (i.x32 b)
    { val := r.1, mark := i.mark a l || i.g.smark b.toNat, flags := r.2 }) s

/-- A lane compared with a scalar into a predicate. -/
def vsCmp (rel : Word → Word → Bool) (d a b : BitVec 6) (g : BitVec 4) (s : State) : Outcome :=
  vecCmp (fun i => i.hasV [a.toNat]) d g (fun i l =>
    (rel (i.lane a l) (i.x32 b), i.mark a l || i.g.smark b.toNat, 0)) s

/-- A result of an FP32 operation as a lane. -/
def fpWord (r : Nat × Nat) : Word × Nat := (w32 r.1, r.2)

/-- vadd, with a scalar (R263). -/
def execVaddScalar (d a b : BitVec 6) (g : BitVec 4) (s : State) : Outcome := vsOp (fun _ x y => (x + y, 0)) d a b g s

/-- vsub, with a scalar (R263). -/
def execVsubScalar (d a b : BitVec 6) (g : BitVec 4) (s : State) : Outcome := vsOp (fun _ x y => (x - y, 0)) d a b g s

/-- vmul, with a scalar (R263). -/
def execVmulScalar (d a b : BitVec 6) (g : BitVec 4) (s : State) : Outcome := vsOp (fun _ x y => (x * y, 0)) d a b g s

/-- vand, with a scalar (R263). -/
def execVandScalar (d a b : BitVec 6) (g : BitVec 4) (s : State) : Outcome := vsOp (fun _ x y => (x &&& y, 0)) d a b g s

/-- vor, with a scalar (R263). -/
def execVorScalar (d a b : BitVec 6) (g : BitVec 4) (s : State) : Outcome := vsOp (fun _ x y => (x ||| y, 0)) d a b g s

/-- vxor, with a scalar (R263). -/
def execVxorScalar (d a b : BitVec 6) (g : BitVec 4) (s : State) : Outcome := vsOp (fun _ x y => (x ^^^ y, 0)) d a b g s

/-- vsll, with a scalar (R263). -/
def execVsllScalar (d a b : BitVec 6) (g : BitVec 4) (s : State) : Outcome := vsOp (fun _ x y => (x <<< amount5 y, 0)) d a b g s

/-- vsrl, with a scalar (R263). -/
def execVsrlScalar (d a b : BitVec 6) (g : BitVec 4) (s : State) : Outcome := vsOp (fun _ x y => (x >>> amount5 y, 0)) d a b g s

/-- vsra, with a scalar (R263). -/
def execVsraScalar (d a b : BitVec 6) (g : BitVec 4) (s : State) : Outcome := vsOp (fun _ x y => (x.sshiftRight (amount5 y), 0)) d a b g s

/-- vfadd, with a scalar (R253, R254, R263). -/
def execVfaddScalar (d a b : BitVec 6) (g : BitVec 4) (s : State) : Outcome :=
  vsOp (fun i x y => fpWord (addF fp32 i.rm i.sat x.toNat y.toNat)) d a b g s

/-- vfmul, with a scalar (R253, R254, R263). -/
def execVfmulScalar (d a b : BitVec 6) (g : BitVec 4) (s : State) : Outcome :=
  vsOp (fun i x y => fpWord (mulF fp32 i.rm i.sat x.toNat y.toNat)) d a b g s

/-- vffma, with a scalar: a × x + d (R255, R263). -/
def execVffmaScalar (d a b : BitVec 6) (g : BitVec 4) (s : State) : Outcome :=
  vecOp {} (fun i => i.hasV [a.toNat]) d g (fun i l =>
    let r := fmaF fp32 i.rm i.sat false false (i.lane a l).toNat (i.x32 b).toNat (i.lane d l).toNat
    { val := w32 r.1, mark := i.mark a l || i.mark d l || i.g.smark b.toNat, flags := r.2 }) s

/-- vmov of a scalar (R263). -/
def execVmovScalar (d b : BitVec 6) (g : BitVec 4) (s : State) : Outcome :=
  vecOp {} (fun _ => true) d g (fun i _ => { val := i.x32 b, mark := i.g.smark b.toNat }) s

/-- vcmpEq, with a scalar (R263). -/
def execVcmpEqScalar (d a b : BitVec 6) (g : BitVec 4) (s : State) : Outcome := vsCmp (fun x y => x == y) d a b g s

/-- vcmpLtS32, with a scalar (R263). -/
def execVcmpLtS32Scalar (d a b : BitVec 6) (g : BitVec 4) (s : State) : Outcome := vsCmp (fun x y => x.slt y) d a b g s

/-- vcmpLtZ32, with a scalar (R263). -/
def execVcmpLtZ32Scalar (d a b : BitVec 6) (g : BitVec 4) (s : State) : Outcome := vsCmp (fun x y => x.ult y) d a b g s

/-! ### Majors 0x1E and 0x1F (R264) -/

/-- imm10 widened by at most one hint.imm, its low 32 bits. -/
def Issue.imm32 (i : Issue) (x : BitVec 10) : Word := (i.sp.hints.imm 10 x.toNat).truncate 32

/-- vadd with an immediate (R264). -/
def execVaddImm (d a : BitVec 6) (x : BitVec 10) (g : BitVec 4) (s : State) : Outcome :=
  vecOp { imm := 1 } (fun i => i.hasV [a.toNat]) d g (fun i l => { val := i.lane a l + i.imm32 x, mark := i.mark a l }) s

/-- vli (R264). -/
def execVli (d : BitVec 6) (x : BitVec 10) (g : BitVec 4) (s : State) : Outcome :=
  vecOp { imm := 1 } (fun _ => true) d g (fun i _ => { val := i.imm32 x, mark := false }) s

end Sys2Proof.Machine
end

