-- ==== Sys2Proof/Machine/Lanes.lean ====
section
/-! DEFINITION. Lane operations and predicate operations: majors 0x20 to 0x22 (R265 to R273). -/

namespace Sys2Proof.Machine

/-! ### Major 0x20 (R266 to R269) -/

/-- vperm: reads the lanes it names, active or not (R266, R267). -/
def execVperm (d a b : BitVec 6) (g : BitVec 4) (s : State) : Outcome :=
  vecOp {} (fun i => i.hasV [a.toNat, b.toNat]) d g (fun i l =>
    let j := amount5 (i.lane b l)
    { val := i.lane a j, mark := i.mark a j || i.mark b l }) s

/-- The sums at the contributors in ascending lane order (R268): lane, sum, sum before it, poison so far, flags so far. A
step that a poisoned element has entered sets no flag. -/
def scanLanes (start : Word → Word × Nat) (op : Word → Word → Word × Nat) (x : Nat → Word) (mark : Nat → Bool)
    (ls : List Nat) : List (Nat × Word × Word × Bool × Nat) :=
  (ls.foldl (fun (r : List (Nat × Word × Word × Bool × Nat)) l =>
    match r with
    | [] =>
      let q := start (x l)
      [(l, q.1, 0, mark l, if mark l then 0 else q.2)]
    | (_, acc, _, p, fl) :: _ =>
      let q := op acc (x l)
      (l, q.1, acc, p || mark l, if p || mark l then fl else fl ||| q.2) :: r) []).reverse

/-- The entry of a lane in a scan: sum, sum before, poison. -/
def scanAt (r : List (Nat × Word × Word × Bool × Nat)) (l : Nat) : Word × Word × Bool :=
  match r.find? (fun e => e.1 == l) with
  | some e => (e.2.1, e.2.2.1, e.2.2.2.1)
  | none => (0, 0, false)

/-- Sum, poison and flags after the last contributor. -/
def scanEnd (r : List (Nat × Word × Word × Bool × Nat)) : Word × Bool × Nat :=
  match r.getLast? with
  | some e => (e.2.1, e.2.2.2.1, e.2.2.2.2)
  | none => (0, false, 0)

/-- Start and step of an integer sum. -/
def startZ (x : Word) : Word × Nat := (x, 0)
def stepZ (x y : Word) : Word × Nat := (x + y, 0)

/-- Start and step of an FP32 sum under a rounding mode (R253, R254, R268). -/
def startF (x : Word) : Word × Nat :=
  if (decodeF fp32 x.toNat).isSig then (w32 fp32.nan, flagNV) else (x, 0)
def stepF (rm : Nat) (sat : Bool) (x y : Word) : Word × Nat := fpWord (addF fp32 rm sat x.toNat y.toNat)

/-- The contributors' scan of an instruction. DEDUCED (unsafe), log entry 49. -/
def Issue.scan (i : Issue) (fp : Bool) (a : BitVec 6) (m : Mask) : List (Nat × Word × Word × Bool × Nat) :=
  if fp then scanLanes startF (stepF i.rm i.sat) (i.lane a) (i.mark a) (lanesOf m)
  else scanLanes startZ stepZ (i.lane a) (i.mark a) (lanesOf m)

/-- A scan: each active lane takes a part of its entry (R268). -/
def vecScan (fp : Bool) (part : Word × Word × Bool → Word) (d a : BitVec 6) (g : BitVec 4) (s : State) : Outcome :=
  issue {} (fun i => i.hasV [d.toNat, a.toNat]) (fun i t =>
    let r := i.scan fp a (i.lanes g)
    .done ((i.writeV t d (i.lanes g) (fun l => { val := part (scanAt r l), mark := (scanAt r l).2.2 })).updGang i.g.id
      (fun h => h.raise (scanEnd r).2.2))) s

/-- A reduction: each active lane takes the last sum (R268). DEDUCED (unsafe), log entry 49. -/
def vecRed (fp : Bool) (d a : BitVec 6) (g : BitVec 4) (s : State) : Outcome :=
  issue {} (fun i => i.hasV [d.toNat, a.toNat]) (fun i t =>
    let e := scanEnd (i.scan fp a (i.lanes g))
    .done ((i.writeV t d (i.lanes g) (fun _ => { val := e.1, mark := e.2.1 })).updGang i.g.id (fun h => h.raise e.2.2))) s

/-- vscan.z32 (R268). -/
def execVscanZ32 (d a : BitVec 6) (g : BitVec 4) (s : State) : Outcome := vecScan false (fun e => e.1) d a g s

/-- vscan.f32 (R268). -/
def execVscanF32 (d a : BitVec 6) (g : BitVec 4) (s : State) : Outcome := vecScan true (fun e => e.1) d a g s

/-- vscanx.z32 (R268). -/
def execVscanxZ32 (d a : BitVec 6) (g : BitVec 4) (s : State) : Outcome := vecScan false (fun e => e.2.1) d a g s

/-- vred.z32 (R268). -/
def execVredZ32 (d a : BitVec 6) (g : BitVec 4) (s : State) : Outcome := vecRed false d a g s

/-- vred.f32 (R268). -/
def execVredF32 (d a : BitVec 6) (g : BitVec 4) (s : State) : Outcome := vecRed true d a g s

/-- Any active lane of va is poisoned. -/
def Issue.anyMark (i : Issue) (a : BitVec 6) (m : Mask) : Bool := (lanesOf m).any (i.mark a)

/-- vsgn (R269). -/
def execVsgn (d a : BitVec 6) (g : BitVec 4) (s : State) : Outcome :=
  vecOp {} (fun i => i.hasV [a.toNat]) d g (fun i _ =>
    { val := maskWhere (i.lanes g) (fun k => (i.lane a k).getLsbD 31), mark := i.anyMark a (i.lanes g) }) s

/-- vget: unguarded; the lane it names, active or not (R266, R267). -/
def execVget (d a b : BitVec 6) (s : State) : Outcome :=
  issue {} (fun i => i.hasV [a.toNat]) (fun i t =>
    let j := (i.g.sreg b.toNat).toNat % 32
    .done (t.updGang i.g.id (fun h => h.setS d.toNat ((i.lane a j).zeroExtend 64) (i.mark a j || i.g.smark b.toNat)))) s

/-- vins: the lane it names, when it is active (R266). -/
def execVins (d a b : BitVec 6) (g : BitVec 4) (s : State) : Outcome :=
  issue {} (fun i => i.hasV [d.toNat]) (fun i t =>
    let j := (i.g.sreg b.toNat).toNat % 32
    .done (i.writeV t d (i.lanes g &&& laneBit j) (fun _ =>
      { val := i.x32 a, mark := i.g.smark a.toNat || i.g.smark b.toNat }))) s

/-- vlane (R266). -/
def execVlane (d : BitVec 6) (g : BitVec 4) (s : State) : Outcome :=
  vecOp {} (fun _ => true) d g (fun _ l => { val := w32 l, mark := false }) s

/-- One integer source. -/
def viOp1 (op : Word → Word) (d a : BitVec 6) (g : BitVec 4) (s : State) : Outcome :=
  vecOp {} (fun i => i.hasV [a.toNat]) d g (fun i l => { val := op (i.lane a l), mark := i.mark a l }) s

/-- One bits of a lane. -/
def popc32 (x : Word) : Nat := ((List.range 32).filter (fun k => x.getLsbD k)).length

/-- vpopc (R266). -/
def execVpopc (d a : BitVec 6) (g : BitVec 4) (s : State) : Outcome := viOp1 (fun x => w32 (popc32 x)) d a g s

/-- vclz (R266). -/
def execVclz (d a : BitVec 6) (g : BitVec 4) (s : State) : Outcome := viOp1 (fun x => w32 (32 - bitLen x.toNat)) d a g s

/-! ### Major 0x21 (R265) -/

/-- pd := f, in the split's mask. -/
def predOp (f : Gang → Mask) (d : BitVec 3) (s : State) : Outcome :=
  issue {} (fun _ => true) (fun i t => .done (t.updGang i.g.id (fun h => h.setP d.toNat i.act (f i.g)))) s

/-- s[sd] := f. -/
def predRead (f : Issue → Nat) (d : BitVec 6) (s : State) : Outcome :=
  issue {} (fun _ => true) (fun i t => .done (t.updGang i.g.id (fun h => h.setS d.toNat (dw (f i)) false))) s

/-- pand (R265). -/
def execPand (d a b : BitVec 3) (s : State) : Outcome := predOp (fun g => g.preg a.toNat &&& g.preg b.toNat) d s

/-- por (R265). -/
def execPor (d a b : BitVec 3) (s : State) : Outcome := predOp (fun g => g.preg a.toNat ||| g.preg b.toNat) d s

/-- pxor (R265). -/
def execPxor (d a b : BitVec 3) (s : State) : Outcome := predOp (fun g => g.preg a.toNat ^^^ g.preg b.toNat) d s

/-- pandn (R265). -/
def execPandn (d a b : BitVec 3) (s : State) : Outcome := predOp (fun g => g.preg a.toNat &&& ~~~ (g.preg b.toNat)) d s

/-- pnot (R265). -/
def execPnot (d a : BitVec 3) (s : State) : Outcome := predOp (fun g => ~~~ (g.preg a.toNat)) d s

/-- pmov: a poisoned scalar raises 0x09 (R243, R265). -/
def execPmov (d : BitVec 3) (a : BitVec 6) (s : State) : Outcome :=
  issue {} (fun _ => true) (fun i t =>
    if i.g.smark a.toNat then .trap t 0x09 i.act 0
    else .done (t.updGang i.g.id (fun h => h.setP d.toNat i.act (i.x32 a)))) s

/-- prd: all 32 bits of pa (R265). -/
def execPrd (a : BitVec 3) (d : BitVec 6) (s : State) : Outcome := predRead (fun i => (i.g.preg a.toNat).toNat) d s

/-- pact (R265). -/
def execPact (d : BitVec 6) (s : State) : Outcome := predRead (fun i => i.act.toNat) d s

/-- pcnt (R265). -/
def execPcnt (a : BitVec 3) (d : BitVec 6) (s : State) : Outcome :=
  predRead (fun i => countLanes (i.g.preg a.toNat &&& i.act)) d s

/-- pfirst: 32 when there is none (R265). -/
def execPfirst (a : BitVec 3) (d : BitVec 6) (s : State) : Outcome :=
  predRead (fun i => (lanesOf (i.g.preg a.toNat &&& i.act)).headD 32) d s

/-! ### Major 0x22 (R270 to R273) -/

/-- vsel (R270). -/
def execVsel (d a b : BitVec 6) (k : BitVec 3) (g : BitVec 4) (s : State) : Outcome :=
  vecOp {} (fun i => i.hasV [a.toNat, b.toNat]) d g (fun i l =>
    if (i.g.preg k.toNat).getLsbD l then { val := i.lane a l, mark := i.mark a l }
    else { val := i.lane b l, mark := i.mark b l }) s

/-- Active lanes of a list with the key of lane l. -/
def Issue.sameKey (i : Issue) (a : BitVec 6) (m : Mask) (l : Nat) : List Nat :=
  (lanesOf m).filter (fun k => i.lane a k == i.lane a l)

/-- vconf (R271). -/
def execVconf (d a : BitVec 6) (g : BitVec 4) (s : State) : Outcome :=
  vecOp {} (fun i => i.hasV [a.toNat]) d g (fun i l =>
    let ks := (i.sameKey a (i.lanes g) l).filter (fun k => k < l)
    { val := maskOf ks, mark := i.mark a l || ks.any (i.mark a) }) s

/-- The sum of the key of lane l, whether a poisoned element entered it, and the flags of its additions up to there (R243,
R272). DEDUCED (unsafe), log entry 49. -/
def Issue.keySum (i : Issue) (fp : Bool) (a b : BitVec 6) (ls : List Nat) : Word × Bool × Nat :=
  let bad (k : Nat) : Bool := i.mark a k || i.mark b k
  scanEnd (if fp then scanLanes startF (stepF i.rm i.sat) (i.lane b) bad ls else scanLanes startZ stepZ (i.lane b) bad ls)

/-- A key-segmented sum (R272): the leader takes the sum of its key, every other lane 0. -/
def vecKadd (fp : Bool) (d a b : BitVec 6) (g : BitVec 4) (s : State) : Outcome :=
  issue {} (fun i => i.hasV [d.toNat, a.toNat, b.toNat]) (fun i t =>
    let m := i.lanes g
    let leads (l : Nat) : Bool := (i.sameKey a m l).head? == some l
    let sum (l : Nat) : Word × Bool × Nat := i.keySum fp a b (i.sameKey a m l)
    .done ((i.writeV t d m (fun l =>
      if leads l then { val := (sum l).1, mark := (sum l).2.1 } else { val := 0, mark := i.mark a l })).updGang i.g.id
        (fun h => ((lanesOf m).filter leads).foldl (fun k l => k.raise (sum l).2.2) h))) s

/-- vkadd.z32 (R272). -/
def execVkaddZ32 (d a b : BitVec 6) (g : BitVec 4) (s : State) : Outcome := vecKadd false d a b g s

/-- vkadd.f32 (R272). -/
def execVkaddF32 (d a b : BitVec 6) (g : BitVec 4) (s : State) : Outcome := vecKadd true d a b g s

/-- Row and offset of item t among the lengths of rows from k on, `pre` the sum of the rows before (R273). -/
def rebalFind (t : Nat) : Nat → Nat → List Nat → Nat × Nat
  | _, pre, [] => (32, t - pre)
  | k, pre, n :: ns => if t < pre + n then (k, t - pre) else rebalFind t (k + 1) (pre + n) ns

/-- The lengths of rows 0 to 31: 0 at lanes that are not active. -/
def Issue.rowLengths (i : Issue) (a : BitVec 6) (m : Mask) : List Nat :=
  (List.range 32).map (fun k => if m.getLsbD k then (i.lane a k).toNat else 0)

/-- rebal: rows to vd, offsets to vd + 1 (R273). Every active length contributes. -/
def execRebal (d a b : BitVec 6) (g : BitVec 4) (s : State) : Outcome :=
  issue {} (fun i => i.hasV [d.toNat, d.toNat + 1, a.toNat, b.toNat]) (fun i t =>
    let m := i.lanes g
    let r (l : Nat) : Nat × Nat := rebalFind (i.lane b l).toNat 0 0 (i.rowLengths a m)
    let bad (l : Nat) : Bool := i.mark b l || i.anyMark a m
    .done ((i.writeV t d m (fun l => { val := w32 (r l).1, mark := bad l })).updGang i.g.id (fun h =>
      h.setLanes (d.toNat + 1) m (fun l => w32 (r l).2) bad))) s

end Sys2Proof.Machine
end

