-- ==== Sys2Proof/Machine/Scalar.lean ====
section
/-! DEFINITION. Scalar arithmetic and address instructions: majors 0x01 to 0x0B (R43, R242 to R251). A scalar instruction
acts once for each split that issues it, whatever its lane mask. -/

namespace Sys2Proof.Machine

/-! ### The arithmetic (R246, R247) -/

/-- Quotient of signed division (R247). -/
def divSigned (x y : DWord) : DWord := if y = 0 then BitVec.allOnes 64 else BitVec.sdiv x y

/-- Quotient of unsigned division (R247). -/
def divUnsigned (x y : DWord) : DWord := if y = 0 then BitVec.allOnes 64 else x / y

/-- Remainder of signed division, with the sign of the dividend (R247). -/
def remSigned (x y : DWord) : DWord := if y = 0 then x else BitVec.srem x y

/-- Remainder of unsigned division (R247). -/
def remUnsigned (x y : DWord) : DWord := if y = 0 then x else x % y

/-- Bits 127:64 of the signed product. -/
def mulHighS (x y : DWord) : DWord := BitVec.ofInt 64 (x.toInt * y.toInt / 2 ^ 64)

/-- Bits 127:64 of the unsigned product. -/
def mulHighZ (x y : DWord) : DWord := dw (x.toNat * y.toNat / 2 ^ 64)

/-- Leading zero bits of an n-bit number. -/
def leadingZeros (n x : Nat) : Nat := n - bitLen x

/-- Trailing zero bits of an n-bit number; n for 0. -/
def trailingZeros (n x : Nat) : Nat := ((List.range n).find? (fun k => bit x k)).getD n

/-- One bits of an n-bit number. -/
def onesIn (n x : Nat) : Nat := ((List.range n).filter (fun k => bit x k)).length

/-- Bits 63 to 0 in reverse order. -/
def reverseBits (x : DWord) : DWord := dw ((List.range 64).foldl (fun r k => 2 * r + b2n (x.getLsbD k)) 0)

/-- Bytes 7 to 0 in reverse order. -/
def reverseBytes (x : DWord) : DWord := dw (ofBytes (leBytes 8 x.toNat).reverse)

/-- The low n bits, sign-extended. -/
def signedLow (n : Nat) (x : DWord) : DWord := sext n (x.toNat % 2 ^ n)

/-- The shift amount in the low six bits. -/
def amount (x : DWord) : Nat := x.toNat % 64

/-! ### The frames -/

/-- s[d] := f(s[a], s[b]); a poisoned operand poisons the result (R243). -/
def scalarOp2 (f : DWord → DWord → DWord) (d a b : BitVec 6) (s : State) : Outcome :=
  issue {} (fun _ => true) (fun i t => .done (t.updGang i.g.id (fun g =>
    g.setS d.toNat (f (i.g.sreg a.toNat) (i.g.sreg b.toNat)) (i.g.smark a.toNat || i.g.smark b.toNat)))) s

/-- s[d] := f(s[a]). -/
def scalarOp1 (f : DWord → DWord) (d a : BitVec 6) (s : State) : Outcome :=
  issue {} (fun _ => true) (fun i t => .done (t.updGang i.g.id (fun g =>
    g.setS d.toNat (f (i.g.sreg a.toNat)) (i.g.smark a.toNat)))) s

/-- s[d] := f(s[a], imm), the 14-bit immediate widened by up to two hint.imm words (R248). -/
def scalarImm (f : DWord → DWord → DWord) (d a : BitVec 6) (x : BitVec 14) (s : State) : Outcome :=
  issue { imm := 2 } (fun _ => true) (fun i t => .done (t.updGang i.g.id (fun g =>
    g.setS d.toNat (f (i.g.sreg a.toNat) (i.sp.hints.imm 14 x.toNat)) (i.g.smark a.toNat)))) s

/-- s[d] := f(imm), the 20-bit immediate widened by up to two hint.imm words (R43, R250). -/
def scalarWide (f : State → Issue → DWord → DWord) (d : BitVec 6) (x : BitVec 20) (s : State) :
    Outcome :=
  issue { imm := 2 } (fun _ => true) (fun i t => .done (t.updGang i.g.id (fun g =>
    g.setS d.toNat (f t i (i.sp.hints.imm 20 x.toNat)) false))) s

/-! ### Major 0x01 (R246, R247) -/

/-- add (R246). -/
def execAdd (d a b : BitVec 6) (s : State) : Outcome := scalarOp2 (fun x y => x + y) d a b s

/-- sub (R246). -/
def execSub (d a b : BitVec 6) (s : State) : Outcome := scalarOp2 (fun x y => x - y) d a b s

/-- and (R246). -/
def execAnd (d a b : BitVec 6) (s : State) : Outcome := scalarOp2 (fun x y => x &&& y) d a b s

/-- or (R246). -/
def execOr (d a b : BitVec 6) (s : State) : Outcome := scalarOp2 (fun x y => x ||| y) d a b s

/-- xor (R246). -/
def execXor (d a b : BitVec 6) (s : State) : Outcome := scalarOp2 (fun x y => x ^^^ y) d a b s

/-- andn (R246). -/
def execAndn (d a b : BitVec 6) (s : State) : Outcome := scalarOp2 (fun x y => x &&& ~~~ y) d a b s

/-- sll (R246). -/
def execSll (d a b : BitVec 6) (s : State) : Outcome := scalarOp2 (fun x y => x <<< amount y) d a b s

/-- srl (R246). -/
def execSrl (d a b : BitVec 6) (s : State) : Outcome := scalarOp2 (fun x y => x >>> amount y) d a b s

/-- sra (R246). -/
def execSra (d a b : BitVec 6) (s : State) : Outcome := scalarOp2 (fun x y => x.sshiftRight (amount y)) d a b s

/-- rol (R246). -/
def execRol (d a b : BitVec 6) (s : State) : Outcome := scalarOp2 (fun x y => x.rotateLeft (amount y)) d a b s

/-- ror (R246). -/
def execRor (d a b : BitVec 6) (s : State) : Outcome := scalarOp2 (fun x y => x.rotateRight (amount y)) d a b s

/-- slt (R246). -/
def execSlt (d a b : BitVec 6) (s : State) : Outcome := scalarOp2 (fun x y => flag64 (x.slt y)) d a b s

/-- sltz (R246). -/
def execSltz (d a b : BitVec 6) (s : State) : Outcome := scalarOp2 (fun x y => flag64 (x.ult y)) d a b s

/-- seq (R246). -/
def execSeq (d a b : BitVec 6) (s : State) : Outcome := scalarOp2 (fun x y => flag64 (x == y)) d a b s

/-- min.s (R246). -/
def execMinS (d a b : BitVec 6) (s : State) : Outcome := scalarOp2 (fun x y => if y.slt x then y else x) d a b s

/-- max.s (R246). -/
def execMaxS (d a b : BitVec 6) (s : State) : Outcome := scalarOp2 (fun x y => if x.slt y then y else x) d a b s

/-- min.z (R246). -/
def execMinZ (d a b : BitVec 6) (s : State) : Outcome := scalarOp2 (fun x y => if y.ult x then y else x) d a b s

/-- max.z (R246). -/
def execMaxZ (d a b : BitVec 6) (s : State) : Outcome := scalarOp2 (fun x y => if x.ult y then y else x) d a b s

/-- mul (R246). -/
def execMul (d a b : BitVec 6) (s : State) : Outcome := scalarOp2 (fun x y => x * y) d a b s

/-- mulh.s (R246). -/
def execMulhS (d a b : BitVec 6) (s : State) : Outcome := scalarOp2 (fun x y => mulHighS x y) d a b s

/-- mulh.z (R246). -/
def execMulhZ (d a b : BitVec 6) (s : State) : Outcome := scalarOp2 (fun x y => mulHighZ x y) d a b s

/-- div.s (R246). -/
def execDivS (d a b : BitVec 6) (s : State) : Outcome := scalarOp2 (fun x y => divSigned x y) d a b s

/-- div.z (R246). -/
def execDivZ (d a b : BitVec 6) (s : State) : Outcome := scalarOp2 (fun x y => divUnsigned x y) d a b s

/-- rem.s (R246). -/
def execRemS (d a b : BitVec 6) (s : State) : Outcome := scalarOp2 (fun x y => remSigned x y) d a b s

/-- rem.z (R246). -/
def execRemZ (d a b : BitVec 6) (s : State) : Outcome := scalarOp2 (fun x y => remUnsigned x y) d a b s

/-- add.w (R246). -/
def execAddW (d a b : BitVec 6) (s : State) : Outcome := scalarOp2 (fun x y => signedLow 32 (x + y)) d a b s

/-- sub.w (R246). -/
def execSubW (d a b : BitVec 6) (s : State) : Outcome := scalarOp2 (fun x y => signedLow 32 (x - y)) d a b s

/-- mul.w (R246). -/
def execMulW (d a b : BitVec 6) (s : State) : Outcome := scalarOp2 (fun x y => signedLow 32 (x * y)) d a b s

/-- clz (R246). -/
def execClz (d a : BitVec 6) (s : State) : Outcome := scalarOp1 (fun x => dw (leadingZeros 64 x.toNat)) d a s

/-- ctz (R246). -/
def execCtz (d a : BitVec 6) (s : State) : Outcome := scalarOp1 (fun x => dw (trailingZeros 64 x.toNat)) d a s

/-- popc (R246). -/
def execPopc (d a : BitVec 6) (s : State) : Outcome := scalarOp1 (fun x => dw (onesIn 64 x.toNat)) d a s

/-- brev (R246). -/
def execBrev (d a : BitVec 6) (s : State) : Outcome := scalarOp1 (fun x => reverseBits x) d a s

/-- bswap (R246). -/
def execBswap (d a : BitVec 6) (s : State) : Outcome := scalarOp1 (fun x => reverseBytes x) d a s

/-- sext.s8 (R246). -/
def execSextS8 (d a : BitVec 6) (s : State) : Outcome := scalarOp1 (fun x => signedLow 8 x) d a s

/-- sext.s16 (R246). -/
def execSextS16 (d a : BitVec 6) (s : State) : Outcome := scalarOp1 (fun x => signedLow 16 x) d a s

/-- sext.s32 (R246). -/
def execSextS32 (d a : BitVec 6) (s : State) : Outcome := scalarOp1 (fun x => signedLow 32 x) d a s

/-- zext.z32 (R246). -/
def execZextZ32 (d a : BitVec 6) (s : State) : Outcome := scalarOp1 (fun x => x &&& 0xFFFFFFFF#64) d a s

/-! ### Majors 0x02 to 0x07 (R248) -/

/-- addi (R248). -/
def execAddi (d a : BitVec 6) (i : BitVec 14) (s : State) : Outcome := scalarImm (fun x y => x + y) d a i s

/-- andi (R248). -/
def execAndi (d a : BitVec 6) (i : BitVec 14) (s : State) : Outcome := scalarImm (fun x y => x &&& y) d a i s

/-- ori (R248). -/
def execOri (d a : BitVec 6) (i : BitVec 14) (s : State) : Outcome := scalarImm (fun x y => x ||| y) d a i s

/-- xori (R248). -/
def execXori (d a : BitVec 6) (i : BitVec 14) (s : State) : Outcome := scalarImm (fun x y => x ^^^ y) d a i s

/-- slti (R248). -/
def execSlti (d a : BitVec 6) (i : BitVec 14) (s : State) : Outcome := scalarImm (fun x y => flag64 (x.slt y)) d a i s

/-- sltiz (R248). -/
def execSltiz (d a : BitVec 6) (i : BitVec 14) (s : State) : Outcome := scalarImm (fun x y => flag64 (x.ult y)) d a i s

/-! ### Major 0x08 (R249) -/

/-- slli (R249). -/
def execSlli (d a h : BitVec 6) (s : State) : Outcome := scalarOp1 (fun x => x <<< h.toNat) d a s

/-- srli (R249). -/
def execSrli (d a h : BitVec 6) (s : State) : Outcome := scalarOp1 (fun x => x >>> h.toNat) d a s

/-- srai (R249). -/
def execSrai (d a h : BitVec 6) (s : State) : Outcome := scalarOp1 (fun x => x.sshiftRight h.toNat) d a s

/-- rori (R249). -/
def execRori (d a h : BitVec 6) (s : State) : Outcome := scalarOp1 (fun x => x.rotateRight h.toNat) d a s

/-- slli.w: on bits 31:0, the result sign-extended (R249). -/
def execSlliW (d a : BitVec 6) (h : BitVec 5) (s : State) : Outcome :=
  scalarOp1 (fun x => let w : Word := x.truncate 32; (w <<< h.toNat).signExtend 64) d a s

/-- srli.w: on bits 31:0, the result sign-extended (R249). -/
def execSrliW (d a : BitVec 6) (h : BitVec 5) (s : State) : Outcome :=
  scalarOp1 (fun x => let w : Word := x.truncate 32; (w >>> h.toNat).signExtend 64) d a s

/-- srai.w: on bits 31:0, the result sign-extended (R249). -/
def execSraiW (d a : BitVec 6) (h : BitVec 5) (s : State) : Outcome :=
  scalarOp1 (fun x => let w : Word := x.truncate 32; (w.sshiftRight h.toNat).signExtend 64) d a s

/-- rori.w: on bits 31:0, the result sign-extended (R249). -/
def execRoriW (d a : BitVec 6) (h : BitVec 5) (s : State) : Outcome :=
  scalarOp1 (fun x => let w : Word := x.truncate 32; (w.rotateRight h.toNat).signExtend 64) d a s

/-! ### Majors 0x09 to 0x0B (R43, R250) -/

/-- lui (R250). -/
def execLui (d : BitVec 6) (i : BitVec 20) (s : State) : Outcome := scalarWide (fun _ _ x => x <<< 12) d i s

/-- addpc: from the address of the addpc word itself (R43). -/
def execAddpc (d : BitVec 6) (i : BitVec 20) (s : State) : Outcome := scalarWide (fun _ j x => j.sp.pc + x) d i s

/-- addcb: from the context base (R41, R43). -/
def execAddcb (d : BitVec 6) (i : BitVec 20) (s : State) : Outcome := scalarWide (fun t j x => dw (t.ctxCb j.g.ctx) + x) d i s

end Sys2Proof.Machine
end

