-- ==== Sys2Proof/Machine/Rebuild.lean ====
section
/-! DEFINITION. The rebuild of the frames of a lost module, and the parity verify scrub of a warm start, which rebuilds a
module's own parity (R341, R402, R403, R423). -/

namespace Sys2Proof.Machine

/-! ### What a lost half-line held (R128, R402, R403) -/

/-- Product in GF(2^8). -/
def gfMul (a b : Nat) : Nat := (List.range 8).foldl (fun r k => if bit b k then r ^^^ gfScale k a else r) 0

/-- Inverse in GF(2^8). -/
def gfInv (a : Nat) : Nat := ((List.range 256).find? (fun b => gfMul a b == 1)).getD 0

/-- A half-line times a constant. -/
def gfBytes (c : Nat) (d : List Byte) : List Byte := d.map (fun b => lowByte (gfMul c b.toNat))

/-- XOR of half-lines. -/
def xorBytes (a b : List Byte) : List Byte := (List.range 64).map (fun k => nth 0 a k ^^^ nth 0 b k)

/-- The positions of a group's data in stripe f (R128). -/
def Group.dataPositions (g : Group) (f : Nat) : List Nat :=
  (List.range g.n).filter (fun p => p != f % g.n && !(g.hasQ && p == (f + 1) % g.n))

/-- P of known data half-lines, by position. -/
def sumP (ds : List (Nat × List Byte)) : List Byte := ds.foldl (fun r d => xorBytes r d.2) (List.replicate 64 0)

/-- Q of known data half-lines: weighted with g^j. -/
def sumQ (ds : List (Nat × List Byte)) : List Byte :=
  ds.foldl (fun r d => xorBytes r (gfBytes (gfScale d.1 1) d.2)) (List.replicate 64 0)

/-- Every data half-line of a stripe from those known and the parity read, when they determine it: one position from P or,
divided by its weight, from Q; two from both (R402, R403). -/
def solveData (ps : List Nat) (known : List (Nat × List Byte)) (p q : Option (List Byte)) : Option (List (Nat × List Byte)) :=
  match ps.filter (fun j => !known.any (fun d => d.1 == j)) with
  | [] => some known
  | [u] =>
    (match p, q with
     | some x, _ => some (known ++ [(u, xorBytes x (sumP known))])
     | none, some y => some (known ++ [(u, gfBytes (gfInv (gfScale u 1)) (xorBytes y (sumQ known)))])
     | none, none => none)
  | [u, v] =>
    (match p, q with
     | some x, some y =>
       let a := xorBytes x (sumP known)
       let b := xorBytes y (sumQ known)
       let d := gfBytes (gfInv (gfScale u 1 ^^^ gfScale v 1)) (xorBytes b (gfBytes (gfScale v 1) a))
       some (known ++ [(u, d), (v, xorBytes a d)])
     | _, _ => none)
  | _ => none

/-- The content of position x of stripe f, from what was read (R402). -/
def Group.content (g : Group) (f x : Nat) (got : List (Nat × List Byte)) : Option (List Byte) :=
  let ps := g.dataPositions f
  let at_ (j : Nat) : Option (List Byte) := (got.find? (fun d => d.1 == j)).map (·.2)
  (solveData ps (got.filter (fun d => ps.contains d.1)) (at_ (f % g.n)) (if g.hasQ then at_ ((f + 1) % g.n) else none)).map
    (fun ds =>
      if x = f % g.n then sumP ds
      else if g.hasQ && x == (f + 1) % g.n then sumQ ds
      else ((ds.find? (fun d => d.1 == x)).map (·.2)).getD [])

/-! ### One half-line after another -/

/-- Local address of the half-line in progress. -/
def State.rebuildAddr (s : State) (b : Rebuild) (f : Nat) : Nat := (s.group b.record).base + 2 ^ 21 * f + 64 * b.half

/-- Position of the lost member. -/
def State.lostPosition (s : State) (b : Rebuild) : Nat := (s.group b.record).position b.lost

/-- The surviving data positions that a rebuild reads. -/
def State.dataToRead (s : State) (b : Rebuild) (f : Nat) : List Nat :=
  ((s.group b.record).dataPositions f).filter (fun p => !(s.group b.record).lostAt p && p != s.lostPosition b)

/-- The parity positions that it reads after them: P when one data position is missing, else Q; both for two. -/
def State.parityToRead (s : State) (b : Rebuild) (f : Nat) : List Nat :=
  let g := s.group b.record
  let missing := (g.dataPositions f).length - (s.dataToRead b f).length
  let live (p : Nat) : Bool := !g.lostAt p && p != s.lostPosition b
  let p := if live (f % g.n) then [f % g.n] else []
  let q := if g.hasQ && live ((f + 1) % g.n) then [(f + 1) % g.n] else []
  if missing = 0 then [] else if missing = 1 then (p ++ q).take 1 else p ++ q

/-- A query for a half-line of a position: of data (0), which puts it under a cut, or of parity (2). A query to this
module's own slices is an event of its own. -/
def State.askHalf (s : State) (b : Rebuild) (f op : Nat) (r : Rebuild × State) (p : Nat) : Rebuild × State :=
  let m := nth 0 (s.group b.record).members p
  let q := s.routed { blankPacket s.mgmt.modid m 0x0B r.2.fresh with addr := s.rebuildAddr b f, op }
  let t := { r.2 with fresh := r.2.fresh + 1 }
  ({ r.1 with wait := r.1.wait ++ [(r.2.fresh, p)] },
    if m = s.mgmt.modid then t.postEvent (.rebuildQuery q) else { t with out := t.out ++ [q] })

/-- Queries for positions leave. -/
def State.askHalves (s : State) (b : Rebuild) (f op : Nat) (ps : List Nat) : State :=
  let r := ps.foldl (s.askHalf b f op) (b, s)
  r.2.setRebuild r.1

/-- A rebuilt half-line lands in a frame, which accepts nothing else but parity (R128); poison stands for one that cannot
be formed (R403). DEDUCED (unsafe), log entry 65. -/
def State.landRebuilt (s : State) (h : Nat) (d : List Byte) (bad : Bool) : State :=
  let t := (s.putCells (cellsAt h d)).clearPoison h
  if bad then t.countPoison h else t

/-- The cut of a half-line ends as its rebuilt value has been written (R341, R403): deltas for the lost member that were
formed before the cut are covered by it. -/
def State.endCut (s : State) (h lost : Nat) : State :=
  let stamp := ((s.cuts.find? (fun c => c.1 == h)).map (·.2)).getD s.fresh
  let mine := s.deltas.filter (fun d => d.held && d.msg.target == h && d.msg.src == s.mgmt.modid)
  let t := { s with cuts := s.cuts.filter (fun c => c.1 != h) }
  let upd (u : State) (tag : Nat) (f : PendDelta → PendDelta) : State :=
    { u with deltas := u.deltas.map (fun x => if x.tag == tag then f x else x) }
  mine.foldl (fun u d =>
    if d.dest = lost && d.tag < stamp then upd u d.tag (fun x => { x with covered := true }) else u) t

/-- A step has written a half-line that was and still is under a rebuild's cut. -/
def State.writesCut (s t : State) : Bool :=
  s.cuts.any (fun c => t.cuts.contains c
    && (s.bytes c.1 64 != t.bytes c.1 64 || s.poisoned c.1 != t.poisoned c.1))

/-- A slice holds writes to a half-line under a rebuild's cut until it has been rebuilt (R403): what would make such a write does
not happen yet. An event that waits for it stays posted. DEDUCED (unsafe), log entry 64. -/
def State.cutHolds (s : State) (e : Option Event) (r : Outcome) : Outcome :=
  match r with
  | .next t => if s.writesCut t then .next { s with agenda := s.agenda ++ e.toList } else r
  | _ => r

/-- The lost member's frame of a stripe has been rebuilt: the deltas that it covers count as acknowledged (R341). -/
def State.ackCovered (s : State) (base : Nat) : State :=
  ((s.deltas.filter (fun d => d.covered && alignDown d.msg.target (2 ^ 21) == base)).map (·.tag)).foldl
    (fun t tag => t.ackDelta tag false) s

/-- A reply or an acknowledgement of a packet is still awaited. -/
def State.tagPending (s : State) (tag : Nat) : Bool :=
  s.loads.any (fun l => l.await.any (fun w => w.tag == tag)) || s.peerPending.any (fun e => e.tag == tag)
    || s.colls.any (fun c => c.inflight.any (fun x => x.await.any (fun w => w.tag == tag)))

/-- A packet that a rebuilt frame of a lost module makes possible: an access that waited (R403). -/
def State.waitsFor (s : State) (lost base : Nat) (p : Packet) : Bool :=
  p.dst == lost && alignDown p.addr (2 ^ 21) == base && (p.kind == 1 || p.kind == 3 || p.kind == 5) && s.tagPending p.tag

/-- A frame of a lost module stands at its replacement: accesses go there from now on, those that waited too (R403). -/
def State.redirect (s : State) (lost base repl : Nat) : State :=
  let waiting := distinct ((s.out.filter (s.waitsFor lost base)).map (fun p => s.routed { p with dst := repl }))
  { s with rebuilt := s.rebuilt ++ [(lost, base, repl)]
           out := s.out ++ waiting
           peerPending := s.peerPending.map (fun e => if waiting.any (fun p => p.tag == e.tag) then { e with dest := repl } else e) }

/-- What a member does once a rebuilt half-line has been written: the end of its cut, and, with the last half-line of a
frame, the deltas that it covers and the way to the replacement. DEDUCED (unsafe), log entry 65. -/
def State.halfRebuilt (s : State) (h lost repl : Nat) : State :=
  let t := s.endCut h lost
  if h % 2 ^ 21 != 2 ^ 21 - 64 then t
  else
    let u := t.ackCovered (alignDown h (2 ^ 21))
    if lost != s.mgmt.modid then u.redirect lost (alignDown h (2 ^ 21)) repl else u

/-- The half-line in progress is done: every surviving member learns of it, and the next half-line or stripe follows. -/
def State.halfDone (s : State) (b : Rebuild) (f : Nat) : State :=
  let g := s.group b.record
  let h := s.rebuildAddr b f
  let others := (((List.range g.n).filter (fun p => !g.lostAt p)).map (nth 0 g.members ·)).filter (· != s.mgmt.modid)
  let t := { s.halfRebuilt h b.lost b.repl with
    out := (s.halfRebuilt h b.lost b.repl).out ++ others.map (fun m =>
      s.routed { blankPacket s.mgmt.modid m 0x0B b.lost with addr := h, op := 1, count := b.repl }) }
  if b.half + 1 < 32768 then (t.setRebuild { b with half := b.half + 1, got := [], wait := [] }).postEvent (.rebuildStripe b.record f)
  else
    let d := { b with done := b.done + 1, stripe := none, half := 0, got := [], wait := [] }
    (t.setRebuild d).goOnRebuild d

/-- The half-line in progress is formed and written to the replacement. -/
def State.writeRebuilt (s : State) (b : Rebuild) (f : Nat) : State :=
  let h := s.rebuildAddr b f
  let c := (s.group b.record).content f (s.lostPosition b) (b.got.map (fun d => (d.1, d.2.1)))
  let bad := c.isNone || b.got.any (·.2.2)
  let d := if bad then List.replicate 64 0 else c.getD []
  if b.repl = s.mgmt.modid then (s.landRebuilt h d bad).halfDone b f
  else
    { s with
      out := s.out ++ [s.routed { blankPacket s.mgmt.modid b.repl 3 s.fresh with
        addr := h, data := d, len := 64, op := 1, status := if bad then 0x09 else 0 }]
      fresh := s.fresh + 1 }.setRebuild { b with wait := [(s.fresh, 17)] }

/-- A rebuild goes as far as it can: queries of data, then of parity, then the write. -/
def State.driveRebuild (s : State) (b : Rebuild) (f : Nat) : State :=
  let missing (ps : List Nat) : List Nat := ps.filter (fun p => !b.got.any (fun d => d.1 == p))
  if !b.wait.isEmpty then s
  else if !(missing (s.dataToRead b f)).isEmpty then s.askHalves b f 0 (missing (s.dataToRead b f))
  else if !(missing (s.parityToRead b f)).isEmpty then s.askHalves b f 2 (missing (s.parityToRead b f))
  else s.writeRebuilt b f

/-- The rebuild that has a stripe in progress or still to begin. -/
def State.rebuildOf (s : State) (record f : Nat) : Option Rebuild :=
  s.rebuilds.find? (fun b => b.record == record && (b.stripe == some f || (b.stripe.isNone && b.stripes.contains f)))

/-- REBUILD_STRIPE (R402, R403): a stripe begins, or goes on with its next half-line. -/
def execRebuildStripe (record stripe : Nat) (s : State) : Outcome :=
  happen (match s.rebuildOf record stripe with
    | none => s
    | some b =>
      if b.stripe.isSome then s.driveRebuild b stripe
      else
        let c := { b with stripe := some stripe, stripes := b.stripes.filter (· != stripe), half := 0, got := [], wait := [] }
        (s.setRebuild c).driveRebuild c stripe)

/-! ### Queries and answers (R403) -/

/-- Deltas of a half-line are still to be acknowledged, those held for a lost member apart. -/
def State.deltasOut (s : State) (h : Nat) : Bool :=
  s.deltas.any (fun d => d.msg.target == h && d.msg.src == s.mgmt.modid && !d.held)

/-- A slice answers a query: one of data waits for its deltas and begins the cut. -/
def State.answerQuery (s : State) (p : Packet) : State :=
  if p.op = 0 && s.deltasOut p.addr then s.postEvent (.rebuildQuery p)
  else
    let r := s.sliceBytes p.addr 64
    let a := s.routed { blankPacket s.mgmt.modid p.src 0x0C p.tag with
      addr := p.addr, data := r.2.1, len := 64, status := if r.2.2 then 0x09 else 0 }
    let t := if p.op = 0 then { r.1 with cuts := r.1.cuts ++ [(p.addr, r.1.fresh)], fresh := r.1.fresh + 1 } else r.1
    if p.src = s.mgmt.modid then t.postEvent (.rebuildAnswer a) else { t with out := t.out ++ [a] }

/-- REBUILD_QUERY (R403): for a half-line, or the word that it has been written. -/
def execRebuildQuery (p : Packet) (s : State) : Outcome :=
  receive p (fun t =>
    if !isDram p.addr then t
    else if p.op = 1 then t.halfRebuilt p.addr p.tag p.count
    else t.answerQuery p) s

/-- The rebuild that awaits a tag. -/
def State.rebuildWaiting (s : State) (tag : Nat) : Option Rebuild := s.rebuilds.find? (fun b => b.wait.any (fun w => w.1 == tag))

/-- An answer reaches its rebuild. -/
def State.takeAnswer (s : State) (p : Packet) : State :=
  match s.rebuildWaiting p.tag with
  | none => s
  | some b =>
    let pos := ((b.wait.find? (fun w => w.1 == p.tag)).map (·.2)).getD 0
    let c := { b with wait := b.wait.filter (fun w => w.1 != p.tag), got := b.got ++ [(pos, p.data, p.status != 0)] }
    (s.setRebuild c).driveRebuild c (c.stripe.getD 0)

/-- REBUILD_ANSWER (R403). -/
def execRebuildAnswer (p : Packet) (s : State) : Outcome := receive p (fun t => t.takeAnswer p) s

/-- The replacement has acknowledged a rebuilt half-line. -/
def State.rebuiltAcked (s : State) (tag : Nat) : State :=
  match s.rebuildWaiting tag with
  | none => s
  | some b => s.halfDone b (b.stripe.getD 0)

end Sys2Proof.Machine
end

