-- ==== Sys2Proof/Machine/Fabric.lean ====
section
/-! DEFINITION. Packets of the fabric and the loss of modules (R335, R352, R398, R401, R417, R419 to R422). -/

namespace Sys2Proof.Machine

/-! ### Requests of peers, performed at their home slices (R335, R420) -/

/-- An answer to a packet. -/
def answerTo (s : State) (p : Packet) (kind : Nat) : Packet :=
  { blankPacket s.mgmt.modid p.src kind p.tag with ctx := p.ctx, addr := p.addr }

/-- With a packet sent. DESIGN CHOICE (safe), log entry 1. -/
def State.send (s : State) (p : Packet) : State := { s with out := s.out ++ [s.routed p] }

/-- The half-lines in which a read packet names a sector. -/
def packetHalves (p : Packet) : List Nat :=
  distinct (((List.range ((p.len + 31) / 32)).filter (fun k => p.mask.isEmpty || nth false p.mask k)).map (fun k => halfOf (p.addr + 32 * k)))

/-- A read at its home slice, of the sectors named (R420): the answer tells which half-lines are poisoned. -/
def State.readFrom (s : State) (p : Packet) : State :=
  let hs := packetHalves p
  let t := hs.foldl (fun u h => u.touch h 64) s
  let bad := hs.filter t.poisoned
  t.send { answerTo s p 2 with
    data := (List.range p.len).map (fun k => if hs.contains (halfOf (p.addr + k)) then t.byte (p.addr + k) else 0)
    len := p.len, status := if bad.isEmpty then 0 else 0x09, refusals := bad.map (fun h => (0x09, h)) }

/-- READ: addresses that no slice homes are not served. -/
def execRead (p : Packet) (s : State) : Outcome := receive p (fun t => if isDram p.addr then t.readFrom p else t) s

/-- The bytes that a write packet names. -/
def packetCells (p : Packet) : List (Nat × Byte) :=
  ((List.range p.data.length).filter (fun k => p.mask.isEmpty || nth false p.mask k)).map (fun k => (p.addr + k, nth 0 p.data k))

/-- The write that a packet asks for: it carries its originator's depth and one more (R352). -/
def packetWrite (p : Packet) : SliceWrite :=
  { cells := packetCells p, watched := p.watched, prot := p.prot, depth := p.depth + 1, skind := p.skind, ctx := p.ctx,
    org := .peer p.src p.tag, policy := 0 }

/-- A write at its home slice: the acknowledgement returns refusals and the number of deltas sent. -/
def State.writeFrom (s : State) (p : Packet) : State :=
  let c := s.commit (packetWrite p)
  c.st.send { answerTo s p 4 with count := c.st.deltas.length - s.deltas.length, refusals := c.refusals,
                                  status := ((c.refusals.head?).map (·.1)).getD 0 }

/-- WRITE: of stores, copies and drains, or, with op 1, of a rebuild (R402). -/
def execWrite (p : Packet) (s : State) : Outcome :=
  receive p (fun t =>
    if !isDram p.addr then t
    else if p.op = 1 then (t.landRebuilt p.addr p.data (p.status != 0)).send (answerTo t p 4)
    else t.writeFrom p) s

/-- The operation that a packet asks for, as its home slice takes it. -/
def packetNear (p : Packet) (q : NearReq) : NearReq :=
  { q with addr := p.addr, watched := p.watched, prot := p.prot, depth := p.depth + 1, skind := p.skind, ctx := p.ctx,
           org := .peer p.src p.tag }

/-- What the operations of an atomic packet have left so far: the state, 16 bytes of answer each, flags, poison, refusals. -/
structure NearAnswer where
  st : State
  data : List Byte
  flags : Nat
  poison : Bool
  refusals : List (Nat × Nat)
  deriving DecidableEq, Repr

/-- One operation of an atomic packet. -/
def NearAnswer.one (p : Packet) (r : NearAnswer) (q : NearReq) : NearAnswer :=
  let x := r.st.nearOp p.op (packetNear p q)
  { st := x.st, data := r.data ++ leBytes 8 x.x.toNat ++ leBytes 8 x.y.toNat, flags := if x.poison then r.flags else r.flags ||| x.flags
    poison := r.poison || x.poison, refusals := r.refusals ++ x.refusals }

/-- The operations of an atomic at its home slice, one after another with nothing between them (R234): the answer carries
the old values, their flags in `op`, and refusals. -/
def State.atomicFrom (s : State) (p : Packet) : State :=
  let r := p.near.foldl (NearAnswer.one p) { st := s, data := [], flags := 0, poison := false, refusals := [] }
  r.st.send { answerTo s p 6 with
    data := r.data, len := r.data.length, op := r.flags, status := if r.poison then 0x09 else 0,
    count := r.st.deltas.length - s.deltas.length, refusals := r.refusals }

/-- ATOMIC. -/
def execAtomic (p : Packet) (s : State) : Outcome :=
  receive p (fun t => if isDram p.addr && !p.near.isEmpty then t.atomicFrom p else t) s

/-! ### Answers (R329, R339, R352) -/

/-- The offsets of an answer's data that are poisoned: those of the half-lines it names, or all of it. -/
def packetBad (p : Packet) (k : Nat) : Bool :=
  p.status != 0 && (p.refusals.isEmpty || p.refusals.any (fun r => r.2 == halfOf (p.addr + k)))

/-- READ_DATA. -/
def execReadData (p : Packet) (s : State) : Outcome := receive p (fun t => t.deliver p.tag p.data (packetBad p)) s

/-- The home slice of a store has sent n deltas for it, whose acknowledgements come by way of that module (R130). -/
def State.awaitDeltas (s : State) (o : Origin) (p : Packet) : State :=
  let d : PendDelta :=
    { tag := p.tag, ctx := p.ctx, org := o, dest := p.src, parity := 0, held := false, covered := false,
      msg := { target := p.addr, stripe := 0, pos := 0, tag := p.tag, src := p.src, bytes := [] } }
  let t := { s with deltas := s.deltas ++ List.replicate p.count d }
  match o with
  | .gang id => t.updHeld id (fun g => { g with unacked := g.unacked + p.count })
  | _ => t

/-- The transfer that awaits a tag counts its bytes as landed only when they are survivable (R175).
DEDUCED (unsafe), log entry 60. -/
def State.survivesFirst (s : State) (tag : Nat) : Bool :=
  s.colls.any (fun c => c.inflight.any (fun x => x.acks.contains tag && (c.runs x).any (fun q => q.1.sv)))

/-- What of a store has committed: the bytes of no half-line that the answer refuses (R128, R142). -/
def PeerStore.committed (e : PeerStore) (p : Packet) : PeerStore :=
  { e with cells := e.cells.filter (fun c => !p.refusals.any (fun r => r.1 != 0x0A && r.2 == halfOf c.1)) }

/-- A store or accumulation at a peer has been answered: it passes the L1 of its cluster (R155), its gang waits for one
acknowledgement less and may perform the next of its strongly ordered lines (R226), and it learns of refusals. -/
def State.peerAnswered (s : State) (e : PeerStore) (p : Packet) : State :=
  let t := (s.peerCommitted (e.committed p)).awaitDeltas e.org p
  let u := p.refusals.foldl (fun v r => v.tellOrigin e.org p.ctx r.1 r.2) t
  match e.org with
  | .gang id => (u.updHeld id (fun g => { g with pendingAcks := g.pendingAcks - 1 })).nextStrong id
  | _ => if p.count = 0 || !u.survivesFirst p.tag then u.ackColl p.tag else u

/-- The store or accumulation at a peer that a tag names. -/
def State.pendingAt (s : State) (tag : Nat) : Option PeerStore := s.peerPending.find? (fun e => e.tag == tag)

/-- It is no longer pending. -/
def State.noLonger (s : State) (tag : Nat) : State := { s with peerPending := s.peerPending.filter (fun e => e.tag != tag) }

/-- WRITE_ACK. -/
def execWriteAck (p : Packet) (s : State) : Outcome :=
  receive p (fun t =>
    match t.pendingAt p.tag with
    | some e => (t.noLonger p.tag).peerAnswered e p
    | none => t.rebuiltAcked p.tag) s

/-- The units of the slots that a tag's answer concerns leave the L1 of the gang's cluster (R155). -/
def State.dropSlots (s : State) (tag : Nat) : State :=
  match s.loadOf tag with
  | none => s
  | some l =>
    match s.gang l.gang with
    | none => s
    | some g => (l.await.filter (fun w => w.tag == tag)).foldl (fun t w => t.l1DropUnit (clusterOf g.core) w.base) s

/-- The old values of an atomic reach its load; its gang takes flags, deltas and refusals (R235, R420). -/
def State.oldValue (s : State) (p : Packet) : State :=
  let id := ((s.loadOf p.tag).map (·.gang)).getD noGang
  let t := ((s.dropSlots p.tag).awaitDeltas (.gang id) p).updHeld id (fun g => g.raise p.op)
  (p.refusals.foldl (fun u r => u.deferTo id p.ctx r.1 r.2) t).deliver p.tag p.data (fun _ => p.status != 0)

/-- ATOMIC_DATA. -/
def execAtomicData (p : Packet) (s : State) : Outcome :=
  receive p (fun t =>
    match t.pendingAt p.tag with
    | some e => (t.noLonger p.tag).peerAnswered e p
    | none => t.oldValue p) s

/-! ### Lease records (R100) -/

/-- LEASE_RECORD: a fault record of another module's lease unit joins this module's queue (R100). -/
def execLeaseRecord (p : Packet) (s : State) : Outcome :=
  receive p (fun t => { t with faultRecs := t.faultRecs ++ [FaultRec.ofBytes p.data] }.postEvent .faultRecordWrite) s

/-! ### Drain tokens (R398) -/

/-- A token goes back to whoever sent it. DEDUCED (unsafe), log entry 62. -/
def State.returnToken (s : State) (ctx m tag : Nat) : State := s.send { blankPacket s.mgmt.modid m 0x0E tag with ctx }

/-- A token is passed on behind the deltas that this module has formed for its sender's writes.
DEDUCED (unsafe), log entry 62. -/
def State.passToken (s : State) (p : Packet) (m : Nat) : State :=
  { s.send { blankPacket s.mgmt.modid m 0x0D s.fresh with ctx := p.ctx } with
    relays := s.relays ++ [(s.fresh, p.src, p.tag)], fresh := s.fresh + 1 }

/-- DRAIN_TOKEN: every packet before it has been performed; it returns, once it has gone where those packets led. -/
def execDrainToken (p : Packet) (s : State) : Outcome :=
  receive p (fun t =>
    let ms := distinct ((t.deltas.filter (fun d => !d.held && (match d.org with | .peer m _ => m == p.src | _ => false))).map (·.dest))
    if ms.isEmpty then t.returnToken p.ctx p.src p.tag else ms.foldl (fun u m => u.passToken p m) t) s

/-- A token has returned: to ctxkill, or, the last of those passed on for it, to the module that sent it. -/
def State.tokenBack (s : State) (ctx tag : Nat) : State :=
  match s.relays.find? (fun r => r.1 == tag) with
  | none => { s with tokens := s.tokens.filter (fun t => t.2 != tag) }
  | some r =>
    let t := { s with relays := s.relays.filter (fun x => x.1 != tag) }
    if t.relays.any (fun x => x.2 == r.2) then t else t.returnToken ctx r.2.1 r.2.2

/-- TOKEN_RETURN. -/
def execTokenReturn (p : Packet) (s : State) : Outcome := receive p (fun t => t.tokenBack p.ctx p.tag) s

/-! ### Formation of groups (R417) -/

/-- What a record must hold alike on every member: BASE, FRAMES, Q, N and MEMBERS; none when VALID is clear. -/
def recordFields (b : List Byte) : Option (List Nat) :=
  let le (o n : Nat) : Nat := ofBytes ((b.drop o).take n)
  if bit (le 20 1) 0 then
    some ([le 0 8, le 16 4, b2n (bit (le 20 1) 1), le 21 1] ++ (List.range (le 21 1)).map (fun i => bits (le (22 + 2 * i) 2) 0 9))
  else none

/-- A member agrees with a record; the last to agree forms it. -/
def State.agree (s : State) (r m : Nat) : State :=
  let g := s.group r
  let t := { s with agreed := if s.agreed.contains (r, m) then s.agreed else s.agreed ++ [(r, m)] }
  if g.valid then s
  else if ((g.members.take g.n).filter (· != s.mgmt.modid)).all (fun x => t.agreed.contains (r, x)) then
    { t with agreed := t.agreed.filter (fun a => a.1 != r) }.setByte (groupFlags r) (s.byte (groupFlags r) ||| 8)
  else t

/-- A member's record is compared with this module's. -/
def State.compareRecord (s : State) (r m : Nat) (b : List Byte) : State :=
  match recordFields (s.bytes (0xA00100 + 64 * r) 64) with
  | none => s
  | some mine => if recordFields b = some mine then s.agree r m else s.failGroup r

/-- A start has not reached step 7, at which records form: an exchange waits for it. -/
def State.beforeFormation (s : State) : Bool := s.mgmt.state == 1 && s.mgmt.step < 7

/-- GROUP_EXCHANGE: a request is answered with this module's record; a record that has failed elsewhere fails here (R417). -/
def execGroupExchange (p : Packet) (s : State) : Outcome :=
  receive p (fun t =>
    if 16 ≤ p.addr then t
    else if t.beforeFormation then t.postEvent (.groupExchange p)
    else if p.op = 2 then (if bit (t.group p.addr).flags 0 then t.failGroup p.addr else t)
    else (if p.op = 0 then t.sendRecord p.addr p.src 1 else t).compareRecord p.addr p.src p.data) s

/-! ### Losing a module (R341, R401, R422) -/

/-- CLOCK at which a peer was last heard. -/
def State.heardAt (s : State) (m : Nat) : Nat := sget 0 s.heard m

/-- The valid group records that name a module. -/
def State.sharedGroups (s : State) (m : Nat) : List Nat :=
  (List.range 16).filter (fun r => (s.group r).valid && ((s.group r).members.take (s.group r).n).contains m)

/-- The peer has been silent for 1 ms, and shares a valid group record with this module. -/
def State.silent (s : State) (m : Nat) : Bool :=
  !s.lost.contains m && m != s.mgmt.modid && !(s.sharedGroups m).isEmpty && s.heardAt m + 1000000 ≤ s.clock

/-- LOSTM and DEGRADED of a group record. -/
def State.degrade (s : State) (m r : Nat) : State :=
  let g := s.group r
  (s.setCells (cellsAt (0xA00100 + 64 * r + 56) (leBytes 4 (g.lostm ||| 2 ^ g.position m)))).setByte (groupFlags r)
    (s.byte (groupFlags r) ||| 4)

/-- An atomic on its way to a protected page of a lost module is declared lost, and the values that it would have returned are
free (R341). DEDUCED (unsafe), log entry 85. -/
def State.loseAtomic (s : State) (p : Packet) : State :=
  match s.loadOf p.tag with
  | none => s
  | some l =>
    ({ s with freeCtr := s.freeCtr + 1 }.updHeld l.gang (fun g => { g with lostStore := true })).deliver p.tag
      ((List.range 512).map (fun k => Config.strayByte (512 * s.freeCtr + k))) (fun _ => false)

/-- Stores and atomics homed on the lost module are declared lost: their writers wait for stores no longer (R341, R401). -/
def State.loseStores (s : State) (m : Nat) : State :=
  let acks := s.peerPending.filter (fun e => e.dest == m)
  let ds := s.deltas.filter (fun d => d.msg.src == m)
  let t := (s.out.filter (fun p => p.kind == 5 && p.dst == m && p.prot)).foldl State.loseAtomic
    { s with peerPending := s.peerPending.filter (fun e => e.dest != m), deltas := s.deltas.filter (fun d => d.msg.src != m) }
  let u := acks.foldl (fun v e =>
    match e.org with
    | .gang id => (v.updHeld id (fun g => { g with pendingAcks := g.pendingAcks - 1, lostStore := g.lostStore || e.prot })).nextStrong id
    | _ => v.ackColl e.tag) t
  ds.foldl (fun v d =>
    match d.org with
    | .gang id => v.deltaDone id true
    | .coll id => (v.ackColl d.tag).retireColl id
    | _ => v.ackColl d.tag) u

/-- Drain tokens that went to the lost module count as returned: it drops what is on its way. -/
def State.loseTokens (s : State) (m : Nat) : State :=
  ((s.out.filter (fun p => p.kind == 0x0D && p.dst == m)).filter (fun p =>
    s.tokens.any (fun t => t.2 == p.tag) || s.relays.any (fun r => r.1 == p.tag))).foldl (fun t p => t.tokenBack p.ctx p.tag) s

/-- Rebuilds that awaited the lost module begin their half-line anew. -/
def State.restartRebuilds (s : State) : State :=
  s.rebuilds.foldl (fun t b =>
    match b.stripe with
    | some f => (t.setRebuild { b with got := [], wait := [] }).postEvent (.rebuildStripe b.record f)
    | none => t) s

/-- Records with VALID set that have not formed and name a module. -/
def State.unformedWith (s : State) (m : Nat) : List Nat :=
  (List.range 16).filter (fun r => bit (s.group r).flags 0 && !(s.group r).valid && (s.otherMembers r).contains m)

/-- A module is declared lost. -/
def State.loseModule (s : State) (m : Nat) : State :=
  let a := (s.sharedGroups m).foldl (fun t r => t.degrade m r) { s with lost := s.lost ++ [m] }
  let b := a.post (residentRec 0x22 m 0 0)
  let hold (d : PendDelta) : PendDelta := if d.dest == m && d.msg.src == b.mgmt.modid then { d with held := true } else d
  let c := { b with deltas := b.deltas.map hold }
  let d := ((c.loseStores m).loseTokens m).restartRebuilds
  (d.unformedWith m).foldl State.failGroup d

/-- A member of a record that is being formed while the module runs cannot be reached: nothing has been heard of it for 1 ms
(R417). DESIGN CHOICE (unsafe), log entry 122. -/
def State.unreachable (s : State) (m : Nat) : Bool := s.mgmt.state == 2 && s.heardAt m + 1000000 ≤ s.clock

/-- PEER_LOST_TIMEOUT (R422): the peer is lost, or no record that names it can form (R417). -/
def execPeerLostTimeout (peer : Nat) (s : State) : Outcome :=
  happen (if s.silent peer then s.loseModule peer
    else if s.unreachable peer then (s.unformedWith peer).foldl State.failGroup s
    else s)

/-- Nothing has been heard on any port for 500 µs. DESIGN CHOICE (unsafe), log entry 70. -/
def State.deaf (s : State) : Bool := s.heard.foldl (fun n e => max n e.2) 0 + 500000 ≤ s.clock

/-- SELF_FENCE_TIMEOUT (R422): the module stops sending, drops the fabric writes it still holds, and halts as halt does.
DESIGN CHOICE (unsafe), log entry 70. -/
def execSelfFenceTimeout (s : State) : Outcome :=
  happen (if s.deaf then
      let t := s.liveCtxs.foldl State.killCtx s
      { t with out := s.out, tokens := [], relays := [], peerPending := [] }.stopClocks
    else s)

end Sys2Proof.Machine
end

