-- ==== Sys2Proof/Machine/Skim.lean ====
section
/-! DEFINITION. Skim passes (R20, R344, R399, R400). -/

namespace Sys2Proof.Machine

/-! ### What waits for passes (R20, R344) -/

/-- Cores still to pass, after core n passed: a pass begun before the wait counts as none. -/
def passOf (n : Nat) (cs : List Nat) : List Nat := (cs.filter (· != n)).map (fun c => if c = n + 4096 then n else c)

/-- Cores that a drysync still awaits without core n, which has gone out of service (R344). -/
def passOver (n : Nat) (cs : List Nat) : List Nat := cs.filter (fun c => c != n && c != n + 4096)

/-- A gang's drysync splits learn of a pass. -/
def Gang.skimmed (g : Gang) (f : List Nat → List Nat) (failed : Bool) : Gang :=
  { g with splits := g.splits.map (fun o => o.map (fun sp =>
      match sp.blocked with
      | some (.skim cs bad) => { sp with blocked := some (.skim (f cs) (bad || failed)) }
      | _ => sp)) }

/-- Everything that waits for passes learns of one: drysyncs, of resident and saved gangs, and, where the core passed, islands
on their way to GATED, which await every core (R20). -/
def State.skimmed (s : State) (f : List Nat → List Nat) (failed : Bool) : State :=
  { s with
    gangs := s.gangs.map (fun g => g.skimmed f failed)
    crews := s.crews.map (fun c => { c with saved := c.saved.map (fun g => g.skimmed f failed) })
    islands := s.islands.map (fun e => (e.1, { e.2 with due := if failed then e.2.due else f e.2.due })) }

/-! ### A visit (R399) -/

/-- The cores of a die in the order in which its controller comes to them. -/
def State.skimOrder (s : State) (d : Nat) : List Nat := (List.range 144).map (fun k => 144 * d + ((s.hub d).skim + k) % 144)

/-- The controller passes a core over. -/
def State.skips (s : State) (core : Nat) : Bool := (s.core core).outOfService || s.gated core

/-- A core is closed to placement, and its crews are pre-empted. DEDUCED (unsafe), log entry 68. -/
def State.closeCore (s : State) (core : Nat) : State :=
  let t := s.updCore core (fun c => { c with closed := true, passStart := s.clock })
  (((t.crewsOf core).filter (fun c => !c.preempted)).map (·.val)).foldl (State.askPreempt · true) t

/-- The controller of a die goes on to the next core that is in service and not gated. A gated core has passed for what was
issued while it was gated alone: `skimCores` leaves it out (R20). -/
def State.skimVisit (s : State) (d : Nat) : State :=
  match (s.skimOrder d).find? (fun c => !s.skips c) with
  | none => s
  | some c => (s.setHub d { s.hub d with skim := (c % 144 + 1) % 144 }).closeCore c

/-- SKIM_VISIT: one core of a die at a time. -/
def execSkimVisit (die : Nat) (s : State) : Outcome :=
  happen (if 16 ≤ die || (dieCores die).any (fun c => (s.core c).closed) then s else s.skimVisit die)

/-! ### The end of a scan (R400) -/

/-- A core passes: it is open again. DEDUCED (unsafe), log entry 68. -/
def State.corePasses (s : State) (core : Nat) : State :=
  ((s.updCore core (fun c => { c with closed := false, lastPass := c.passStart, passes := c.passes + 1 })).skimmed (passOf core) false).postEvent
    (.hubConsider (core / 144))

/-- A crew that was pre-empted for a pass that failed ends with cause 0x21; its restore is dropped. -/
def State.endSkimmed (s : State) (c : Crew) : State :=
  let t := match s.restoreTask c.val with | some k => s.dropTask k | none => s
  match c.saved.head? with
  | some g => t.faultCrew g 0x21 false 0 0 0
  | none => t

/-- A core fails: it is out of service, and its wet window is reported. -/
def State.coreFails (s : State) (core : Nat) : State :=
  let k := s.core core
  let cs := (s.crewsOf core).filter (fun c => c.preempted && k.passStart ≤ c.asked)
  let t := (s.updCore core (fun c => { c with closed := false, outOfService := true })).skimmed (passOver core) true
  (cs.foldl State.endSkimmed t).post (residentRec 0x21 core 0 k.lastPass)

/-- The scan of a core runs once its crews are saved. -/
def State.scanned (s : State) (core : Nat) : Bool := (s.core core).closed && (s.crewsOf core).all (·.preempted)

/-- SKIM_SCAN_DONE. -/
def execSkimScanDone (core : Nat) (pass : Bool) (s : State) : Outcome :=
  happen (if s.scanned core then (if pass then s.corePasses core else s.coreFails core) else s)

end Sys2Proof.Machine
end

