-- ==== Sys2Proof/Machine/Start.lean ====
section
/-! DEFINITION. The management block and the starts of the module (R410 to R413, R417, R423 to R427). -/

namespace Sys2Proof.Machine

/-! ### The resident image in the boot window (R52 to R54, R410, R424) -/

/-- Bytes of the boot window as a number. -/
def State.bootLe (s : State) (off n : Nat) : Nat := ofBytes ((List.range n).map (fun k => sget 0 s.mgmt.bootWindow (off + k)))

/-- CB of context 0 (R424). -/
def residentCb : Nat := 0x1000000

/-- An image is staged that the loader accepts and whose sections lie below virtual 0x1000_0000 (R56, R424).
DEDUCED (unsafe), log entry 23. -/
def State.bootImageOk (s : State) : Bool :=
  imageOk s.bootLe && (imageSections s.bootLe).all (fun x => residentCb + x.cbOff + x.msize ≤ 0x10000000)

/-- Bytes of the boot window. -/
def State.bootBytes (s : State) (off n : Nat) : List Byte := (List.range n).map (fun k => sget 0 s.mgmt.bootWindow (off + k))

/-- Where the trailer of the staged image begins: after the LENGTH bytes of the image (R426). -/
def State.trailerAt (s : State) : Nat := s.bootLe 56 8

/-- The digest that the trailer gives for the image. -/
def State.trailerDigest (s : State) : List Byte := s.bootBytes (s.trailerAt + 8) 64

/-- The staged resident image verifies (R426): its trailer lies in the boot window and names an operator's key slot, whose digest
is that of the trailer's public key; the image, of the length that the trailer names, has the digest it gives; and the signature
over that digest holds. DESIGN CHOICE (safe), log entry 124. -/
def State.bootVerified (s : State) : Bool :=
  let at_ := s.trailerAt
  let slot := s.bootLe (at_ + 4) 4
  let key := s.bootBytes (at_ + 72) 1952
  at_ + 8192 ≤ 0x4000000 && s.bootLe at_ 4 ≤ 0x4000000 && 1 ≤ slot && slot ≤ 4
    && Config.shake256 key == nth [] s.mgmt.fuses slot
    && Config.shake256 (s.bootBytes 0 (s.bootLe at_ 4)) == s.trailerDigest
    && Config.mlDsa65 key s.trailerDigest (s.bootBytes (at_ + 2024) 3309)

/-- Its sections are copied to cb + CBOFF, zeros beyond what the file holds (R56, R424). DEDUCED (unsafe), log entry 23. -/
def State.loadResident (s : State) : State :=
  (imageSections s.bootLe).foldl (fun t x =>
    t.setCells ((List.range x.msize).map (fun k => (residentCb + x.cbOff + k, sectionByte s.bootLe x k))))
    (s.setImage (imageOf s.bootLe 0))

/-! ### Steps of a start (R423 to R425) -/

/-- A start begins at step 1: nothing runs, no context is left; memory stands as it is until step 4, and the peers lost
are lost no longer (R422, R423). -/
def State.startAt1 (s : State) (m : Mgmt) : State :=
  { State.reset with
    mem := s.mem, poison := s.poison, errors := s.errors, gangs := [], ports := s.ports
    images := s.images.filter (fun i => i.ctx == 0), clock := s.clock, turns := s.turns, fresh := s.fresh, freeCtr := s.freeCtr
    mgmt := { m with step := 1, state := 1, verifying := false } }

/-- A cold start begins. -/
def State.beginCold (s : State) : State :=
  s.startAt1 { s.mgmt with fail := 0, kind := 1, halted := false, ttrip := false, starts := s.mgmt.starts + 1, kept_groups := [] }

/-- The group records in force, which a warm start sets aside (R417). -/
def State.groupsInForce (s : State) : List (Nat × List Byte) :=
  ((List.range 16).filter (fun r => (s.group r).valid)).map (fun r => (r, s.bytes (0xA00100 + 64 * r) 64))

/-- A warm start begins, unless a thermal trip admits none (R412). -/
def State.beginWarm (s : State) : State :=
  if s.mgmt.ttrip then s
  else s.startAt1 { s.mgmt with fail := 0, kind := 2, fell := false, kept := false, halted := false,
                                starts := s.mgmt.starts + 1, kept_groups := s.groupsInForce }

/-- COLD_START (R412, R423). -/
def execColdStart (s : State) : Outcome := happen s.beginCold

/-- WARM_START (R412, R423). -/
def execWarmStart (s : State) : Outcome := happen s.beginWarm

/-- A step fails: a warm start falls back to a cold one, and a cold one has failed (R425). -/
def State.startFails (s : State) : State :=
  if s.mgmt.kind = 2 then s.startAt1 { s.mgmt with kind := 1, fell := true, kept := false, kept_groups := [] }
  else { s with mgmt := { s.mgmt with state := 3, fail := s.mgmt.step, step := 0 } }

/-- The start goes on with the next step. -/
def State.nextStep (s : State) : State := { s with mgmt := { s.mgmt with step := s.mgmt.step + 1 } }

/-- A warm start that keeps memory. -/
def State.keepsMemory (s : State) : Bool := s.mgmt.kind == 2 && s.mgmt.retain

/-- The resident comes from the boot window. -/
def State.loadsResident (s : State) : Bool := !(s.mgmt.kind == 2 && s.mgmt.rsrc)

/-- Step 4: memory is written as zero data, or the system frames and the boot table frame alone. What step 7 leaves in
those frames stands there from now on, since nothing reads them before it. DEDUCED (unsafe), log entry 24. -/
def State.clearMemory (s : State) : State :=
  if s.keepsMemory then
    { s with
      mem := s.mem.filter (fun c => 0xE00000 ≤ c.1), poison := s.poison.filter (0xE00000 ≤ ·)
      errors := s.errors.filter (fun e => 0xE00000 ≤ e.1), mgmt := { s.mgmt with kept := true } }
  else { s with mem := [], poison := [], errors := [] }

/-- Step 6: MODULE takes MCFG.MODID; the enabled ports that trained are UP. DEDUCED (unsafe), log entry 24. -/
def State.trainPorts (s : State) (ports : BitVec 48) : State :=
  (List.range 48).foldl (fun t n => t.updPort n (fun _ =>
      { PortSt.zero with up := (ports &&& s.mgmt.porten).getLsbD n, trained := (ports &&& s.mgmt.porten).getLsbD n }))
    { s with mgmt := { s.mgmt with modid := s.mgmt.cfgModid } }

/-- Group record r as a start brings it back: set aside by a warm start, or from the group configuration; FORMED clear. -/
def State.startRecord (s : State) (r : Nat) : List Byte :=
  let b := ((s.mgmt.kept_groups.find? (fun e => e.1 == r)).map (·.2)).getD
    ((List.range 64).map (fun k => sget 0 s.mgmt.groupCfg (64 * r + k)))
  setNth b 20 (nth 0 b 20 &&& 0xF7)

/-- Step 7 begins: the records stand in the link table frame, and those with VALID set are exchanged (R417). -/
def State.beginFormation (s : State) : State :=
  let t := (List.range 16).foldl (fun u r => u.setCells (cellsAt (0xA00100 + 64 * r) (s.startRecord r))) s
  ((List.range 16).filter (fun r => bit (t.group r).flags 0)).foldl State.formGroup t

/-- Stripes of a group at which this module holds parity. -/
def State.parityStripes (s : State) (g : Group) : List Nat :=
  (List.range g.frames).filter (fun f => g.pMember f == s.mgmt.modid || (g.hasQ && g.qMember f == s.mgmt.modid))

/-- Step 7 of a warm start ends with a parity verify scrub of every group that formed (R423). -/
def State.verifyParity (s : State) : State :=
  { s with mgmt := { s.mgmt with verifying := true } }.startRebuild ((List.range 16).filter (fun r => (s.group r).valid))
    s.mgmt.modid s.mgmt.modid (fun r => s.parityStripes (s.group r))

/-- Records that have not formed lose VALID (R417). -/
def State.failUnformed (s : State) : State :=
  ((List.range 16).filter (fun r => bit (s.group r).flags 0 && !(s.group r).valid)).foldl State.failGroup s

/-- The boot table set and context record 0 (R424). -/
def State.setUpContext0 (s : State) : State :=
  let leaf (k : Nat) : Nat := 0x2FB + k * 2 ^ 21 + s.mgmt.modid * 2 ^ 51
  ((s.setCells (cellsAt 0xC00000 (leBytes 8 0xC01001) ++ cellsAt 0xC01000 (leBytes 8 0xC02001) ++ cellsAt 0xC02000 (leBytes 8 0xC03001))).setCells
    ((List.range 128).flatMap (fun k => cellsAt (0xC03000 + 8 * k) (leBytes 8 (leaf k))))).setCells
    (cellsAt 0 (leBytes 8 0x8000000000C00000 ++ leBytes 8 residentCb ++ leBytes 48 0))

/-- The resident's gang on control core 0 of die 0 (R424). -/
def State.residentGang (s : State) : Gang :=
  { Gang.start s.fresh 2304 0 0 0 (controlCrew 0) 0 64 (Split.start (dw (residentCb + s.residentImage.2)) allLanes s.residentImage.1) with
    s := [(0, dw s.mgmt.modid), (1, dw s.mgmt.kind)].filter (fun e => e.2 != 0) }

/-- After step 7: context 0, the resident, CLOCK zero, STATE 2 (R423, R424). -/
def State.finishStart (s : State) : State :=
  let a := s.failUnformed.flushLog
  let b := if a.loadsResident then a.setUpContext0.loadResident else a.setUpContext0
  { b with gangs := [b.residentGang], fresh := b.fresh + 1, clock := 0, heard := [],
           mgmt := { b.mgmt with state := 2, step := 0, kept_groups := [] } }

/-- A resident is there to be verified after step 4 of a warm start with RSRC set: one was set up before, and memory is kept.
Whether its bytes are those that were verified is the `ok` of the event. DEDUCED (unsafe), log entry 23. -/
def State.retained (s : State) : Bool := s.keepsMemory && s.images.any (fun i => i.ctx == 0)

/-- A step of a start has ended well. -/
def State.stepDone (s : State) (ports : BitVec 48) : State :=
  match s.mgmt.step with
  | 2 =>
    if !s.loadsResident then s.nextStep
    else if s.bootImageOk && s.bootVerified then { s with mgmt := { s.mgmt with resident := s.trailerDigest } }.nextStep
    else s.startFails
  | 4 => if s.loadsResident || s.retained then s.clearMemory.nextStep else s.clearMemory.startFails
  | 5 => { s with cores := [] }.nextStep
  | 6 => (s.trainPorts ports).nextStep.beginFormation
  | 7 =>
    let t := if s.mgmt.kind = 2 && !s.mgmt.verifying then s.failUnformed.flushLog.verifyParity else s
    if t.rebuilds.isEmpty then t.finishStart else t
  | _ => s.nextStep

/-- START_STEP_COMPLETE: the step in progress ends; failures of steps 6 and 7 fail no start (R425). -/
def execStartStepComplete (ok : Bool) (ports : BitVec 48) (s : State) : Outcome :=
  happen (if s.mgmt.state != 1 then s
    else if !ok && s.mgmt.step ≤ 5 then s.startFails
    else s.stepDone ports)

/-- POWER_LOSS: MCFG and the group configuration are lost; the module comes back in state off (R411, R413). -/
def execPowerLoss (s : State) : Outcome :=
  .next { State.reset with
    gangs := [], turns := s.turns, fresh := s.fresh, freeCtr := s.freeCtr
    mgmt := { Mgmt.reset with
      state := 0, kind := 0, starts := s.mgmt.starts, fuses := s.mgmt.fuses, firmware := s.mgmt.firmware, identity := s.mgmt.identity
      certificate := s.mgmt.certificate } }

/-! ### Management registers (R410 to R413, R427) -/

/-- The write of 1 that asks for a report. -/
def State.askReport (s : State) (x : Nat) : State := if x = 1 then { s with mgmt := { s.mgmt with attreq := true } } else s

/-- ATTREQ (R427). -/
def execAttreq (x : BitVec 64) (s : State) : Outcome := happen (s.askReport x.toNat)

/-- MSTAT (R411). -/
def Mgmt.mstat (m : Mgmt) : Nat :=
  m.state + 2 ^ 16 * b2n m.ttrip + 2 ^ 17 * b2n m.halted + 2 ^ 24 * b2n m.kept + 2 ^ 25 * b2n m.fell + 2 ^ 26 * m.kind
    + 2 ^ 28 * m.step + 2 ^ 32 * m.fail

/-- MCTL as it reads: KEY and START are write-only (R412). -/
def Mgmt.mctl (m : Mgmt) : Nat := 2 ^ 8 * b2n m.retain + 2 ^ 9 * b2n m.rsrc

/-- MCFG (R413). -/
def Mgmt.mcfg (m : Mgmt) : Nat := m.porten.toNat + 2 ^ 48 * m.cfgModid

/-- The byte that a read of BAR0 finds at an offset (R410). -/
def Mgmt.bar0 (m : Mgmt) (off : Nat) : Byte :=
  if off < 0x8 then lowByte (m.mstat / 2 ^ (8 * off))
  else if off < 0x10 then lowByte (m.mctl / 2 ^ (8 * (off - 0x8)))
  else if off < 0x18 then lowByte (m.mcfg / 2 ^ (8 * (off - 0x10)))
  else if 0x100 ≤ off && off < 0x140 then nth 0 m.nonce (off - 0x100)
  else if off = 0x140 then lowByte (b2n m.attreq)
  else if 0x800 ≤ off && off < 0xC00 then sget 0 m.groupCfg (off - 0x800)
  else if 0x1000 ≤ off && off < 0x3000 then nth 0 m.report (off - 0x1000)
  else if 0x4000000 ≤ off && off < 0x8000000 then sget 0 m.bootWindow (off - 0x4000000)
  else 0

/-- What a report tells before its signature, in the order in which R427 names it, digests of 64 bytes, MCFG and the count of
starts as 8-byte words. DESIGN CHOICE (unsafe), log entry 125. -/
def Mgmt.reportBody (m : Mgmt) : List Byte :=
  m.firmware ++ m.resident ++ m.fuses.flatten ++ leBytes 8 m.mcfg ++ m.nonce ++ leBytes 8 m.starts ++ m.identity ++ m.certificate

/-- ATTESTATION_REPORT: the report stands at 0x1000 with the signature that the event brings, and ATTREQ reads 0 (R427). DESIGN
CHOICE (unsafe), log entry 125. -/
def execAttestationReport (signature : List Byte) (s : State) : Outcome :=
  happen (if s.mgmt.attreq then
      { s with mgmt := { s.mgmt with report := (s.mgmt.reportBody ++ signature).take 8192, attreq := false } }
    else s)

/-- MCTL (R412): a write with another key is ignored whole. -/
def State.writeMctl (s : State) (x : Nat) : State :=
  if bits x 16 16 != 0x5A17 then s
  else
    let t := { s with mgmt := { s.mgmt with rsrc := bit x 9, retain := bit x 8 } }
    if bits x 0 2 = 1 then t.beginCold else if bits x 0 2 = 2 then t.beginWarm else t

/-- MCFG and the group configuration may be written: STATE is off or failed (R413). -/
def State.configurable (s : State) : Bool := s.mgmt.state == 0 || s.mgmt.state == 3

/-- A write of 8 bytes to a management register (R410). -/
def State.writeRegister (s : State) (off : Nat) (x : BitVec 64) : State :=
  let m := s.mgmt
  if off = 0x8 then s.writeMctl x.toNat
  else if off = 0x10 then
    (if s.configurable then { s with mgmt := { m with cfgModid := bits x.toNat 48 9, porten := x.truncate 48 } } else s)
  else if 0x100 ≤ off && off < 0x140 then
    (if m.attreq then s
     else { s with mgmt := { m with nonce := (m.nonce.take (off - 0x100) ++ leBytes 8 x.toNat ++ m.nonce.drop (off - 0x100 + 8)).take 64 } })
  else if off = 0x140 then s.askReport x.toNat
  else if 0x800 ≤ off && off < 0xC00 then
    (if s.configurable then
      { s with mgmt := { m with groupCfg := (cellsAt (off - 0x800) (leBytes 8 x.toNat)).foldl (fun g c => sput 0 g c.1 c.2) m.groupCfg } }
     else s)
  else s

/-- REGISTER_WRITE: every other offset ignores writes. -/
def execRegisterWrite (off : Nat) (x : BitVec 64) (s : State) : Outcome := happen (if off % 8 = 0 then s.writeRegister off x else s)

/-- BOOT_WINDOW_WRITE (R410): within the 64 MiB of the window. -/
def execBootWindowWrite (off : Nat) (data : List Byte) (s : State) : Outcome :=
  happen (if off + data.length ≤ 0x4000000 then
      { s with mgmt := { s.mgmt with bootWindow := (cellsAt off data).foldl (fun g c => sput 0 g c.1 c.2) s.mgmt.bootWindow } }
    else s)

end Sys2Proof.Machine
end

