-- ==== Sys2Proof/Machine/Dispatch.lean ====
section
/-! DEFINITION. Which meaning each constructor of `Instr` has: one arm each, in the order of spec/opcode_table.json. -/

namespace Sys2Proof.Machine

/-- The meaning of an instruction or event in a state. -/
def exec (i : Instr) (s : State) : Host.Outcome State Fault Refusal :=
  match i with
  | .add x1 x2 x3 => Sys2Proof.Machine.execAdd x1 x2 x3 s
  | .sub x1 x2 x3 => Sys2Proof.Machine.execSub x1 x2 x3 s
  | .and x1 x2 x3 => Sys2Proof.Machine.execAnd x1 x2 x3 s
  | .or x1 x2 x3 => Sys2Proof.Machine.execOr x1 x2 x3 s
  | .xor x1 x2 x3 => Sys2Proof.Machine.execXor x1 x2 x3 s
  | .andn x1 x2 x3 => Sys2Proof.Machine.execAndn x1 x2 x3 s
  | .sll x1 x2 x3 => Sys2Proof.Machine.execSll x1 x2 x3 s
  | .srl x1 x2 x3 => Sys2Proof.Machine.execSrl x1 x2 x3 s
  | .sra x1 x2 x3 => Sys2Proof.Machine.execSra x1 x2 x3 s
  | .rol x1 x2 x3 => Sys2Proof.Machine.execRol x1 x2 x3 s
  | .ror x1 x2 x3 => Sys2Proof.Machine.execRor x1 x2 x3 s
  | .slt x1 x2 x3 => Sys2Proof.Machine.execSlt x1 x2 x3 s
  | .sltz x1 x2 x3 => Sys2Proof.Machine.execSltz x1 x2 x3 s
  | .seq x1 x2 x3 => Sys2Proof.Machine.execSeq x1 x2 x3 s
  | .minS x1 x2 x3 => Sys2Proof.Machine.execMinS x1 x2 x3 s
  | .maxS x1 x2 x3 => Sys2Proof.Machine.execMaxS x1 x2 x3 s
  | .minZ x1 x2 x3 => Sys2Proof.Machine.execMinZ x1 x2 x3 s
  | .maxZ x1 x2 x3 => Sys2Proof.Machine.execMaxZ x1 x2 x3 s
  | .mul x1 x2 x3 => Sys2Proof.Machine.execMul x1 x2 x3 s
  | .mulhS x1 x2 x3 => Sys2Proof.Machine.execMulhS x1 x2 x3 s
  | .mulhZ x1 x2 x3 => Sys2Proof.Machine.execMulhZ x1 x2 x3 s
  | .divS x1 x2 x3 => Sys2Proof.Machine.execDivS x1 x2 x3 s
  | .divZ x1 x2 x3 => Sys2Proof.Machine.execDivZ x1 x2 x3 s
  | .remS x1 x2 x3 => Sys2Proof.Machine.execRemS x1 x2 x3 s
  | .remZ x1 x2 x3 => Sys2Proof.Machine.execRemZ x1 x2 x3 s
  | .clz x1 x2 => Sys2Proof.Machine.execClz x1 x2 s
  | .ctz x1 x2 => Sys2Proof.Machine.execCtz x1 x2 s
  | .popc x1 x2 => Sys2Proof.Machine.execPopc x1 x2 s
  | .brev x1 x2 => Sys2Proof.Machine.execBrev x1 x2 s
  | .bswap x1 x2 => Sys2Proof.Machine.execBswap x1 x2 s
  | .sextS8 x1 x2 => Sys2Proof.Machine.execSextS8 x1 x2 s
  | .sextS16 x1 x2 => Sys2Proof.Machine.execSextS16 x1 x2 s
  | .sextS32 x1 x2 => Sys2Proof.Machine.execSextS32 x1 x2 s
  | .zextZ32 x1 x2 => Sys2Proof.Machine.execZextZ32 x1 x2 s
  | .addW x1 x2 x3 => Sys2Proof.Machine.execAddW x1 x2 x3 s
  | .subW x1 x2 x3 => Sys2Proof.Machine.execSubW x1 x2 x3 s
  | .mulW x1 x2 x3 => Sys2Proof.Machine.execMulW x1 x2 x3 s
  | .addi x1 x2 x3 => Sys2Proof.Machine.execAddi x1 x2 x3 s
  | .andi x1 x2 x3 => Sys2Proof.Machine.execAndi x1 x2 x3 s
  | .ori x1 x2 x3 => Sys2Proof.Machine.execOri x1 x2 x3 s
  | .xori x1 x2 x3 => Sys2Proof.Machine.execXori x1 x2 x3 s
  | .slti x1 x2 x3 => Sys2Proof.Machine.execSlti x1 x2 x3 s
  | .sltiz x1 x2 x3 => Sys2Proof.Machine.execSltiz x1 x2 x3 s
  | .slli x1 x2 x3 => Sys2Proof.Machine.execSlli x1 x2 x3 s
  | .srli x1 x2 x3 => Sys2Proof.Machine.execSrli x1 x2 x3 s
  | .srai x1 x2 x3 => Sys2Proof.Machine.execSrai x1 x2 x3 s
  | .rori x1 x2 x3 => Sys2Proof.Machine.execRori x1 x2 x3 s
  | .slliW x1 x2 x3 => Sys2Proof.Machine.execSlliW x1 x2 x3 s
  | .srliW x1 x2 x3 => Sys2Proof.Machine.execSrliW x1 x2 x3 s
  | .sraiW x1 x2 x3 => Sys2Proof.Machine.execSraiW x1 x2 x3 s
  | .roriW x1 x2 x3 => Sys2Proof.Machine.execRoriW x1 x2 x3 s
  | .lui x1 x2 => Sys2Proof.Machine.execLui x1 x2 s
  | .addpc x1 x2 => Sys2Proof.Machine.execAddpc x1 x2 s
  | .addcb x1 x2 => Sys2Proof.Machine.execAddcb x1 x2 s
  | .ld x1 x2 x3 x4 x5 => Sys2Proof.Machine.execLd x1 x2 x3 x4 x5 s
  | .st x1 x2 x3 x4 => Sys2Proof.Machine.execSt x1 x2 x3 x4 s
  | .beqz x1 x2 => Sys2Proof.Machine.execBeqz x1 x2 s
  | .bnez x1 x2 => Sys2Proof.Machine.execBnez x1 x2 s
  | .bltz x1 x2 => Sys2Proof.Machine.execBltz x1 x2 s
  | .bgez x1 x2 => Sys2Proof.Machine.execBgez x1 x2 s
  | .bgtz x1 x2 => Sys2Proof.Machine.execBgtz x1 x2 s
  | .blez x1 x2 => Sys2Proof.Machine.execBlez x1 x2 s
  | .bany x1 x2 => Sys2Proof.Machine.execBany x1 x2 s
  | .ball x1 x2 => Sys2Proof.Machine.execBall x1 x2 s
  | .bnone x1 x2 => Sys2Proof.Machine.execBnone x1 x2 s
  | .bnall x1 x2 => Sys2Proof.Machine.execBnall x1 x2 s
  | .braD x1 x2 x3 => Sys2Proof.Machine.execBraD x1 x2 x3 s
  | .jmp x1 => Sys2Proof.Machine.execJmp x1 s
  | .call x1 => Sys2Proof.Machine.execCall x1 s
  | .nop => Sys2Proof.Machine.execNop s
  | .jr x1 => Sys2Proof.Machine.execJr x1 s
  | .jrL x1 x2 => Sys2Proof.Machine.execJrL x1 x2 s
  | .ret => Sys2Proof.Machine.execRet s
  | .exit x1 => Sys2Proof.Machine.execExit x1 s
  | .trap x1 x2 => Sys2Proof.Machine.execTrap x1 x2 s
  | .brk x1 => Sys2Proof.Machine.execBrk x1 s
  | .yield => Sys2Proof.Machine.execYield s
  | .setfmt x1 => Sys2Proof.Machine.execSetfmt x1 s
  | .getfmt x1 => Sys2Proof.Machine.execGetfmt x1 s
  | .safept x1 => Sys2Proof.Machine.execSafept x1 s
  | .barInit x1 x2 x3 => Sys2Proof.Machine.execBarInit x1 x2 x3 s
  | .barArrive x1 x2 x3 => Sys2Proof.Machine.execBarArrive x1 x2 x3 s
  | .barWait x1 x2 => Sys2Proof.Machine.execBarWait x1 x2 s
  | .barSync x1 x2 x3 => Sys2Proof.Machine.execBarSync x1 x2 x3 s
  | .barGen x1 x2 => Sys2Proof.Machine.execBarGen x1 x2 s
  | .barObs x1 => Sys2Proof.Machine.execBarObs x1 s
  | .barDrop x1 => Sys2Proof.Machine.execBarDrop x1 s
  | .cjoin x1 => Sys2Proof.Machine.execCjoin x1 s
  | .cleave x1 => Sys2Proof.Machine.execCleave x1 s
  | .cmask x1 => Sys2Proof.Machine.execCmask x1 s
  | .crank x1 => Sys2Proof.Machine.execCrank x1 s
  | .vfadd x1 x2 x3 x4 x5 => Sys2Proof.Machine.execVfadd x1 x2 x3 x4 x5 s
  | .vfsub x1 x2 x3 x4 x5 => Sys2Proof.Machine.execVfsub x1 x2 x3 x4 x5 s
  | .vfmul x1 x2 x3 x4 x5 => Sys2Proof.Machine.execVfmul x1 x2 x3 x4 x5 s
  | .vfdiv x1 x2 x3 x4 x5 => Sys2Proof.Machine.execVfdiv x1 x2 x3 x4 x5 s
  | .vfmin x1 x2 x3 x4 x5 => Sys2Proof.Machine.execVfmin x1 x2 x3 x4 x5 s
  | .vfmax x1 x2 x3 x4 x5 => Sys2Proof.Machine.execVfmax x1 x2 x3 x4 x5 s
  | .vfabs x1 x2 x3 x4 => Sys2Proof.Machine.execVfabs x1 x2 x3 x4 s
  | .vfneg x1 x2 x3 x4 => Sys2Proof.Machine.execVfneg x1 x2 x3 x4 s
  | .vffma x1 x2 x3 x4 x5 => Sys2Proof.Machine.execVffma x1 x2 x3 x4 x5 s
  | .vffms x1 x2 x3 x4 x5 => Sys2Proof.Machine.execVffms x1 x2 x3 x4 x5 s
  | .vfnma x1 x2 x3 x4 x5 => Sys2Proof.Machine.execVfnma x1 x2 x3 x4 x5 s
  | .vfnms x1 x2 x3 x4 x5 => Sys2Proof.Machine.execVfnms x1 x2 x3 x4 x5 s
  | .vfsqrt x1 x2 x3 => Sys2Proof.Machine.execVfsqrt x1 x2 x3 s
  | .vfrcp x1 x2 x3 => Sys2Proof.Machine.execVfrcp x1 x2 x3 s
  | .vfrsq x1 x2 x3 => Sys2Proof.Machine.execVfrsq x1 x2 x3 s
  | .vfexp x1 x2 x3 => Sys2Proof.Machine.execVfexp x1 x2 x3 s
  | .vflog2 x1 x2 x3 => Sys2Proof.Machine.execVflog2 x1 x2 x3 s
  | .vfcmpEq x1 x2 x3 x4 => Sys2Proof.Machine.execVfcmpEq x1 x2 x3 x4 s
  | .vfcmpNe x1 x2 x3 x4 => Sys2Proof.Machine.execVfcmpNe x1 x2 x3 x4 s
  | .vfcmpLt x1 x2 x3 x4 => Sys2Proof.Machine.execVfcmpLt x1 x2 x3 x4 s
  | .vfcmpLe x1 x2 x3 x4 => Sys2Proof.Machine.execVfcmpLe x1 x2 x3 x4 s
  | .vfcmpGt x1 x2 x3 x4 => Sys2Proof.Machine.execVfcmpGt x1 x2 x3 x4 s
  | .vfcmpGe x1 x2 x3 x4 => Sys2Proof.Machine.execVfcmpGe x1 x2 x3 x4 s
  | .vfcmpUn x1 x2 x3 x4 => Sys2Proof.Machine.execVfcmpUn x1 x2 x3 x4 s
  | .vfcmpOrd x1 x2 x3 x4 => Sys2Proof.Machine.execVfcmpOrd x1 x2 x3 x4 s
  | .vfrintNe x1 x2 x3 => Sys2Proof.Machine.execVfrintNe x1 x2 x3 s
  | .vfrintZ x1 x2 x3 => Sys2Proof.Machine.execVfrintZ x1 x2 x3 s
  | .vfrintDn x1 x2 x3 => Sys2Proof.Machine.execVfrintDn x1 x2 x3 s
  | .vfrintUp x1 x2 x3 => Sys2Proof.Machine.execVfrintUp x1 x2 x3 s
  | .vfscale x1 x2 x3 x4 => Sys2Proof.Machine.execVfscale x1 x2 x3 x4 s
  | .vfrint x1 x2 x3 => Sys2Proof.Machine.execVfrint x1 x2 x3 s
  | .vcvtSF32 x1 x2 x3 x4 => Sys2Proof.Machine.execVcvtSF32 x1 x2 x3 x4 s
  | .vcvtZF32 x1 x2 x3 x4 => Sys2Proof.Machine.execVcvtZF32 x1 x2 x3 x4 s
  | .vcvtF32S x1 x2 x3 x4 => Sys2Proof.Machine.execVcvtF32S x1 x2 x3 x4 s
  | .vcvtF32Z x1 x2 x3 x4 => Sys2Proof.Machine.execVcvtF32Z x1 x2 x3 x4 s
  | .vcvtNfF32 x1 x2 x3 x4 => Sys2Proof.Machine.execVcvtNfF32 x1 x2 x3 x4 s
  | .vcvtF32Nf x1 x2 x3 x4 => Sys2Proof.Machine.execVcvtF32Nf x1 x2 x3 x4 s
  | .vadd x1 x2 x3 x4 => Sys2Proof.Machine.execVadd x1 x2 x3 x4 s
  | .vsub x1 x2 x3 x4 => Sys2Proof.Machine.execVsub x1 x2 x3 x4 s
  | .vmul x1 x2 x3 x4 => Sys2Proof.Machine.execVmul x1 x2 x3 x4 s
  | .vmulhS32 x1 x2 x3 x4 => Sys2Proof.Machine.execVmulhS32 x1 x2 x3 x4 s
  | .vmulhZ32 x1 x2 x3 x4 => Sys2Proof.Machine.execVmulhZ32 x1 x2 x3 x4 s
  | .vand x1 x2 x3 x4 => Sys2Proof.Machine.execVand x1 x2 x3 x4 s
  | .vor x1 x2 x3 x4 => Sys2Proof.Machine.execVor x1 x2 x3 x4 s
  | .vxor x1 x2 x3 x4 => Sys2Proof.Machine.execVxor x1 x2 x3 x4 s
  | .vsll x1 x2 x3 x4 => Sys2Proof.Machine.execVsll x1 x2 x3 x4 s
  | .vsrl x1 x2 x3 x4 => Sys2Proof.Machine.execVsrl x1 x2 x3 x4 s
  | .vsra x1 x2 x3 x4 => Sys2Proof.Machine.execVsra x1 x2 x3 x4 s
  | .vminS32 x1 x2 x3 x4 => Sys2Proof.Machine.execVminS32 x1 x2 x3 x4 s
  | .vmaxS32 x1 x2 x3 x4 => Sys2Proof.Machine.execVmaxS32 x1 x2 x3 x4 s
  | .vminZ32 x1 x2 x3 x4 => Sys2Proof.Machine.execVminZ32 x1 x2 x3 x4 s
  | .vmaxZ32 x1 x2 x3 x4 => Sys2Proof.Machine.execVmaxZ32 x1 x2 x3 x4 s
  | .vaddsatS32 x1 x2 x3 x4 => Sys2Proof.Machine.execVaddsatS32 x1 x2 x3 x4 s
  | .vcmpEqZ32 x1 x2 x3 x4 => Sys2Proof.Machine.execVcmpEqZ32 x1 x2 x3 x4 s
  | .vcmpNeZ32 x1 x2 x3 x4 => Sys2Proof.Machine.execVcmpNeZ32 x1 x2 x3 x4 s
  | .vcmpLtS32 x1 x2 x3 x4 => Sys2Proof.Machine.execVcmpLtS32 x1 x2 x3 x4 s
  | .vcmpLeS32 x1 x2 x3 x4 => Sys2Proof.Machine.execVcmpLeS32 x1 x2 x3 x4 s
  | .vcmpGtS32 x1 x2 x3 x4 => Sys2Proof.Machine.execVcmpGtS32 x1 x2 x3 x4 s
  | .vcmpGeS32 x1 x2 x3 x4 => Sys2Proof.Machine.execVcmpGeS32 x1 x2 x3 x4 s
  | .vcmpLtZ32 x1 x2 x3 x4 => Sys2Proof.Machine.execVcmpLtZ32 x1 x2 x3 x4 s
  | .vcmpLeZ32 x1 x2 x3 x4 => Sys2Proof.Machine.execVcmpLeZ32 x1 x2 x3 x4 s
  | .vcmpGtZ32 x1 x2 x3 x4 => Sys2Proof.Machine.execVcmpGtZ32 x1 x2 x3 x4 s
  | .vcmpGeZ32 x1 x2 x3 x4 => Sys2Proof.Machine.execVcmpGeZ32 x1 x2 x3 x4 s
  | .vtest x1 x2 x3 x4 => Sys2Proof.Machine.execVtest x1 x2 x3 x4 s
  | .vaddScalar x1 x2 x3 x4 => Sys2Proof.Machine.execVaddScalar x1 x2 x3 x4 s
  | .vsubScalar x1 x2 x3 x4 => Sys2Proof.Machine.execVsubScalar x1 x2 x3 x4 s
  | .vmulScalar x1 x2 x3 x4 => Sys2Proof.Machine.execVmulScalar x1 x2 x3 x4 s
  | .vandScalar x1 x2 x3 x4 => Sys2Proof.Machine.execVandScalar x1 x2 x3 x4 s
  | .vorScalar x1 x2 x3 x4 => Sys2Proof.Machine.execVorScalar x1 x2 x3 x4 s
  | .vxorScalar x1 x2 x3 x4 => Sys2Proof.Machine.execVxorScalar x1 x2 x3 x4 s
  | .vsllScalar x1 x2 x3 x4 => Sys2Proof.Machine.execVsllScalar x1 x2 x3 x4 s
  | .vsrlScalar x1 x2 x3 x4 => Sys2Proof.Machine.execVsrlScalar x1 x2 x3 x4 s
  | .vsraScalar x1 x2 x3 x4 => Sys2Proof.Machine.execVsraScalar x1 x2 x3 x4 s
  | .vfaddScalar x1 x2 x3 x4 => Sys2Proof.Machine.execVfaddScalar x1 x2 x3 x4 s
  | .vfmulScalar x1 x2 x3 x4 => Sys2Proof.Machine.execVfmulScalar x1 x2 x3 x4 s
  | .vffmaScalar x1 x2 x3 x4 => Sys2Proof.Machine.execVffmaScalar x1 x2 x3 x4 s
  | .vmovScalar x1 x2 x3 => Sys2Proof.Machine.execVmovScalar x1 x2 x3 s
  | .vcmpEqScalar x1 x2 x3 x4 => Sys2Proof.Machine.execVcmpEqScalar x1 x2 x3 x4 s
  | .vcmpLtS32Scalar x1 x2 x3 x4 => Sys2Proof.Machine.execVcmpLtS32Scalar x1 x2 x3 x4 s
  | .vcmpLtZ32Scalar x1 x2 x3 x4 => Sys2Proof.Machine.execVcmpLtZ32Scalar x1 x2 x3 x4 s
  | .vaddImm x1 x2 x3 x4 => Sys2Proof.Machine.execVaddImm x1 x2 x3 x4 s
  | .vli x1 x2 x3 => Sys2Proof.Machine.execVli x1 x2 x3 s
  | .vperm x1 x2 x3 x4 => Sys2Proof.Machine.execVperm x1 x2 x3 x4 s
  | .vscanZ32 x1 x2 x3 => Sys2Proof.Machine.execVscanZ32 x1 x2 x3 s
  | .vscanF32 x1 x2 x3 => Sys2Proof.Machine.execVscanF32 x1 x2 x3 s
  | .vscanxZ32 x1 x2 x3 => Sys2Proof.Machine.execVscanxZ32 x1 x2 x3 s
  | .vredZ32 x1 x2 x3 => Sys2Proof.Machine.execVredZ32 x1 x2 x3 s
  | .vredF32 x1 x2 x3 => Sys2Proof.Machine.execVredF32 x1 x2 x3 s
  | .vsgn x1 x2 x3 => Sys2Proof.Machine.execVsgn x1 x2 x3 s
  | .vget x1 x2 x3 => Sys2Proof.Machine.execVget x1 x2 x3 s
  | .vins x1 x2 x3 x4 => Sys2Proof.Machine.execVins x1 x2 x3 x4 s
  | .vlane x1 x2 => Sys2Proof.Machine.execVlane x1 x2 s
  | .vpopc x1 x2 x3 => Sys2Proof.Machine.execVpopc x1 x2 x3 s
  | .vclz x1 x2 x3 => Sys2Proof.Machine.execVclz x1 x2 x3 s
  | .pand x1 x2 x3 => Sys2Proof.Machine.execPand x1 x2 x3 s
  | .por x1 x2 x3 => Sys2Proof.Machine.execPor x1 x2 x3 s
  | .pxor x1 x2 x3 => Sys2Proof.Machine.execPxor x1 x2 x3 s
  | .pandn x1 x2 x3 => Sys2Proof.Machine.execPandn x1 x2 x3 s
  | .pnot x1 x2 => Sys2Proof.Machine.execPnot x1 x2 s
  | .pmov x1 x2 => Sys2Proof.Machine.execPmov x1 x2 s
  | .prd x1 x2 => Sys2Proof.Machine.execPrd x1 x2 s
  | .pact x1 => Sys2Proof.Machine.execPact x1 s
  | .pcnt x1 x2 => Sys2Proof.Machine.execPcnt x1 x2 s
  | .pfirst x1 x2 => Sys2Proof.Machine.execPfirst x1 x2 s
  | .vsel x1 x2 x3 x4 x5 => Sys2Proof.Machine.execVsel x1 x2 x3 x4 x5 s
  | .vconf x1 x2 x3 => Sys2Proof.Machine.execVconf x1 x2 x3 s
  | .vkaddZ32 x1 x2 x3 x4 => Sys2Proof.Machine.execVkaddZ32 x1 x2 x3 x4 s
  | .vkaddF32 x1 x2 x3 x4 => Sys2Proof.Machine.execVkaddF32 x1 x2 x3 x4 s
  | .rebal x1 x2 x3 x4 => Sys2Proof.Machine.execRebal x1 x2 x3 x4 s
  | .vld x1 x2 x3 x4 x5 x6 => Sys2Proof.Machine.execVld x1 x2 x3 x4 x5 x6 s
  | .vst x1 x2 x3 x4 x5 x6 => Sys2Proof.Machine.execVst x1 x2 x3 x4 x5 x6 s
  | .vatswap x1 x2 x3 x4 x5 => Sys2Proof.Machine.execVatswap x1 x2 x3 x4 x5 s
  | .vatcas x1 x2 x3 x4 x5 => Sys2Proof.Machine.execVatcas x1 x2 x3 x4 x5 s
  | .vatadd x1 x2 x3 x4 x5 => Sys2Proof.Machine.execVatadd x1 x2 x3 x4 x5 s
  | .vatand x1 x2 x3 x4 x5 => Sys2Proof.Machine.execVatand x1 x2 x3 x4 x5 s
  | .vator x1 x2 x3 x4 x5 => Sys2Proof.Machine.execVator x1 x2 x3 x4 x5 s
  | .vatxor x1 x2 x3 x4 x5 => Sys2Proof.Machine.execVatxor x1 x2 x3 x4 x5 s
  | .vatsmin x1 x2 x3 x4 x5 => Sys2Proof.Machine.execVatsmin x1 x2 x3 x4 x5 s
  | .vatsmax x1 x2 x3 x4 x5 => Sys2Proof.Machine.execVatsmax x1 x2 x3 x4 x5 s
  | .vatumin x1 x2 x3 x4 x5 => Sys2Proof.Machine.execVatumin x1 x2 x3 x4 x5 s
  | .vatumax x1 x2 x3 x4 x5 => Sys2Proof.Machine.execVatumax x1 x2 x3 x4 x5 s
  | .vatfadd x1 x2 x3 x4 => Sys2Proof.Machine.execVatfadd x1 x2 x3 x4 s
  | .vatfxadd x1 x2 x3 x4 x5 => Sys2Proof.Machine.execVatfxadd x1 x2 x3 x4 x5 s
  | .vatfxaddS32 x1 x2 x3 x4 => Sys2Proof.Machine.execVatfxaddS32 x1 x2 x3 x4 s
  | .vatfxaddF16 x1 x2 x3 x4 => Sys2Proof.Machine.execVatfxaddF16 x1 x2 x3 x4 s
  | .vatfxaddBf16 x1 x2 x3 x4 => Sys2Proof.Machine.execVatfxaddBf16 x1 x2 x3 x4 s
  | .atswap x1 x2 x3 => Sys2Proof.Machine.execAtswap x1 x2 x3 s
  | .atcas x1 x2 x3 x4 => Sys2Proof.Machine.execAtcas x1 x2 x3 x4 s
  | .atadd x1 x2 x3 => Sys2Proof.Machine.execAtadd x1 x2 x3 s
  | .atand x1 x2 x3 => Sys2Proof.Machine.execAtand x1 x2 x3 s
  | .ator x1 x2 x3 => Sys2Proof.Machine.execAtor x1 x2 x3 s
  | .atxor x1 x2 x3 => Sys2Proof.Machine.execAtxor x1 x2 x3 s
  | .atsmin x1 x2 x3 => Sys2Proof.Machine.execAtsmin x1 x2 x3 s
  | .atsmax x1 x2 x3 => Sys2Proof.Machine.execAtsmax x1 x2 x3 s
  | .atumin x1 x2 x3 => Sys2Proof.Machine.execAtumin x1 x2 x3 s
  | .atumax x1 x2 x3 => Sys2Proof.Machine.execAtumax x1 x2 x3 s
  | .atfadd x1 x2 => Sys2Proof.Machine.execAtfadd x1 x2 s
  | .atfxadd x1 x2 x3 => Sys2Proof.Machine.execAtfxadd x1 x2 x3 s
  | .atfxaddS32 x1 x2 => Sys2Proof.Machine.execAtfxaddS32 x1 x2 s
  | .atfxaddF16 x1 x2 => Sys2Proof.Machine.execAtfxaddF16 x1 x2 s
  | .atfxaddBf16 x1 x2 => Sys2Proof.Machine.execAtfxaddBf16 x1 x2 s
  | .fenceAcq x1 => Sys2Proof.Machine.execFenceAcq x1 s
  | .fenceRel x1 => Sys2Proof.Machine.execFenceRel x1 s
  | .fenceFull x1 => Sys2Proof.Machine.execFenceFull x1 s
  | .fenceSv x1 => Sys2Proof.Machine.execFenceSv x1 s
  | .fenceRemote x1 => Sys2Proof.Machine.execFenceRemote x1 s
  | .qfence x1 => Sys2Proof.Machine.execQfence x1 s
  | .sealPages x1 x2 => Sys2Proof.Machine.execSealPages x1 x2 s
  | .unsealPages x1 x2 => Sys2Proof.Machine.execUnsealPages x1 x2 s
  | .drysync x1 => Sys2Proof.Machine.execDrysync x1 s
  | .pf x1 x2 => Sys2Proof.Machine.execPf x1 x2 s
  | .vpf x1 x2 x3 => Sys2Proof.Machine.execVpf x1 x2 x3 s
  | .fpush x1 x2 x3 => Sys2Proof.Machine.execFpush x1 x2 x3 s
  | .fpop x1 x2 x3 => Sys2Proof.Machine.execFpop x1 x2 x3 s
  | .copy x1 x2 x3 x4 x5 x6 x7 => Sys2Proof.Machine.execCopy x1 x2 x3 x4 x5 x6 x7 s
  | .copyAcc x1 x2 x3 x4 x5 x6 x7 => Sys2Proof.Machine.execCopyAcc x1 x2 x3 x4 x5 x6 x7 s
  | .copyChk x1 x2 x3 x4 x5 x6 x7 => Sys2Proof.Machine.execCopyChk x1 x2 x3 x4 x5 x6 x7 s
  | .copyMc x1 x2 x3 x4 x5 x6 => Sys2Proof.Machine.execCopyMc x1 x2 x3 x4 x5 x6 s
  | .mma x1 x2 x3 x4 x5 x6 => Sys2Proof.Machine.execMma x1 x2 x3 x4 x5 x6 s
  | .mmaP x1 x2 x3 x4 x5 x6 => Sys2Proof.Machine.execMmaP x1 x2 x3 x4 x5 x6 s
  | .mzero x1 => Sys2Proof.Machine.execMzero x1 s
  | .mdrain x1 x2 x3 x4 => Sys2Proof.Machine.execMdrain x1 x2 x3 x4 s
  | .mdrainT x1 x2 x3 x4 x5 => Sys2Proof.Machine.execMdrainT x1 x2 x3 x4 x5 s
  | .mtake => Sys2Proof.Machine.execMtake s
  | .mtakeF => Sys2Proof.Machine.execMtakeF s
  | .mgive => Sys2Proof.Machine.execMgive s
  | .zld x1 x2 x3 x4 => Sys2Proof.Machine.execZld x1 x2 x3 x4 s
  | .zst x1 x2 x3 x4 => Sys2Proof.Machine.execZst x1 x2 x3 x4 s
  | .rfam x1 x2 => Sys2Proof.Machine.execRfam x1 x2 s
  | .rprobe x1 x2 x3 x4 => Sys2Proof.Machine.execRprobe x1 x2 x3 x4 s
  | .rins x1 x2 x3 x4 => Sys2Proof.Machine.execRins x1 x2 x3 x4 s
  | .rdel x1 x2 x3 x4 => Sys2Proof.Machine.execRdel x1 x2 x3 x4 s
  | .rmove x1 x2 x3 x4 => Sys2Proof.Machine.execRmove x1 x2 x3 x4 s
  | .rgath x1 x2 x3 => Sys2Proof.Machine.execRgath x1 x2 x3 s
  | .rstat x1 x2 x3 x4 => Sys2Proof.Machine.execRstat x1 x2 x3 x4 s
  | .watch x1 x2 => Sys2Proof.Machine.execWatch x1 x2 s
  | .unwatch x1 x2 => Sys2Proof.Machine.execUnwatch x1 x2 s
  | .wstat x1 x2 x3 => Sys2Proof.Machine.execWstat x1 x2 x3 s
  | .qpost x1 x2 x3 => Sys2Proof.Machine.execQpost x1 x2 x3 s
  | .claim x1 x2 => Sys2Proof.Machine.execClaim x1 x2 s
  | .rinit x1 x2 => Sys2Proof.Machine.execRinit x1 x2 s
  | .sysrd x1 x2 => Sys2Proof.Machine.execSysrd x1 x2 s
  | .syswr x1 x2 => Sys2Proof.Machine.execSyswr x1 x2 s
  | .tretR => Sys2Proof.Machine.execTretR s
  | .tretS => Sys2Proof.Machine.execTretS s
  | .lease x1 x2 x3 => Sys2Proof.Machine.execLease x1 x2 x3 s
  | .unlease x1 x2 => Sys2Proof.Machine.execUnlease x1 x2 s
  | .tlbinv x1 x2 => Sys2Proof.Machine.execTlbinv x1 x2 s
  | .ctxkill x1 x2 => Sys2Proof.Machine.execCtxkill x1 x2 s
  | .halt => Sys2Proof.Machine.execHalt s
  | .wfe x1 => Sys2Proof.Machine.execWfe x1 s
  | .signal x1 x2 => Sys2Proof.Machine.execSignal x1 x2 s
  | .preempt x1 x2 => Sys2Proof.Machine.execPreempt x1 x2 s
  | .rbld x1 x2 x3 => Sys2Proof.Machine.execRbld x1 x2 x3 s
  | .hintImm x1 => Sys2Proof.Machine.execHintImm x1 s
  | .hintOrd x1 => Sys2Proof.Machine.execHintOrd x1 s
  | .hintScope x1 => Sys2Proof.Machine.execHintScope x1 s
  | .hintCache x1 => Sys2Proof.Machine.execHintCache x1 s
  | .hintSched x1 => Sys2Proof.Machine.execHintSched x1 s
  | .hintBnd x1 => Sys2Proof.Machine.execHintBnd x1 s
  | .joinArrival x1 x2 => Sys2Proof.Machine.execJoinArrival x1 x2 s
  | .reconvergenceRefill x1 x2 => Sys2Proof.Machine.execReconvergenceRefill x1 x2 s
  | .yieldExpiry x1 x2 => Sys2Proof.Machine.execYieldExpiry x1 x2 s
  | .tableWalk x1 x2 x3 => Sys2Proof.Machine.execTableWalk x1 x2 x3 s
  | .loadComplete x1 => Sys2Proof.Machine.execLoadComplete x1 s
  | .wcbIdleDrain x1 x2 => Sys2Proof.Machine.execWcbIdleDrain x1 x2 s
  | .sliceWriteCommit x1 => Sys2Proof.Machine.execSliceWriteCommit x1 s
  | .sliceRead x1 x2 x3 => Sys2Proof.Machine.execSliceRead x1 x2 x3 s
  | .watchCacheFill x1 x2 => Sys2Proof.Machine.execWatchCacheFill x1 x2 s
  | .spillRefill x1 x2 => Sys2Proof.Machine.execSpillRefill x1 x2 s
  | .nearSwap x1 => Sys2Proof.Machine.execNearSwap x1 s
  | .nearCas x1 => Sys2Proof.Machine.execNearCas x1 s
  | .nearAdd x1 => Sys2Proof.Machine.execNearAdd x1 s
  | .nearAnd x1 => Sys2Proof.Machine.execNearAnd x1 s
  | .nearOr x1 => Sys2Proof.Machine.execNearOr x1 s
  | .nearXor x1 => Sys2Proof.Machine.execNearXor x1 s
  | .nearSmin x1 => Sys2Proof.Machine.execNearSmin x1 s
  | .nearSmax x1 => Sys2Proof.Machine.execNearSmax x1 s
  | .nearUmin x1 => Sys2Proof.Machine.execNearUmin x1 s
  | .nearUmax x1 => Sys2Proof.Machine.execNearUmax x1 s
  | .nearFadd x1 => Sys2Proof.Machine.execNearFadd x1 s
  | .nearFxadd x1 => Sys2Proof.Machine.execNearFxadd x1 s
  | .nearClaim x1 => Sys2Proof.Machine.execNearClaim x1 s
  | .nearRinit x1 => Sys2Proof.Machine.execNearRinit x1 s
  | .insert x1 => Sys2Proof.Machine.execInsert x1 s
  | .delete x1 => Sys2Proof.Machine.execDelete x1 s
  | .bucketRead x1 x2 => Sys2Proof.Machine.execBucketRead x1 x2 s
  | .delta x1 => Sys2Proof.Machine.execDelta x1 s
  | .deltaAck x1 x2 => Sys2Proof.Machine.execDeltaAck x1 x2 s
  | .scrub x1 => Sys2Proof.Machine.execScrub x1 s
  | .sweepPeriodExpiry x1 => Sys2Proof.Machine.execSweepPeriodExpiry x1 s
  | .sliceStatusWrite x1 => Sys2Proof.Machine.execSliceStatusWrite x1 s
  | .bankStatusWrite x1 x2 => Sys2Proof.Machine.execBankStatusWrite x1 x2 s
  | .bankRoleChange x1 x2 => Sys2Proof.Machine.execBankRoleChange x1 x2 s
  | .bankReencode x1 x2 => Sys2Proof.Machine.execBankReencode x1 x2 s
  | .padFill x1 x2 => Sys2Proof.Machine.execPadFill x1 x2 s
  | .padEvacuate x1 x2 => Sys2Proof.Machine.execPadEvacuate x1 x2 s
  | .copySliceAssemble x1 => Sys2Proof.Machine.execCopySliceAssemble x1 s
  | .collectiveStart x1 x2 => Sys2Proof.Machine.execCollectiveStart x1 x2 s
  | .copyByteRead x1 => Sys2Proof.Machine.execCopyByteRead x1 s
  | .copyByteLanded x1 => Sys2Proof.Machine.execCopyByteLanded x1 s
  | .trowelPass x1 => Sys2Proof.Machine.execTrowelPass x1 s
  | .mmaStart x1 => Sys2Proof.Machine.execMmaStart x1 s
  | .mmaRetire x1 => Sys2Proof.Machine.execMmaRetire x1 s
  | .mdrainStart x1 => Sys2Proof.Machine.execMdrainStart x1 s
  | .mdrainRetire x1 => Sys2Proof.Machine.execMdrainRetire x1 s
  | .leaseEstablish x1 => Sys2Proof.Machine.execLeaseEstablish x1 s
  | .faultRecordWrite => Sys2Proof.Machine.execFaultRecordWrite s
  | .hubConsider x1 => Sys2Proof.Machine.execHubConsider x1 s
  | .taskAging x1 => Sys2Proof.Machine.execTaskAging x1 s
  | .coreReservation x1 => Sys2Proof.Machine.execCoreReservation x1 s
  | .hubSpillRefill x1 => Sys2Proof.Machine.execHubSpillRefill x1 s
  | .detectorScan x1 => Sys2Proof.Machine.execDetectorScan x1 s
  | .crewRestore x1 => Sys2Proof.Machine.execCrewRestore x1 s
  | .preemptSaveDone x1 => Sys2Proof.Machine.execPreemptSaveDone x1 s
  | .forerunnerTimeout x1 => Sys2Proof.Machine.execForerunnerTimeout x1 s
  | .skimVisit x1 => Sys2Proof.Machine.execSkimVisit x1 s
  | .skimScanDone x1 x2 => Sys2Proof.Machine.execSkimScanDone x1 x2 s
  | .rebuildStripe x1 x2 => Sys2Proof.Machine.execRebuildStripe x1 x2 s
  | .islctl x1 x2 => Sys2Proof.Machine.execIslctl x1 x2 s
  | .operatingPointChangeDone x1 => Sys2Proof.Machine.execOperatingPointChangeDone x1 s
  | .powerStepDown => Sys2Proof.Machine.execPowerStepDown s
  | .powerStepUp x1 => Sys2Proof.Machine.execPowerStepUp x1 s
  | .thermalStep x1 => Sys2Proof.Machine.execThermalStep x1 s
  | .thermalRecover x1 => Sys2Proof.Machine.execThermalRecover x1 s
  | .thermalTrip => Sys2Proof.Machine.execThermalTrip s
  | .wfeTimeout x1 => Sys2Proof.Machine.execWfeTimeout x1 s
  | .hostWrite x1 x2 x3 => Sys2Proof.Machine.execHostWrite x1 x2 x3 s
  | .hostRead x1 x2 x3 => Sys2Proof.Machine.execHostRead x1 x2 x3 s
  | .hostSnoop x1 x2 => Sys2Proof.Machine.execHostSnoop x1 x2 s
  | .hostAtomicCompletion x1 x2 => Sys2Proof.Machine.execHostAtomicCompletion x1 x2 s
  | .read x1 => Sys2Proof.Machine.execRead x1 s
  | .readData x1 => Sys2Proof.Machine.execReadData x1 s
  | .write x1 => Sys2Proof.Machine.execWrite x1 s
  | .writeAck x1 => Sys2Proof.Machine.execWriteAck x1 s
  | .atomic x1 => Sys2Proof.Machine.execAtomic x1 s
  | .atomicData x1 => Sys2Proof.Machine.execAtomicData x1 s
  | .leaseRecord x1 => Sys2Proof.Machine.execLeaseRecord x1 s
  | .leaseReply x1 x2 => Sys2Proof.Machine.execLeaseReply x1 x2 s
  | .rebuildQuery x1 => Sys2Proof.Machine.execRebuildQuery x1 s
  | .rebuildAnswer x1 => Sys2Proof.Machine.execRebuildAnswer x1 s
  | .drainToken x1 => Sys2Proof.Machine.execDrainToken x1 s
  | .tokenReturn x1 => Sys2Proof.Machine.execTokenReturn x1 s
  | .groupExchange x1 => Sys2Proof.Machine.execGroupExchange x1 s
  | .heartbeat x1 x2 => Sys2Proof.Machine.execHeartbeat x1 x2 s
  | .reservedPacketKind x1 x2 => Sys2Proof.Machine.execReservedPacketKind x1 x2 s
  | .heartbeatTimer => Sys2Proof.Machine.execHeartbeatTimer s
  | .flitRetransmit x1 => Sys2Proof.Machine.execFlitRetransmit x1 s
  | .portDown x1 => Sys2Proof.Machine.execPortDown x1 s
  | .peerLostTimeout x1 => Sys2Proof.Machine.execPeerLostTimeout x1 s
  | .selfFenceTimeout => Sys2Proof.Machine.execSelfFenceTimeout s
  | .coldStart => Sys2Proof.Machine.execColdStart s
  | .warmStart => Sys2Proof.Machine.execWarmStart s
  | .attreq x1 => Sys2Proof.Machine.execAttreq x1 s
  | .registerWrite x1 x2 => Sys2Proof.Machine.execRegisterWrite x1 x2 s
  | .clusterTlbHit x1 x2 x3 => Sys2Proof.Machine.execClusterTlbHit x1 x2 x3 s
  | .mzeroRetire x1 => Sys2Proof.Machine.execMzeroRetire x1 s
  | .tilePortRetire x1 => Sys2Proof.Machine.execTilePortRetire x1 s
  | .hostWriteCompletion x1 => Sys2Proof.Machine.execHostWriteCompletion x1 s
  | .cxlCacheOwnership x1 x2 => Sys2Proof.Machine.execCxlCacheOwnership x1 x2 s
  | .hostLinkTraining x1 x2 x3 => Sys2Proof.Machine.execHostLinkTraining x1 x2 x3 s
  | .bootWindowWrite x1 x2 => Sys2Proof.Machine.execBootWindowWrite x1 x2 s
  | .attestationReport x1 => Sys2Proof.Machine.execAttestationReport x1 s
  | .startStepComplete x1 x2 => Sys2Proof.Machine.execStartStepComplete x1 x2 s
  | .powerLoss => Sys2Proof.Machine.execPowerLoss s

end Sys2Proof.Machine
end

