-- ==== Sys2Proof/Machine/Scoreboard.lean ====
section
/-! DEFINITION. The scoreboard of a gang's scalar registers (R209, R221, R367): the registers that a word names, and those
that an earlier word of another split has still to write. -/

namespace Sys2Proof.Machine

/-! ### Scalar registers that a word names -/

/-- Registers of a word of major 0x01: the unary functions name no b (R246, R248). -/
def aluScalars (w : Nat) : List Nat :=
  let ab := [bits w 20 6, bits w 14 6]
  if 0x19 ≤ bits w 0 8 && bits w 0 8 ≤ 0x21 then ab else ab ++ [bits w 8 6]

/-- Registers of a word of major 0x13: ret names s63 (R214). -/
def flowScalars (w : Nat) : List Nat :=
  match bits w 22 4 with
  | 1 => bits w 16 6 :: (if bit w 9 then [bits w 10 6] else [])
  | 2 => [63]
  | 7 => [bits w 16 6]
  | 8 => [bits w 10 6]
  | _ => []

/-- Registers of a word of major 0x14. -/
def crewScalars (w : Nat) : List Nat :=
  match bits w 22 4 with
  | 0 => [bits w 12 6, bits w 6 6]
  | 1 | 2 | 3 | 4 => [bits w 12 6]
  | 8 | 9 | 10 | 11 => [bits w 16 6]
  | _ => []

/-- Registers of a word of majors 0x28 and 0x29. -/
def orderScalars (w : Nat) : List Nat :=
  match bits w 26 6, bits w 22 4 with
  | 0x28, 3 | 0x28, 8 => [bits w 10 6]
  | 0x28, 4 | 0x29, 0 | 0x29, 1 => [bits w 16 6]
  | 0x28, 6 | 0x28, 7 => [bits w 16 6, bits w 10 6]
  | _, _ => []

/-- Registers of the destination of a drain, pad or memory (R288). -/
def drainScalars (kind d : Nat) : List Nat := if kind = 1 then [d] else if kind = 2 then [d, d + 1] else []

/-- Registers of a word of major 0x2B. -/
def matrixScalars (w : Nat) : List Nat :=
  match bits w 22 4 with
  | 0 | 1 => bits w 0 6 :: ((if bit w 19 then [bits w 13 6] else []) ++ (if bit w 12 then [bits w 6 6] else []))
  | 3 => bits w 0 6 :: drainScalars (bits w 18 2) (bits w 12 6)
  | 4 => bits w 0 6 :: (drainScalars (bits w 18 2) (bits w 12 6) ++ drainScalars (bits w 18 2) (bits w 6 6))
  | 7 | 8 => [bits w 7 6, bits w 7 6 + 1]
  | _ => []

/-- Registers of a word of major 0x2C. -/
def tableScalars (w : Nat) : List Nat :=
  match bits w 22 4 with
  | 0 => [bits w 13 6]
  | 1 => [bits w 13 6, bits w 1 6]
  | 5 => [bits w 16 6, 2 * bits w 11 5, 2 * bits w 11 5 + 1, 2 * bits w 5 5]
  | 6 => [bits w 13 6, bits w 7 6]
  | _ => []

/-- Registers of a word of major 0x2D. -/
def triggerScalars (w : Nat) : List Nat :=
  match bits w 22 4 with
  | 0 | 1 | 2 => [bits w 16 6, bits w 10 6]
  | 3 => [bits w 16 6, bits w 10 6, bits w 4 6]
  | 4 => [2 * bits w 17 5, 2 * bits w 17 5 + 1, bits w 10 6]
  | 5 => bits w 10 6 :: (List.range 4).map (4 * bits w 6 4 + ·)
  | _ => []

/-- Registers of a word of major 0x2E. -/
def systemScalars (w : Nat) : List Nat :=
  match bits w 22 4 with
  | 0 | 1 | 8 => [bits w 16 6]
  | 3 | 11 => [bits w 16 6, bits w 10 6, bits w 4 6]
  | 4 | 5 | 6 | 9 | 10 => [bits w 16 6, bits w 10 6]
  | _ => []

/-- The scalar registers that a word reads or writes, by the layout of its major. DEDUCED (safe), log entry 93. -/
def wordScalars (w : Nat) : List Nat :=
  match bits w 26 6 with
  | 0x01 => aluScalars w
  | 0x02 | 0x03 | 0x04 | 0x05 | 0x06 | 0x07 | 0x08 | 0x0C | 0x0D => [bits w 20 6, bits w 14 6]
  | 0x09 | 0x0A | 0x0B => [bits w 20 6]
  | 0x0E => [bits w 16 6]
  | 0x12 => [63]
  | 0x13 => flowScalars w
  | 0x14 => crewScalars w
  | 0x1D => [bits w 8 6]
  | 0x20 => if bits w 4 4 = 7 then [bits w 20 6, bits w 8 6] else if bits w 4 4 = 8 then [bits w 14 6, bits w 8 6] else []
  | 0x21 => if 5 ≤ bits w 22 4 then [bits w 7 6] else []
  | 0x24 | 0x25 | 0x26 => [bits w 14 6]
  | 0x27 => [bits w 20 6, bits w 14 6] ++ (if bits w 4 4 = 1 then [bits w 8 6] else [])
  | 0x28 | 0x29 => orderScalars w
  | 0x2A => (List.range 4).map (bits w 16 6 + ·)
  | 0x2B => matrixScalars w
  | 0x2C => tableScalars w
  | 0x2D => triggerScalars w
  | 0x2E => systemScalars w
  | _ => []

/-- The vector registers of which a word reads lanes of other splits: va of vperm and vget (R266, R267). -/
def wordLanes (w : Nat) : List Nat := if bits w 26 6 = 0x20 && (bits w 4 4 = 0 || bits w 4 4 = 7) then [bits w 14 6] else []

/-! ### Registers still to be written -/

/-- The scalar registers that a load, an atomic or a device operation of a split writes once its replies have come. -/
def PendLoad.scalars (l : PendLoad) : List Nat :=
  if l.kind = 0 then (if l.size = 16 then [l.reg, l.reg + 1] else [l.reg])
  else if [6, 7, 10, 11].contains l.kind then [l.reg]
  else []

/-- The scalar registers of a gang that instructions of its splits other than k have still to write. -/
def State.owedScalars (s : State) (id k : Nat) : List Nat :=
  (s.loads.filter (fun l => l.gang == id && l.split != k)).flatMap PendLoad.scalars
    ++ (s.probes.filter (fun p => p.gang == id && p.split != k)).map (·.dest)

/-- The vector registers that a load or an atomic of a split writes once its replies have come (R219). -/
def PendLoad.vectors (l : PendLoad) : List Nat :=
  if l.kind = 1 then (if l.size = 8 then [l.reg, l.reg + 1] else [l.reg]) else []

/-- The vector registers of a gang of which instructions of its splits other than k have still to write lanes. -/
def State.owedVectors (s : State) (id k : Nat) : List Nat :=
  (s.loads.filter (fun l => l.gang == id && l.split != k)).flatMap PendLoad.vectors

end Sys2Proof.Machine
end

