-- ==== Sys2Proof/Machine/Upsets.lean ====
section
/-! DEFINITION. Errors that reach the machine from outside: pins of DRAM, bits of SRAM, and registers (R139, R143, R386). -/

namespace Sys2Proof.Machine

/-- Pins of a half-line fail, on top of those that have (R139). -/
def State.failPins (s : State) (h : Nat) (e : List Byte) : State :=
  let old := ((s.errors.find? (fun x => x.1 == h)).map (·.2)).getD (List.replicate 72 0)
  let new := xorPins old (e ++ List.replicate (72 - e.length) 0)
  { s with errors := s.errors.filter (fun x => x.1 != h) ++ (if (pinGroups new).isEmpty then [] else [(h, new)]) }

/-- Bits of a sector of a slice's SRAM flip, under the code that it is held in (R143). -/
def State.flipSram (s : State) (f : SectorFlaw) : State :=
  match s.sramLine (128 * (f.sector / 4)) with
  | none => s
  | some x =>
    if !x.has (f.sector % 4) then s
    else
      { s with sramFlaws := s.sramFlaws.filter (fun g => g.sector != f.sector) ++
          [{ f with code := b2n (x.code.getLsbD (f.sector % 4)) }] }

/-- n bytes that nothing fixes. -/
def State.strayNat (s : State) (n : Nat) : Nat := ofBytes ((List.range n).map (fun k => Config.strayByte (32 * s.freeCtr + k)))

/-- An error from outside happens. That an uncorrectable error of a register leaves it any value is free (R386).
DESIGN CHOICE (unsafe), log entry 74. -/
def State.upset (s : State) (u : Upset) : State :=
  match u with
  | .dram h e => if isDram h && h % 64 == 0 then s.failPins h (e.take 72) else s
  | .sram f => s.flipSram f
  | .bank c b f =>
    if c < 576 && b < 48 then
      let k := s.bank c b
      s.setBank c b { k with flaws := k.flaws.filter (fun g => g.sector != f.sector) ++ [{ f with code := sget k.code k.codes f.sector }] }
    else s
  | .transit h => if isDram h && h % 64 == 0 then s.failLine h else s
  | .scalar g n =>
    { s with freeCtr := s.freeCtr + 1 }.updGang g (fun h => if n < 64 then h.setS n (dw (s.strayNat 8)) true else h)
  | .vector g v l =>
    { s with freeCtr := s.freeCtr + 1 }.updGang g (fun h =>
      if v < h.nregs && l < 32 then h.setLane v l (w32 (s.strayNat 4)) true else h)

end Sys2Proof.Machine
end

