-- ==== Sys2Proof/Machine/Schedule.lean ====
section
/-! DEFINITION. Which agent moves next (R35, R202 to R206, R214, R367, R371, R397) and how a split fetches its word (R31,
R87, R104, R387). One step is one word issued or one event; `turns` names the order, and with none named the choice below
is made. -/

namespace Sys2Proof.Machine

/-! ### Events that wait for their condition -/

/-- A posted event may happen: its condition holds, or what it is about has gone. DESIGN CHOICE (safe), log entry 4. -/
def State.enabled (s : State) : Event → Bool
  | .joinArrival g k => s.canJoin g k
  | .yieldExpiry g k =>
    match (s.gang g).bind (fun h => h.split k) with
    | some sp => !sp.yielded || (sp.stamp + 32 ≤ s.fresh && (s.gang g).all s.clocked)
    | none => true
  | .loadComplete tag => (s.loadReady tag).isSome || !s.loads.any (fun l => l.tag == tag)
  | .copyByteRead id => (s.coll id).all s.canRead
  | .copyByteLanded id => (s.coll id).all (fun c => c.ready.isSome)
  | .collectiveStart v q => (s.nextColl v q).isSome || !s.colls.any (fun c => c.crew == v && c.queues.contains q && !c.started)
  | .mmaStart core => (s.nextMma core).isSome || (s.firstJob core isMma).isNone
  | .mmaRetire core => (s.runningMma core).isSome || !(s.core core).jobs.any (fun j => isMma j.op)
  | .mdrainStart core => (s.nextDrain core).isSome || (s.firstJob core isDrain).isNone
  | .mdrainRetire core => (s.runningDrain core).isSome || !(s.core core).jobs.any (fun j => isDrain j.op)
  | .mzeroRetire core => (s.nextReady core (· == 2)).isSome || (s.firstJob core (· == 2)).isNone
  | .tilePortRetire core => (s.nextMove core).isSome || (s.firstJob core isMove).isNone
  | .insert q => (s.retrJob true q).all s.retrReady
  | .delete q => (s.retrJob false q).all s.retrReady
  | .bucketRead t a =>
    (s.probes.filter (fun p => p.tag == t)).all (fun p => (p.todo.filter (fun e => e.2 == a)).all (s.probeReady p))
  | .trowelPass core => s.unitsRun core
  | .leaseEstablish k => s.canEstablish k
  | .faultRecordWrite => s.faultRecs.isEmpty || s.faultSlot.isSome
  | .taskAging k => s.agingDue k
  | .coreReservation k => s.reservationDue k
  | .preemptSaveDone v => s.savable v || !((s.crew v).map (·.preempting)).getD false
  | .forerunnerTimeout g => s.forerunnerDue g || !((s.gang g).bind (fun h => s.crew h.crew)).any (·.preempting)
  | .crewRestore v =>
    (match s.crew v, s.restoreTask v with
     | some c, some k => (match k.lease with | .ready _ => s.restorable c && !s.restoring v | _ => false)
     | _, _ => true)
  | .operatingPointChangeDone n => s.changeDue n
  | .bankRoleChange c b => s.bankMayLeave c b || !(s.bank c b).busy
  | .rebuildQuery p => p.op != 0 || !s.deltasOut p.addr
  | .groupExchange _ => !s.beforeFormation
  | _ => true

/-- What the host, the power supply and the management port do to a module that runs nothing (R405, R410 to R412).
DEDUCED (safe), log entry 15. -/
def Event.external : Event → Bool
  | .coldStart | .warmStart | .attreq _ | .registerWrite _ _ | .bootWindowWrite _ _ | .attestationReport _ | .powerLoss => true
  | _ => false

/-- Every clock has stopped (R405, R412). DEDUCED (safe), log entry 15. -/
def State.stoppedClocks (s : State) : Bool := s.mgmt.halted || s.mgmt.ttrip

/-! ### Splits that are ready -/

/-- No request of a FIFO that arrived before a split's own is still waiting (R164). -/
def State.fifoTurn (s : State) (g : Gang) (b : Nat) (push : Bool) : Bool :=
  match s.fifoQueue (clusterOf g.core) b push with
  | [] => true
  | w :: _ => w.1 == g.id

/-- What a blocked split waits for is there (R371); it then issues its word again, which sees for itself.
DESIGN CHOICE (safe), log entry 71. -/
def State.waitOver (s : State) (g : Gang) : Wait → Bool
  | .name b => ((s.crew g.crew).bind (fun c => c.bound b)).isSome
  | .gen b gen _ =>
    (match (s.crew g.crew).bind (fun c => c.bound b) with
     | some off => (s.bar g.crew off).gen != gen
     | none => false)
  | .slot off => !s.slotsTaken g.core g.crew off
  | .released => true
  | .trowel _ => s.holdsTrowel g || ((s.core g.core).trowel.isNone && (s.core g.core).passing.isNone)
  | .follower => (s.follower g).isSome || !s.holdsTrowel g
  | .copySlot => g.copySlot.isNone
  | .fifoPush f =>
    (match s.fifoBank (clusterOf g.core) g.ctx f with
     | some b => (s.bank (clusterOf g.core) b).fifo.length < 1024 && !(s.bank (clusterOf g.core) b).busy && s.fifoTurn g b true
     | none => true)
  | .fifoPop f =>
    (match s.fifoBank (clusterOf g.core) g.ctx f with
     | some b =>
       s.fifoTurn g b false && (match (s.bank (clusterOf g.core) b).fifo.dropWhile (fun e => e == .void) with
        | .filled _ :: _ => true
        | _ => false)
     | none => true)
  | .reply _ => false
  | .drain => !s.releaseBusy g
  | .matrix => !s.matrixBusy g && !s.retrievalBusy g
  | .survive => !s.surviveBusy g
  | .skim cs _ => cs.isEmpty
  | .event deadline => s.eventFlags.contains (clusterOf g.core) || deadline ≤ s.clock
  | .cut tags => !tags.any (fun t => s.allInFlight.contains t)
  | .quiet ctx base len => !s.rangeBusy ctx base len
  | .tokens ctx => if ctx = anyCtx then s.tokens.isEmpty else !s.tokensOut ctx
  | .saved vs => (s.saving vs).isEmpty
  | .pins die n => n ≤ s.pinsFree die
  | .unit => !s.arrayFull g.core && s.probesOpen g.core < 8
  | .lines n => s.lineReads g.core + n ≤ 128
  | .start => false

/-- The crew of a gang is being pre-empted. -/
def State.leaving (s : State) (g : Gang) : Bool := ((s.crew g.crew).map (·.preempting)).getD false

/-- A crew whose checkpoint is due stops each member at its next boundary until the shadow is taken (R389). -/
def State.awaitsShadow (s : State) (g : Gang) : Bool := ((s.crew g.crew).map (fun c => !c.ckpts.isEmpty)).getD false

/-- A split may run on: its core is not gated (R20), and neither a pre-emption nor a checkpoint of its crew is due, or it is
on its way to the end of its unit, or in forerunner mode to a safepoint (R37, R389, R397). -/
def State.mayRun (s : State) (g : Gang) (sp : Split) : Bool :=
  s.clocked g
    && (sp.midGroup || (!s.awaitsShadow g && (!s.leaving g || (s.forerunner g.ctx && g.taken.isNone))))

/-- The word at the pc of a split as a part to be located. -/
def Issue.wordPart (i : Issue) : Part := { lane := 0, first := 0, va := i.sp.pc.toNat, len := 4 }

/-- Domain physical address and leaf of the word at a split's pc: its page is valid, well formed, and executable for the
context. -/
def State.wordAt (s : State) (i : Issue) : Option Located :=
  match leafAt s i.g.ctx i.sp.pc.toNat with
  | none => none
  | some (base, _, e) =>
    if leafGrants e 4 i.g.ctx then
      some { part := i.wordPart, phys := leafPhys e base i.sp.pc.toNat, leaf := e, isSealed := false }
    else none

/-- The word fetched before from elsewhere, when it is that of the pc. -/
def Split.fetched (sp : Split) : Option Word :=
  match sp.word with
  | some (a, w) => if a = sp.pc then some w else none
  | none => none

/-- The next word of a split, where it is at hand. -/
def State.nextWord (s : State) (i : Issue) : Option Nat :=
  match i.sp.fetched with
  | some w => some w.toNat
  | none => (s.wordAt i).bind (fun p => if p.ownDram s then some (s.readLe (dpaLocal p.phys) 4) else none)

/-- Scalar registers that a word and the hint.bnd before it name. -/
def wordNames (h : Hints) (w : Nat) : List Nat := wordScalars w ++ (if h.limit.isSome then [] else h.bnd.toList)

/-- The scalar registers that the next word of a split names, and the vector registers of which it reads lanes of other
splits, are not owed by an earlier word of another split (R209, R267). -/
def State.operandsFree (s : State) (g : Gang) (k : Nat) (sp : Split) : Bool :=
  match s.owedScalars g.id k, s.owedVectors g.id k with
  | [], [] => true
  | owed, lanes => (s.nextWord { g, k, sp, act := sp.mask }).all (fun w =>
      !(wordNames sp.hints w).any owed.contains && !(wordLanes w).any lanes.contains)

/-- The split k of a gang is ready (R20, R205, R209, R291, R332, R367). -/
def State.ready (s : State) (g : Gang) (k : Nat) (sp : Split) : Bool :=
  !s.atCut g &&
  !sp.yielded && (match sp.blocked with | none => true | some w => s.waitOver g w) && g.retake.isNone
    && s.mayRun g sp && !g.topSpilled k && !g.atJoin k && s.operandsFree g k sp

/-- A ready split. -/
structure Cand where
  g : Gang
  k : Nat
  sp : Split
  deriving DecidableEq, Repr

/-- The ready splits, gang by gang. -/
def State.cands (s : State) : List Cand :=
  s.gangs.flatMap (fun g => (g.live.filter (fun p => s.ready g p.1 p.2)).map (fun p => { g, k := p.1, sp := p.2 }))

/-! ### The choice (R35, R367) -/

/-- The pipe of a gang: four pipes a core, 16 slots each. -/
def Gang.pipe (g : Gang) : Nat := 4 * g.core + g.slot / 16

/-- The first of the elements that no other comes before. -/
def bestOf {α : Type} (before : α → α → Bool) : List α → Option α
  | [] => none
  | x :: l => some (l.foldl (fun m y => if before y m then y else m) x)

/-- How recently a split issued: one whose yield is over counts as the least recent (R214). -/
def Cand.rank (c : Cand) : Nat := if c.sp.rested then 0 else c.sp.stamp + 1

/-- Its slot, then its number, is lower. -/
def Cand.lower (a b : Cand) : Bool := a.g.slot < b.g.slot || (a.g.slot == b.g.slot && a.k < b.k)

/-- It issued less recently; on a tie its slot, then its number, is lower. -/
def Cand.before (a b : Cand) : Bool := a.rank < b.rank || (a.rank == b.rank && a.lower b)

/-- It has been ready for longer; on a tie its slot, then its number, is lower. -/
def Cand.older (a b : Cand) : Bool := b.sp.age < a.sp.age || (a.sp.age == b.sp.age && a.lower b)

/-- Stamp of the latest issue on a pipe. -/
def State.pipeStamp (s : State) (p : Nat) : Nat :=
  (s.gangs.filter (fun g => g.pipe == p)).foldl (fun m g => g.live.foldl (fun n q => max n q.2.stamp) m) 0

/-- The pipe that issues next: of those with a ready split, the one that issued least recently.
DESIGN CHOICE (unsafe), log entry 14. -/
def State.nextPipe (s : State) (cs : List Cand) : Option Nat :=
  bestOf (fun p q => s.pipeStamp p < s.pipeStamp q || (s.pipeStamp p == s.pipeStamp q && p < q)) (distinct (cs.map (·.g.pipe)))

/-- Step 1 of R367: a split that has been ready for 16 × N clocks of its pipe. -/
def starving (cs : List Cand) : Option Cand := bestOf Cand.older (cs.filter (fun c => 16 * cs.length ≤ c.sp.age))

/-- Step 2 of R367: the highest class; a hold of the split that issued last; demoted splits last. -/
def State.ordinary (s : State) (p : Nat) (cs : List Cand) : Option Cand :=
  let top := cs.filter (fun c => cs.all (fun d => d.g.cls ≤ c.g.cls))
  (top.find? (fun c => c.sp.held != 0 && c.sp.stamp == s.pipeStamp p)).or
    ((bestOf Cand.before (top.filter (fun c => !c.sp.demoted))).or (bestOf Cand.before top))

/-- What a pipe issues from its ready splits (R367). -/
def State.pick (s : State) (p : Nat) (cs : List Cand) : Option Cand := (starving cs).or (s.ordinary p cs)

/-- A clock of a pipe in which it issues from one of its ready splits: the others have been ready for a clock more, and a
split that was not ready begins anew. -/
def State.pipeClock (s : State) (p : Nat) (cs : List Cand) : State :=
  { s with gangs := s.gangs.map (fun g =>
      if g.pipe == p then
        { g with splits := (List.range g.splits.length).map (fun k => (g.split k).map (fun sp =>
            { sp with age := if cs.any (fun c => c.g.id == g.id && c.k == k) then sp.age + 1 else 0 })) }
      else g) }

/-- The split that issues next, and the clock of its pipe. -/
def State.choose (s : State) : Option (Cand × State) :=
  let cs := s.cands
  (s.nextPipe cs).bind (fun p =>
    let mine := cs.filter (fun c => c.g.pipe == p)
    (s.pick p mine).map (fun c => (c, s.pipeClock p mine)))

/-- The first split that stands at its join, or needs a spilled entry (R203, R205). -/
def State.joinDue (s : State) : Option Event :=
  s.gangs.findSome? (fun g =>
    g.live.findSome? (fun p =>
      if p.2.blocked.isSome || p.2.yielded || !s.mayRun g p.2 then none
      else if g.topSpilled p.1 then (if s.refilling g.id p.1 then none else some (.reconvergenceRefill g.id p.1))
      else if g.atJoin p.1 then some (.joinArrival g.id p.1)
      else none))

/-- What a step does: nothing further, an event, or the issue of a split. -/
inductive Act where
  | idle (s : State)
  | event (e : Event) (s : State)
  | issue (g k : Nat) (s : State)
  deriving DecidableEq, Repr

/-- Removes the n-th posted event and lets it happen. -/
def State.post_ (s : State) (n : Nat) (e : Event) : Act := .event e { s with agenda := s.agenda.eraseIdx n }

/-- What a pipe issues in a clock in which some ready splits are stalled, because a unit or an operand is not free for them
(R367). DESIGN CHOICE (safe), log entry 2. -/
def State.issuable (s : State) (p : Nat) (stalled : List (Nat × Nat)) : Option (Cand × State) :=
  let mine := s.cands.filter (fun c => c.g.pipe == p && !stalled.contains (c.g.id, c.k))
  (s.pick p mine).map (fun c => (c, s.pipeClock p mine))

/-- A slice performs a request of its queue. -/
def State.serving (s : State) (k n : Nat) : Act :=
  match s.leaveQueue k n with
  | some (e, t) => .event e t
  | none => .idle s

/-- The turn that was named first is taken; one that is not possible passes. While a request waits for room at a slice, no
further one is made (R116). DESIGN CHOICE (safe), log entry 2. -/
def State.takeTurn (s : State) (t : Turn) : Act :=
  match t with
  | .time ns => if s.stoppedClocks then .idle s else .idle { s with clock := s.clock + ns }
  | .event e =>
    if Event.external e || !(s.stoppedClocks || s.crowded || !s.mayEnter e) then .event e s else .idle s
  | .linkAck port n => .idle (if port < 48 then s.linkAck port n else s)
  | .upset u => .idle (s.upset u)
  | .load ctx d => .idle (if s.stoppedClocks then s else s.loadImage ctx d)
  | .arrive e => .idle (if s.stoppedClocks then s else s.arrive e)
  | .slice k n => if s.stoppedClocks then .idle s else s.serving k n
  | .agenda n =>
    (match s.agenda[n]? with
     | some e => if s.stoppedClocks || s.crowded || !s.enabled e then .idle s else s.post_ n e
     | none => .idle s)
  | .issue p stalled =>
    if s.stoppedClocks || s.crowded then .idle s
    else match s.issuable p stalled with
      | some (c, t) => .issue c.g.id c.k t
      | none => .idle s

/-- With no turn named: the first request that a slice holds, then the first posted event that may happen, then joins, then a
ready split, then what is left to expire. -/
def State.byItself (s : State) : Act :=
  if s.stoppedClocks then .idle s
  else
    match s.servable with
    | some k => s.serving k 0
    | none =>
      match s.agenda.findIdx? s.enabled with
      | some n => (match s.agenda[n]? with | some e => s.post_ n e | none => .idle s)
      | none =>
        match s.joinDue with
        | some e => .event e s
        | none =>
          match s.choose with
          | some (c, t) => .issue c.g.id c.k t
          | none =>
            match s.agenda.findIdx? (fun e => match e with | .yieldExpiry _ _ => true | _ => false) with
            | some n => (match s.agenda[n]? with | some e => s.post_ n e | none => .idle s)
            | none => .idle s

/-- What the next step does. DESIGN CHOICE (unsafe), log entry 3. -/
def State.act (s : State) : Act :=
  match s.turns with
  | t :: ts => { s with turns := ts }.takeTurn t
  | [] => s.byItself

/-! ### Fetch (R31, R87, R104, R387) -/

/-- What the fetch of a split's next word came to. -/
inductive Fetch where
  /-- the word at its pc, and the state after the read -/
  | word (s : State) (w : Word)
  /-- no word: the state afterwards -/
  | none (s : State)
  deriving DecidableEq, Repr

/-- A word that cannot be consumed ends the hint group before it: its cause reports its own address (R387). -/
def State.dropHints (s : State) (i : Issue) : State :=
  s.updGang i.g.id (fun g => g.updSplit i.k (fun sp => { sp with hints := Hints.none }))

/-- A fetch ends in a cause of its group (R37, R381). DEDUCED (unsafe), log entry 9. -/
def State.fetchFails (s : State) (i : Issue) (c addr : Nat) : Fetch := .none (i.finish (.trap s c i.act addr))

/-- A fetched word is poisoned (R104, R387). -/
def State.fetchPoison (s : State) (i : Issue) (addr : Nat) : Fetch := (s.dropHints i).fetchFails i 0x09 addr

/-- The word of own memory at a located address, read at its slice. DEDUCED (unsafe), log entry 7. -/
def State.localWord (s : State) (i : Issue) (p : Located) : Fetch :=
  let r := s.sliceBytes (dpaLocal p.phys) 4
  if r.2.2 then r.1.fetchPoison i (halfOf p.phys) else .word r.1 (wordOfBytes r.2.1)

/-- The word of a peer or of the host: its split waits until it has come. -/
def State.remoteWord (s : State) (i : Issue) (p : Located) : Fetch :=
  let r := s.fetchPast i.g p
  if r.await.isEmpty then
    if r.poison = 0 then .word r.st (w32 (element r.got p.part.lane 4)) else r.st.fetchPoison i (halfOf p.phys)
  else
    .none (i.finish (.wait (r.st.addLoad { (blankLoad i.g.id i.k 5 0 []).from r with size := 4, faults := [(0, 0x09, halfOf p.phys)] })
      (.reply r.st.fresh)))

/-- The next word of a split. One that is not at a multiple of 4 is illegal; a page that grants no fetch ends the crew
and is machine check 11 (R104, R451). DEDUCED (unsafe), log entry 7. DESIGN CHOICE (unsafe), log entry 8. -/
def State.fetch (s : State) (i : Issue) : Fetch :=
  match i.sp.fetched with
  | some w => .word s w
  | none =>
    if i.sp.pc.toNat % 4 ≠ 0 then s.fetchFails i 0x01 0
    else
      let t := s.walked i.g.ctx i.sp.pc.toNat
      match t.wordAt i with
      | none => (t.machineCheck 11 i.sp.pc.toNat i.g.ctx).fetchFails i 0x07 i.sp.pc.toNat
      | some p => if p.ownDram t then t.localWord i p else t.remoteWord i p

/-- What issues in a step: the split that `cur` names and the fetch of its word. -/
def State.fetchAt (s : State) (g k : Nat) : Fetch :=
  match { s with cur := (g, k) }.issuer with
  | none => .none { s with cur := (g, k) }
  | some i => { s with cur := (g, k) }.fetch i

/-- A word that no row of the table has is illegal (R30, R31). DESIGN CHOICE (unsafe), log entry 8. -/
def State.illegalWord (s : State) : State :=
  match s.issuer with
  | none => s
  | some i => i.finish (.trap s 0x01 i.act 0)

/-- The word w stands where a split's next fetch finds it: in memory, or, for a page of a peer or the host, as fetched.
DESIGN CHOICE (safe), log entry 22. -/
def State.placeWord (s : State) (g k : Nat) (w : Word) : State :=
  match { s with cur := (g, k) }.issuer with
  | none => s
  | some i =>
    match s.wordAt i with
    | none => s
    | some p =>
      if i.sp.fetched.isNone && p.ownDram s then s.setCells (cellsAt (dpaLocal p.phys) (bytesOfWord w))
      else s.updGang g (fun h => h.updSplit k (fun sp => { sp with word := some (sp.pc, w) }))

end Sys2Proof.Machine
end

