-- ==== Sys2Proof/Machine/Step.lean ====
section
/-! DEFINITION. One step of the module: what `State.act` chooses happens. An issuing split's word is fetched, decoded and
executed; a word that no row of the table has raises 0x01. -/

namespace Sys2Proof.Machine

/-- A fetched word is decoded and executed. -/
noncomputable def runWord (s : State) (w : Word) : Host.Outcome State Fault Refusal :=
  match decodeWord w with
  | some i => exec i s
  | none => .next s.illegalWord

/-- One step. DESIGN CHOICE (unsafe), log entry 3. -/
noncomputable def step (s : State) : Host.Outcome State Fault Refusal :=
  match s.act with
  | .idle t => .next t
  | .event e t => t.cutHolds (some e) (exec e.toInstr t)
  | .issue g k t =>
    match t.fetchAt g k with
    | .word u w => u.cutHolds none (runWord u w)
    | .none u => .next u

/-- The state in which the next step fetches and runs the instruction w. DESIGN CHOICE (safe), log entry 22. -/
def State.withFetchWord (s : State) (_nbits w : Nat) : State :=
  match s.act with
  | .issue g k _ => s.placeWord g k (BitVec.ofNat 32 w)
  | _ => s

end Sys2Proof.Machine
end

