-- ==== Sys2Proof/Machine/Fast.lean ====
section
/-! DEFINITION. A step that compiled code can run: instructions and events are executed without a value of `Instr` beyond the
245th constructor. `step_compiled` proves it equal to `step` and tells the compiler. -/

namespace Sys2Proof

/-- The fields of an instruction from major 0x29 on are legal. -/
def High.legal (h : High) : Bool :=
  match h with
  | .pf .. => true
  | .vpf _ _ g => guardOk g
  | .fpush _ _ g => guardOk g
  | .fpop _ _ g => guardOk g
  | .copy a _ e d f s _ => a.toNat % 4 == 0 && (e != 0 || d == 0) && (f != 0 || s == 0)
  | .copyAcc a _ e d f s _ => a.toNat % 4 == 0 && (e != 0 || d == 0) && (f != 0 || s == 0)
  | .copyChk a _ e d f s _ => a.toNat % 4 == 0 && (e != 0 || d == 0) && (f != 0 || s == 0)
  | .copyMc a _ e d f s => a.toNat % 4 == 0 && (e != 0 || d == 0) && (f != 0 || s == 0)
  | .mma _ s a t b _ => tileOrPair (s == 1) a && tileOrPair (t == 1) b
  | .mmaP _ s a t b _ => tileOrPair (s == 1) a && tileOrPair (t == 1) b
  | .mzero .. => true
  | .mdrain _ k d _ => k != 3 && tileOrPair (k != 0) d
  | .mdrainT _ k d t _ => k != 3 && tileOrPair (k != 0) d && tileOrPair (k != 0) t
  | .mtake | .mtakeF | .mgive => true
  | .zld z n _ s => evenReg s && decide (z.toNat + n.toNat ≤ 15)
  | .zst z n _ s => evenReg s && decide (z.toNat + n.toNat ≤ 15)
  | .rfam .. | .rprobe .. => true
  | .rins _ _ _ g => guardOk g
  | .rdel _ _ _ g => guardOk g
  | .rmove _ _ _ g => guardOk g
  | .rgath .. => true
  | .rstat _ _ a s => s != 7 && (s == 4 || a == 0)
  | .watch .. | .unwatch .. => true
  | .wstat _ _ s => decide (s.toNat ≤ 6)
  | .qpost .. | .claim .. | .rinit .. => true
  | .sysrd _ n => sysregDefined n
  | .syswr _ n => sysregDefined n
  | .tretR | .tretS | .lease .. | .unlease .. | .tlbinv .. | .ctxkill .. | .halt | .wfe .. | .signal .. | .preempt ..
  | .rbld .. | .hintImm .. => true
  | .hintOrd o => decide (1 ≤ o.toNat ∧ o.toNat ≤ 3)
  | .hintScope s => decide (s.toNat ≤ 6)
  | .hintCache c => decide (c.toNat ≤ 4)
  | .hintSched p => decide (p.toNat ≤ 2)
  | .hintBnd .. => true

theorem High.legal_eq (h : High) : h.legal = h.toInstr.wellFormed := by cases h <;> rfl

namespace Machine

/-- The meaning of an instruction from major 0x29 on. -/
def runHigh (h : High) (s : State) : Host.Outcome State Fault Refusal :=
  match h with
  | .pf x1 x2 => execPf x1 x2 s
  | .vpf x1 x2 x3 => execVpf x1 x2 x3 s
  | .fpush x1 x2 x3 => execFpush x1 x2 x3 s
  | .fpop x1 x2 x3 => execFpop x1 x2 x3 s
  | .copy x1 x2 x3 x4 x5 x6 x7 => execCopy x1 x2 x3 x4 x5 x6 x7 s
  | .copyAcc x1 x2 x3 x4 x5 x6 x7 => execCopyAcc x1 x2 x3 x4 x5 x6 x7 s
  | .copyChk x1 x2 x3 x4 x5 x6 x7 => execCopyChk x1 x2 x3 x4 x5 x6 x7 s
  | .copyMc x1 x2 x3 x4 x5 x6 => execCopyMc x1 x2 x3 x4 x5 x6 s
  | .mma x1 x2 x3 x4 x5 x6 => execMma x1 x2 x3 x4 x5 x6 s
  | .mmaP x1 x2 x3 x4 x5 x6 => execMmaP x1 x2 x3 x4 x5 x6 s
  | .mzero x1 => execMzero x1 s
  | .mdrain x1 x2 x3 x4 => execMdrain x1 x2 x3 x4 s
  | .mdrainT x1 x2 x3 x4 x5 => execMdrainT x1 x2 x3 x4 x5 s
  | .mtake => execMtake s
  | .mtakeF => execMtakeF s
  | .mgive => execMgive s
  | .zld x1 x2 x3 x4 => execZld x1 x2 x3 x4 s
  | .zst x1 x2 x3 x4 => execZst x1 x2 x3 x4 s
  | .rfam x1 x2 => execRfam x1 x2 s
  | .rprobe x1 x2 x3 x4 => execRprobe x1 x2 x3 x4 s
  | .rins x1 x2 x3 x4 => execRins x1 x2 x3 x4 s
  | .rdel x1 x2 x3 x4 => execRdel x1 x2 x3 x4 s
  | .rmove x1 x2 x3 x4 => execRmove x1 x2 x3 x4 s
  | .rgath x1 x2 x3 => execRgath x1 x2 x3 s
  | .rstat x1 x2 x3 x4 => execRstat x1 x2 x3 x4 s
  | .watch x1 x2 => execWatch x1 x2 s
  | .unwatch x1 x2 => execUnwatch x1 x2 s
  | .wstat x1 x2 x3 => execWstat x1 x2 x3 s
  | .qpost x1 x2 x3 => execQpost x1 x2 x3 s
  | .claim x1 x2 => execClaim x1 x2 s
  | .rinit x1 x2 => execRinit x1 x2 s
  | .sysrd x1 x2 => execSysrd x1 x2 s
  | .syswr x1 x2 => execSyswr x1 x2 s
  | .tretR => execTretR s
  | .tretS => execTretS s
  | .lease x1 x2 x3 => execLease x1 x2 x3 s
  | .unlease x1 x2 => execUnlease x1 x2 s
  | .tlbinv x1 x2 => execTlbinv x1 x2 s
  | .ctxkill x1 x2 => execCtxkill x1 x2 s
  | .halt => execHalt s
  | .wfe x1 => execWfe x1 s
  | .signal x1 x2 => execSignal x1 x2 s
  | .preempt x1 x2 => execPreempt x1 x2 s
  | .rbld x1 x2 x3 => execRbld x1 x2 x3 s
  | .hintImm x1 => execHintImm x1 s
  | .hintOrd x1 => execHintOrd x1 s
  | .hintScope x1 => execHintScope x1 s
  | .hintCache x1 => execHintCache x1 s
  | .hintSched x1 => execHintSched x1 s
  | .hintBnd x1 => execHintBnd x1 s

theorem runHigh_eq (h : High) (s : State) : runHigh h s = exec h.toInstr s := by cases h <;> rfl

/-- The meaning of an event. -/
def runEvent (e : Event) (s : State) : Host.Outcome State Fault Refusal :=
  match e with
  | .joinArrival x1 x2 => execJoinArrival x1 x2 s
  | .reconvergenceRefill x1 x2 => execReconvergenceRefill x1 x2 s
  | .yieldExpiry x1 x2 => execYieldExpiry x1 x2 s
  | .tableWalk x1 x2 x3 => execTableWalk x1 x2 x3 s
  | .loadComplete x1 => execLoadComplete x1 s
  | .wcbIdleDrain x1 x2 => execWcbIdleDrain x1 x2 s
  | .sliceWriteCommit x1 => execSliceWriteCommit x1 s
  | .sliceRead x1 x2 x3 => execSliceRead x1 x2 x3 s
  | .watchCacheFill x1 x2 => execWatchCacheFill x1 x2 s
  | .spillRefill x1 x2 => execSpillRefill x1 x2 s
  | .nearSwap x1 => execNearSwap x1 s
  | .nearCas x1 => execNearCas x1 s
  | .nearAdd x1 => execNearAdd x1 s
  | .nearAnd x1 => execNearAnd x1 s
  | .nearOr x1 => execNearOr x1 s
  | .nearXor x1 => execNearXor x1 s
  | .nearSmin x1 => execNearSmin x1 s
  | .nearSmax x1 => execNearSmax x1 s
  | .nearUmin x1 => execNearUmin x1 s
  | .nearUmax x1 => execNearUmax x1 s
  | .nearFadd x1 => execNearFadd x1 s
  | .nearFxadd x1 => execNearFxadd x1 s
  | .nearClaim x1 => execNearClaim x1 s
  | .nearRinit x1 => execNearRinit x1 s
  | .insert x1 => execInsert x1 s
  | .delete x1 => execDelete x1 s
  | .bucketRead x1 x2 => execBucketRead x1 x2 s
  | .delta x1 => execDelta x1 s
  | .deltaAck x1 x2 => execDeltaAck x1 x2 s
  | .scrub x1 => execScrub x1 s
  | .sweepPeriodExpiry x1 => execSweepPeriodExpiry x1 s
  | .sliceStatusWrite x1 => execSliceStatusWrite x1 s
  | .bankStatusWrite x1 x2 => execBankStatusWrite x1 x2 s
  | .bankRoleChange x1 x2 => execBankRoleChange x1 x2 s
  | .bankReencode x1 x2 => execBankReencode x1 x2 s
  | .padFill x1 x2 => execPadFill x1 x2 s
  | .padEvacuate x1 x2 => execPadEvacuate x1 x2 s
  | .copySliceAssemble x1 => execCopySliceAssemble x1 s
  | .collectiveStart x1 x2 => execCollectiveStart x1 x2 s
  | .copyByteRead x1 => execCopyByteRead x1 s
  | .copyByteLanded x1 => execCopyByteLanded x1 s
  | .trowelPass x1 => execTrowelPass x1 s
  | .mmaStart x1 => execMmaStart x1 s
  | .mmaRetire x1 => execMmaRetire x1 s
  | .mdrainStart x1 => execMdrainStart x1 s
  | .mdrainRetire x1 => execMdrainRetire x1 s
  | .leaseEstablish x1 => execLeaseEstablish x1 s
  | .faultRecordWrite => execFaultRecordWrite s
  | .hubConsider x1 => execHubConsider x1 s
  | .taskAging x1 => execTaskAging x1 s
  | .coreReservation x1 => execCoreReservation x1 s
  | .hubSpillRefill x1 => execHubSpillRefill x1 s
  | .detectorScan x1 => execDetectorScan x1 s
  | .crewRestore x1 => execCrewRestore x1 s
  | .preemptSaveDone x1 => execPreemptSaveDone x1 s
  | .forerunnerTimeout x1 => execForerunnerTimeout x1 s
  | .skimVisit x1 => execSkimVisit x1 s
  | .skimScanDone x1 x2 => execSkimScanDone x1 x2 s
  | .rebuildStripe x1 x2 => execRebuildStripe x1 x2 s
  | .islctl x1 x2 => execIslctl x1 x2 s
  | .operatingPointChangeDone x1 => execOperatingPointChangeDone x1 s
  | .powerStepDown => execPowerStepDown s
  | .powerStepUp x1 => execPowerStepUp x1 s
  | .thermalStep x1 => execThermalStep x1 s
  | .thermalRecover x1 => execThermalRecover x1 s
  | .thermalTrip => execThermalTrip s
  | .wfeTimeout x1 => execWfeTimeout x1 s
  | .hostWrite x1 x2 x3 => execHostWrite x1 x2 x3 s
  | .hostRead x1 x2 x3 => execHostRead x1 x2 x3 s
  | .hostSnoop x1 x2 => execHostSnoop x1 x2 s
  | .hostAtomicCompletion x1 x2 => execHostAtomicCompletion x1 x2 s
  | .read x1 => execRead x1 s
  | .readData x1 => execReadData x1 s
  | .write x1 => execWrite x1 s
  | .writeAck x1 => execWriteAck x1 s
  | .atomic x1 => execAtomic x1 s
  | .atomicData x1 => execAtomicData x1 s
  | .leaseRecord x1 => execLeaseRecord x1 s
  | .leaseReply x1 x2 => execLeaseReply x1 x2 s
  | .rebuildQuery x1 => execRebuildQuery x1 s
  | .rebuildAnswer x1 => execRebuildAnswer x1 s
  | .drainToken x1 => execDrainToken x1 s
  | .tokenReturn x1 => execTokenReturn x1 s
  | .groupExchange x1 => execGroupExchange x1 s
  | .heartbeat x1 x2 => execHeartbeat x1 x2 s
  | .reservedPacketKind x1 x2 => execReservedPacketKind x1 x2 s
  | .heartbeatTimer => execHeartbeatTimer s
  | .flitRetransmit x1 => execFlitRetransmit x1 s
  | .portDown x1 => execPortDown x1 s
  | .peerLostTimeout x1 => execPeerLostTimeout x1 s
  | .selfFenceTimeout => execSelfFenceTimeout s
  | .coldStart => execColdStart s
  | .warmStart => execWarmStart s
  | .attreq x1 => execAttreq x1 s
  | .registerWrite x1 x2 => execRegisterWrite x1 x2 s
  | .clusterTlbHit x1 x2 x3 => execClusterTlbHit x1 x2 x3 s
  | .mzeroRetire x1 => execMzeroRetire x1 s
  | .tilePortRetire x1 => execTilePortRetire x1 s
  | .hostWriteCompletion x1 => execHostWriteCompletion x1 s
  | .cxlCacheOwnership x1 x2 => execCxlCacheOwnership x1 x2 s
  | .hostLinkTraining x1 x2 x3 => execHostLinkTraining x1 x2 x3 s
  | .bootWindowWrite x1 x2 => execBootWindowWrite x1 x2 s
  | .attestationReport x1 => execAttestationReport x1 s
  | .startStepComplete x1 x2 => execStartStepComplete x1 x2 s
  | .powerLoss => execPowerLoss s

theorem runEvent_eq (e : Event) (s : State) : runEvent e s = exec e.toInstr s := by cases e <;> rfl

/-- A fetched word is decoded and executed. -/
def runWordC (s : State) (w : Word) : Host.Outcome State Fault Refusal :=
  match decodeHigh w.toNat with
  | some h => if h.legal then runHigh h s else .next s.illegalWord
  | none =>
    match decodeLow w.toNat with
    | some i => if i.wellFormed then exec i s else .next s.illegalWord
    | none => .next s.illegalWord

theorem runWordC_eq (s : State) (w : Word) : runWordC s w = runWord s w := by
  unfold runWordC runWord decodeWord decodeRow
  cases decodeHigh w.toNat with
  | some h => simp only [runHigh_eq, High.legal_eq]; split <;> simp_all
  | none => cases decodeLow w.toNat with
    | none => rfl
    | some i => simp only; split <;> simp_all

/-- One step. -/
def stepC (s : State) : Host.Outcome State Fault Refusal :=
  match s.act with
  | .idle t => .next t
  | .event e t => t.cutHolds (some e) (runEvent e t)
  | .issue g k t =>
    match t.fetchAt g k with
    | .word u w => u.cutHolds none (runWordC u w)
    | .none u => .next u

@[csimp] theorem step_compiled : @step = @stepC := by
  funext s
  simp only [step, stepC, runWordC_eq, runEvent_eq] <;> rfl

end Machine

end Sys2Proof
end

