-- ==== Sys2Proof/Safety.lean ====
section
/-! DEFINITION. What the claims are said in: a step and a run that neither fault nor refuse, the invariant of memory, a
state with nothing left over, and what an instruction leaves as it was. -/

namespace Sys2Proof.Machine

/-! ### Runs -/

/-- A step goes to a next state. -/
def Steps (s t : State) : Prop := step s = .next t

/-- n steps, each to a next state. -/
def Runs : Nat → State → State → Prop
  | 0, s, t => s = t
  | n + 1, s, t => ∃ u, Steps s u ∧ Runs n u t

/-- A safe run: no step of it faults or is refused. -/
def SafeFor (n : Nat) (s : State) : Prop := ∃ t, Runs n s t

/-- What every step keeps: memory in its canonical form. -/
def State.Inv (s : State) : Prop := Memory.wf s.mem = true

/-! ### What is there before an instruction and after it -/

/-- Nothing is left over: no cause to be taken, no record to be written, no checkpoint due. -/
def State.Quiet (s : State) : Prop := s.raises = [] ∧ s.logQueue = [] ∧ ∀ c ∈ s.crews, c.ckpts = []

/-- A split after it has issued at a stamp and gone on at an address: its hint group is done, and no wait, no yield and no
retry is left (R35, R37, R367). -/
def Issue.after (i : Issue) (stamp : Nat) (pc : DWord) : Split :=
  { i.sp with
    pc, hints := Hints.none, stamp, rested := false, age := 0, blocked := none, yielded := false, retry := none, word := none
    demoted := i.sp.hints.sched == some 1
    held := if i.sp.hints.sched = some 2 then (if i.sp.held = 0 then 3 else i.sp.held - 1) else 0 }

/-- Nothing but the gang of an identity and the counter of stamps has changed: no memory, no crew, no other gang. -/
def State.OnlyGang (s t : State) (id : Nat) : Prop :=
  { t with gangs := s.gangs, fresh := s.fresh } = s ∧ ∀ j, j ≠ id → t.gang j = s.gang j

/-- The issuing gang is now h, its split is now q, its other splits are as they were, and nothing else of the machine has
changed. -/
structure Performed (s t : State) (i : Issue) (q : Split) (h : Gang) : Prop where
  gang : t.gang i.g.id = some h
  rest : s.OnlyGang t i.g.id
  here : h.split i.k = some q
  others : ∀ k, k ≠ i.k → h.split k = i.g.split k

/-- A gang changed in nothing but scalar d, now x with a poison mark or none, and its splits. -/
structure Gang.WroteS (g h : Gang) (d : Nat) (x : DWord) (mark : Bool) : Prop where
  rest : { h with s := g.s, sPoison := g.sPoison, splits := g.splits } = g
  value : ∀ n, h.sreg n = if n = d then x else g.sreg n
  marks : ∀ n, n < 64 → h.smark n = if n = d then mark else g.smark n

/-- A gang changed in nothing but the lanes m of vector register d, which hold f and the marks of pf, its flags, to which
some were added, and its splits. -/
structure Gang.WroteV (g h : Gang) (d : Nat) (m : Mask) (f : Nat → Word) (pf : Nat → Bool) (flags : Nat) : Prop where
  rest : { h with v := g.v, vPoison := g.vPoison, fst := g.fst, splits := g.splits } = g
  value : ∀ r l, l < 32 → h.vlane r l = if r = d ∧ m.getLsbD l = true then f l else g.vlane r l
  marks : ∀ r l, l < 32 → (h.vmarks r).getLsbD l = if r = d ∧ m.getLsbD l = true then pf l else (g.vmarks r).getLsbD l
  flags : h.fst = g.fst ||| w32 flags

/-- A gang changed in nothing but the lanes m of predicate register d, which take the bits of x, its flags, and its splits;
p0 keeps reading all ones (R39, R40). -/
structure Gang.WroteP (g h : Gang) (d : Nat) (m x : Mask) (flags : Nat) : Prop where
  rest : { h with p := g.p, fst := g.fst, splits := g.splits } = g
  value : ∀ n, h.preg n = if n = d ∧ d ≠ 0 then (g.preg n &&& ~~~ m) ||| (x &&& m) else g.preg n
  flags : h.fst = g.fst ||| w32 flags

/-- A gang changed in nothing but its splits. -/
def Gang.Same (g h : Gang) : Prop := { h with splits := g.splits } = g

/-- The split stands in its handler: it has taken a cause (R381). -/
structure Split.Trapped (sp q : Split) (c : Nat) (lanes : Mask) (addr : Nat) (handler : DWord) : Prop where
  cause : q.cause = BitVec.ofNat 8 c
  glen : q.glen = sp.hints.words
  pc : q.trapPc = sp.firstPc
  lanes : q.trapLanes = lanes
  addr : q.trapAddr = dw addr
  mode : q.hm = true
  at_ : q.pc = handler
  rest : q.mask = sp.mask ∧ q.fmt = sp.fmt ∧ q.top = sp.top

end Sys2Proof.Machine
end

