-- ==== Sys2Proof/Certificates/Slice0/Obligations.lean ====
section
/-! DEFINITION. The statements about this model, each one proposition. The tables beside them give, instruction by
instruction, what the reference's tables give. -/

namespace Sys2Proof.Claims

open Sys2Proof.Machine

/-! ### The reference's tables of results -/

/-- No hint word but hint.sched stands before the instruction (R32, R33). -/
def Plain (h : Hints) : Prop := h.imms = [] ∧ h.ord = none ∧ h.scope = none ∧ h.cache = none ∧ h.bnd = none

/-- The same, and as many hint.imm words as an instruction accepts (R33, R34). -/
def PlainImm (n : Nat) (h : Hints) : Prop :=
  h.imms.length ≤ n ∧ h.ord = none ∧ h.scope = none ∧ h.cache = none ∧ h.bnd = none

/-- A split issues: nothing is left over from before, and only hint.sched stands before its word. -/
structure Ready (s : State) (i : Issue) : Prop where
  issuer : s.issuer = some i
  quiet : s.Quiet
  hints : Plain i.sp.hints

/-- An immediate of n bits below the payloads of its hint.imm words, sign-extended (R34). -/
def widened (n : Nat) (l : List (BitVec 22)) (x : Nat) : DWord :=
  match l with
  | [] => (BitVec.ofNat n x).signExtend 64
  | [a] => (BitVec.ofNat (n + 22) (a.toNat * 2 ^ n + x)).signExtend 64
  | a :: b :: _ => (BitVec.ofNat (n + 44) ((a.toNat * 2 ^ 22 + b.toNat) * 2 ^ n + x)).signExtend 64

/-- Two sources (R246): the table of major 0x01. -/
def scalarThree : List ((BitVec 6 → BitVec 6 → BitVec 6 → Instr) × (DWord → DWord → DWord)) :=
  [(.add, fun x y => x + y), (.sub, fun x y => x - y), (.and, fun x y => x &&& y), (.or, fun x y => x ||| y),
   (.xor, fun x y => x ^^^ y), (.andn, fun x y => x &&& ~~~ y),
   (.sll, fun x y => x <<< (y.toNat % 64)), (.srl, fun x y => x >>> (y.toNat % 64)),
   (.sra, fun x y => x.sshiftRight (y.toNat % 64)), (.rol, fun x y => x.rotateLeft (y.toNat % 64)),
   (.ror, fun x y => x.rotateRight (y.toNat % 64)),
   (.slt, fun x y => if x.toInt < y.toInt then 1 else 0), (.sltz, fun x y => if x.toNat < y.toNat then 1 else 0),
   (.seq, fun x y => if x = y then 1 else 0),
   (.minS, fun x y => if x.toInt ≤ y.toInt then x else y), (.maxS, fun x y => if x.toInt ≤ y.toInt then y else x),
   (.minZ, fun x y => if x.toNat ≤ y.toNat then x else y), (.maxZ, fun x y => if x.toNat ≤ y.toNat then y else x),
   (.mul, fun x y => BitVec.ofNat 64 (x.toNat * y.toNat)), (.mulhS, fun x y => BitVec.ofInt 64 (x.toInt * y.toInt / 2 ^ 64)),
   (.mulhZ, fun x y => BitVec.ofNat 64 (x.toNat * y.toNat / 2 ^ 64)),
   (.addW, fun x y => (BitVec.ofNat 32 (x.toNat + y.toNat)).signExtend 64),
   (.subW, fun x y => (BitVec.ofInt 32 (x.toInt - y.toInt)).signExtend 64),
   (.mulW, fun x y => (BitVec.ofNat 32 (x.toNat * y.toNat)).signExtend 64)]

/-- The four divisions by the cases of R247. -/
def divisions : List ((BitVec 6 → BitVec 6 → BitVec 6 → Instr) × (DWord → DWord → DWord)) :=
  [(.divS, fun x y => if y = 0 then 0xFFFFFFFFFFFFFFFF else BitVec.ofInt 64 (x.toInt.tdiv y.toInt)),
   (.divZ, fun x y => if y = 0 then 0xFFFFFFFFFFFFFFFF else BitVec.ofNat 64 (x.toNat / y.toNat)),
   (.remS, fun x y => if y = 0 then x else BitVec.ofInt 64 (x.toInt.tmod y.toInt)),
   (.remZ, fun x y => if y = 0 then x else BitVec.ofNat 64 (x.toNat % y.toNat))]

/-- How many of a count of bits hold, from bit 0 on. -/
def countBits (n : Nat) (f : Nat → Bool) : Nat := ((List.range n).filter f).length

/-- One source (R246). -/
def scalarTwo : List ((BitVec 6 → BitVec 6 → Instr) × (DWord → DWord)) :=
  [(.clz, fun x => BitVec.ofNat 64 (countBits 64 (fun k => decide (x.toNat < 2 ^ (63 - k))))),
   (.ctz, fun x => BitVec.ofNat 64 (countBits 64 (fun k => decide (x.toNat % 2 ^ (k + 1) = 0)))),
   (.popc, fun x => BitVec.ofNat 64 (countBits 64 (fun k => x.getLsbD k))), (.brev, fun x => x.reverse),
   (.bswap, fun x => (x.extractLsb' 0 8 ++ x.extractLsb' 8 8 ++ x.extractLsb' 16 8 ++ x.extractLsb' 24 8
     ++ x.extractLsb' 32 8 ++ x.extractLsb' 40 8 ++ x.extractLsb' 48 8 ++ x.extractLsb' 56 8)),
   (.sextS8, fun x => (x.truncate 8).signExtend 64), (.sextS16, fun x => (x.truncate 16).signExtend 64),
   (.sextS32, fun x => (x.truncate 32).signExtend 64), (.zextZ32, fun x => (x.truncate 32).zeroExtend 64)]

/-- Shifts by an immediate (R249), of 64 bits and of 32. -/
def shiftsSix : List ((BitVec 6 → BitVec 6 → BitVec 6 → Instr) × (DWord → Nat → DWord)) :=
  [(.slli, fun x n => x <<< n), (.srli, fun x n => x >>> n), (.srai, fun x n => x.sshiftRight n),
   (.rori, fun x n => x.rotateRight n)]

def shiftsFive : List ((BitVec 6 → BitVec 6 → BitVec 5 → Instr) × (BitVec 32 → Nat → BitVec 32)) :=
  [(.slliW, fun x n => x <<< n), (.srliW, fun x n => x >>> n), (.sraiW, fun x n => x.sshiftRight n),
   (.roriW, fun x n => x.rotateRight n)]

/-- An immediate operand (R248). -/
def immediates : List ((BitVec 6 → BitVec 6 → BitVec 14 → Instr) × (DWord → DWord → DWord)) :=
  [(.addi, fun x y => x + y), (.andi, fun x y => x &&& y), (.ori, fun x y => x ||| y), (.xori, fun x y => x ^^^ y),
   (.slti, fun x y => if x.toInt < y.toInt then 1 else 0), (.sltiz, fun x y => if x.toNat < y.toNat then 1 else 0)]

/-- The instruction writes scalar d with x, poisoned or not, and goes on with the next word; nothing else changes. -/
def WritesScalar (n : Instr) (s : State) (i : Issue) (d : BitVec 6) (x : DWord) (mark : Bool) : Prop :=
  ∃ t h, exec n s = .next t ∧ Performed s t i (i.after s.fresh (i.sp.pc + 4)) h ∧ i.g.WroteS h d.toNat x mark

end Sys2Proof.Claims

open Sys2Proof Sys2Proof.Machine Sys2Proof.Claims

/-- R246: the two-source scalar instructions but for the divisions. A poisoned source poisons the result (R243). -/
def Sys2Proof.Claims.ScalarTwoSourceResults : Prop :=
  ∀ p ∈ scalarThree, ∀ (d a b : BitVec 6) (s : State) (i : Issue), Ready s i →
    WritesScalar (p.1 d a b) s i d (p.2 (i.g.sreg a.toNat) (i.g.sreg b.toNat))
      (i.g.smark a.toNat || i.g.smark b.toNat)

/-- R247: division never traps, and its results in every case. -/
def Obligations.ScalarDivisionResults : Prop :=
  ∀ p ∈ divisions, ∀ (d a b : BitVec 6) (s : State) (i : Issue), Ready s i →
    WritesScalar (p.1 d a b) s i d (p.2 (i.g.sreg a.toNat) (i.g.sreg b.toNat))
      (i.g.smark a.toNat || i.g.smark b.toNat)

/-- R246, R249: the one-source scalar instructions and the shifts by an immediate. -/
def Sys2Proof.Claims.ScalarOneSourceResults : Prop :=
  (∀ p ∈ scalarTwo, ∀ (d a : BitVec 6) (s : State) (i : Issue), Ready s i →
    WritesScalar (p.1 d a) s i d (p.2 (i.g.sreg a.toNat)) (i.g.smark a.toNat)) ∧
  (∀ p ∈ shiftsSix, ∀ (d a n : BitVec 6) (s : State) (i : Issue), Ready s i →
    WritesScalar (p.1 d a n) s i d (p.2 (i.g.sreg a.toNat) n.toNat) (i.g.smark a.toNat)) ∧
  (∀ p ∈ shiftsFive, ∀ (d a : BitVec 6) (n : BitVec 5) (s : State) (i : Issue), Ready s i →
    WritesScalar (p.1 d a n) s i d ((p.2 ((i.g.sreg a.toNat).truncate 32) n.toNat).signExtend 64) (i.g.smark a.toNat))

/-- R34, R43, R248, R250: an immediate is widened by up to two hint.imm words; addpc adds the address of its own word,
addcb the context base. -/
def Obligations.ScalarImmediateResults : Prop :=
  (∀ p ∈ immediates, ∀ (d a : BitVec 6) (x : BitVec 14) (s : State) (i : Issue),
    s.issuer = some i → s.Quiet → PlainImm 2 i.sp.hints →
    WritesScalar (p.1 d a x) s i d (p.2 (i.g.sreg a.toNat) (widened 14 i.sp.hints.imms x.toNat)) (i.g.smark a.toNat)) ∧
  (∀ (d : BitVec 6) (x : BitVec 20) (s : State) (i : Issue), s.issuer = some i → s.Quiet → PlainImm 2 i.sp.hints →
    WritesScalar (.lui d x) s i d (BitVec.ofNat 64 ((widened 20 i.sp.hints.imms x.toNat).toNat * 2 ^ 12)) false ∧
    WritesScalar (.addpc d x) s i d (i.sp.pc + widened 20 i.sp.hints.imms x.toNat) false ∧
    WritesScalar (.addcb d x) s i d (BitVec.ofNat 64 (s.ctxCb i.g.ctx) + widened 20 i.sp.hints.imms x.toNat) false)

/-- R246, R249: scalar instructions with registers alone, but for the divisions, and shifts by an immediate. A poisoned source
poisons the result (R243). -/
def Obligations.ScalarRegisterResults : Prop := Claims.ScalarTwoSourceResults ∧ Claims.ScalarOneSourceResults


namespace Sys2Proof.Claims

/-! ### Where a split goes on -/

/-- The instruction sends its split to an address, and nothing else changes. -/
def GoesTo (n : Instr) (s : State) (i : Issue) (pc : DWord) : Prop :=
  ∃ t h, exec n s = .next t ∧ Performed s t i (i.after s.fresh pc) h ∧ i.g.Same h

/-- The instruction does nothing but go on with the next word. -/
def DoesNothing (n : Instr) (s : State) (i : Issue) : Prop := GoesTo n s i (i.sp.pc + 4)

/-- The split takes a cause where it stands: `u` is the state in which it was found. -/
def Raises (n : Instr) (s u : State) (i : Issue) (c : Nat) (lanes : Mask) (addr : Nat) : Prop :=
  exec n s = .next (u.takeCause i.g.id i.k c lanes addr).settle

/-- The address some words from the issuing word. -/
def wordsFrom (i : Issue) {n : Nat} (o : BitVec n) : DWord := i.sp.pc + 4 * o.signExtend 64

/-- The word of a format B branch: major, condition, register, offset. -/
def wordB (major cond r o : Nat) : Word := BitVec.ofNat 32 (major * 2 ^ 26 + cond * 2 ^ 22 + r * 2 ^ 16 + o)

/-- Branches on a scalar (R210): when they are taken. -/
def scalarBranches : List ((BitVec 6 → BitVec 16 → Instr) × (Int → Bool)) :=
  [(.beqz, fun x => x == 0), (.bnez, fun x => x != 0), (.bltz, fun x => decide (x < 0)), (.bgez, fun x => decide (0 ≤ x)),
   (.bgtz, fun x => decide (0 < x)), (.blez, fun x => decide (x ≤ 0))]

/-- Branches on a predicate (R211): when they are taken, of P = p[n] and A, and A. -/
def predicateBranches : List ((BitVec 3 → BitVec 16 → Instr) × (Mask → Mask → Bool)) :=
  [(.bany, fun p _ => p != 0), (.ball, fun p a => p == a), (.bnone, fun p _ => p == 0), (.bnall, fun p a => p != a)]

/-- The record of the end of a crew by a split's cause (R377): KIND 1, who raised it, its lanes, address and first word, and
in INFO whether the context has no handler (bit 0) and whether the cause arose in handler mode (bit 1). -/
def lastRecord (s : State) (i : Issue) (c : Nat) (lanes : Mask) (addr : Nat) : LogRec :=
  { ctx := i.g.ctx, cause := c, kind := 1, aux := 0, who := i.g.core + 2 ^ 16 * i.g.slot + 2 ^ 24 * i.g.tidx,
    info := (if s.ctxTvec i.g.ctx = 0 then 1 else 0) + (if i.sp.hm then 2 else 0), crewv := i.g.crew, lanes := lanes.toNat,
    pc := (if i.sp.hints.words = 0 then i.sp.pc else i.sp.hints.first).toNat, addr }

/-- What a split's registers say of a cause it has taken (R380, R381), and where it stands: in handler mode, with its
lanes, format and entry as they were. -/
def TrapsTo (s : State) (i : Issue) (c : Nat) (lanes : Mask) (addr : Nat) (t : State) : Prop :=
  ∃ h q, t.gang i.g.id = some h ∧ h.split i.k = some q ∧ i.sp.Trapped q c lanes addr (BitVec.ofNat 64 (s.ctxCb i.g.ctx + s.ctxTvec i.g.ctx)) ∧
    i.g.Same h ∧ (∀ k, k ≠ i.k → h.split k = i.g.split k) ∧ s.OnlyGang t i.g.id

end Sys2Proof.Claims

/-- R210, with R387 for a poisoned condition: a branch on a scalar; the other conditions are reserved. -/
def Sys2Proof.Claims.BranchesOnScalar : Prop :=
  (∀ p ∈ scalarBranches, ∀ (r : BitVec 6) (o : BitVec 16) (s : State) (i : Issue), Ready s i →
    (i.g.smark r.toNat = false →
      GoesTo (p.1 r o) s i (if p.2 (i.g.sreg r.toNat).toInt then wordsFrom i o else i.sp.pc + 4)) ∧
    (i.g.smark r.toNat = true → Raises (p.1 r o) s (s.begin i) i 0x09 i.act 0)) ∧
  (∀ c r o, 6 ≤ c → c < 16 → r < 64 → o < 2 ^ 16 → decodeWord (wordB 0x0E c r o) = none)

/-- R211: a branch on a predicate; the other conditions are reserved, bits 21:19 must be zero, and of the hint words these
branches and those of R210 accept hint.sched alone. -/
def Sys2Proof.Claims.BranchesOnPredicate : Prop :=
  (∀ p ∈ predicateBranches, ∀ (r : BitVec 3) (o : BitVec 16) (s : State) (i : Issue), Ready s i →
    GoesTo (p.1 r o) s i (if p.2 (i.g.preg r.toNat &&& i.act) i.act then wordsFrom i o else i.sp.pc + 4)) ∧
  (∀ c r o, c < 16 → r < 64 → o < 2 ^ 16 → 4 ≤ c ∨ 8 ≤ r → decodeWord (wordB 0x0F c r o) = none) ∧
  (∀ (s : State) (i : Issue), s.issuer = some i → ¬ Plain i.sp.hints → ∀ o,
    (∀ p ∈ scalarBranches, ∀ r, Raises (p.1 r o) s s i 0x01 i.act 0) ∧
    (∀ p ∈ predicateBranches, ∀ r, Raises (p.1 r o) s s i 0x01 i.act 0)) ∧
  decodeWord 0x3847000C = some (.bnez 7 12)

/-- R212, R214: jumps and calls; call and jr.l leave the address of the next word in their link register, and a target that
is not a multiple of 4 is illegal. -/
def Obligations.JumpsAndCalls : Prop :=
  ∀ (s : State) (i : Issue), Ready s i →
    (∀ o, GoesTo (.jmp o) s i (wordsFrom i o)) ∧
    (∀ o, ∃ t h, exec (.call o) s = .next t ∧ Performed s t i (i.after s.fresh (wordsFrom i o)) h ∧
      i.g.WroteS h 63 (i.sp.pc + 4) false) ∧
    (∀ a, i.g.smark a.toNat = false → (i.g.sreg a.toNat).toNat % 4 = 0 → GoesTo (.jr a) s i (i.g.sreg a.toNat)) ∧
    (∀ a d : BitVec 6, i.g.smark a.toNat = false → (i.g.sreg a.toNat).toNat % 4 = 0 →
      ∃ t h, exec (.jrL a d) s = .next t ∧ Performed s t i (i.after s.fresh (i.g.sreg a.toNat)) h ∧
        i.g.WroteS h d.toNat (i.sp.pc + 4) false) ∧
    (i.g.smark 63 = false → (i.g.sreg 63).toNat % 4 = 0 → GoesTo .ret s i (i.g.sreg 63)) ∧
    (∀ a d : BitVec 6, i.g.smark a.toNat = false → (i.g.sreg a.toNat).toNat % 4 ≠ 0 →
      Raises (.jr a) s (s.begin i) i 0x01 i.act 0 ∧ Raises (.jrL a d) s (s.begin i) i 0x01 i.act 0)

/-- R381: taking a cause that is delivered to the split: with no handler, or in handler mode, the crew ends; otherwise the
split's trap registers say what happened and it goes to cb + TVEC in handler mode, its mask, FMT and top unchanged. -/
def Sys2Proof.Claims.TakingACauseEntersTheHandler : Prop :=
  ∀ (s : State) (i : Issue) (c : Nat) (lanes : Mask) (addr : Nat), s.issuer = some i → splitCause c = true →
    (s.ctxTvec i.g.ctx = 0 ∨ i.sp.hm = true → i.g.onControl = false → s.takeCause i.g.id i.k c lanes addr
      = (s.post (lastRecord s i c lanes addr)).endCrew i.g.crew false) ∧
    (s.ctxTvec i.g.ctx ≠ 0 → i.sp.hm = false → TrapsTo s i c lanes addr (s.takeCause i.g.id i.k c lanes addr))

/-- R392, R377: a cause that is not delivered to a split, and is not poison, ends the crew: none of its gangs is left, and
of its record cause, pc, lanes and address are those of the split. -/
def Sys2Proof.Claims.OtherCausesEndTheCrew : Prop :=
  ∀ (s : State) (i : Issue) (c : Nat) (lanes : Mask) (addr : Nat), s.issuer = some i → splitCause c = false → c ≠ 0x09 →
    i.g.onControl = false →
    s.takeCause i.g.id i.k c lanes addr = (s.post (lastRecord s i c lanes addr)).endCrew i.g.crew false

/-- R214: trap raises 0x10 for the lanes its guard selects, brk 0x0F for the active lanes, each with TRAPADDR its code; with
no lane selected trap does nothing. -/
def Obligations.TrapAndBreak : Prop :=
  ∀ (s : State) (i : Issue), Ready s i → s.ctxTvec i.g.ctx ≠ 0 → i.sp.hm = false →
    (∀ (c : BitVec 12) (g : BitVec 4), i.act &&& i.g.guard g = 0 → DoesNothing (.trap c g) s i) ∧
    (∀ (c : BitVec 12) (g : BitVec 4), i.act &&& i.g.guard g ≠ 0 →
      ∃ t, exec (.trap c g) s = .next t ∧ TrapsTo s i 0x10 (i.act &&& i.g.guard g) c.toNat t) ∧
    (∀ c : BitVec 12, ∃ t, exec (.brk c) s = .next t ∧ TrapsTo s i 0x0F i.act c.toNat t)

/-- R204: bra.d moves the whole split where its lanes agree; where they do not it pushes an entry with the join, and the
lanes of the guard leave as a new split, or wait in the entry when four splits are live. -/
def Sys2Proof.Claims.DivergentBranch : Prop :=
  ∀ (s : State) (i : Issue) (g : BitVec 4) (o j : BitVec 11), Ready s i →
    let on := i.act &&& i.g.guard g
    let off := i.act &&& ~~~ on
    (on = 0 → DoesNothing (.braD g o j) s i) ∧
    (on ≠ 0 → off = 0 → GoesTo (.braD g o j) s i (wordsFrom i o)) ∧
    (on ≠ 0 → off ≠ 0 → 64 ≤ i.g.rc.length → Raises (.braD g o j) s (s.begin i) i 0x0D i.act 0) ∧
    (on ≠ 0 → off ≠ 0 → i.g.rc.length < 16 → (∀ e ∈ i.g.rc, e.idx < 64) →
      ∃ t h e, exec (.braD g o j) s = .next t ∧ t.gang i.g.id = some h ∧ s.OnlyGang t i.g.id ∧
        h.rc = i.g.rc ++ [e] ∧ (∀ x ∈ i.g.rc, x.idx ≠ e.idx) ∧
        e.join = wordsFrom i j ∧ e.mask = i.act ∧ e.arr = 0 ∧ e.fmt = i.sp.fmt ∧ e.link = i.sp.top ∧
        h.split i.k = some { i.after s.fresh (i.sp.pc + 4) with mask := off, top := some e.idx } ∧
        (∀ k, i.g.freeSplit = some k → e.pv = false ∧ ∃ q, h.split k = some q ∧ q.mask = on ∧ q.pc = wordsFrom i o ∧
          q.fmt = i.sp.fmt ∧ q.top = some e.idx ∧ ∀ m, m ≠ i.k → m ≠ k → h.split m = i.g.split m) ∧
        (i.g.freeSplit = none → e.pv = true ∧ e.ppc = wordsFrom i o ∧ e.pmask = on ∧
          ∀ m, m ≠ i.k → h.split m = i.g.split m))

/-- R207, R390: exit removes the lanes of its guard, and the interval of its crew is no longer replayable. With no earlier
access to wait for, no deferred cause, no divergence and no barrier object bound in its crew the split goes on with the
other lanes, or, as the gang's last lane leaves, the gang ends. -/
def Sys2Proof.Claims.ExitRemovesLanes : Prop :=
  ∀ (s : State) (i : Issue) (g : BitVec 4), Ready s i →
    let x := i.act &&& i.g.guard g
    (x = 0 → DoesNothing (.exit g) s i) ∧
    (x ≠ 0 → i.g.wcb = [] → (s.begin i).releaseBusy (i.g.setSplit i.k (some (i.sp.issued s.fresh))) = false →
      i.g.nextDeferred = none → i.g.rc = [] → i.g.splits.length = 4 → (∀ c ∈ s.crews, c.val = i.g.crew → c.bind = []) →
      ((i.sp.mask &&& ~~~ x) ≠ 0 → ∃ t h q, exec (.exit g) s = .next t ∧ t.gang i.g.id = some h ∧
        h.split i.k = some q ∧ q = { i.after s.fresh (i.sp.pc + 4) with mask := i.sp.mask &&& ~~~ x } ∧
        (∀ k, k ≠ i.k → h.split k = i.g.split k) ∧ i.g.Same h ∧ (∀ j, j ≠ i.g.id → t.gang j = s.gang j) ∧
        { t with gangs := s.gangs, fresh := s.fresh, crews := s.crews, hashes := s.hashes } = s ∧
        t.hashes = ((s.begin i).releaseSlots i.g.id).hashes ∧
        t.crews = s.crews.map (fun c => if c.val = i.g.crew then { c with replayable := false } else c)) ∧
      ((i.sp.mask &&& ~~~ x) = 0 → (∀ k, k ≠ i.k → i.g.split k = none) →
        ∃ t, exec (.exit g) s = .next t ∧ t.gang i.g.id = none))

/-- R210, R211: branches on a scalar and on a predicate, their reserved conditions and the hint words they accept. -/
def Obligations.BranchesTakeTheirCondition : Prop := Claims.BranchesOnScalar ∧ Claims.BranchesOnPredicate

/-- R381, R392: a cause that is delivered to its split enters the handler, or ends the crew; one that is not, and is not poison,
ends the crew. -/
def Obligations.CausesAreTaken : Prop := Claims.TakingACauseEntersTheHandler ∧ Claims.OtherCausesEndTheCrew

/-- R204, R207: a divergent branch splits its lanes; exit removes lanes. -/
def Obligations.DivergenceAndExit : Prop := Claims.DivergentBranch ∧ Claims.ExitRemovesLanes


namespace Sys2Proof.Claims

/-! ### Predicates and vectors -/

/-- The instruction writes the lanes m of vector register d, and goes on; nothing else changes. -/
def WritesVector (n : Instr) (s : State) (i : Issue) (d : Nat) (m : Mask) (f : Nat → Word) (mark : Nat → Bool) (flags : Nat) :
    Prop :=
  ∃ t h, exec n s = .next t ∧ Performed s t i (i.after s.fresh (i.sp.pc + 4)) h ∧ i.g.WroteV h d m f mark flags

/-- The instruction writes the lanes m of predicate d, and goes on; nothing else changes. -/
def WritesPredicate (n : Instr) (s : State) (i : Issue) (d : Nat) (m x : Mask) (flags : Nat) : Prop :=
  ∃ t h, exec n s = .next t ∧ Performed s t i (i.after s.fresh (i.sp.pc + 4)) h ∧ i.g.WroteP h d m x flags

/-- The instruction is illegal: nothing is performed, and the split takes 0x01 (R30). -/
def Illegal (n : Instr) (s : State) (i : Issue) : Prop := Raises n s s i 0x01 i.act 0

/-- The active lanes of a vector instruction (R241). -/
def activeOf (i : Issue) (g : BitVec 4) : Mask := i.act &&& i.g.guard g

/-- Lane l of va, and its poison mark. -/
def laneOf (i : Issue) (a : BitVec 6) (l : Nat) : Word := i.g.vlane a.toNat l
def markOf (i : Issue) (a : BitVec 6) (l : Nat) : Bool := (i.g.vmarks a.toNat).getLsbD l

/-- The vector registers that an instruction names exist (R28). -/
def Exist (i : Issue) (rs : List (BitVec 6)) : Prop := ∀ r ∈ rs, r.toNat < i.g.nregs

/-- Flags of several elements together. -/
def orAll (l : List Nat) : Nat := l.foldl (fun a b => a ||| b) 0

/-- Flags of the lanes of a mask; a poisoned element sets none (R65, R243). -/
def flagsOf (m : Mask) (mark : Nat → Bool) (fl : Nat → Nat) : Nat :=
  orAll (((List.range 32).filter (fun l => m.getLsbD l && !mark l)).map fl)

/-- The mask whose bit l is f l. -/
def maskBy (f : Nat → Bool) : Mask := BitVec.ofFnLE (fun l : Fin 32 => f l.val)

/-- Operations on predicates (R265). -/
def predicateOps : List ((BitVec 3 → BitVec 3 → BitVec 3 → Instr) × (Mask → Mask → Mask)) :=
  [(.pand, fun x y => x &&& y), (.por, fun x y => x ||| y), (.pxor, fun x y => x ^^^ y), (.pandn, fun x y => x &&& ~~~ y)]

/-- Operations on two vectors of 32-bit integers (R261). -/
def integerOps : List ((BitVec 6 → BitVec 6 → BitVec 6 → BitVec 4 → Instr) × (Word → Word → Word)) :=
  [(.vadd, fun x y => x + y), (.vsub, fun x y => x - y), (.vmul, fun x y => BitVec.ofNat 32 (x.toNat * y.toNat)),
   (.vmulhS32, fun x y => BitVec.ofInt 32 (x.toInt * y.toInt / 2 ^ 32)),
   (.vmulhZ32, fun x y => BitVec.ofNat 32 (x.toNat * y.toNat / 2 ^ 32)),
   (.vand, fun x y => x &&& y), (.vor, fun x y => x ||| y), (.vxor, fun x y => x ^^^ y),
   (.vsll, fun x y => x <<< (y.toNat % 32)), (.vsrl, fun x y => x >>> (y.toNat % 32)),
   (.vsra, fun x y => x.sshiftRight (y.toNat % 32)),
   (.vminS32, fun x y => if x.toInt ≤ y.toInt then x else y), (.vmaxS32, fun x y => if x.toInt ≤ y.toInt then y else x),
   (.vminZ32, fun x y => if x.toNat ≤ y.toNat then x else y), (.vmaxZ32, fun x y => if x.toNat ≤ y.toNat then y else x),
   (.vaddsatS32, fun x y => if x.toInt + y.toInt < -(2 ^ 31) then 0x80000000
     else if 2 ^ 31 ≤ x.toInt + y.toInt then 0x7FFFFFFF else x + y)]

/-- Comparisons of two vectors of 32-bit integers (R262). -/
def integerRelations : List ((BitVec 6 → BitVec 6 → BitVec 6 → BitVec 4 → Instr) × (Word → Word → Bool)) :=
  [(.vcmpEqZ32, fun x y => x == y), (.vcmpNeZ32, fun x y => x != y),
   (.vcmpLtS32, fun x y => decide (x.toInt < y.toInt)), (.vcmpLeS32, fun x y => decide (x.toInt ≤ y.toInt)),
   (.vcmpGtS32, fun x y => decide (y.toInt < x.toInt)), (.vcmpGeS32, fun x y => decide (y.toInt ≤ x.toInt)),
   (.vcmpLtZ32, fun x y => decide (x.toNat < y.toNat)), (.vcmpLeZ32, fun x y => decide (x.toNat ≤ y.toNat)),
   (.vcmpGtZ32, fun x y => decide (y.toNat < x.toNat)), (.vcmpGeZ32, fun x y => decide (y.toNat ≤ x.toNat)),
   (.vtest, fun x y => x &&& y != 0)]

/-- Operations on a vector and a scalar (R263). -/
def scalarForms : List ((BitVec 6 → BitVec 6 → BitVec 6 → BitVec 4 → Instr) × (Word → Word → Word)) :=
  [(.vaddScalar, fun x y => x + y), (.vsubScalar, fun x y => x - y),
   (.vmulScalar, fun x y => BitVec.ofNat 32 (x.toNat * y.toNat)), (.vandScalar, fun x y => x &&& y),
   (.vorScalar, fun x y => x ||| y), (.vxorScalar, fun x y => x ^^^ y), (.vsllScalar, fun x y => x <<< (y.toNat % 32)),
   (.vsrlScalar, fun x y => x >>> (y.toNat % 32)), (.vsraScalar, fun x y => x.sshiftRight (y.toNat % 32))]

/-- Comparisons of a vector with a scalar (R263). -/
def scalarRelations : List ((BitVec 6 → BitVec 6 → BitVec 6 → BitVec 4 → Instr) × (Word → Word → Bool)) :=
  [(.vcmpEqScalar, fun x y => x == y), (.vcmpLtS32Scalar, fun x y => decide (x.toInt < y.toInt)),
   (.vcmpLtZ32Scalar, fun x y => decide (x.toNat < y.toNat))]

/-- A result in the lanes of a vector instruction with its flags, under the marks of its sources. -/
def WritesLanes (n : Instr) (s : State) (i : Issue) (d : BitVec 6) (g : BitVec 4) (r : Nat → Word × Nat) (mark : Nat → Bool) :
    Prop :=
  WritesVector n s i d.toNat (activeOf i g) (fun l => (r l).1) mark (flagsOf (activeOf i g) mark (fun l => (r l).2))

/-- A relation in the lanes of a vector instruction, or, where a lane that it would write is poisoned, 0x09 (R243). -/
def WritesRelation (n : Instr) (s : State) (i : Issue) (d : BitVec 6) (g : BitVec 4) (r : Nat → Bool × Nat) (mark : Nat → Bool) :
    Prop :=
  ((∀ l, l < 32 → (activeOf i g).getLsbD l = true → mark l = false) →
    WritesPredicate n s i d.toNat (activeOf i g) (maskBy (fun l => (r l).1))
      (flagsOf (activeOf i g) (fun _ => false) (fun l => (r l).2))) ∧
  ((∃ l, l < 32 ∧ (activeOf i g).getLsbD l = true ∧ mark l = true) → Raises n s (s.begin i) i 0x09 i.act 0)

/-- The sum of words modulo 2^32. -/
def sumOf (l : List Word) : Word := l.foldl (fun a b => a + b) 0

/-- The sum of FP32 codes in order, each step rounded once, with the flags of its steps (R268, R272). -/
def floatSum (rm : Nat) (sat : Bool) : List Word → Word × Nat
  | [] => (0, 0)
  | x :: l => l.foldl (fun r y =>
      let q := addF fp32 rm sat r.1.toNat y.toNat
      (BitVec.ofNat 32 q.1, r.2 ||| q.2))
    (if (decodeF fp32 x.toNat).isSig then (0x7FC00000, flagNV) else (x, 0))

/-- The lanes of a mask below a bound, ascending. -/
def lanesBelow (m : Mask) (n : Nat) : List Nat := (List.range n).filter (fun l => m.getLsbD l)

/-- The lanes of a list before the first poisoned one. -/
def beforePoison (mark : Nat → Bool) (l : List Nat) : List Nat := l.takeWhile (fun k => !mark k)

end Sys2Proof.Claims

/-- R214, R215, R71, R387: nop does nothing, yield leaves the split not ready until its expiry, setfmt takes a format with
its reserved bits zero, getfmt reads it, and safept, outside forerunner mode, does nothing; where a pre-emption is pending
it takes the gang with the registers that the live map marks (every register, where a reserved byte of it is not zero or it is
poisoned), once what it reads from another module or the host has come. -/
def Sys2Proof.Claims.NopYieldFormatAndSafepoint : Prop :=
  ∀ (s : State) (i : Issue), Ready s i →
    DoesNothing .nop s i ∧
    (∃ t h, exec .yield s = .next t ∧
      Performed s { t with agenda := s.agenda } i { i.after s.fresh (i.sp.pc + 4) with yielded := true } h ∧ i.g.Same h ∧
      t.agenda = s.agenda ++ [.yieldExpiry i.g.id i.k]) ∧
    (∀ a : BitVec 6, i.g.smark a.toNat = false → ∃ t h, exec (.setfmt a) s = .next t ∧
      Performed s t i { i.after s.fresh (i.sp.pc + 4) with fmt := (i.g.sreg a.toNat).truncate 32 &&& 0x0F1FFFFF } h ∧ i.g.Same h) ∧
    (∀ a : BitVec 6, i.g.smark a.toNat = true → Raises (.setfmt a) s (s.begin i) i 0x09 i.act 0) ∧
    (∀ d, WritesScalar (.getfmt d) s i d (i.sp.fmt.zeroExtend 64) false) ∧
    (∀ o, s.forerunner i.g.ctx = false → DoesNothing (.safept o) s i) ∧
    (∀ o c, s.forerunner i.g.ctx = true → s.crew i.g.crew = some c → c.preempting = false → DoesNothing (.safept o) s i) ∧
    (∀ o c, s.forerunner i.g.ctx = true → s.crew i.g.crew = some c → c.preempting = true → s.Faultless →
      let r := (s.begin i).readMap i.g (wordsFrom i o).toNat
      let byte (k : Nat) : Byte := sget 0 r.got (gotKey 0 k)
      (r.await = [] → ∃ t h, exec (.safept o) s = .next t ∧
        Performed s { t with sram := s.sram, l1 := s.l1 } i (i.after s.fresh (i.sp.pc + 4)) h ∧
        { h with taken := i.g.taken, splits := i.g.splits } = i.g ∧
        h.taken = some (if r.poison != 0 || (List.range 15).any (fun k => byte (17 + k) != 0) then (2 ^ 64 - 1, 2 ^ 64 - 1, 2 ^ 8 - 1)
          else (ofBytes ((List.range 8).map byte), ofBytes ((List.range 8).map (fun k => byte (8 + k))), (byte 16).toNat))) ∧
      (r.await ≠ [] → ∃ t h q tag, exec (.safept o) s = .next t ∧ t.gang i.g.id = some h ∧ h.split i.k = some q ∧
        q.blocked = some (.reply tag) ∧ q.pc = i.sp.pc))

/-- R265, R243, R40: operations on predicates write the lanes of the split's mask and nothing of p0; pmov of a poisoned
scalar raises 0x09; prd, pact, pcnt and pfirst write a scalar. -/
def Obligations.PredicateResults : Prop :=
  ∀ (s : State) (i : Issue), Ready s i →
    (∀ p ∈ predicateOps, ∀ d a b : BitVec 3,
      WritesPredicate (p.1 d a b) s i d.toNat i.act (p.2 (i.g.preg a.toNat) (i.g.preg b.toNat)) 0) ∧
    (∀ d a : BitVec 3, WritesPredicate (.pnot d a) s i d.toNat i.act (~~~ (i.g.preg a.toNat)) 0) ∧
    (∀ (d : BitVec 3) (a : BitVec 6), i.g.smark a.toNat = false →
      WritesPredicate (.pmov d a) s i d.toNat i.act ((i.g.sreg a.toNat).truncate 32) 0) ∧
    (∀ (d : BitVec 3) (a : BitVec 6), i.g.smark a.toNat = true → Raises (.pmov d a) s (s.begin i) i 0x09 i.act 0) ∧
    (∀ (a : BitVec 3) (d : BitVec 6), WritesScalar (.prd a d) s i d ((i.g.preg a.toNat).zeroExtend 64) false) ∧
    (∀ d, WritesScalar (.pact d) s i d (i.act.zeroExtend 64) false) ∧
    (∀ (a : BitVec 3) (d : BitVec 6), WritesScalar (.pcnt a d) s i d
      (BitVec.ofNat 64 (countBits 32 (fun l => (i.g.preg a.toNat &&& i.act).getLsbD l))) false) ∧
    (∀ (a : BitVec 3) (d : BitVec 6), WritesScalar (.pfirst a d) s i d
      (BitVec.ofNat 64 (((List.range 32).find? (fun l => (i.g.preg a.toNat &&& i.act).getLsbD l)).getD 32)) false) ∧
    (∀ n : BitVec 3, n = 0 → i.g.preg n.toNat = BitVec.allOnes 32)

/-- R241, R243, R261, R263, R264: vector integer instructions, with a vector, a scalar or an immediate as last operand;
no flag is set. A register that the gang does not have is illegal. -/
def Sys2Proof.Claims.VectorIntegerResults : Prop :=
  ∀ (s : State) (i : Issue), Ready s i → ∀ (d a b : BitVec 6) (g : BitVec 4),
    (∀ p ∈ integerOps, (Exist i [d, a, b] →
        WritesLanes (p.1 d a b g) s i d g (fun l => (p.2 (laneOf i a l) (laneOf i b l), 0)) (fun l => markOf i a l || markOf i b l)) ∧
      (¬ Exist i [d, a, b] → Illegal (p.1 d a b g) s i)) ∧
    (∀ p ∈ scalarForms, (Exist i [d, a] →
        WritesLanes (p.1 d a b g) s i d g (fun l => (p.2 (laneOf i a l) ((i.g.sreg b.toNat).truncate 32), 0))
          (fun l => markOf i a l || i.g.smark b.toNat)) ∧
      (¬ Exist i [d, a] → Illegal (p.1 d a b g) s i)) ∧
    (Exist i [d] → WritesLanes (.vmovScalar d b g) s i d g (fun _ => ((i.g.sreg b.toNat).truncate 32, 0))
      (fun _ => i.g.smark b.toNat))

/-- R34, R264: an immediate of 10 bits, widened by at most one hint.imm, in its low 32 bits. -/
def Sys2Proof.Claims.VectorImmediates : Prop :=
  ∀ (s : State) (i : Issue), s.issuer = some i → s.Quiet → PlainImm 1 i.sp.hints →
    ∀ (d a : BitVec 6) (x : BitVec 10) (g : BitVec 4),
      let y : Word := (widened 10 i.sp.hints.imms x.toNat).truncate 32
      (Exist i [d, a] → WritesLanes (.vaddImm d a x g) s i d g (fun l => (laneOf i a l + y, 0)) (markOf i a)) ∧
      (Exist i [d] → WritesLanes (.vli d x g) s i d g (fun _ => (y, 0)) (fun _ => false))

/-- R257, R262, R263, R243: comparisons of integers write the bits of the active lanes alone, or raise 0x09 where one of
them is poisoned. -/
def Sys2Proof.Claims.VectorIntegerComparisons : Prop :=
  ∀ (s : State) (i : Issue), Ready s i → ∀ (d a b : BitVec 6) (g : BitVec 4),
    (∀ p ∈ integerRelations, Exist i [a, b] →
      WritesRelation (p.1 d a b g) s i d g (fun l => (p.2 (laneOf i a l) (laneOf i b l), 0))
        (fun l => markOf i a l || markOf i b l)) ∧
    (∀ p ∈ scalarRelations, Exist i [a] →
      WritesRelation (p.1 d a b g) s i d g (fun l => (p.2 (laneOf i a l) ((i.g.sreg b.toNat).truncate 32), 0))
        (fun l => markOf i a l || i.g.smark b.toNat))

/-- R266, R267, R269, R270, R271: lane moves, counts, sign masks, selections and conflict masks. vget is unguarded, and
vins with an inactive lane writes nothing. -/
def Obligations.LaneMovesAndMasks : Prop :=
  ∀ (s : State) (i : Issue), Ready s i → ∀ (d a b : BitVec 6) (g : BitVec 4),
    (Exist i [d, a, b] →
      WritesLanes (.vperm d a b g) s i d g (fun l => (laneOf i a ((laneOf i b l).toNat % 32), 0))
        (fun l => markOf i a ((laneOf i b l).toNat % 32) || markOf i b l) ∧
      ∀ k : BitVec 3, WritesLanes (.vsel d a b k g) s i d g
        (fun l => (if (i.g.preg k.toNat).getLsbD l then laneOf i a l else laneOf i b l, 0))
        (fun l => if (i.g.preg k.toNat).getLsbD l then markOf i a l else markOf i b l)) ∧
    (Exist i [a] → WritesScalar (.vget d a b) s i d ((laneOf i a ((i.g.sreg b.toNat).toNat % 32)).zeroExtend 64)
      (markOf i a ((i.g.sreg b.toNat).toNat % 32) || i.g.smark b.toNat)) ∧
    (Exist i [d] →
      WritesVector (.vins d a b g) s i d.toNat (activeOf i g &&& maskBy (fun l => l == (i.g.sreg b.toNat).toNat % 32))
        (fun _ => (i.g.sreg a.toNat).truncate 32) (fun _ => i.g.smark a.toNat || i.g.smark b.toNat) 0 ∧
      WritesLanes (.vlane d g) s i d g (fun l => (BitVec.ofNat 32 l, 0)) (fun _ => false)) ∧
    (Exist i [d, a] →
      WritesLanes (.vpopc d a g) s i d g (fun l => (BitVec.ofNat 32 (countBits 32 (fun k => (laneOf i a l).getLsbD k)), 0)) (markOf i a) ∧
      WritesLanes (.vclz d a g) s i d g
        (fun l => (BitVec.ofNat 32 (countBits 32 (fun k => decide ((laneOf i a l).toNat < 2 ^ (31 - k)))), 0)) (markOf i a) ∧
      WritesLanes (.vsgn d a g) s i d g
        (fun _ => (maskBy (fun k => (activeOf i g).getLsbD k && (laneOf i a k).getLsbD 31), 0))
        (fun _ => (lanesBelow (activeOf i g) 32).any (markOf i a)) ∧
      WritesLanes (.vconf d a g) s i d g
        (fun l => (maskBy (fun k => (activeOf i g).getLsbD k && decide (k < l) && laneOf i a k == laneOf i a l), 0))
        (fun l => markOf i a l || (lanesBelow (activeOf i g) l).any (fun k => laneOf i a k == laneOf i a l && markOf i a k)))

/-- R268, R243: scans and reductions run in ascending lane order over the active lanes; each FP32 step rounds once, and the
flags of the steps before the first poisoned contributor are set. -/
def Sys2Proof.Claims.ScansAndReductions : Prop :=
  ∀ (s : State) (i : Issue), Ready s i → ∀ (d a : BitVec 6) (g : BitVec 4), Exist i [d, a] →
    let m := activeOf i g
    let upTo (l : Nat) : List Word := (lanesBelow m (l + 1)).map (laneOf i a)
    let floats (ls : List Nat) : Word × Nat := floatSum (fmtRM i.sp.fmt) (fmtSAT i.sp.fmt) (ls.map (laneOf i a))
    let fl := (floats (beforePoison (markOf i a) (lanesBelow m 32))).2
    let poisoned (l : Nat) : Bool := (lanesBelow m (l + 1)).any (markOf i a)
    WritesVector (.vscanZ32 d a g) s i d.toNat m (fun l => sumOf (upTo l)) poisoned 0 ∧
    WritesVector (.vscanxZ32 d a g) s i d.toNat m (fun l => sumOf ((lanesBelow m l).map (laneOf i a))) poisoned 0 ∧
    WritesVector (.vredZ32 d a g) s i d.toNat m (fun _ => sumOf (upTo 31)) (fun _ => poisoned 31) 0 ∧
    WritesVector (.vscanF32 d a g) s i d.toNat m (fun l => (floats (lanesBelow m (l + 1))).1) poisoned fl ∧
    WritesVector (.vredF32 d a g) s i d.toNat m (fun _ => (floats (lanesBelow m 32)).1) (fun _ => poisoned 31) fl

/-- R272, R243: sums by key: the lowest active lane of a key takes the sum of its values in ascending lane order, the other
lanes of the key 0; a key sets the flags of its additions before the first poisoned element. -/
def Sys2Proof.Claims.KeySums : Prop :=
  ∀ (s : State) (i : Issue), Ready s i → ∀ (d a b : BitVec 6) (g : BitVec 4), Exist i [d, a, b] →
    let m := activeOf i g
    let mine (l : Nat) : List Nat := (lanesBelow m 32).filter (fun k => laneOf i a k == laneOf i a l)
    let leads (l : Nat) : Bool := (lanesBelow m l).all (fun k => laneOf i a k != laneOf i a l)
    let bad (k : Nat) : Bool := markOf i a k || markOf i b k
    let floats (ls : List Nat) : Word × Nat := floatSum (fmtRM i.sp.fmt) (fmtSAT i.sp.fmt) (ls.map (laneOf i b))
    let poisoned (l : Nat) : Bool := if leads l then (mine l).any bad else markOf i a l
    WritesLanes (.vkaddZ32 d a b g) s i d g (fun l => (if leads l then sumOf ((mine l).map (laneOf i b)) else 0, 0)) poisoned ∧
    WritesVector (.vkaddF32 d a b g) s i d.toNat m (fun l => if leads l then (floats (mine l)).1 else 0) poisoned
      (orAll (((lanesBelow m 32).filter leads).map (fun l => (floats (beforePoison bad (mine l))).2)))

namespace Sys2Proof.Claims

/-- A gang changed in nothing but the lanes m of the registers d and d + 1, its flags, and its splits. -/
structure WrotePair (g h : Gang) (d : Nat) (m : Mask) (f f2 : Nat → Word) (mark : Nat → Bool) (flags : Nat) : Prop where
  rest : { h with v := g.v, vPoison := g.vPoison, fst := g.fst, splits := g.splits } = g
  value : ∀ r l, l < 32 → h.vlane r l = if m.getLsbD l = true then (if r = d then f l else if r = d + 1 then f2 l else g.vlane r l)
    else g.vlane r l
  marks : ∀ r l, l < 32 → (h.vmarks r).getLsbD l = if m.getLsbD l = true ∧ (r = d ∨ r = d + 1) then mark l
    else (g.vmarks r).getLsbD l
  flags : h.fst = g.fst ||| w32 flags

/-- The instruction writes lanes of a pair of vector registers, and goes on; nothing else changes. -/
def WritesPair (n : Instr) (s : State) (i : Issue) (d : Nat) (m : Mask) (f f2 : Nat → Word) (mark : Nat → Bool) (flags : Nat) :
    Prop :=
  ∃ t h, exec n s = .next t ∧ Performed s t i (i.after s.fresh (i.sp.pc + 4)) h ∧ WrotePair i.g h d m f f2 mark flags

end Sys2Proof.Claims

/-- R273: rebal finds for each item its row, never one of length 0, and its offset in it; an item beyond the last row gets
row 32 and its distance past the end; and its worked words. -/
def Obligations.RebalAssignsItems : Prop :=
  (∀ (s : State) (i : Issue), Ready s i → ∀ (d a b : BitVec 6) (g : BitVec 4), Exist i [d, a, b] → d.toNat + 1 < i.g.nregs →
    let m := activeOf i g
    let len (k : Nat) : Nat := if m.getLsbD k then (laneOf i a k).toNat else 0
    let pre (k : Nat) : Nat := ((List.range k).map len).sum
    ∃ f f2 : Nat → Word,
      WritesPair (.rebal d a b g) s i d.toNat m f f2 (fun l => markOf i b l || (lanesBelow m 32).any (markOf i a)) 0 ∧
      ∀ l, l < 32 → m.getLsbD l = true →
        let t := (laneOf i b l).toNat
        (t < pre 32 → ∃ k, k < 32 ∧ pre k ≤ t ∧ t < pre k + len k ∧ f l = BitVec.ofNat 32 k ∧ f2 l = BitVec.ofNat 32 (t - pre k)) ∧
        (pre 32 ≤ t → f l = 32 ∧ f2 l = BitVec.ofNat 32 (t - pre 32))) ∧
  decodeWord 0x88A083B0 = some (.rebal 10 2 3 0) ∧ decodeWord 0x88910080 = some (.vconf 9 4 0) ∧
  decodeWord 0x888106A0 = some (.vkaddF32 8 4 6 0)

/-- R34, R261, R263, R264: vector integer instructions, with every form of their last operand. -/
def Obligations.VectorIntegerOperations : Prop := Claims.VectorIntegerResults ∧ Claims.VectorImmediates

/-- R268, R272: scans, reductions and sums by key run in ascending lane order. That a poisoned contributor leaves the flags of the
steps before it alone is the model's reading (log entry 49). -/
def Obligations.ScansReductionsAndKeySums : Prop := Claims.ScansAndReductions ∧ Claims.KeySums


namespace Sys2Proof.Claims

/-! ### Floating point -/

/-- Element k of a lane in a format of some width (R74). -/
def elementOf (f : Fmt) (x : Word) (k : Nat) : Nat := x.toNat / 2 ^ (f.width * k) % 2 ^ f.width

/-- A lane that packs the results of its elements, with their flags (R65, R74). -/
def lanePacked (f : Fmt) (op : Nat → Nat × Nat) : Word × Nat :=
  (BitVec.ofNat 32 ((List.range (32 / f.width)).map (fun k => (op k).1 * 2 ^ (f.width * k))).sum,
   orAll ((List.range (32 / f.width)).map (fun k => (op k).2)))

/-- The element format of an instruction with a P bit (R252). -/
def formatOf (i : Issue) (p : BitVec 1) : Fmt := if p = 0 then fp32 else fmtOf (fmtNF i.sp.fmt)

/-- P = 0, or the format that FMT.NF names is legal for packed elements (R72, R73). -/
def FormatOk (i : Issue) (p : BitVec 1) : Prop := p = 0 ∨ fmtNF i.sp.fmt ≤ 3

/-- Arithmetic on two elements under a rounding mode and FMT.SAT (R253, R254). -/
def floatOps : List ((BitVec 6 → BitVec 6 → BitVec 6 → BitVec 1 → BitVec 4 → Instr) × (Fmt → Nat → Bool → Nat → Nat → Nat × Nat)) :=
  [(.vfadd, addF), (.vfsub, subF), (.vfmul, mulF), (.vfdiv, divF), (.vfmin, fun f _ _ x y => minMaxF f false x y),
   (.vfmax, fun f _ _ x y => minMaxF f true x y)]

/-- Operations on the sign bit of every encoding (R254). -/
def signOps : List ((BitVec 6 → BitVec 6 → BitVec 1 → BitVec 4 → Instr) × (Fmt → Nat → Nat)) :=
  [(.vfabs, fun f x => x % 2 ^ (f.width - 1)),
   (.vfneg, fun f x => if x < 2 ^ (f.width - 1) then x + 2 ^ (f.width - 1) else x - 2 ^ (f.width - 1))]

/-- The fused instructions: whether the product and the addend are negated (R255). -/
def fusedOps : List ((BitVec 6 → BitVec 6 → BitVec 6 → BitVec 1 → BitVec 4 → Instr) × Bool × Bool) :=
  [(.vffma, false, false), (.vffms, false, true), (.vfnma, true, false), (.vfnms, true, true)]

/-- A value rounded to FP32 with the flags of its operation. -/
def rounded (rm : Nat) (sat : Bool) (r : FVal × Nat) : Word × Nat :=
  (BitVec.ofNat 32 (packF fp32 rm sat r.1).1, (packF fp32 rm sat r.1).2 ||| r.2)

/-- Functions of one FP32 element, with their own rounding mode if they have one (R256, R258). -/
def floatFunctions : List ((BitVec 6 → BitVec 6 → BitVec 4 → Instr) × Option Nat × (Nat → FVal → FVal × Nat)) :=
  [(.vfsqrt, none, fun _ x => sqrtV x), (.vfrcp, none, fun _ x => divV (.fin false 1 0) x),
   (.vfrsq, some 0, fun _ x => rsqrtV x), (.vfexp, some 0, fun _ x => exp2V x), (.vflog2, some 0, fun _ x => log2V x),
   (.vfrintNe, some 0, rintV), (.vfrintZ, some 1, rintV), (.vfrintDn, some 2, rintV), (.vfrintUp, some 3, rintV),
   (.vfrint, none, rintV)]

/-- Comparisons of FP32 elements (R257): of two numbers, the relation; what a NaN answers; whether any NaN sets NV. -/
def floatRelations : List ((BitVec 6 → BitVec 6 → BitVec 6 → BitVec 4 → Instr) × (FVal → FVal → Bool) × Bool × Bool) :=
  [(.vfcmpEq, fun x y => eqV x y, false, false), (.vfcmpNe, fun x y => !eqV x y, true, false),
   (.vfcmpLt, fun x y => ltV x y, false, true), (.vfcmpLe, fun x y => ltV x y || eqV x y, false, true),
   (.vfcmpGt, fun x y => ltV y x, false, true), (.vfcmpGe, fun x y => ltV y x || eqV x y, false, true),
   (.vfcmpUn, fun _ _ => false, true, false), (.vfcmpOrd, fun _ _ => true, false, false)]

/-- The value of a finite encoding of a format (R59): none for a NaN or an infinity. -/
def valueOf (f : Fmt) (n : Nat) : Option ℚ :=
  match decodeF f n with
  | .fin s m x => some ((if s then -1 else 1) * (m : ℚ) * (2 : ℚ) ^ x)
  | _ => none

/-- A rational number is the one that rounding mode rm picks for v among the finite values of a format (R62). -/
def IsRounded (f : Fmt) (rm : Nat) (v q : ℚ) : Prop :=
  (∃ n, n < 2 ^ f.width ∧ valueOf f n = some q) ∧
  ∀ n y, n < 2 ^ f.width → valueOf f n = some y →
    (rm = 0 → |q - v| ≤ |y - v|) ∧
    (rm = 1 → |q| ≤ |v| ∧ 0 ≤ q * v ∧ (|y| ≤ |v| → 0 ≤ y * v → |y| ≤ |q|)) ∧
    (rm = 2 → q ≤ v ∧ (y ≤ v → y ≤ q)) ∧ (rm = 3 → v ≤ q ∧ (v ≤ y → q ≤ y))

/-- The scalar formats that arithmetic rounds into (R58). -/
def arithmeticFormats : List Fmt := [fp32, fp16, bf16, e4m3, e5m2]

/-- Bounds of an integer of a conversion: 2^(3 + c) bits, signed or not (R259). -/
def intLow (signed : Bool) (c : BitVec 2) : Int := if signed then -(2 ^ (8 * 2 ^ c.toNat - 1)) else 0
def intHigh (signed : Bool) (c : BitVec 2) : Int := if signed then 2 ^ (8 * 2 ^ c.toNat - 1) - 1 else 2 ^ (8 * 2 ^ c.toNat) - 1

/-- FP32 to an integer (R75, R260), with its flags: `whole` is the value rounded to an integer, if it is finite. -/
def toInteger (rm : Nat) (lo hi : Int) (x : FVal) : Int × Nat :=
  match x with
  | .nan _ => (0, flagNV)
  | .inf neg => (if neg then lo else hi, flagSA ||| flagNX)
  | .fin neg m e =>
    let whole : Int := if neg then -((roundAt rm neg m e 0).1 : Int) else (roundAt rm neg m e 0).1
    if whole < lo then (lo, flagSA ||| flagNX) else if hi < whole then (hi, flagSA ||| flagNX)
    else (whole, if (roundAt rm neg m e 0).2 then flagNX else 0)

end Sys2Proof.Claims

/-- R252, R253, R254, R65, R73, R243: arithmetic on FP32 elements or on packed narrow ones; an illegal NF raises 0x01, and
poisoned elements set no flag. -/
def Obligations.VectorFloatArithmetic : Prop :=
  ∀ (s : State) (i : Issue), Ready s i → ∀ (d a b : BitVec 6) (p : BitVec 1) (g : BitVec 4),
    let f := formatOf i p
    (∀ o ∈ floatOps, (Exist i [d, a, b] → FormatOk i p → WritesLanes (o.1 d a b p g) s i d g
        (fun l => lanePacked f (fun k => o.2 f (fmtRM i.sp.fmt) (fmtSAT i.sp.fmt) (elementOf f (laneOf i a l) k)
          (elementOf f (laneOf i b l) k))) (fun l => markOf i a l || markOf i b l)) ∧
      (¬ FormatOk i p → Illegal (o.1 d a b p g) s i)) ∧
    (∀ o ∈ signOps, (Exist i [d, a] → FormatOk i p → WritesLanes (o.1 d a p g) s i d g
        (fun l => lanePacked f (fun k => (o.2 f (elementOf f (laneOf i a l) k), 0))) (markOf i a)) ∧
      (¬ FormatOk i p → Illegal (o.1 d a p g) s i)) ∧
    (∀ o ∈ fusedOps, (Exist i [d, a, b] → FormatOk i p → WritesLanes (o.1 d a b p g) s i d g
        (fun l => lanePacked f (fun k => fmaF f (fmtRM i.sp.fmt) (fmtSAT i.sp.fmt) o.2.1 o.2.2 (elementOf f (laneOf i a l) k)
          (elementOf f (laneOf i b l) k) (elementOf f (laneOf i d l) k)))
        (fun l => markOf i a l || markOf i b l || markOf i d l)) ∧
      (¬ FormatOk i p → Illegal (o.1 d a b p g) s i))

/-- R256, R258, R263, R253, R255: functions of FP32 elements, vfscale, and the FP32 forms with a scalar. -/
def Obligations.VectorFloatFunctions : Prop :=
  ∀ (s : State) (i : Issue), Ready s i → ∀ (d a b : BitVec 6) (g : BitVec 4),
    let rm := fmtRM i.sp.fmt
    let sat := fmtSAT i.sp.fmt
    let x : Nat := (i.g.sreg b.toNat).toNat % 2 ^ 32
    let word (r : Nat × Nat) : Word × Nat := (BitVec.ofNat 32 r.1, r.2)
    (∀ o ∈ floatFunctions, Exist i [d, a] → WritesLanes (o.1 d a g) s i d g
      (fun l => rounded (o.2.1.getD rm) sat (o.2.2 (o.2.1.getD rm) (decodeF fp32 (laneOf i a l).toNat))) (markOf i a)) ∧
    (Exist i [d, a, b] → WritesLanes (.vfscale d a b g) s i d g
      (fun l => rounded rm sat (scaleV (laneOf i b l).toInt (decodeF fp32 (laneOf i a l).toNat)))
      (fun l => markOf i a l || markOf i b l)) ∧
    (Exist i [d, a] →
      WritesLanes (.vfaddScalar d a b g) s i d g (fun l => word (addF fp32 rm sat (laneOf i a l).toNat x))
        (fun l => markOf i a l || i.g.smark b.toNat) ∧
      WritesLanes (.vfmulScalar d a b g) s i d g (fun l => word (mulF fp32 rm sat (laneOf i a l).toNat x))
        (fun l => markOf i a l || i.g.smark b.toNat) ∧
      WritesLanes (.vffmaScalar d a b g) s i d g
        (fun l => word (fmaF fp32 rm sat false false (laneOf i a l).toNat x (laneOf i d l).toNat))
        (fun l => markOf i a l || markOf i d l || i.g.smark b.toNat))

/-- R257, R243: FP32 comparisons; a NaN operand makes every relation but ne and un false. -/
def Sys2Proof.Claims.FloatComparisons : Prop :=
  ∀ (s : State) (i : Issue), Ready s i → ∀ (d a b : BitVec 6) (g : BitVec 4), Exist i [a, b] → ∀ o ∈ floatRelations,
    WritesRelation (o.1 d a b g) s i d g
      (fun l =>
        let x := decodeF fp32 (laneOf i a l).toNat
        let y := decodeF fp32 (laneOf i b l).toNat
        (if x.isNan || y.isNan then o.2.2.1 else o.2.1 x y,
         if (o.2.2.2 && (x.isNan || y.isNan)) || x.isSig || y.isSig then flagNV else 0))
      (fun l => markOf i a l || markOf i b l)

/-- R259, R260, R75: conversions between FP32 and integers, a 64-bit integer in a pair of registers, and between FP32 and
one element of a packed format. -/
def Obligations.Conversions : Prop :=
  ∀ (s : State) (i : Issue), Ready s i → ∀ (d a : BitVec 6) (c : BitVec 2) (g : BitVec 4),
    let m := activeOf i g
    let rm := fmtRM i.sp.fmt
    let sat := fmtSAT i.sp.fmt
    let val (l : Nat) : FVal := decodeF fp32 (laneOf i a l).toNat
    let nf := fmtOf (fmtNF i.sp.fmt)
    let int (signed : Bool) (l : Nat) : BitVec 64 := BitVec.ofInt 64 (toInteger rm (intLow signed c) (intHigh signed c) (val l)).1
    let fl (signed : Bool) : Nat := flagsOf m (markOf i a) (fun l => (toInteger rm (intLow signed c) (intHigh signed c) (val l)).2)
    let wide (l : Nat) : BitVec 64 := (if c = 3 then i.g.vlane (a.toNat + 1) l else 0) ++ laneOf i a l
    let source (signed : Bool) (l : Nat) : Int :=
      if signed then ((wide l).truncate (8 * 2 ^ c.toNat)).toInt else (((wide l).truncate (8 * 2 ^ c.toNat)).toNat : Int)
    let ofInteger (v : Int) : Word × Nat :=
      (BitVec.ofNat 32 (roundTo fp32 rm sat (decide (v < 0)) v.natAbs 0).1, (roundTo fp32 rm sat (decide (v < 0)) v.natAbs 0).2)
    let mark (l : Nat) : Bool := markOf i a l || (c == 3 && (i.g.vmarks (a.toNat + 1)).getLsbD l)
    (c ≠ 3 → Exist i [d, a] →
      WritesVector (.vcvtSF32 d a c g) s i d.toNat m (fun l => (int true l).truncate 32) (markOf i a) (fl true) ∧
      WritesVector (.vcvtZF32 d a c g) s i d.toNat m (fun l => (int false l).truncate 32) (markOf i a) (fl false)) ∧
    (c = 3 → Exist i [d, a] → d.toNat + 1 < i.g.nregs →
      WritesPair (.vcvtSF32 d a c g) s i d.toNat m (fun l => (int true l).truncate 32) (fun l => (int true l).extractLsb' 32 32)
        (markOf i a) (fl true) ∧
      WritesPair (.vcvtZF32 d a c g) s i d.toNat m (fun l => (int false l).truncate 32) (fun l => (int false l).extractLsb' 32 32)
        (markOf i a) (fl false)) ∧
    (Exist i [d, a] → (c = 3 → a.toNat + 1 < i.g.nregs) →
      WritesLanes (.vcvtF32S d a c g) s i d g (fun l => ofInteger (source true l)) mark ∧
      WritesLanes (.vcvtF32Z d a c g) s i d g (fun l => ofInteger (source false l)) mark) ∧
    (Exist i [d, a] → fmtNF i.sp.fmt ≤ 3 → c.toNat < 32 / nf.width →
      WritesLanes (.vcvtNfF32 d a c g) s i d g
        (fun l =>
          let r := convertF nf rm sat (val l)
          (BitVec.ofNat 32 ((List.range (32 / nf.width)).map (fun k =>
            (if k = c.toNat then r.1 else elementOf nf (laneOf i d l) k) * 2 ^ (nf.width * k))).sum, r.2))
        (fun l => markOf i a l || markOf i d l) ∧
      WritesLanes (.vcvtF32Nf d a c g) s i d g
        (fun l => (BitVec.ofNat 32 (convertF fp32 0 false (decodeF nf (elementOf nf (laneOf i a l) c.toNat))).1,
          (convertF fp32 0 false (decodeF nf (elementOf nf (laneOf i a l) c.toNat))).2)) (markOf i a)) ∧
    (3 < fmtNF i.sp.fmt ∨ 32 / nf.width ≤ c.toNat →
      Illegal (.vcvtNfF32 d a c g) s i ∧ Illegal (.vcvtF32Nf d a c g) s i)

/-- R62, R64: the rounding that every floating-point result goes through. A value within the range of a format is rounded to
the finite value that the mode names, and NX is set exactly where that differs from the value. -/
def Obligations.RoundingPicksTheNamedValue : Prop :=
  ∀ f ∈ arithmeticFormats, ∀ (rm : Nat) (sat neg : Bool) (m : Nat) (x : Int) (top : ℚ), rm < 4 →
    valueOf f f.largest = some top → (m : ℚ) * (2 : ℚ) ^ x ≤ top →
    let v : ℚ := (if neg then -1 else 1) * (m : ℚ) * (2 : ℚ) ^ x
    let r := roundTo f rm sat neg m x
    ∃ q, valueOf f r.1 = some q ∧ r.1 < 2 ^ f.width ∧ IsRounded f rm v q ∧ (r.2 &&& flagNX ≠ 0 ↔ q ≠ v) ∧
      (rm = 0 → ∀ n y, n < 2 ^ f.width → valueOf f n = some y → y ≠ q → |y - v| = |q - v| → r.1 % 2 = 0)

/-- R63: a value beyond the range of a format, whatever its rounding, is delivered as the mode and FMT.SAT say, with OF and
NX set. -/
def Sys2Proof.Claims.OverflowIsDelivered : Prop :=
  ∀ f ∈ arithmeticFormats, ∀ (rm : Nat) (sat neg : Bool) (m : Nat) (x : Int), rm < 4 → m ≠ 0 →
    (2 : ℚ) ^ (2 ^ (f.ebits - 1) + (if f.hasInf then 0 else 1) : Nat) ≤ (m : ℚ) * (2 : ℚ) ^ x →
    let toLargest := sat = true ∨ rm = 1 ∨ (rm = 2 ∧ neg = false) ∨ (rm = 3 ∧ neg = true)
    let r := roundTo f rm sat neg m x
    r.2 = flagOF + flagNX ∧
    (toLargest → r.1 = f.largest + (if neg then 2 ^ (f.width - 1) else 0)) ∧
    (¬ toLargest → f.hasInf = true → r.1 = f.largest + 1 + (if neg then 2 ^ (f.width - 1) else 0)) ∧
    (¬ toLargest → f.hasInf = false → r.1 = f.nan)

/-- R254, R255, R60: the special cases of addition, multiplication, division and the fused operations: NaNs, infinities,
and zeros. -/
def Sys2Proof.Claims.FloatSpecialCases : Prop :=
  ∀ f ∈ arithmeticFormats, ∀ (rm : Nat) (sat : Bool) (x y z : Nat), rm < 4 → x < 2 ^ f.width → y < 2 ^ f.width → z < 2 ^ f.width →
    let a := decodeF f x
    let b := decodeF f y
    let nv : Nat := if a.isSig || b.isSig then flagNV else 0
    (a.isNan = true ∨ b.isNan = true →
      addF f rm sat x y = (f.nan, nv) ∧ subF f rm sat x y = (f.nan, nv) ∧ mulF f rm sat x y = (f.nan, nv) ∧
      divF f rm sat x y = (f.nan, nv)) ∧
    (∀ n, a = .inf n → b = .inf (!n) → addF f rm sat x y = (f.nan, flagNV)) ∧
    (∀ n, a = .inf n → b = .inf n → subF f rm sat x y = (f.nan, flagNV) ∧ divF f rm sat x y = (f.nan, flagNV)) ∧
    (∀ n, a.isZero = true → b = .inf n → mulF f rm sat x y = (f.nan, flagNV) ∧ mulF f rm sat y x = (f.nan, flagNV) ∧
      fmaF f rm sat false false x y z = (f.nan, flagNV)) ∧
    (a.isZero = true → b.isZero = true → divF f rm sat x y = (f.nan, flagNV)) ∧
    (∀ s m e n k, a = .fin s (m + 1) e → b = .fin n 0 k →
      divF f rm sat x y = (if f.hasInf then (f.largest + 1 + (if s != n then 2 ^ (f.width - 1) else 0), flagDZ)
        else if sat then (f.largest + (if s != n then 2 ^ (f.width - 1) else 0), flagSA ||| flagDZ)
        else (f.nan, flagNV ||| flagDZ))) ∧
    (∀ s m e n, a = .fin s m e → b = .inf n → divF f rm sat x y = (if s != n then 2 ^ (f.width - 1) else 0, 0)) ∧
    (∀ s m e n k j, a = .fin s m e → b = .fin n k j → valueOf f x = valueOf f y → s ≠ n → m = 0 →
      addF f rm sat x y = (if rm = 2 then 2 ^ (f.width - 1) else 0, 0)) ∧
    (∀ q, valueOf f x = some q → valueOf f y = some (-q) → q ≠ 0 →
      addF f rm sat x y = (if rm = 2 then 2 ^ (f.width - 1) else 0, 0)) ∧
    (a.isNan = true → b.isNan = false →
      minMaxF f false x y = (y, nv) ∧ minMaxF f true x y = (y, nv) ∧ minMaxF f false y x = (y, nv) ∧ minMaxF f true y x = (y, nv)) ∧
    (a.isNan = true → b.isNan = true → minMaxF f false x y = (f.nan, nv) ∧ minMaxF f true x y = (f.nan, nv)) ∧
    (∀ e e2, a = .fin true 0 e → b = .fin false 0 e2 →
      minMaxF f false x y = (x, 0) ∧ minMaxF f true x y = (y, 0) ∧ minMaxF f false y x = (x, 0) ∧ minMaxF f true y x = (y, 0))

/-- R257, R262, R263: comparisons of integer and of FP32 elements. That one of a poisoned element into p0, which discards the
result, raises 0x09 is the model's choice (log entry 95). -/
def Obligations.VectorComparisons : Prop := Claims.VectorIntegerComparisons ∧ Claims.FloatComparisons

/-- R63, R254, R255: what overflow delivers, and NaNs, infinities and zeros as operands. -/
def Obligations.FloatOverflowAndSpecialCases : Prop := Claims.OverflowIsDelivered ∧ Claims.FloatSpecialCases


namespace Sys2Proof.Claims

/-! ### Memory -/

/-- A split issues an instruction that accepts the hint words before it. -/
structure Accepted (s : State) (i : Issue) (a : Accepts) : Prop where
  issuer : s.issuer = some i
  quiet : s.Quiet
  hints : a.ok i.sp.hints = true

/-- No error waits to be found in a bank, and none of its sectors is being encoded anew (R143, R150). -/
def Whole (s : State) (cl b : Nat) : Prop := (s.bank cl b).flaws = [] ∧ (s.bank cl b).reenc = false

/-- No error waits to be found, in DRAM, in the SRAM of a slice or in a bank (R140, R143). -/
def Sound (s : State) : Prop := s.Faultless ∧ ∀ cl b, Whole s cl b

/-- The request collector of the gang's core has room for the line reads of a load (R225). -/
def Room (s : State) (i : Issue) (ls : List Located) : Prop := s.lineReads i.g.core + (linesOf ls).length ≤ 128

/-- No read of a peer's line is on its way to an L1. -/
def NoLines (s : State) : Prop := ∀ l ∈ s.loads, ∀ w ∈ l.await, w.line = none

/-- Nothing of the machine comes between an access of the gang and its memory: no error to be found, no line in an L1 or on
its way there, no store of the gang pending or still to commit, no earlier matrix instruction to wait for (R140, R153, R156,
R290, R325). -/
structure Undisturbed (s : State) (i : Issue) : Prop where
  sound : Sound s
  l1 : s.l1 = []
  lines : NoLines s
  wcb : i.g.wcb = []
  committed : i.g.owes = false
  jobs : s.matrixHolds i.g = false

/-- No release of the gang has anything to wait for (R329, R339). -/
def Free (s : State) (i : Issue) : Prop :=
  (s.begin i).releaseBusy (i.g.setSplit i.k (some (i.sp.issued s.fresh))) = false ∧ i.g.unacked = 0

/-- A part of an access lies in one line of the module's own DRAM. -/
def Own (s : State) (p : Located) : Prop :=
  dpaModule p.phys = s.mgmt.modid ∧ isDram (dpaLocal p.phys) = true ∧ dpaLocal p.phys % 128 + p.part.len ≤ 128

/-- A part lies in own memory of a page that is neither watched nor protected, beyond the system frames, and is not
sealed. -/
structure Ordinary (s : State) (p : Located) : Prop where
  own : Own s p
  above : 0xC00000 ≤ dpaLocal p.phys
  watch : leafWatch p.leaf = false
  prot : leafProt p.leaf = false

/-- No write at a slice is refused or answers a lease unit: no half-line is poisoned, no protection group is in force, and
no task awaits a reply (R101, R128, R142). -/
structure Unguarded (s : State) : Prop where
  poison : s.poison = []
  group : ∀ a, s.groupOf a = none
  replies : s.awaitedSeqs = []

/-- The n bytes of a lane's element are those of memory: x is their little-endian number (R3, R218). -/
def IsElement (s : State) (ls : List Located) (lane n x : Nat) : Prop :=
  x < 256 ^ n ∧ ∀ p ∈ ls, p.part.lane = lane → ∀ k, k < p.part.len →
    x / 256 ^ (p.part.first + k) % 256 = (s.byte (dpaLocal p.phys + k)).toNat

/-- Some byte that a lane reads is poisoned. -/
def ReadsPoison (s : State) (ls : List Located) (lane : Nat) : Bool :=
  ls.any (fun p => p.part.lane == lane && s.anyPoison (dpaLocal p.phys) p.part.len)

/-- The issuing gang is now h, but for the stamp of its last acquire (R309). -/
def Became (t : State) (i : Issue) (h : Gang) : Prop := ∃ n, t.gang i.g.id = some { h with acquired := n }

/-- The issuing gang is now h, its issuing split q; of the rest only what TLBs, walkers, L1s and the SRAM of the slices hold
has changed: no byte of memory, no other gang. -/
structure LookedAt (s t : State) (i : Issue) (h : Gang) (q : Split) : Prop where
  gang : Became t i h
  here : h.split i.k = some q
  others : ∀ k, k ≠ i.k → h.split k = i.g.split k
  rest : { t with gangs := s.gangs, fresh := s.fresh, tlb := s.tlb, ptrs := s.ptrs, l1 := s.l1, sram := s.sram } = s
  gangs : ∀ j, j ≠ i.g.id → t.gang j = s.gang j

/-- The same, and the split stands at the next word. -/
def Looked (s t : State) (i : Issue) (h : Gang) : Prop := LookedAt s t i h (i.after s.fresh (i.sp.pc + 4))

/-- What ld, st, vld and vst ask of the checks (R106, R221, R223). -/
def scalarRequest (i : Issue) (a : BitVec 6) (z : BitVec 2) (o : BitVec 11) (need : Nat) : Request :=
  { pad := false, need, elems := scalarElem (i.g.sreg a.toNat + widened 11 i.sp.hints.imms o.toNat).toNat, size := 2 ^ z.toNat,
    limit := none, aligned := false, scalar := true }
def vectorRequest (i : Issue) (a b : BitVec 6) (z m : BitVec 2) (g : BitVec 4) (need : Nat) : Request :=
  { pad := decide (2 ≤ m.toNat), need, elems := i.elems (activeOf i g) m.toNat a b (2 ^ z.toNat), size := 2 ^ z.toNat,
    limit := i.limit, aligned := false, scalar := false }

/-- Where the address of a vector access is poisoned (R387). -/
def addressMark (i : Issue) (m : BitVec 2) (a b : BitVec 6) (l : Nat) : Bool :=
  i.g.smark a.toNat || i.limitMark || (m.toNat % 2 == 0 && markOf i b l)

/-- The registers of a vector access exist (R28, R219). -/
def AccessRegs (i : Issue) (d b : BitVec 6) (z m : BitVec 2) : Prop :=
  d.toNat < i.g.nregs ∧ (z = 3 → d.toNat + 1 < i.g.nregs) ∧ (m.toNat % 2 = 0 → b.toNat < i.g.nregs)

/-- The lanes m of vd, and of vd + 1 for elements of 8 bytes, take numbers (R219). -/
def LandsIn (g h : Gang) (d : Nat) (z : BitVec 2) (m : Mask) (x : Nat → Nat) (mark : Nat → Bool) : Prop :=
  if z = 3 then WrotePair g h d m (fun l => BitVec.ofNat 32 (x l)) (fun l => BitVec.ofNat 32 (x l / 2 ^ 32)) mark 0
  else g.WroteV h d m (fun l => BitVec.ofNat 32 (x l)) mark 0

/-- The byte that a store last gave to a domain physical address, if it gave one. -/
def lastStored (bs : List StoreByte) (phys : Nat) : Option Byte := (bs.reverse.find? (fun b => b.1 == phys)).map (fun b => b.2.2)

/-- The byte that a gang sees at a domain physical address of its own module: pending in its write-combining buffer, or in
memory (R157). -/
def seenBy (s : State) (id phys : Nat) : Byte :=
  ((s.gang id).bind (fun g => (g.wcb.find? (fun e => e.line == lineOf phys)).bind (fun e =>
    (e.cells.find? (fun c => c.1 == phys)).map (fun c => c.2)))).getD (s.byte (dpaLocal phys))

/-- The issuing gang has stored some bytes, now pending in its buffer or in memory, and its issuing split is now q. It sees
them, and every other byte as before; of the rest only what TLBs, walkers, L1s and the SRAM of the slices hold has changed,
and, as the store is a release, which hash-family slots are released (R309). -/
structure StoredAt (s t : State) (i : Issue) (bs : List StoreByte) (q : Split) : Prop where
  gang : ∃ h, t.gang i.g.id = some h ∧ h.split i.k = some q ∧
    (∀ k, k ≠ i.k → h.split k = i.g.split k) ∧ { h with wcb := i.g.wcb, splits := i.g.splits } = i.g
  seen : ∀ phys, dpaModule phys = s.mgmt.modid → seenBy t i.g.id phys = (lastStored bs phys).getD (s.byte (dpaLocal phys))
  memory : ∀ a, (∀ b ∈ bs, dpaLocal b.1 ≠ a) → t.byte a = s.byte a
  rest : { t with gangs := s.gangs, fresh := s.fresh, tlb := s.tlb, ptrs := s.ptrs, l1 := s.l1, sram := s.sram, mem := s.mem,
                  hashes := s.hashes } = s
  gangs : ∀ j, j ≠ i.g.id → t.gang j = s.gang j

/-- The same, and the split stands at the next word. -/
def Stored (s t : State) (i : Issue) (bs : List StoreByte) : Prop := StoredAt s t i bs (i.after s.fresh (i.sp.pc + 4))

/-- The bytes of lane l of vd that a store of some size writes (R219). -/
def storedBytes (i : Issue) (d : BitVec 6) (z : BitVec 2) (l : Nat) : List Byte :=
  leBytes (2 ^ z.toNat) ((laneOf i d l).toNat + (if z = 3 then 2 ^ 32 * (i.g.vlane (d.toNat + 1) l).toNat else 0))

/-- Store data of lane l is poisoned (R387). -/
def storedMark (i : Issue) (d : BitVec 6) (z : BitVec 2) (l : Nat) : Bool :=
  markOf i d l || (z == 3 && (i.g.vmarks (d.toNat + 1)).getLsbD l)

/-- The issuing split waits, to issue its word again. -/
def BlocksOn (t : State) (i : Issue) (w : Wait) : Prop :=
  ∃ h q, t.gang i.g.id = some h ∧ h.split i.k = some q ∧ q.blocked = some w ∧ q.pc = i.sp.pc

/-- The crews of a state, of which one no longer has a replayable interval (R390). -/
def unreplayed (s : State) (v : Nat) : List Crew := s.crews.map (fun c => if c.val = v then { c with replayable := false } else c)

/-- No crew of the state has changed but in being replayable. -/
def CrewsKept (s t : State) (v : Nat) : Prop := t.crews = unreplayed s v

/-- Atomics (R132, R133) by the width n of their slot, its old value and the operands: the new value and the flags. -/
def atomicOps : List ((BitVec 6 → BitVec 6 → BitVec 1 → Instr) × (BitVec 6 → BitVec 6 → BitVec 5 → BitVec 1 → BitVec 4 → Instr) ×
    (Nat → Nat → Nat → Nat)) :=
  [(.atswap, .vatswap, fun _ _ x => x), (.atadd, .vatadd, fun n old x => (old + x) % 2 ^ n),
   (.atand, .vatand, fun _ old x => old &&& x), (.ator, .vator, fun _ old x => old ||| x),
   (.atxor, .vatxor, fun _ old x => old ^^^ x),
   (.atsmin, .vatsmin, fun n old x => if (BitVec.ofNat n old).toInt ≤ (BitVec.ofNat n x).toInt then old else x),
   (.atsmax, .vatsmax, fun n old x => if (BitVec.ofNat n old).toInt ≤ (BitVec.ofNat n x).toInt then x else old),
   (.atumin, .vatumin, fun _ old x => if old ≤ x then old else x),
   (.atumax, .vatumax, fun _ old x => if old ≤ x then x else old)]

/-- fxadd by the contribution element: the scalar and the vector instruction, and their code (R84, R232). -/
def fixedOps : List ((BitVec 6 → BitVec 6 → Instr) × (BitVec 6 → BitVec 6 → BitVec 5 → BitVec 4 → Instr) × Nat) :=
  [(fun d a => .atfxadd d a 0, fun d a b g => .vatfxadd d a b 0 g, 0), (.atfxaddF16, .vatfxaddF16, 1),
   (.atfxaddBf16, .vatfxaddBf16, 2), (.atfxaddS32, .vatfxaddS32, 3),
   (fun d a => .atfxadd d a 1, fun d a b g => .vatfxadd d a b 1 g, 4)]

/-- What an atomic asks of the checks (R217, R234). -/
def atomicRequest (i : Issue) (es : List Elem) (size : Nat) (scalar : Bool) : Request :=
  { pad := false, need := needBoth, elems := es, size, limit := if scalar then none else i.limit, aligned := true, scalar }

/-- The slot bytes from a local address on, and nothing else in memory, have become a number. -/
def SlotBecomes (s t : State) (a n x : Nat) : Prop :=
  t.readLe a n = x ∧ ∀ b, b < a ∨ a + n ≤ b → t.byte b = s.byte b

/-- An atomic has been performed: the gang is now h, its issuing split q, its crew's interval is no longer replayable, and of
the rest only the slot's memory, what TLBs, walkers, L1s and the SRAM of the slices hold, and which hash-family slots are
released have changed. -/
structure ExchangedAt (s t : State) (i : Issue) (h : Gang) (q : Split) : Prop where
  gang : Became t i h
  here : h.split i.k = some q
  others : ∀ k, k ≠ i.k → h.split k = i.g.split k
  rest : { t with gangs := s.gangs, fresh := s.fresh, tlb := s.tlb, ptrs := s.ptrs, l1 := s.l1, sram := s.sram, mem := s.mem,
                  crews := s.crews, hashes := s.hashes } = s
  gangs : ∀ j, j ≠ i.g.id → t.gang j = s.gang j
  crews : CrewsKept s t i.g.crew

/-- The same, and the split stands at the next word. -/
def Exchanged (s t : State) (i : Issue) (h : Gang) : Prop := ExchangedAt s t i h (i.after s.fresh (i.sp.pc + 4))

/-- The scalar d of a gang takes an old value, and its flags. -/
structure TookOld (g h : Gang) (d x flags : Nat) : Prop where
  rest : { h with s := g.s, sPoison := g.sPoison, fst := g.fst, splits := g.splits } = g
  value : ∀ n, h.sreg n = if n = d then BitVec.ofNat 64 x else g.sreg n
  marks : ∀ n, n < 64 → h.smark n = if n = d then false else g.smark n
  flags : h.fst = g.fst ||| w32 flags

/-- The value of a slot after some lanes have been performed on it, in order. -/
def slotAfter (f : Nat → Nat → Nat) (x : Nat → Nat) (start : Nat) (ls : List Nat) : Nat := ls.foldl (fun v l => f v (x l)) start

end Sys2Proof.Claims

/-- R3, R218, R219, R221, R223, R225: a load of own memory whose checks pass, with room for its line reads, writes its
element, zero-extended or, for ld with SIGN, sign-extended; poison read marks it. No byte of memory changes. Without room it
stalls. -/
def Sys2Proof.Claims.LoadsReadMemory : Prop :=
  ∀ (s u : State) (i : Issue) (es : List Elem) (ls : List Located), Undisturbed s i →
    (¬ Room s i ls → ∀ (d a b : BitVec 6) (z m : BitVec 2) (g : BitVec 4), m.toNat < 2 →
      Accepted s i { ord := 1, cache := true, bnd := true } → AccessRegs i d b z m →
      (s.begin i).check i (vectorRequest i a b z m g needRead) noHost (addressMark i m a b) = .go u es ls [] →
      ∃ t, exec (.vld d a b z m g) s = .next t ∧ BlocksOn t i (.lines (linesOf ls).length)) ∧
    (Room s i ls → (∀ p ∈ ls, Own s p) →
    (∀ (d a : BitVec 6) (z : BitVec 2) (x : BitVec 1) (o : BitVec 11), Accepted s i { imm := 2, ord := 1, cache := true } →
      (s.begin i).check i (scalarRequest i a z o needRead) noHost (fun _ => i.g.smark a.toNat) = .go u es ls [] →
      ∃ t h v, exec (.ld d a z x o) s = .next t ∧ Looked s t i h ∧ IsElement s ls 0 (2 ^ z.toNat) v ∧
        i.g.WroteS h d.toNat (if x = 1 then (BitVec.ofNat (8 * 2 ^ z.toNat) v).signExtend 64 else BitVec.ofNat 64 v)
          (ReadsPoison s ls 0)) ∧
    (∀ (d a b : BitVec 6) (z m : BitVec 2) (g : BitVec 4), m.toNat < 2 → Accepted s i { ord := 1, cache := true, bnd := true } →
      AccessRegs i d b z m →
      (s.begin i).check i (vectorRequest i a b z m g needRead) noHost (addressMark i m a b) = .go u es ls [] →
      ∃ t h v, exec (.vld d a b z m g) s = .next t ∧ Looked s t i h ∧
        (∀ l, l < 32 → (activeOf i g).getLsbD l = true → IsElement s ls l (2 ^ z.toNat) (v l)) ∧
        LandsIn i.g h d.toNat z (activeOf i g) v (fun l => ReadsPoison s ls l)))

/-- R156, R157, R218, R219, R221, R223, R226: a store to own memory whose checks pass, released first where it is ordered:
the gang sees its bytes, of lanes that overlap the last, and nothing else has changed. -/
def Obligations.StoresAreSeenByTheirGang : Prop :=
  ∀ (s u : State) (i : Issue) (es : List Elem) (ls : List Located), Undisturbed s i → Free s i → Unguarded s →
    (∀ p ∈ ls, Ordinary s p) →
    (∀ (d a : BitVec 6) (z : BitVec 2) (o : BitVec 11), Accepted s i { imm := 2, ord := 2, cache := true } →
      (s.begin i).check i (scalarRequest i a z o needWrite) noHost (fun _ => i.g.smark a.toNat || i.g.smark d.toNat)
        = .go u es ls [] →
      ∃ t, exec (.st d a z o) s = .next t ∧
        Stored s t i (storeBytes ls (fun _ => leBytes (2 ^ z.toNat) (i.g.sreg d.toNat).toNat))) ∧
    (∀ (d a b : BitVec 6) (z m : BitVec 2) (g : BitVec 4), m.toNat < 2 → Accepted s i { ord := 2, cache := true, bnd := true } →
      AccessRegs i d b z m →
      (s.begin i).check i (vectorRequest i a b z m g needWrite) noHost (fun l => addressMark i m a b l || storedMark i d z l)
        = .go u es ls [] →
      ∃ t, exec (.vst d a b z m g) s = .next t ∧ Stored s t i (storeBytes ls (storedBytes i d z)))

/-- R158, R159, R217, R219, R227: loads and stores of pad pages that hold a frame, whose checks pass: the pad alone is read
and written, and of lanes that overlap the last is kept. Frames note that they were used. -/
def Sys2Proof.Claims.PadLoadsAndStores : Prop :=
  ∀ (s u : State) (i : Issue) (c : Crew) (es : List Elem) (ls : List Located) (d a b : BitVec 6) (z m : BitVec 2) (g : BitVec 4),
    2 ≤ m.toNat → s.crew i.g.crew = some c → c.shadow = none → s.padHolds i.g = false → AccessRegs i d b z m → Sound s →
    NoLines s → i.g.wcb = [] →
    let Used (k : Crew) : Prop := (∀ page, k.padState page = c.padState page) ∧
      { k with pad := c.pad, padPoison := c.padPoison, padDirty := c.padDirty, padStates := c.padStates, frames := c.frames } = c
    (∀ x ∈ i.elems (activeOf i g) m.toNat a b (2 ^ z.toNat), ∀ k, k < 2 ^ z.toNat → c.padState ((x.addr + k) / 4096) = .pinned) →
    (Accepted s i { ord := 1, cache := true, bnd := true } →
      (s.begin i).check i (vectorRequest i a b z m g needRead) noHost (addressMark i m a b) = .go u es ls [] →
      ∃ t h v k, exec (.vld d a b z m g) s = .next t ∧ Looked s { t with crews := s.crews } i h ∧
        t.crew i.g.crew = some k ∧ Used k ∧ (∀ p, k.padByte p = c.padByte p) ∧ (∀ v, v ≠ i.g.crew → t.crew v = s.crew v) ∧
        (∀ x ∈ i.elems (activeOf i g) m.toNat a b (2 ^ z.toNat), v x.lane < 256 ^ (2 ^ z.toNat) ∧
          ∀ k, k < 2 ^ z.toNat → v x.lane / 256 ^ k % 256 = (c.padByte (x.addr + k)).toNat) ∧
        LandsIn i.g h d.toNat z (activeOf i g) v (fun l => (i.elems (activeOf i g) m.toNat a b (2 ^ z.toNat)).any (fun x =>
          x.lane == l && (List.range (2 ^ z.toNat)).any (fun k => c.padPoison.contains (x.addr + k))))) ∧
    (Accepted s i { ord := 2, cache := true, bnd := true } → Free s i →
      (s.begin i).check i (vectorRequest i a b z m g needWrite) noHost (fun l => addressMark i m a b l || storedMark i d z l)
        = .go u es ls [] →
      ∃ t h k, exec (.vst d a b z m g) s = .next t ∧ t.gang i.g.id = some h ∧ i.g.Same h ∧
        h.split i.k = some (i.after s.fresh (i.sp.pc + 4)) ∧ t.crew i.g.crew = some k ∧
        (∀ p, k.padByte p = (((padCells (i.elems (activeOf i g) m.toNat a b (2 ^ z.toNat)) (2 ^ z.toNat)
          (storedBytes i d z)).reverse.find? (fun y => y.1 == p)).map (fun y => y.2)).getD (c.padByte p)) ∧
        Used k ∧ { t with gangs := s.gangs, fresh := s.fresh, crews := s.crews, hashes := s.hashes } = s ∧
        ∀ v, v ≠ i.g.crew → t.crew v = s.crew v)

/-- R239: prefetches write no register, change no memory, and never fault. -/
def Sys2Proof.Claims.PrefetchesChangeNothingSeen : Prop :=
  ∀ (s : State) (i : Issue), Accepted s i { cache := true } → Sound s →
    (∀ (a : BitVec 6) (o : BitVec 12), ∃ t h, exec (.pf a o) s = .next t ∧ t.gang i.g.id = some h ∧ i.g.Same h ∧
      h.split i.k = some (i.after s.fresh (i.sp.pc + 4)) ∧ (∀ j, j ≠ i.g.id → t.gang j = s.gang j) ∧
      { t with gangs := s.gangs, fresh := s.fresh, tlb := s.tlb, ptrs := s.ptrs, l1 := s.l1, sram := s.sram, out := s.out,
               loads := s.loads } = s) ∧
    (∀ (a b : BitVec 6) (g : BitVec 4), b.toNat < i.g.nregs → ∃ t h, exec (.vpf a b g) s = .next t ∧ t.gang i.g.id = some h ∧
      i.g.Same h ∧ h.split i.k = some (i.after s.fresh (i.sp.pc + 4)) ∧ (∀ j, j ≠ i.g.id → t.gang j = s.gang j) ∧
      { t with gangs := s.gangs, fresh := s.fresh, tlb := s.tlb, ptrs := s.ptrs, l1 := s.l1, sram := s.sram, out := s.out,
               loads := s.loads } = s)

/-- R163, R164, R240, R390: fpush appends an entry whose lanes that take no part hold zero; fpop takes the first entry that
is not void; each waits behind those of its kind that came before it, and while the FIFO is full or leaving its role, or has
no entry; a number with no bank behind it ends the crew. -/
def Sys2Proof.Claims.FifoPushAndPop : Prop :=
  ∀ (s : State) (i : Issue) (f : BitVec 4) (v : BitVec 6) (g : BitVec 4), Ready s i → v.toNat < i.g.nregs →
    let cl := clusterOf i.g.core
    let me := (i.g.id, i.k)
    (s.fifoBank cl i.g.ctx f.toNat = none → Raises (.fpush f v g) s (s.begin i) i 0x07 i.act 0 ∧
      Raises (.fpop f v g) s (s.begin i) i 0x07 i.act 0) ∧
    (∀ b, s.fifoBank cl i.g.ctx f.toNat = some b → i.g.vmarks v.toNat &&& activeOf i g = 0 → i.g.wcb = [] → Free s i →
      (1024 ≤ (s.bank cl b).fifo.length ∨ (s.bank cl b).busy = true ∨ s.fifoBehind cl b true me = true →
        ∃ t, exec (.fpush f v g) s = .next t ∧ BlocksOn t i (.fifoPush f.toNat) ∧ me ∈ (t.bank cl b).waiting) ∧
      ((s.bank cl b).fifo.length < 1024 → (s.bank cl b).busy = false → s.fifoBehind cl b true me = false → Whole s cl b →
      ∃ t h, exec (.fpush f v g) s = .next t ∧ t.gang i.g.id = some h ∧ i.g.Same h ∧
        h.split i.k = some (i.after s.fresh (i.sp.pc + 4)) ∧ (∀ j, j ≠ i.g.id → t.gang j = s.gang j) ∧ CrewsKept s t i.g.crew ∧
        t.bank cl b = { s.bank cl b with fifo := (s.bank cl b).fifo ++
            [.filled ((List.range 32).map (fun l => if (activeOf i g).getLsbD l then laneOf i v l else 0))],
                                            waiting := (s.bank cl b).waiting.filter (· != me) } ∧
        (∀ c k, k < 64 → c ≠ cl ∨ k ≠ b → t.bank c k = s.bank c k) ∧
        { t with gangs := s.gangs, fresh := s.fresh, crews := s.crews, banks := s.banks, hashes := s.hashes } = s)) ∧
    (∀ b, s.fifoBank cl i.g.ctx f.toNat = some b → (s.fifoBehind cl b false me = true ∨
        (∀ ls rest, (s.bank cl b).fifo.dropWhile (fun e => e == .void) ≠ .filled ls :: rest)) →
      ∃ t, exec (.fpop f v g) s = .next t ∧ BlocksOn t i (.fifoPop f.toNat) ∧ me ∈ (t.bank cl b).waiting) ∧
    (∀ b ls rest, s.fifoBank cl i.g.ctx f.toNat = some b → s.fifoBehind cl b false me = false → (s.bank cl b).flaws = [] →
      (s.bank cl b).fifo.dropWhile (fun e => e == .void) = .filled ls :: rest →
      ∃ t h, exec (.fpop f v g) s = .next t ∧ Became t i h ∧
        h.split i.k = some (i.after s.fresh (i.sp.pc + 4)) ∧
        i.g.WroteV h v.toNat (activeOf i g) (fun l => (ls[l]?).getD 0) (fun _ => false) 0 ∧
        (∀ j, j ≠ i.g.id → t.gang j = s.gang j) ∧ CrewsKept s t i.g.crew ∧
        t.bank cl b = { s.bank cl b with fifo := rest, waiting := (s.bank cl b).waiting.filter (· != me),
                                            head := ((s.bank cl b).head + (s.bank cl b).fifo.length - rest.length) % 1024 } ∧ (∀ c k, k < 64 → c ≠ cl ∨ k ≠ b → t.bank c k = s.bank c k) ∧
        { t with gangs := s.gangs, fresh := s.fresh, crews := s.crews, banks := s.banks } = s)

/-- R158, R159, R163, R164, R217, R219, R227, R240, R390: loads and stores of pad pages, and the entries of FIFO banks. That
void entries count towards the 1,024 of a bank (log entry 50) and which bank serves a number while one leaves the role (log entry
114) are the model's choices. -/
def Obligations.PadAndFifoAccesses : Prop := Claims.PadLoadsAndStores ∧ Claims.FifoPushAndPop

/-- R84, R132, R133, R134, R234, R235: a scalar atomic on own memory whose checks pass: one read-modify-write of its slot,
its old value to sd; cas writes only on a match; fadd rounds to nearest whatever FMT holds and sets the gang's flags; fxadd
answers nothing. -/
def Obligations.ScalarAtomics : Prop :=
  ∀ (s u : State) (i : Issue) (es : List Elem) (p : Located) (d a b : BitVec 6) (w : BitVec 1),
    Accepted s i { ord := 3 } → Undisturbed s i → Free s i → Unguarded s → Ordinary s p →
    let n := if w = 1 then 64 else 32
    let at_ := dpaLocal p.phys
    let x := (i.g.sreg d.toNat).toNat % 2 ^ n
    let old := s.readLe at_ (n / 8)
    let passes (size : Nat) (more : Bool) : Prop :=
      (s.begin i).check i (atomicRequest i (scalarElem (i.g.sreg a.toNat).toNat) size true) noHost
        (fun _ => i.g.smark a.toNat || i.g.smark d.toNat || more) = .go u es [p] []
    (∀ op ∈ atomicOps, passes (n / 8) false →
      ∃ t h, exec (op.1 d a w) s = .next t ∧ Exchanged s t i h ∧ TookOld i.g h d.toNat old 0 ∧
        SlotBecomes s t at_ (n / 8) (op.2.2 n old x)) ∧
    (passes (n / 8) (i.g.smark b.toNat) →
      ∃ t h, exec (.atcas d a b w) s = .next t ∧ Exchanged s t i h ∧ TookOld i.g h d.toNat old 0 ∧
        SlotBecomes s t at_ (n / 8) (if old = (i.g.sreg b.toNat).toNat % 2 ^ n then x else old)) ∧
    (w = 0 → passes 4 false →
      ∃ t h, exec (.atfadd d a) s = .next t ∧ Exchanged s t i h ∧ TookOld i.g h d.toNat old (addF fp32 0 false old x).2 ∧
        SlotBecomes s t at_ 4 (addF fp32 0 false old x).1) ∧
    (∀ op ∈ fixedOps, ∀ f, s.region at_ = some (f, i.g.ctx) → passes 16 false →
      ∃ t h, exec (op.1 d a) s = .next t ∧ Exchanged s t i h ∧ i.g.Same h ∧
        SlotBecomes s t at_ 16 (fxAccumulate (s.readLe at_ 16) op.2.2 f (i.g.sreg d.toNat).toNat false))

namespace Sys2Proof.Claims

/-- Lane l of vd, with vd + 1 above it for 64 bits, as a number (R233). -/
def operandOf (i : Issue) (r : Nat) (wide : Bool) (l : Nat) : Nat :=
  (i.g.vlane r l).toNat + (if wide then 2 ^ 32 * (i.g.vlane (r + 1) l).toNat else 0)

/-- Any of n registers from r on is poisoned in a lane. -/
def operandMark (i : Issue) (r n l : Nat) : Bool := (List.range n).any (fun k => (i.g.vmarks (r + k)).getLsbD l)

/-- Active lanes that name the slot of lane l, below it. -/
def earlier (m : Mask) (slot : Nat → Nat) (l : Nat) : List Nat := (lanesBelow m l).filter (fun k => slot k == slot l)

/-- Active lanes that name a slot. -/
def namers (m : Mask) (slot : Nat → Nat) (a : Nat) : List Nat := (lanesBelow m 32).filter (fun k => slot k == a)

/-- Every slot that active lanes name has become what its lanes make of it in ascending order; no other byte has changed. -/
def SlotsBecome (s t : State) (m : Mask) (slot : Nat → Nat) (n : Nat) (f : Nat → Nat → Nat) : Prop :=
  (∀ l, l < 32 → m.getLsbD l = true → t.readLe (slot l) n = (namers m slot (slot l)).foldl f (s.readLe (slot l) n)) ∧
  ∀ b, (∀ l, l < 32 → m.getLsbD l = true → b < slot l ∨ slot l + n ≤ b) → t.byte b = s.byte b

/-- What the vector atomics do, with lanes of each element size m, whose checks for a size and a number of operand registers
are `passes`: lanes that name one slot are performed in ascending lane order, each taking the value that the lane before it
left; the issuing split is then q, and the step ends as `ends` says. -/
def VectorAtomicsOn (s : State) (i : Issue) (slot : Nat → Nat) (d a : BitVec 6) (b : BitVec 5) (w : BitVec 1) (g : BitVec 4)
    (m : Nat → Mask) (passes : Nat → Nat → Prop) (q : Split) (ends : Nat → State → Outcome) : Prop :=
  let n := if w = 1 then 64 else 32
  let k := if w = 1 then 2 else 1
  let z : BitVec 2 := if w = 1 then 3 else 2
  let x (l : Nat) : Nat := operandOf i d.toNat (w == 1) l
  let y (l : Nat) : Nat := operandOf i (d.toNat + k) (w == 1) l
  let start (l : Nat) : Nat := s.readLe (slot l) (n / 8)
  (∀ op ∈ atomicOps, d.toNat + k ≤ i.g.nregs → passes (n / 8) k →
    let f (v l : Nat) : Nat := op.2.2 n v (x l)
    ∃ t h, exec (op.2.1 d a b w g) s = ends (n / 8) t ∧ ExchangedAt s t i h q ∧
      LandsIn i.g h d.toNat z (m (n / 8)) (fun l => (earlier (m (n / 8)) slot l).foldl f (start l)) (fun _ => false) ∧
      SlotsBecome s t (m (n / 8)) slot (n / 8) f) ∧
  (d.toNat + 2 * k ≤ i.g.nregs → passes (n / 8) (2 * k) →
    let f (v l : Nat) : Nat := if v = y l then x l else v
    ∃ t h, exec (.vatcas d a b w g) s = ends (n / 8) t ∧ ExchangedAt s t i h q ∧
      LandsIn i.g h d.toNat z (m (n / 8)) (fun l => (earlier (m (n / 8)) slot l).foldl f (start l)) (fun _ => false) ∧
      SlotsBecome s t (m (n / 8)) slot (n / 8) f) ∧
  (w = 0 → d.toNat < i.g.nregs → passes 4 1 →
    let f (v l : Nat) : Nat := (addF fp32 0 false v (x l)).1
    let old (l : Nat) : Nat := (earlier (m 4) slot l).foldl f (start l)
    ∃ t h, exec (.vatfadd d a b g) s = ends 4 t ∧ ExchangedAt s t i h q ∧
      i.g.WroteV h d.toNat (m 4) (fun l => BitVec.ofNat 32 (old l)) (fun _ => false)
        (flagsOf (m 4) (fun _ => false) (fun l => (addF fp32 0 false (old l) (x l)).2)) ∧
      SlotsBecome s t (m 4) slot 4 f) ∧
  (∀ op ∈ fixedOps, ∀ fr : Nat → Nat, (w = 1 ↔ op.2.2 = 4) → d.toNat + k ≤ i.g.nregs → passes 16 k →
    (∀ l, l < 32 → (m 16).getLsbD l = true → s.region (slot l) = some (fr (slot l), i.g.ctx)) →
    ∃ t h, exec (op.2.1 d a b g) s = ends 16 t ∧ ExchangedAt s t i h q ∧ i.g.Same h ∧
      SlotsBecome s t (m 16) slot 16 (fun v l => fxAccumulate v op.2.2 (fr (slot l)) (x l) false))

/-- The offset of lane l in a vector access of a mode and size (R217). -/
def offsetOf (i : Issue) (b : BitVec 6) (mode size l : Nat) : Nat := if mode = 1 then l * size else (laneOf i b l).toNat

/-- The active lanes of a vector access that pass a limit (R230). -/
def pastLimit (i : Issue) (m : Mask) (b : BitVec 6) (mode size limit : Nat) : Mask :=
  maskOf ((lanesBelow m 32).filter (fun l => decide (limit < offsetOf i b mode size l + size)))

/-- Of the lanes that a vector access reaches, l is the first past the limit of hint.bnd; none of the others meets a sealed page
or a misaligned slot, or consumes poison. -/
structure StopsAt (i : Issue) (m : Mask) (a b : BitVec 6) (mode size : Nat) (r : BitVec 6) (ls : List Located) (l : Nat)
    (poison : Nat → Bool) (aligned : Bool) : Prop where
  hint : i.sp.hints.bnd = some r.toNat ∧ i.sp.hints.limit = none
  first : (pastLimit i m b mode size (i.g.sreg r.toNat).toNat).getLsbD l = true ∧
    ∀ k, k < l → (pastLimit i m b mode size (i.g.sreg r.toNat).toNat).getLsbD k = false
  others : ∀ p ∈ ls, (pastLimit i m b mode size (i.g.sreg r.toNat).toNat).getLsbD p.part.lane = false → p.isSealed = false
  sound : ∀ k ∈ lanesBelow m 32, (pastLimit i m b mode size (i.g.sreg r.toNat).toNat).getLsbD k = false → poison k = false ∧
    (aligned = true → (((i.g.sreg a.toNat).toNat + offsetOf i b mode size k) % 2 ^ 64) % size = 0)

/-- R106, R217, R229, R230, R233: of a vector load, store or atomic of global memory under hint.bnd, of which some lanes pass the
limit: the other lanes are performed, and then the split takes 0x06, for all lanes that passed it, at the address of the first. -/
def LanesPastTheLimit (s : State) (i : Issue) (u : State) (ls : List Located) (r : BitVec 6) (l : Nat) : Prop :=
  let past (m : Mask) (b : BitVec 6) (mode size : Nat) : Mask := pastLimit i m b mode size (i.g.sreg r.toNat).toNat
  let rest (m : Mask) (b : BitVec 6) (mode size : Nat) : Mask := m &&& ~~~ past m b mode size
  let inside (m : Mask) (b : BitVec 6) (mode size : Nat) : List Located :=
    ls.filter (fun p => (rest m b mode size).getLsbD p.part.lane)
  let ends (m : Mask) (a b : BitVec 6) (mode size : Nat) (t : State) : Outcome := .next (t.takeCause i.g.id i.k 0x06
    (past m b mode size) (((i.g.sreg a.toNat).toNat + offsetOf i b mode size l) % 2 ^ 64)).settle
  (∀ (d a b : BitVec 6) (z m : BitVec 2) (g : BitVec 4), m.toNat < 2 → Undisturbed s i →
    Accepted s i { ord := 1, cache := true, bnd := true } → AccessRegs i d b z m →
    StopsAt i (activeOf i g) a b m.toNat (2 ^ z.toNat) r ls l (addressMark i m a b) false →
    (s.begin i).reach i (vectorRequest i a b z m g needRead) = (u, none, ls) →
    Room s i (inside (activeOf i g) b m.toNat (2 ^ z.toNat)) → (∀ p ∈ inside (activeOf i g) b m.toNat (2 ^ z.toNat), Own s p) →
    ∃ t h v, exec (.vld d a b z m g) s = ends (activeOf i g) a b m.toNat (2 ^ z.toNat) t ∧ LookedAt s t i h (i.sp.issued s.fresh) ∧
      (∀ k, k < 32 → (rest (activeOf i g) b m.toNat (2 ^ z.toNat)).getLsbD k = true →
        IsElement s (inside (activeOf i g) b m.toNat (2 ^ z.toNat)) k (2 ^ z.toNat) (v k)) ∧
      LandsIn i.g h d.toNat z (rest (activeOf i g) b m.toNat (2 ^ z.toNat)) v
        (fun k => ReadsPoison s (inside (activeOf i g) b m.toNat (2 ^ z.toNat)) k)) ∧
  (∀ (d a b : BitVec 6) (z m : BitVec 2) (g : BitVec 4), m.toNat < 2 → Undisturbed s i → Free s i → Unguarded s →
    Accepted s i { ord := 2, cache := true, bnd := true } → AccessRegs i d b z m →
    StopsAt i (activeOf i g) a b m.toNat (2 ^ z.toNat) r ls l (fun k => addressMark i m a b k || storedMark i d z k) false →
    (s.begin i).reach i (vectorRequest i a b z m g needWrite) = (u, none, ls) →
    (∀ p ∈ inside (activeOf i g) b m.toNat (2 ^ z.toNat), Ordinary s p) →
    ∃ t, exec (.vst d a b z m g) s = ends (activeOf i g) a b m.toNat (2 ^ z.toNat) t ∧
      StoredAt s t i (storeBytes (inside (activeOf i g) b m.toNat (2 ^ z.toNat)) (storedBytes i d z)) (i.sp.issued s.fresh)) ∧
  (∀ (slot : Nat → Nat) (d a : BitVec 6) (b : BitVec 5) (w : BitVec 1) (g : BitVec 4), Undisturbed s i → Free s i → Unguarded s →
    Accepted s i { ord := 3, bnd := true } → b.toNat < i.g.nregs →
    VectorAtomicsOn s i slot d a b w g (rest (activeOf i g) (b.zeroExtend 6) 0)
      (fun size regs => (s.begin i).reach i (atomicRequest i (i.elems (activeOf i g) 0 a (b.zeroExtend 6) size) size false) = (u, none, ls) ∧
        StopsAt i (activeOf i g) a (b.zeroExtend 6) 0 size r ls l
          (fun k => addressMark i 0 a (b.zeroExtend 6) k || operandMark i d.toNat regs k) true ∧
        ∀ p ∈ inside (activeOf i g) (b.zeroExtend 6) 0 size, Ordinary s p ∧ slot p.part.lane = dpaLocal p.phys ∧ dpaLocal p.phys % size = 0)
      (i.sp.issued s.fresh) (ends (activeOf i g) a (b.zeroExtend 6) 0))

end Sys2Proof.Claims

/-- R132, R133, R226, R234, R235: a vector atomic on own memory whose checks pass: lanes that name one slot are performed in
ascending lane order, each taking the value that the lane before it left; fadd sets the flags of every lane. -/
def Obligations.VectorAtomics : Prop :=
  ∀ (s u : State) (i : Issue) (es : List Elem) (ls : List Located) (slot : Nat → Nat) (d a : BitVec 6) (b : BitVec 5) (w : BitVec 1)
    (g : BitVec 4),
    Accepted s i { ord := 3, bnd := true } → Undisturbed s i → Free s i → Unguarded s → (∀ p ∈ ls, Ordinary s p) →
    (∀ p ∈ ls, slot p.part.lane = dpaLocal p.phys) → b.toNat < i.g.nregs →
    Claims.VectorAtomicsOn s i slot d a b w g (fun _ => activeOf i g)
      (fun size regs => (s.begin i).check i (atomicRequest i (i.elems (activeOf i g) 0 a (b.zeroExtend 6) size) size false) noHost
          (fun l => addressMark i 0 a (b.zeroExtend 6) l || operandMark i d.toNat regs l) = .go u es ls [] ∧
        ∀ p ∈ ls, dpaLocal p.phys % size = 0)
      (i.after s.fresh (i.sp.pc + 4)) (fun _ => .next)

/-- R83, R84: one accumulation into an FX96 slot: the integer the contribution converts to is added modulo 2^96, the count
rises and stays at its maximum, and the flag of a conversion that did not fit, like that of a poisoned contribution, stays
set. -/
def Obligations.FixedPointAccumulation : Prop :=
  ∀ (slot elem f x : Nat) (poison : Bool),
    let r := fxAccumulate slot elem f x poison
    let c : Int × Bool := if poison then (0, false) else fxConvert elem f x
    r < 2 ^ 122 ∧ ((r % 2 ^ 96 : Nat) : Int) = ((slot % 2 ^ 96 : Nat) + c.1) % 2 ^ 96 ∧
    r / 2 ^ 96 % 2 ^ 24 = min (slot / 2 ^ 96 % 2 ^ 24 + 1) (2 ^ 24 - 1) ∧
    (r.testBit 120 = (slot.testBit 120 || c.2)) ∧ (r.testBit 121 = (slot.testBit 121 || poison)) ∧
    (elem = 3 → f ≤ 95 → poison = false →
      let v : Int := (BitVec.ofNat 32 x).toInt * 2 ^ f
      c = (max (-(2 ^ 95)) (min (2 ^ 95 - 1) v), decide (v < -(2 ^ 95) ∨ 2 ^ 95 ≤ v))) ∧
    (∀ sg m e, elem = 0 → decodeF fp32 (x % 2 ^ 32) = .fin sg m e → 0 ≤ e + f → poison = false →
      let v : Int := (if sg then -1 else 1) * m * 2 ^ (e + f).toNat
      c = (max (-(2 ^ 95)) (min (2 ^ 95 - 1) v), decide (v < -(2 ^ 95) ∨ 2 ^ 95 ≤ v)))

/-- R106, R158, R229, R230, R385, R387: where accesses stop. Outside the lease or the pad nothing is performed and the crew
ends with 0x07; a store to a sealed page takes 0x08; of a vector load, store or atomic of global memory the lanes past the limit
of hint.bnd take 0x06 together, after the others have been performed; poison consumed raises 0x09. -/
def Obligations.AccessesStopInOrder : Prop :=
  ∀ (s : State) (i : Issue),
    (∀ (d a : BitVec 6) (z : BitVec 2) (x : BitVec 1) (o : BitVec 11), Accepted s i { imm := 2, ord := 1, cache := true } →
      i.g.onControl = false →
      let ea := (i.g.sreg a.toNat + widened 11 i.sp.hints.imms o.toNat).toNat
      (ea % 128 + 2 ^ z.toNat ≤ 128 → leased (s.leaseOf i.g) needRead ea (2 ^ z.toNat) = false →
        Raises (.ld d a z x o) s (s.begin i) i 0x07 i.act (firstUnleased (s.leaseOf i.g) needRead ea (2 ^ z.toNat))) ∧
      (∀ u es ls f, (s.begin i).check i (scalarRequest i a z o needRead) noHost (fun _ => false) = .go u es ls f → es ≠ [] →
        i.g.smark a.toNat = true → Raises (.ld d a z x o) s u i 0x09 i.act 0)) ∧
    (∀ (d a : BitVec 6) (z : BitVec 2) (o : BitVec 11) (u : State) (p : Located),
      Accepted s i { imm := 2, ord := 2, cache := true } → s.matrixHolds i.g = false →
      let ea := (i.g.sreg a.toNat + widened 11 i.sp.hints.imms o.toNat).toNat
      ea % 128 + 2 ^ z.toNat ≤ 128 → (s.begin i).reach i (scalarRequest i a z o needWrite) = (u, none, [p]) → p.part.lane = 0 →
      p.isSealed = true → Raises (.st d a z o) s u i 0x08 i.act ea) ∧
    (∀ u ls r l, Claims.LanesPastTheLimit s i u ls r l) ∧
    (∀ (d a b : BitVec 6) (z m : BitVec 2) (g : BitVec 4), 2 ≤ m.toNat → Accepted s i { ord := 1, cache := true, bnd := true } →
      AccessRegs i d b z m → ∀ x c, s.crew i.g.crew = some c →
      (i.elems (activeOf i g) m.toNat a b (2 ^ z.toNat)).find? (fun e => decide (4096 * c.pads < e.addr + 2 ^ z.toNat)) = some x →
      Raises (.vld d a b z m g) s (s.begin i) i 0x07 i.act (max x.addr (4096 * c.pads)))

/-- R218, R219, R223, R239: loads write their element; prefetches write nothing and never fault. -/
def Obligations.LoadsAndPrefetches : Prop := Claims.LoadsReadMemory ∧ Claims.PrefetchesChangeNothingSeen


namespace Sys2Proof.Claims

/-! ### Fences, barriers and crews -/

/-- The split blocks with a wait, its word to be issued again when the wait is over; nothing else changes. -/
def Waits (n : Instr) (s : State) (i : Issue) (w : Wait) : Prop :=
  ∃ t h, exec n s = .next t ∧ Performed s t i { i.sp.issued s.fresh with blocked := some w } h ∧ i.g.Same h

/-- The cluster L1s after an acquire at a scope: at .die or wider the own cluster keeps only sealed lines (R329). -/
def acquired (l : List L1Line) (cluster scope : Nat) : List L1Line :=
  if scope < 3 then l else l.filter (fun x => x.cluster != cluster || x.sealed)

/-- The issuing gang is now h, but for the stamp of its last acquire (R309), and stands at the next word; the L1s are those
of l, and nothing else has changed but which hash-family slots are released. -/
def GoesOn (s t : State) (i : Issue) (h : Gang) (l : List L1Line) : Prop :=
  (∃ n, Performed s { t with l1 := s.l1, hashes := s.hashes } i (i.after s.fresh (i.sp.pc + 4)) { h with acquired := n }) ∧ t.l1 = l

/-- What the gang installed in hash-family slots is released (R309). -/
def Releases (t : State) (i : Issue) : Prop := ∀ x ∈ t.hashes, x.gang = i.g.id → x.released ≠ none

/-- A gang that issues a fence or an arrival finds nothing to wait for, no deferred cause is pending, and no line is on its
way to an L1 (R329, R353). -/
def Clear (s : State) (i : Issue) : Prop := i.g.wcb = [] ∧ Free s i ∧ i.g.nextDeferred = none ∧ NoLines s

/-- A barrier name of the issuing crew c is bound to an offset, whose pad page holds a frame, in sound banks; the crew has no
shadow, and a barrier slot is there for the object (R182). -/
structure AtBarrier (s : State) (i : Issue) (n : BitVec 4) (c : Crew) (off : Nat) : Prop where
  crew : s.crew i.g.crew = some c
  own : c.val = i.g.crew
  name : c.bound n.toNat = some off
  frame : c.padState (off / 4096) = .pinned
  inside : off % 16 = 0
  shadow : c.shadow = none
  sound : ∀ cl b, Whole s cl b
  deferred : c.deferred.contains off = false
  slot : (s.begin i).slotsTaken i.g.core i.g.crew off = false

/-- Only the issuing gang, now h, and the gangs and pad of its crew have changed, L1s, and which hash-family slots are
released. -/
structure AtCrew (s t : State) (i : Issue) (h : Gang) (q : Split) : Prop where
  gang : t.gang i.g.id = some h
  here : h.split i.k = some q
  rest : { t with gangs := s.gangs, fresh := s.fresh, crews := s.crews, l1 := s.l1, hashes := s.hashes } = s
  crews : ∀ v, v ≠ i.g.crew → t.crew v = s.crew v

/-- The lanes with which a gang arrives under a guard. -/
def arriving (i : Issue) (g : BitVec 4) : Nat := countBits 32 (fun l => (activeOf i g).getLsbD l)

end Sys2Proof.Claims

/-- R329, R331, R339, R353, R207: fences. With nothing to wait for a fence goes on, and one that acquires at .die or wider
leaves only sealed lines in its cluster's L1; fence.sv also writes whether a protected store was lost, and clears that. A
deferred cause pending is taken instead, and one not yet acknowledged store makes a fence wait. -/
def Sys2Proof.Claims.Fences : Prop :=
  ∀ (s : State) (i : Issue), Ready s i →
    (Clear s i → ∀ c : BitVec 3,
      (∃ t h, exec (.fenceAcq c) s = .next t ∧ GoesOn s t i h (acquired s.l1 (clusterOf i.g.core) c.toNat) ∧ i.g.Same h) ∧
      (∃ t h, exec (.fenceRel c) s = .next t ∧ GoesOn s t i h s.l1 ∧ i.g.Same h ∧ Releases t i) ∧
      (∃ t h, exec (.fenceFull c) s = .next t ∧ GoesOn s t i h (acquired s.l1 (clusterOf i.g.core) c.toNat) ∧ i.g.Same h ∧
        Releases t i)) ∧
    (Clear s i → ∀ d : BitVec 6, ∃ t h, exec (.fenceSv d) s = .next t ∧
      GoesOn s t i h (acquired s.l1 (clusterOf i.g.core) 5) ∧
      i.g.WroteS { h with lostStore := i.g.lostStore } d.toNat (if i.g.lostStore then 1 else 0) false ∧ h.lostStore = false) ∧
    (∀ k a, i.g.wcb = [] → Free s i → i.g.nextDeferred = some (k, a) →
      let u := ((s.begin i).releaseSlots i.g.id).updGang i.g.id (fun g => g.clearDeferred k)
      (∀ c : BitVec 3, Raises (.fenceAcq c) s u i k i.act a ∧ Raises (.fenceRel c) s u i k i.act a ∧
        Raises (.fenceFull c) s u i k i.act a) ∧ ∀ d : BitVec 6, Raises (.fenceSv d) s u i k i.act a) ∧
    (i.g.wcb = [] → i.g.pendingAcks ≠ 0 →
      (∀ c : BitVec 3, Waits (.fenceAcq c) s i .drain ∧ Waits (.fenceRel c) s i .drain ∧ Waits (.fenceFull c) s i .drain) ∧ ∀ d, Waits (.fenceSv d) s i .drain)

/-- R332: fence.remote names a cluster of the module, or raises 0x13; with nothing in flight at its victims, the gangs of
its context there, pre-empted ones too, it goes on at once, and neither cluster's L1 keeps a line that is not sealed. -/
def Sys2Proof.Claims.RemoteFence : Prop :=
  ∀ (s : State) (i : Issue) (a : BitVec 6), Ready s i → (∀ ts, i.sp.blocked ≠ some (.cut ts)) →
    let cl := (i.g.sreg a.toNat).toNat
    (575 < cl → Raises (.fenceRemote a) s (s.begin i) i 0x13 i.act 0) ∧
    (cl ≤ 575 → Clear s i →
      (∀ g ∈ s.allGangs, g.ctx = i.g.ctx → clusterOf g.core = cl → g.id ≠ i.g.id → s.inFlight g = [] ∧
        ∀ h ∈ s.gangs, h.id = g.id → h.wcb = [] ∧ s.inFlight h = []) →
      ∃ t h, exec (.fenceRemote a) s = .next t ∧ Became t i h ∧ i.g.Same h ∧
        h.split i.k = some (i.after s.fresh (i.sp.pc + 4)) ∧ (∀ k, k ≠ i.k → h.split k = i.g.split k) ∧
        t.l1 = acquired (acquired s.l1 cl 3) (clusterOf i.g.core) 4 ∧
        (∀ j, j ≠ i.g.id → ∃ n, t.gang j = (s.gang j).map (fun g => { g with acquired := n })) ∧
        { t with gangs := s.gangs, fresh := s.fresh, l1 := s.l1, hashes := s.hashes } = s)

/-- R91, R330, R342, R343: seal and unseal are the resident's alone; a malformed operand is machine check 4 and nothing
more; of a range of one page the leaf is rewritten, and the page leaves every TLB. -/
def Sys2Proof.Claims.SealAndUnseal : Prop :=
  ∀ (s : State) (i : Issue) (a b : BitVec 6), Ready s i →
    let base := (i.g.sreg a.toNat).toNat
    let len := (i.g.sreg b.toNat).toNat % 2 ^ 48
    let ctx := (i.g.sreg b.toNat).toNat / 2 ^ 48
    (i.g.ctx ≠ 0 → Raises (.sealPages a b) s (s.begin i) i 0x02 i.act 0 ∧ Raises (.unsealPages a b) s (s.begin i) i 0x02 i.act 0) ∧
    (i.g.ctx = 0 → i.g.smark a.toNat = false → i.g.smark b.toNat = false →
      (base % 4096 ≠ 0 ∨ 2 ^ 56 ≤ base ∨ len = 0 ∨ len % 4096 ≠ 0 ∨ s.rootOf ctx = none) →
      ∀ n ∈ [Instr.sealPages a b, Instr.unsealPages a b],
        exec n s = .next ((((s.begin i).machineCheck 4 base 0).goOn i.g.id i.k (i.sp.pc + 4)).settle)) ∧
    (i.g.ctx = 0 → i.g.smark a.toNat = false → i.g.smark b.toNat = false → Clear s i → Unguarded s →
      (∀ g ∈ s.gangs, g.wcb = []) → s.rangeBusy ctx base len = false →
      ∀ at_ e, walk s ctx base = .leaf base len at_ e → base % 4096 = 0 → base + len ≤ 2 ^ 56 → len % 4096 = 0 → 0 < len →
        s.rootOf ctx ≠ none → 0xC00000 ≤ at_ → s.Faultless →
        (leafSeal e = false → ∃ t h x, exec (.sealPages a b) s = .next t ∧ t.gang i.g.id = some h ∧ i.g.Same h ∧
          h.split i.k = some (i.after s.fresh (i.sp.pc + 4)) ∧ t.readLe at_ 8 = x ∧
          (∀ k, k < 64 → x.testBit k = if k = 11 then true else if k = 4 then false else if k = 2 then e.testBit 4 else e.testBit k) ∧
          (∀ b, b < at_ ∨ at_ + 8 ≤ b → t.byte b = s.byte b) ∧
          (∀ y ∈ t.tlb, y.ctx = ctx → base + len ≤ y.va ∨ y.va + y.size ≤ base)) ∧
        (leafSeal e = true → ∃ t h x, exec (.unsealPages a b) s = .next t ∧ t.gang i.g.id = some h ∧ i.g.Same h ∧
          h.split i.k = some (i.after s.fresh (i.sp.pc + 4)) ∧ t.readLe at_ 8 = x ∧
          (∀ k, k < 64 → x.testBit k = if k = 11 then false else if k = 4 then e.testBit 2 else if k = 2 then false else e.testBit k) ∧
          (∀ b, b < at_ ∨ at_ + 8 ≤ b → t.byte b = s.byte b) ∧
          (∀ y ∈ t.tlb, y.ctx = ctx → base + len ≤ y.va ∨ y.va + y.size ≤ base) ∧
          ∀ y ∈ t.l1, y.sealed = true → y.line < leafPhys e base base ∨ leafPhys e base base + len ≤ y.line))

/-- R344, R20: drysync waits for the cores in service that are not gated, and as the last of their passes has ended writes
whether one failed. -/
def Sys2Proof.Claims.Drysync : Prop :=
  ∀ (s : State) (i : Issue) (d : BitVec 6), Ready s i →
    (∀ bad, i.sp.blocked = some (.skim [] bad) → WritesScalar (.drysync d) s i d (if bad then 1 else 0) false) ∧
    (i.sp.blocked = none → s.skimCores = [] → WritesScalar (.drysync d) s i d 0 false) ∧
    (i.sp.blocked = none → s.skimCores ≠ [] → Waits (.drysync d) s i (.skim s.skimCores false)) ∧
    (∀ c cs bad, i.sp.blocked = some (.skim (c :: cs) bad) → Waits (.drysync d) s i (.skim (c :: cs) bad)) ∧
    ∀ c, c ∈ s.skimCores ↔ c % 4096 < Config.cores ∧ (s.core (c % 4096)).outOfService = false ∧
      s.gated (c % 4096) = false ∧ c = c % 4096 + (if (s.core (c % 4096)).closed then 4096 else 0)

/-- R181, R182, R192, R193: bar.init binds a name and writes a fresh object, or is refused; a barrier instruction on an
unbound name waits, and one that finds every barrier slot with a waiter. -/
def Sys2Proof.Claims.BarrierBinding : Prop :=
  ∀ (s : State) (i : Issue) (n : BitVec 4) (a b : BitVec 6) (c : Crew), Ready s i → s.crew i.g.crew = some c →
    let off := (i.g.sreg a.toNat).toNat
    let x := (i.g.sreg b.toNat).toNat
    (4096 * c.pads ≤ off → Raises (.barInit n a b) s (s.begin i) i 0x07 i.act off) ∧
    (off < 4096 * c.pads → i.g.smark a.toNat = false → i.g.smark b.toNat = false →
      (off % 16 ≠ 0 ∨ 2 ^ 14 ≤ x ∨ 1024 < x % 2 ^ 12 ∨ (s.begin i).barBusy c off = true) →
      Raises (.barInit n a b) s (s.begin i) i 0x13 i.act 0) ∧
    (off < 4096 * c.pads → i.g.smark a.toNat = false → i.g.smark b.toNat = false → off % 16 = 0 → x < 2 ^ 14 → x % 2 ^ 12 ≤ 1024 →
      (s.begin i).barBusy c off = false → c.padState (off / 4096) = .pinned → c.shadow = none → i.g.onControl = false →
      (∀ cl b, Whole s cl b) →
      ∃ t h k, exec (.barInit n a b) s = .next t ∧ AtCrew s t i h (i.after s.fresh (i.sp.pc + 4)) ∧
        t.crew i.g.crew = some k ∧ k.bound n.toNat = some off ∧ (∀ m, m ≠ n.toNat → k.bound m = c.bound m) ∧
        t.bar i.g.crew off = { gen := 0, exp := x % 2 ^ 12, pend := x % 2 ^ 12, ckpt := x.testBit 12, mtrk := x.testBit 13, hold := false,
                               ovr := false, inb := 0, outb := 0, chrem := 0, ogen := 0 } ∧
        (∀ m, k.bound m = some off → (h.arrival m).mask = 0) ∧
        { h with arrivals := i.g.arrivals, splits := i.g.splits } = i.g ∧ ∀ p, p < off ∨ off + 16 ≤ p → k.padByte p = c.padByte p) ∧
    (c.bound n.toNat = none → ∀ (d : BitVec 6) (g : BitVec 4),
      ∀ w ∈ [Instr.barArrive n d g, Instr.barWait n d, Instr.barSync n d g, Instr.barGen n d, Instr.barObs n, Instr.barDrop n],
        Waits w s i (.name n.toNat)) ∧
    (∀ o, c.bound n.toNat = some o → i.sp.blocked = none → (s.begin i).slotsTaken i.g.core i.g.crew o = true → ∀ (d : BitVec 6) (g : BitVec 4),
      ∀ w ∈ [Instr.barArrive n d g, Instr.barWait n d, Instr.barSync n d g, Instr.barGen n d, Instr.barObs n, Instr.barDrop n],
        Waits w s i (.slot o))

/-- R183, R185, R186, R189, R192, R194: arrivals and waits. An arrival counts its lanes and answers the generation; the one
that completes a phase moves the generation on and releases the waiters, bar.sync's own split among them; bar.wait goes on
once the generation has moved, as an acquire at .mod. -/
def Obligations.BarrierArrivalAndWait : Prop :=
  ∀ (s : State) (i : Issue) (n : BitVec 4) (c : Crew) (off : Nat) (d : BitVec 6) (g : BitVec 4), Ready s i → AtBarrier s i n c off →
    (i.g.arrival n.toNat).obs = false →
    let b := s.bar i.g.crew off
    let m := arriving i g
    (Clear s i → i.sp.blocked = none → i.g.onControl = false → i.g.arrivedAt (c.namesOf off) b.gen = 0 → 0 < m → m < b.pend →
      (∃ t h, exec (.barArrive n d g) s = .next t ∧ AtCrew s t i h (i.after s.fresh (i.sp.pc + 4)) ∧
        i.g.WroteS { h with arrivals := i.g.arrivals } d.toNat (BitVec.ofNat 64 b.gen) false ∧
        h.arrival n.toNat = { mask := activeOf i g, gen := b.gen, obs := false } ∧
        t.bar i.g.crew off = { b with pend := b.pend - m }) ∧
      (∃ t h, exec (.barSync n d g) s = .next t ∧
        AtCrew s t i h { i.sp.issued s.fresh with blocked := some (.gen n.toNat b.gen (some d.toNat)) } ∧
        { h with arrivals := i.g.arrivals, splits := i.g.splits } = i.g ∧
        h.arrival n.toNat = { mask := activeOf i g, gen := b.gen, obs := false } ∧
        t.bar i.g.crew off = { b with pend := b.pend - m })) ∧
    (Clear s i → i.sp.blocked = none → i.g.onControl = false → i.g.arrivedAt (c.namesOf off) b.gen = 0 → 0 < m → m = b.pend →
      b.inb = 0 → b.outb = 0 → b.chrem = 0 → b.hold = false → b.ckpt = false →
      (∀ k q, k ≠ i.k → i.g.split k = some q → q.blocked = none) →
      (∃ t h, exec (.barArrive n d g) s = .next t ∧ AtCrew s t i h (i.after s.fresh (i.sp.pc + 4)) ∧
        i.g.WroteS { h with arrivals := i.g.arrivals } d.toNat (BitVec.ofNat 64 b.gen) false ∧
        t.bar i.g.crew off = { b with gen := (b.gen + 1) % 16, pend := b.exp } ∧
        ∀ k p j q w, s.gang j = some k → j ≠ i.g.id → k.crew = i.g.crew → k.onControl = false → p < 4 → k.split p = some q →
          q.blocked = some (.gen n.toNat b.gen w) → ∃ k' q', t.gang j = some k' ∧ k'.split p = some q' ∧ q'.blocked = some .released ∧
            ∀ r, w = some r → k'.sreg r = BitVec.ofNat 64 ((b.gen + 1) % 16)) ∧
      (i.k < 4 → ∃ t h, exec (.barSync n d g) s = .next t ∧ AtCrew s t i h { i.sp.issued s.fresh with blocked := some .released } ∧
        i.g.WroteS { h with arrivals := i.g.arrivals } d.toNat (BitVec.ofNat 64 ((b.gen + 1) % 16)) false ∧
        t.bar i.g.crew off = { b with gen := (b.gen + 1) % 16, pend := b.exp })) ∧
    (NoLines s → i.sp.blocked = some .released → ∀ w ∈ [Instr.barWait n d, Instr.barSync n d g],
      ∃ t h, exec w s = .next t ∧ GoesOn s t i h (acquired s.l1 (clusterOf i.g.core) 4) ∧ i.g.Same h) ∧
    (i.sp.blocked = none → NoLines s →
      (b.gen ≠ (i.g.sreg d.toNat).toNat % 16 →
        ∃ t h, exec (.barWait n d) s = .next t ∧ GoesOn s t i h (acquired s.l1 (clusterOf i.g.core) 4) ∧ i.g.Same h) ∧
      (b.gen = (i.g.sreg d.toNat).toNat % 16 → Waits (.barWait n d) s i (.gen n.toNat b.gen none))) ∧
    WritesScalar (.barGen n d) s i d (BitVec.ofNat 64 b.gen) false

/-- R187, R192, R193: an observer registers at a bound object unless there is one, and bar.drop ends its registration; an
arrival by an observer changes nothing but OVR. -/
def Sys2Proof.Claims.BarrierObservers : Prop :=
  ∀ (s : State) (i : Issue) (n : BitVec 4) (c : Crew) (off : Nat), Ready s i → AtBarrier s i n c off →
    let b := s.bar i.g.crew off
    (b.hold = true → Raises (.barObs n) s (s.begin i) i 0x13 i.act 0) ∧
    (b.hold = false → ∃ t h, exec (.barObs n) s = .next t ∧ AtCrew s t i h (i.after s.fresh (i.sp.pc + 4)) ∧
      { h with arrivals := i.g.arrivals, splits := i.g.splits } = i.g ∧
      h.arrival n.toNat = { i.g.arrival n.toNat with obs := true } ∧ t.bar i.g.crew off = { b with hold := true, ogen := b.gen }) ∧
    ((i.g.arrival n.toNat).obs = false → Raises (.barDrop n) s (s.begin i) i 0x13 i.act 0) ∧
    ((i.g.arrival n.toNat).obs = true → ∃ t h, exec (.barDrop n) s = .next t ∧ AtCrew s t i h (i.after s.fresh (i.sp.pc + 4)) ∧
      { h with arrivals := i.g.arrivals, splits := i.g.splits } = i.g ∧
      h.arrival n.toNat = { i.g.arrival n.toNat with obs := false } ∧ t.bar i.g.crew off = { b with hold := false }) ∧
    ((i.g.arrival n.toNat).obs = true → Clear s i → i.sp.blocked = none → ∀ (d : BitVec 6) (g : BitVec 4),
      ∃ t h, exec (.barArrive n d g) s = .next t ∧ AtCrew s t i h (i.after s.fresh (i.sp.pc + 4)) ∧
        i.g.WroteS h d.toNat (BitVec.ofNat 64 b.gen) false ∧ t.bar i.g.crew off = { b with ovr := true })

/-- R196, R199, R200, R201: cmask and crank read the membership of the gang's crew; a gang that has diverged or holds the
trowel may not change crews, and no gang may join a crew that its context does not have on its core, or that has 32 members, or
make a crew where the core has no number free; cjoin of its own crew, and cleave by the only member, change nothing; otherwise
the gang leaves its arrivals behind and is a member of the crew it named, or of a new one, and a crew left without members is
gone. The number and EPOCH of a new crew are the model's choice (log entry 56), and that a pre-empted crew is not on its core is
its reading (log entry 81). -/
def Obligations.CrewMembership : Prop :=
  ∀ (s : State) (i : Issue) (a d : BitVec 6), Ready s i →
    let mine (g : Gang) : Bool := g.crew == i.g.crew && !g.onControl
    (∃ x : DWord, WritesScalar (.cmask d) s i d x false ∧
      ∀ k, k < 64 → x.getLsbD k = s.gangs.any (fun g => mine g && g.slot == k)) ∧
    WritesScalar (.crank d) s i d (BitVec.ofNat 64 ((s.gangs.filter (fun g => mine g && decide (g.slot < i.g.slot))).length
      + 256 * (s.gangs.filter mine).length)) false ∧
    ((s.begin i).boundToCrew i.g = true → Raises (.cjoin a) s (s.begin i) i 0x13 i.act 0 ∧
      Raises (.cleave d) s (s.begin i) i 0x13 i.act 0) ∧
    ((s.begin i).boundToCrew i.g = false →
      let x := (i.g.sreg a.toNat).toNat
      (2 ^ 32 ≤ x → Raises (.cjoin a) s (s.begin i) i 0x13 i.act 0) ∧
      (x < 2 ^ 32 → x = i.g.crew → DoesNothing (.cjoin a) s i) ∧
      (x < 2 ^ 32 → x ≠ i.g.crew →
        (∀ c, s.crew x = some c → c.ctx ≠ i.g.ctx ∨ c.core ≠ i.g.core ∨ c.preempted = true ∨
          32 ≤ (s.gangs.filter (fun g => g.crew == x && !g.onControl)).length) →
        Raises (.cjoin a) s (s.begin i) i 0x13 i.act 0) ∧
      (1 < (s.gangs.filter mine).length → s.freeCrewNum i.g.core = none → Raises (.cleave d) s (s.begin i) i 0x13 i.act 0) ∧
      ((s.gangs.filter mine).length ≤ 1 → WritesScalar (.cleave d) s i d (BitVec.ofNat 64 i.g.crew) false) ∧
      (i.g.copySlot = none → i.g.wcb = [] → Free s i → s.colls = [] → (∀ c ∈ s.crews, c.bind = []) → i.g.onControl = false →
        (∀ c, x < 2 ^ 32 → x ≠ i.g.crew → s.crew x = some c → c.ctx = i.g.ctx → c.core = i.g.core → c.preempted = false →
          (s.gangs.filter (fun g => g.crew == x && !g.onControl)).length < 32 →
          ∃ t h, exec (.cjoin a) s = .next t ∧ t.gang i.g.id = some h ∧ h.crew = x ∧ h.arrivals = [] ∧
            { h with crew := i.g.crew, arrivals := i.g.arrivals, acquired := i.g.acquired, splits := i.g.splits } = i.g ∧
            h.split i.k = some (i.after s.fresh (i.sp.pc + 4)) ∧ (∀ j, j ≠ i.g.id → t.gang j = s.gang j) ∧ t.mem = s.mem ∧
            ((∀ g ∈ s.gangs, g.id ≠ i.g.id → mine g = false) → t.crew i.g.crew = none)) ∧
        (∀ k, 1 < (s.gangs.filter mine).length → s.freeCrewNum i.g.core = some k →
          (∀ c ∈ s.crews, c.val ≠ s.newCrewVal i.g.core k) →
          ∃ t h c, exec (.cleave d) s = .next t ∧ t.gang i.g.id = some h ∧ h.crew = s.newCrewVal i.g.core k ∧ h.arrivals = [] ∧
            i.g.WroteS { h with crew := i.g.crew, arrivals := i.g.arrivals, acquired := i.g.acquired } d.toNat (BitVec.ofNat 64 (s.newCrewVal i.g.core k)) false ∧
            h.split i.k = some (i.after s.fresh (i.sp.pc + 4)) ∧ t.crew h.crew = some c ∧ c.ctx = i.g.ctx ∧ c.core = i.g.core ∧
            c.pads = 0 ∧ c.accs = 0 ∧ c.zregs = 0 ∧ c.bind = [] ∧ (∀ j, j ≠ i.g.id → t.gang j = s.gang j) ∧ t.mem = s.mem)))

/-- R329, R331, R332: fences, of the issuing gang and remote. -/
def Obligations.FencesWait : Prop := Claims.Fences ∧ Claims.RemoteFence

/-- R342 to R344: seal and unseal; drysync. -/
def Obligations.SealUnsealAndDrysync : Prop := Claims.SealAndUnseal ∧ Claims.Drysync

/-- R181, R182, R187, R192, R193: bar.init and the instructions that name an object without arriving at it. That bar.init takes no
barrier slot, and so never waits for one, is the model's choice (log entry 76). -/
def Obligations.BarrierBindingAndObservers : Prop := Claims.BarrierBinding ∧ Claims.BarrierObservers


namespace Sys2Proof.Claims

/-! ### Copies -/

/-- The copy instructions with their operation codes (R171); copy.mc has no SV. -/
noncomputable def copies : List ((BitVec 6 → BitVec 2 → BitVec 1 → BitVec 4 → BitVec 1 → BitVec 4 → BitVec 1 → Instr) × Nat) :=
  [(.copy, 0), (.copyAcc, 1), (.copyChk, 2), (fun a q e d f b _ => .copyMc a q e d f b, 3)]

/-- The bits of a scalar from bit l on, n of them. -/
def field (x : DWord) (l n : Nat) : Nat := x.toNat / 2 ^ l % 2 ^ n

/-- The slice that registers sa to sa + 3 describe (R172), with the policy of hint.cache, without destinations, objects,
translations and word. -/
def sliceOf (i : Issue) (op a : Nat) (q : Nat) (db sb : Option Nat) (sv : Bool) : CopySlice :=
  let r (k : Nat) := i.g.sreg (a + k)
  { gang := i.g.id, crew := i.g.crew, ctx := i.g.ctx, op, queues := [q], dbar := db, sbar := sb, sv,
    dst := if op = 3 then field (r 0) 0 32 else (r 0).toNat, src := (r 1).toNat, rows := field (r 2) 48 16,
    dk := field (r 2) 44 4, sk := field (r 2) 40 4, code := field (r 2) 32 8, len := field (r 2) 0 24,
    dpitch := field (r 3) 32 32, spitch := field (r 3) 0 32, depth := i.g.tdepth,
    policy := i.sp.hints.cache.getD 0, empty := decide (field (r 2) 48 16 = 0 ∨ field (r 2) 0 24 = 0), dests := [],
    dobj := none, sobj := none, void := false, xl := [], word := 0,
    image := [r 0, r 1, r 2, r 3] }

/-- The source and destination bytes of a slice, and those of its first chunk (R183, R184). -/
def sourceBytes (c : CopySlice) : Nat := c.rows * c.len
def destBytes (c : CopySlice) : Nat :=
  if c.op = 1 then c.rows * (16 * (c.len / (if c.code = 1 ∨ c.code = 2 then 2 else if c.code = 4 then 8 else 4)))
  else if c.op = 2 then min (2 ^ c.code) (c.rows * c.len) else c.rows * c.len

/-- What a slice that moves bytes adds to INB and to OUTB of the object at an offset of a crew (R183). -/
def addsIn (k : Crew) (c : CopySlice) (v off : Nat) : Nat :=
  (if v = c.crew ∧ c.dbar.bind k.bound = some off then destBytes c else 0)
    + (c.dests.filter (fun d => d.1 == v && d.2 == some off)).length * (c.rows * c.len)
def addsOut (k : Crew) (c : CopySlice) (v off : Nat) : Nat :=
  if v = c.crew ∧ c.sbar.bind k.bound = some off then sourceBytes c else 0

/-- The issuing gang has supplied a slice: it lies in the gang's slot, and the engine learns of it (R170). -/
structure Supplied (s t : State) (i : Issue) (q : Split) (c : CopySlice) : Prop where
  gang : ∃ h, t.gang i.g.id = some h ∧ h.copySlot = some c ∧ h.split i.k = some q ∧ (∀ k, k ≠ i.k → h.split k = i.g.split k) ∧
    { h with copySlot := i.g.copySlot, splits := i.g.splits } = i.g
  posted : t.agenda = s.agenda ++ [.copySliceAssemble i.g.id]
  rest : { t with gangs := s.gangs, fresh := s.fresh, crews := s.crews, tlb := s.tlb, ptrs := s.ptrs, sram := s.sram,
                  hashes := s.hashes, agenda := s.agenda } = s
  gangs : ∀ j, j ≠ i.g.id → t.gang j = s.gang j

/-- The objects that a slice counts in are aligned, in pages with frames, of crews without a shadow. -/
def CountsInFrames (s : State) (k : Crew) (c : CopySlice) : Prop :=
  ∀ v off, 0 < addsIn k c v off + addsOut k c v off →
    off % 16 = 0 ∧ ∃ w, s.crew v = some w ∧ w.padState (off / 4096) = .pinned ∧ w.shadow = none

end Sys2Proof.Claims

/-- R169 to R173, R176, R178, R179, R182, R183, R333: a copy word or qfence of a partial mask raises 0x03, one with an unbound
barrier name or a full slot waits, and a slice that passes the checks lies in its gang's slot, its bytes counted in its
barriers; one that breaks the rules of its registers enters empty. That of qfence is empty, and enters every queue named. -/
def Obligations.CopiesSupplyTheirSlice : Prop :=
  (∀ p ∈ copies, ∀ (a : BitVec 6) (q : BitVec 2) (e : BitVec 1) (d : BitVec 4) (f : BitVec 1) (b : BitVec 4) (v : BitVec 1)
    (s : State) (i : Issue) (k : Crew), Accepted s i { cache := true } → Sound s → s.crew i.g.crew = some k →
    let n := p.1 a q e d f b v
    let db := if e = 1 then some d.toNat else none
    let sb := if f = 1 then some b.toNat else none
    let c := sliceOf i p.2 a.toNat q.toNat db sb (p.2 != 3 && v == 1)
    (i.act ≠ BitVec.allOnes 32 → Raises n s (s.begin i) i 0x03 i.act 0) ∧
    (i.act = BitVec.allOnes 32 → ∀ m, db = some m → k.bound m = none → Waits n s i (.name m)) ∧
    (i.act = BitVec.allOnes 32 → (∀ m, db = some m ∨ sb = some m → k.bound m ≠ none) →
      (i.g.copySlot ≠ none → Waits n s i .copySlot) ∧
      (i.g.copySlot = none → Clear s i → ∀ (u : State) (ls ss ds : List Located) (w : Word),
        (s.begin i).copyReach i { c with word := w } = (u, .ok ls, ss, ds) →
        let list := field (i.g.sreg a.toNat) 32 32
        let full := { c with word := w, xl := pagesOf ls, dobj := db.bind k.bound, sobj := sb.bind k.bound
                             dests := if p.2 = 3 ∧ c.empty = false then (u.destList i.g.crew list c.code).map destOf else [] }
        w = CopyWord.toWord { op := p.2, a := a.toNat, q := q.toNat, dbe := e == 1, db := d.toNat, sbe := f == 1, sb := b.toNat,
                              sv := p.2 != 3 && v == 1 } →
        (s.begin i).copyOverrun i.g { c with word := w } list = none →
        (u.copyRegsOk i.g { c with word := w } (field (i.g.sreg (a.toNat + 2)) 24 8) list = true →
          u.sliceFits { c with word := w } = true → (c.empty = false → CountsInFrames s k full) →
          (∀ x o, (s.bar x o).inb + addsIn k full x o < 2 ^ 32 ∧ (s.bar x o).outb + addsOut k full x o < 2 ^ 32) →
          (∀ x ∈ ds, x.isSealed = false) → (∀ j, j < 4 → i.g.smark (a.toNat + j) = false) →
          (p.2 = 3 → c.empty = false → (u.padRead (u.crew i.g.crew) list (8 * c.code)).2 = false ∧ k.backedParts list (8 * c.code) = []) →
          ∃ t, exec n s = .next t ∧ Supplied s t i (i.after s.fresh (i.sp.pc + 4)) full ∧
            ∀ x o, o % 16 = 0 → t.bar x o = { s.bar x o with
              inb := (s.bar x o).inb + (if c.empty then 0 else addsIn k full x o)
              outb := (s.bar x o).outb + (if c.empty then 0 else addsOut k full x o) }) ∧
        (u.copyRegsOk i.g { c with word := w } (field (i.g.sreg (a.toNat + 2)) 24 8) list = false →
          (p.2 = 3 → c.empty = false → k.backedParts list (8 * c.code) = []) →
          ∃ t, Supplied s t i (i.sp.issued s.fresh) { c with word := w, empty := true, void := true } ∧ Raises n s t i 0x13 i.act 0)))) ∧
  ∀ (q : BitVec 5) (s : State) (i : Issue), Ready s i →
    (i.act ≠ BitVec.allOnes 32 → Raises (.qfence q) s (s.begin i) i 0x03 i.act 0) ∧
    (i.act = BitVec.allOnes 32 → i.g.copySlot ≠ none → Waits (.qfence q) s i .copySlot) ∧
    (i.act = BitVec.allOnes 32 → i.g.copySlot = none → Clear s i →
      (∀ c ∈ s.colls, c.crew = i.g.crew → c.complete = true) → (∀ g ∈ s.gangs, g.copySlot = none) →
      ∃ t c, exec (.qfence q) s = .next t ∧ Supplied s t i (i.after s.fresh (i.sp.pc + 4)) c ∧ c.op = 4 ∧ c.empty = true ∧
        c.gang = i.g.id ∧ c.crew = i.g.crew ∧ c.dbar = none ∧ c.sbar = none ∧ c.dests = [] ∧
        ∀ k, k ∈ c.queues ↔ k < 5 ∧ q.getLsbD k = true)

namespace Sys2Proof.Claims

/-! ### Matrix instructions -/

/-- A matrix job has entered the queue of the issuing gang's core, and its unit learns of it (R275, R276, R290). -/
structure Queued (s t : State) (i : Issue) (j : MatJob) (e : Event) : Prop where
  gang : ∃ h, t.gang i.g.id = some h ∧ h.split i.k = some (i.after s.fresh (i.sp.pc + 4)) ∧
    (∀ k, k ≠ i.k → h.split k = i.g.split k) ∧ i.g.Same h
  core : t.core i.g.core = { s.core i.g.core with jobs := (s.core i.g.core).jobs ++ [j] }
  cores : ∀ c, c ≠ i.g.core → t.core c = s.core c
  posted : t.agenda = s.agenda ++ [e]
  rest : { t with gangs := s.gangs, fresh := s.fresh, cores := s.cores, agenda := s.agenda, tlb := s.tlb, ptrs := s.ptrs,
                  sram := s.sram, hashes := s.hashes } = s
  gangs : ∀ k, k ≠ i.g.id → t.gang k = s.gang k
  ofGang : j.gang = i.g.id ∧ j.crew = i.g.crew ∧ j.fmt = i.sp.fmt ∧ j.started = false ∧ j.lanes = i.act
  first : j.first = if i.sp.hints.words = 0 then i.sp.pc else i.sp.hints.first

/-- An extent: byte k of the extents register, at most n (R279). -/
def extent (i : Issue) (x : BitVec 6) (k n : Nat) : Nat := min (field (i.g.sreg x.toNat) (8 * k) 8) n

/-- An operand (R277, R278, R288): tile registers from one on, the pad from a scalar, or memory from a pair. -/
structure Operates (i : Issue) (where_ : Nat) (r : BitVec 6) (o : Operand) : Prop where
  kind : o.kind = where_
  tiles : where_ = 0 → o.base = 8192 * r.toNat
  padBase : where_ = 1 → o.base = field (i.g.sreg r.toNat) 4 28 * 16
  padPitch : where_ = 1 → o.pitch = field (i.g.sreg r.toNat) 36 12 * 16
  padScale : where_ = 1 → o.scale = field (i.g.sreg r.toNat) 4 28 * 16 + 16 * field (i.g.sreg r.toNat) 48 16
  memBase : where_ = 2 → o.base = (i.g.sreg r.toNat).toNat
  memPitch : where_ = 2 → o.pitch = field (i.g.sreg (r.toNat + 1)) 0 32
  memScale : where_ = 2 → o.scale = ((i.g.sreg r.toNat).toNat + field (i.g.sreg (r.toNat + 1)) 32 32) % 2 ^ 64

/-- What a drain or move names passes the checks of R284: the pad's bound with no probe or gather of the gang about to write
it (R308), or the lease, the translation and the seals, with nothing to wait for where a page is strongly ordered (R325). -/
def Reaches (s : State) (i : Issue) (kind need : Nat) (rs : List (Nat × Nat)) (u : State) (ls : List Located) : Prop :=
  (kind = 0 ∧ u = s.begin i ∧ ls = []) ∨
  (kind = 1 ∧ u = s.begin i ∧ ls = [] ∧ s.retrHolds i.g = false ∧ padBreach rs ((s.begin i).padSize i.g.crew) = none) ∨
  (kind = 2 ∧ s.Faultless ∧ (anyStrong ls = true → i.g.wcb = [] ∧ Free s i) ∧ (s.begin i).reachRanges i need rs = (u, .ok ls) ∧ (need = needWrite → ∀ p ∈ ls, p.isSealed = false))

/-- The trowel of the issuing gang's core is held by a gang, open or not, or by none; one may be on its way. Nothing else
has changed but the split, which goes on. -/
structure Troweled (s t : State) (i : Issue) (c : CoreSt) : Prop where
  gang : ∃ h, t.gang i.g.id = some h ∧ h.split i.k = some (i.after s.fresh (i.sp.pc + 4)) ∧
    (∀ k, k ≠ i.k → h.split k = i.g.split k) ∧ i.g.Same h
  core : t.core i.g.core = c
  cores : ∀ n, n ≠ i.g.core → t.core n = s.core n
  rest : { t with gangs := s.gangs, fresh := s.fresh, cores := s.cores, agenda := s.agenda } = s
  gangs : ∀ k, k ≠ i.g.id → t.gang k = s.gang k

end Sys2Proof.Claims

/-- R274 to R279, R282, R284 to R290: matrix instructions are checked in the order of R284 and enter their core's queue with
what they captured; mma and mma.p ask for the trowel, and for room at the array. -/
def Obligations.MatrixInstructionsEnterTheQueue : Prop :=
  ∀ (s : State) (i : Issue), Ready s i →
    let b := s.begin i
    let whole := i.act = BitVec.allOnes 32
    (∀ (c : BitVec 2) (p q : BitVec 1) (x y z : BitVec 6),
      (mmaLegal c.toNat (p == 1) (q == 1) x y 64 i b = false → Raises (.mma c p x q y z) s b i 0x01 i.act 0) ∧
      (mmaLegal c.toNat (p == 1) (q == 1) x y 64 i b = true → ¬ whole → Raises (.mma c p x q y z) s b i 0x03 i.act 0) ∧
      (mmaLegal c.toNat (p == 1) (q == 1) x y 64 i b = true → whole →
        b.mmaBreach i (i.mmaJob 0 c.toNat (p == 1) (q == 1) x y z 64 i.g.crew) = none →
        ((s.core i.g.core).trowel.map (·.1) ≠ some i.g.id → Raises (.mma c p x q y z) s b i 0x04 i.act 0) ∧
        ((s.core i.g.core).trowel.map (·.1) = some i.g.id →
          (2 ≤ ((s.core i.g.core).jobs.filter (fun j => j.op ≤ 1 && !j.started)).length → Waits (.mma c p x q y z) s i .unit) ∧
          (((s.core i.g.core).jobs.filter (fun j => j.op ≤ 1 && !j.started)).length < 2 →
            (p = 1 ∨ q = 1 → s.retrHolds i.g = false) →
            (p = 1 → i.g.smark x.toNat = false) → (q = 1 → i.g.smark y.toNat = false) → i.g.smark z.toNat = false →
            ∃ t j, exec (.mma c p x q y z) s = .next t ∧ Queued s t i j (.mmaStart i.g.core) ∧ j.op = 0 ∧ j.acc = c.toNat ∧
              Operates i p.toNat x j.a ∧ Operates i q.toNat y j.b ∧ j.me = extent i z 0 128 ∧ j.ne = extent i z 1 64 ∧
              j.ke = extent i z 2 i.matK)))) ∧
    (∀ (c : BitVec 2) (p q : BitVec 1) (x y z : BitVec 6), mmaLegal c.toNat (p == 1) (q == 1) x y 128 i b = true → whole →
      b.mmaBreach i (i.mmaJob 1 c.toNat (p == 1) (q == 1) x y z 128 i.g.crew) = none →
      ((s.core i.g.core).trowel ≠ some (i.g.id, false) → Raises (.mmaP c p x q y z) s b i 0x04 i.act 0) ∧
      ((s.core i.g.core).trowel = some (i.g.id, false) →
        ((s.core (i.g.core ^^^ 1)).trowel.map (·.2) ≠ some true → Waits (.mmaP c p x q y z) s i .follower) ∧
        (∀ h k, (s.core (i.g.core ^^^ 1)).trowel = some (h.id, true) → h.id ≠ i.g.id → s.gang h.id = some h → h.ctx = i.g.ctx →
          s.crew h.crew = some k → c.toNat < k.accs →
          ((s.core i.g.core).jobs.filter (fun j => j.op ≤ 1 && !j.started)).length < 2 →
          (p = 1 ∨ q = 1 → s.retrHolds i.g = false) →
          (p = 1 → i.g.smark x.toNat = false) → (q = 1 → i.g.smark y.toNat = false) → i.g.smark z.toNat = false →
          ∃ t j, exec (.mmaP c p x q y z) s = .next t ∧ Queued s t i j (.mmaStart i.g.core) ∧ j.op = 1 ∧ j.acc = c.toNat ∧
            j.crew2 = h.crew ∧ Operates i p.toNat x j.a ∧ Operates i q.toNat y j.b ∧ j.me = extent i z 0 128 ∧
            j.ne = extent i z 1 128 ∧ j.ke = extent i z 2 i.matK))) ∧
    (∀ (c : BitVec 2) (k : Crew), s.crew i.g.crew = some k →
      (k.accs ≤ c.toNat → Raises (.mzero c) s b i 0x01 i.act 0) ∧
      (c.toNat < k.accs → whole → ∃ t j, exec (.mzero c) s = .next t ∧ Queued s t i j (.mzeroRetire i.g.core) ∧ j.op = 2 ∧
        j.acc = c.toNat)) ∧
    (∀ (c k : BitVec 2) (d x : BitVec 6) (u : State) (ls : List Located), drainLegal c.toNat k.toNat d none i b = true → whole →
      Reaches s i k.toNat needWrite (drainRanges (i.drainTo k.toNat d (fmtDF i.sp.fmt) 128 64) i.sp.fmt (fmtDF i.sp.fmt) 64
        (extent i x 1 64) (extent i x 0 128)) u ls →
      i.g.smark x.toNat = false → (k ≠ 0 → i.g.smark d.toNat = false) → (k = 2 → i.g.smark (d.toNat + 1) = false) →
      ∃ t j, exec (.mdrain c k d x) s = .next t ∧ Queued s t i j (.mdrainStart i.g.core) ∧ j.op = 3 ∧ j.acc = c.toNat ∧
        Operates i k.toNat d j.a ∧ j.me = extent i x 0 128 ∧ j.ne = extent i x 1 64) ∧
    (∀ (c k : BitVec 2) (d r x : BitVec 6) (u : State) (ls : List Located), drainLegal c.toNat k.toNat d (some r) i b = true → whole →
      Reaches s i k.toNat needWrite (drainRanges (i.drainTo k.toNat d (fmtDF i.sp.fmt) 128 64) i.sp.fmt (fmtDF i.sp.fmt) 64
        (extent i x 1 64) (extent i x 0 128) ++ drainRanges (i.drainTo k.toNat r (fmtTF i.sp.fmt) 64 128) i.sp.fmt
        (fmtTF i.sp.fmt) 128 (extent i x 0 128) (extent i x 1 64)) u ls →
      i.g.smark x.toNat = false → (k ≠ 0 → i.g.smark d.toNat = false ∧ i.g.smark r.toNat = false) →
      (k = 2 → i.g.smark (d.toNat + 1) = false ∧ i.g.smark (r.toNat + 1) = false) →
      ∃ t j, exec (.mdrainT c k d r x) s = .next t ∧ Queued s t i j (.mdrainStart i.g.core) ∧ j.op = 4 ∧ j.acc = c.toNat ∧
        Operates i k.toNat d j.a ∧ Operates i k.toNat r j.b ∧ j.me = extent i x 0 128 ∧ j.ne = extent i x 1 64) ∧
    (∀ (z n : BitVec 4) (k : BitVec 1) (r : BitVec 6) (c : Crew), s.crew i.g.crew = some c →
      (c.zregs ≤ z.toNat + n.toNat → Raises (.zld z n k r) s b i 0x01 i.act 0 ∧ Raises (.zst z n k r) s b i 0x01 i.act 0) ∧
      (z.toNat + n.toNat < c.zregs → whole → i.g.smark r.toNat = false → i.g.smark (r.toNat + 1) = false →
        ∀ (u : State) (ls : List Located) (o : Operand),
        o = { kind := if k = 1 then 1 else 2, base := if k = 1 then field (i.g.sreg r.toNat) 0 32 else (i.g.sreg r.toNat).toNat,
              pitch := field (i.g.sreg (r.toNat + 1)) 0 32, scale := field (i.g.sreg (r.toNat + 1)) 32 16 } →
        let rs := (moveRuns o (8192 * (n.toNat + 1))).map (fun x => (x.1, x.2.1))
        (Reaches s i o.kind needRead rs u ls →
          ∃ t j, exec (.zld z n k r) s = .next t ∧ Queued s t i j (.tilePortRetire i.g.core) ∧ j.op = 5 ∧ j.a = o ∧ j.z = z.toNat ∧
            j.cnt = n.toNat + 1) ∧
        (Reaches s i o.kind needWrite rs u ls →
          ∃ t j, exec (.zst z n k r) s = .next t ∧ Queued s t i j (.tilePortRetire i.g.core) ∧ j.op = 6 ∧ j.a = o ∧ j.z = z.toNat ∧
            j.cnt = n.toNat + 1)))

/-- R281, R284: mtake and mtake.f take a free trowel or set OPEN of the own one, and wait for another's; mgive gives the
own trowel to the first gang that waits after it in the ring, or leaves it free, and raises 0x04 for another's. -/
def Obligations.TrowelInstructions : Prop :=
  ∀ (s : State) (i : Issue), Ready s i →
    let c := s.core i.g.core
    (i.act ≠ BitVec.allOnes 32 → ∀ n ∈ [Instr.mtake, Instr.mtakeF, Instr.mgive], Raises n s (s.begin i) i 0x03 i.act 0) ∧
    (i.act = BitVec.allOnes 32 →
      (∀ p ∈ [(Instr.mtake, false), (Instr.mtakeF, true)],
        (c.trowel.map (·.1) = some i.g.id ∨ (c.trowel = none ∧ c.passing = none) →
          ∃ t, exec p.1 s = .next t ∧ Troweled s t i { c with trowel := some (i.g.id, p.2), passing := none } ∧ t.agenda = s.agenda) ∧
        (∀ h o, c.trowel = some (h, o) → h ≠ i.g.id → Waits p.1 s i (.trowel p.2))) ∧
      (c.trowel.map (·.1) ≠ some i.g.id → Raises .mgive s (s.begin i) i 0x04 i.act 0) ∧
      (c.trowel.map (·.1) = some i.g.id → i.g.retake = none → (∀ g ∈ s.gangs, g.id = i.g.id → g = i.g) →
        (∀ k q f, i.g.split k = some q → q.blocked ≠ some (.trowel f)) →
        let place := (((s.crew i.g.crew).map (·.ring)).getD 0, i.g.slot)
        ((∀ g ∈ s.gangs, g.core = i.g.core → g.id ≠ i.g.id → g.waitsTrowel = false) →
          ∃ t, exec .mgive s = .next t ∧ Troweled s t i { c with trowel := none, last := place, passing := none } ∧ t.agenda = s.agenda) ∧
        (∀ w, s.nextWaiter i.g.core place = some w → w.id ≠ i.g.id →
          ∃ t, exec .mgive s = .next t ∧ Troweled s t i { c with trowel := none, last := place, passing := some w.id } ∧
            t.agenda = s.agenda ++ [.trowelPass i.g.core])))


namespace Sys2Proof.Claims

/-! ### Retrieval tables -/

/-- The ranges that a retrieval instruction names pass the checks of R314: translated within the lease, in own memory, not
watched and not sealed. -/
def Names (s : State) (i : Issue) (need : Nat) (ns : List Named) (u : State) (ls : List Located) : Prop :=
  (s.begin i).coalesce i.g need (ns.flatMap Named.parts) = (u, .ok ls) ∧
  ∀ p ∈ ls, dpaModule p.phys = s.mgmt.modid ∧ leafWatch p.leaf = false ∧ isDram (dpaLocal p.phys) = true ∧ p.isSealed = false

/-- The virtual address of the bucket that a key names in a slot (R293, R296). -/
def keyBucket (x : HashSlot) (k : Word) : Nat :=
  (nth 0 x.config 1).toNat + 64 * (k.toNat / 2 ^ 16 % 2 ^ 3 * 2 ^ field (nth 0 x.config 3) 40 5 + k.toNat % 2 ^ 16)

/-- A key that is not skipped is one of a slot's tables (R296, R314). -/
def keyOf (x : HashSlot) (k : Word) : Prop :=
  k.toNat < 2 ^ 19 ∧ k.toNat / 2 ^ 16 < field (nth 0 x.config 3) 32 4 ∧ k.toNat % 2 ^ 16 < 2 ^ field (nth 0 x.config 3) 40 5

/-- What a slot's instruction names beside its buckets: the whole pool under POLICY 3 (R314). -/
def poolOf (x : HashSlot) : List Named :=
  if field (nth 0 x.config 3) 48 2 = 3 then [{ va := (nth 0 x.config 2).toNat, len := 64 * field (nth 0 x.config 3) 0 32, lane := none }]
  else []

/-- The lanes of a mask, ascending. -/
def laneList (m : Mask) : List Nat := (List.range 32).filter (fun l => m.getLsbD l)

/-- The issuing gang stands at the next word, or blocks; of the rest only TLBs, walkers, the SRAM of the slices, the retrieval
queue, probes and posted events have changed, and what gangs find in hash-family slots. -/
structure Retrieved (s t : State) (i : Issue) (q : Split) : Prop where
  gang : ∃ h, t.gang i.g.id = some h ∧ h.split i.k = some q ∧ (∀ k, k ≠ i.k → h.split k = i.g.split k) ∧ i.g.Same h
  rest : { t with gangs := s.gangs, fresh := s.fresh, tlb := s.tlb, ptrs := s.ptrs, sram := s.sram, retr := s.retr,
                  probes := s.probes, agenda := s.agenda, crews := s.crews, hashes := s.hashes } = s
  gangs : ∀ j, j ≠ i.g.id → t.gang j = s.gang j

/-- Slot h is as the issuing gang left it, empty or with contents, as it finds it; another gang, or it in another slot, finds
what it found before (R309). -/
def SetsSlot (s t : State) (i : Issue) (h : Nat) (found : Option HashSlot → Prop) : Prop :=
  found (t.hashSlot i.g h) ∧ ∀ (g : Gang) k, ¬(g.id = i.g.id ∧ g.ctx = i.g.ctx ∧ k = h) → t.hashSlot g k = s.hashSlot g k

/-- Of a bucket operation: insert or delete, row and bucket. -/
def jobOf (j : RetrJob) : Bool × Word × Nat := (j.ins, j.req.row, j.req.bucket)

end Sys2Proof.Claims

/-- R292 to R296, R302, R304 to R306, R308, R309, R311, R312, R314: retrieval instructions. rfam fills or empties a slot;
rprobe asks for the buckets of its keys, each once; rins, rdel and rmove queue one operation per lane, in lane order; rgath
copies rows to the pad; rstat reads; an empty slot is error 0x11. -/
def Obligations.RetrievalInstructions : Prop :=
  ∀ (s : State) (i : Issue) (h : BitVec 3), Ready s i → Sound s → NoLines s → s.poison = [] → i.g.wcb = [] →
    (∀ y ∈ s.hashes, y.stamp < s.fresh) →
    (∀ a : BitVec 6, i.g.smark a.toNat = false →
      (i.g.sreg a.toNat = 0 → ∃ t, exec (.rfam h a) s = .next t ∧ Retrieved s t i (i.after s.fresh (i.sp.pc + 4)) ∧
        SetsSlot s t i h.toNat (fun x => x = none)) ∧
      (∀ u p, (i.g.sreg a.toNat).toNat % 64 = 0 → i.g.sreg a.toNat ≠ 0 →
        Names s i needRead [{ va := (i.g.sreg a.toNat).toNat, len := 64, lane := none }] u [p] →
        let d := dpaLocal p.phys
        let c := (List.range 8).map (fun k => BitVec.ofNat 64 (s.readLe (d + 8 * k) 8))
        (cfgOk c = true → ∃ t, exec (.rfam h a) s = .next t ∧ Retrieved s t i (i.after s.fresh (i.sp.pc + 4)) ∧
          SetsSlot s t i h.toNat (fun x => ∃ y, x = some y ∧ y.descVa = (i.g.sreg a.toNat).toNat ∧ y.desc = d ∧ y.config = c)) ∧
        (cfgOk c = false → Raises (.rfam h a) s (u.touch d 64) i 0x11 i.act (i.g.sreg a.toNat).toNat))) ∧
    (s.hashSlot i.g h.toNat = none →
      (∀ (d a : BitVec 6), WritesScalar (.rstat h d a 0) s i d 0 false) ∧
      (∀ (d a : BitVec 6) (x : BitVec 3), x ≠ 0 → Raises (.rstat h d a x) s (s.begin i) i 0x11 i.act 0) ∧
      (∀ d k a : BitVec 6, k.toNat < i.g.nregs →
        let list := field (i.g.sreg a.toNat) 0 32
        let cap := field (i.g.sreg a.toNat) 32 8
        let pad := (s.begin i).padSize i.g.crew
        (list + 16 + 5 * cap ≤ pad → Raises (.rprobe h d k a) s (s.begin i) i 0x11 i.act 0) ∧
        (pad < list + 16 + 5 * cap → Raises (.rprobe h d k a) s (s.begin i) i 0x07 i.act (max list pad))) ∧
      (∀ (a k : BitVec 6) (g : BitVec 4), a.toNat < i.g.nregs → k.toNat < i.g.nregs →
        Raises (.rins h a k g) s (s.begin i) i 0x11 i.act 0 ∧ Raises (.rdel h a k g) s (s.begin i) i 0x11 i.act 0) ∧
      (∀ (a : BitVec 6) (k : BitVec 5) (g : BitVec 4), a.toNat < i.g.nregs → 2 * k.toNat + 1 < i.g.nregs →
        Raises (.rmove h a k g) s (s.begin i) i 0x11 i.act 0)) ∧
    (∀ x, s.hashSlot i.g h.toNat = some x →
      (∀ (d k a : BitVec 6) (u : State) (ls : List Located), k.toNat < i.g.nregs →
        let list := field (i.g.sreg a.toNat) 0 32
        let cap := field (i.g.sreg a.toNat) 32 8
        let lanes := (laneList i.act).filter (fun l => !(laneOf i k l).getLsbD 31)
        (s.probes.filter (fun p => p.core == i.g.core && !p.held)).length < 8 → 0 < cap → cap ≤ 128 → list % 16 = 0 →
        list + 16 + 5 * cap ≤ (s.begin i).padSize i.g.crew → (∀ l ∈ lanes, keyOf x (laneOf i k l)) →
        Names s i needRead (lanes.map (fun l => { va := keyBucket x (laneOf i k l), len := 64, lane := some l }) ++ poolOf x) u ls →
        i.g.smark a.toNat = false → (∀ l, i.act.getLsbD l = true → markOf i k l = false) → s.matrixHolds i.g = false →
        (lanes ≠ [] → ∃ t p, exec (.rprobe h d k a) s = .next t ∧
          Retrieved s t i { i.sp.issued s.fresh with blocked := some (.reply p.tag) } ∧ t.probes = s.probes ++ [p] ∧
          p.gang = i.g.id ∧ p.split = i.k ∧ p.dest = d.toNat ∧ p.list = list ∧ p.cap = cap ∧ p.rows = [] ∧ p.held = false ∧ p.begun = false ∧
          p.lanes = lanes.map (fun l => (l, (homeOf (pagesOf ls) (keyBucket x (laneOf i k l))).1)) ∧
          (∀ b, b ∈ p.todo ↔ ∃ l ∈ p.lanes, b = (l.2, l.2)) ∧ p.todo.Nodup ∧
          t.agenda = s.agenda ++ p.todo.map (fun b => .bucketRead p.tag b.2)) ∧
        (lanes = [] → ∀ c, s.crew i.g.crew = some c → c.shadow = none → c.padState (list / 4096) = .pinned →
          ∃ t q e, exec (.rprobe h d k a) s = .next t ∧ t.gang i.g.id = some q ∧
            q.split i.k = some { i.after s.fresh (i.sp.pc + 4) with blocked := none } ∧ i.g.WroteS q d.toNat 0 false ∧
            t.crew i.g.crew = some e ∧ ∀ y, e.padByte y = if list ≤ y ∧ y < list + 16 then 0 else c.padByte y)) ∧
      (∀ (a k : BitVec 6) (g : BitVec 4) (u : State) (ls : List Located), a.toNat < i.g.nregs → k.toNat < i.g.nregs →
        let lanes := laneList (activeOf i g)
        (∀ l ∈ lanes, keyOf x (laneOf i k l) ∧ laneOf i a l ≠ 0xFFFFFFFF ∧ markOf i a l = false ∧ markOf i k l = false) →
        Names s i needBoth (lanes.map (fun l => { va := keyBucket x (laneOf i k l), len := 64, lane := some l }) ++ poolOf x
          ++ [{ va := x.descVa, len := 64, lane := none }]) u ls →
        ∀ p ∈ [(Instr.rins h a k g, true), (Instr.rdel h a k g, false)],
          ∃ t js, exec p.1 s = .next t ∧ Retrieved s t i (i.after s.fresh (i.sp.pc + 4)) ∧ CrewsKept s t i.g.crew ∧
            t.retr = s.retr ++ js ∧ (∀ j ∈ js, j.gang = i.g.id ∧ j.after = none ∧ j.held = false) ∧
            js.map jobOf = lanes.map (fun l => (p.2, laneOf i a l, (homeOf (pagesOf ls) (keyBucket x (laneOf i k l))).1))) ∧
      (∀ (a : BitVec 6) (k : BitVec 5) (g : BitVec 4) (u : State) (ls : List Located), a.toNat < i.g.nregs → 2 * k.toNat + 1 < i.g.nregs →
        let lanes := laneList (activeOf i g)
        let old (l : Nat) := i.g.vlane (2 * k.toNat) l
        let new (l : Nat) := i.g.vlane (2 * k.toNat + 1) l
        let home (w : Word) := (homeOf (pagesOf ls) (keyBucket x w)).1
        (∀ l ∈ lanes, keyOf x (old l) ∧ keyOf x (new l) ∧ (old l).toNat / 2 ^ 16 = (new l).toNat / 2 ^ 16 ∧
          laneOf i a l ≠ 0xFFFFFFFF ∧ markOf i a l = false ∧ (i.g.vmarks (2 * k.toNat)).getLsbD l = false ∧
          (i.g.vmarks (2 * k.toNat + 1)).getLsbD l = false) →
        Names s i needBoth (lanes.flatMap (fun l => [{ va := keyBucket x (old l), len := 64, lane := some l },
          { va := keyBucket x (new l), len := 64, lane := some l }]) ++ poolOf x ++ [{ va := x.descVa, len := 64, lane := none }]) u ls →
        ∃ t js, exec (.rmove h a k g) s = .next t ∧ Retrieved s t i (i.after s.fresh (i.sp.pc + 4)) ∧ CrewsKept s t i.g.crew ∧
          t.retr = s.retr ++ js ∧ (∀ j ∈ js, j.gang = i.g.id) ∧
          js.map jobOf = lanes.flatMap (fun l => if home (old l) = home (new l) then []
            else [(true, laneOf i a l, home (new l)), (false, laneOf i a l, home (old l))]) ∧
          ∀ j ∈ js, j.ins = false → ∃ m ∈ js, j.after = some m.id ∧ m.ins = true ∧ m.req.row = j.req.row) ∧
      (∀ (d a : BitVec 6) (u : State) (p : Located), s.retrievalBusy i.g = false →
        Names s i needRead [{ va := x.descVa, len := 64, lane := none }] u [p] → x.descVa % 64 = 0 →
        let m := dpaLocal p.phys
        ∀ v ∈ [((0 : BitVec 3), BitVec.ofNat 64 x.descVa), (1, BitVec.ofNat 64 (s.readLe (m + 32) 4)),
          (2, BitVec.ofNat 64 (s.readLe (m + 36) 4)), (3, BitVec.ofNat 64 (s.readLe (m + 40) 4)),
          (5, BitVec.ofNat 64 (field (nth 0 x.config 3) 32 32)), (6, nth 0 x.config 0)],
          ∃ t q, exec (.rstat h d a v.1) s = .next t ∧ Looked s t i q ∧ i.g.WroteS q d.toNat v.2 false) ∧
      (∀ (d a : BitVec 6) (u : State) (ls : List Located), s.retrievalBusy i.g = false → i.g.smark a.toNat = false →
        let key : Word := (i.g.sreg a.toNat).truncate 32
        keyOf x key → Names s i needRead [{ va := x.descVa, len := 64, lane := none }, { va := keyBucket x key, len := 64, lane := none }] u ls →
        ∃ t q, exec (.rstat h d a 4) s = .next t ∧ Looked s t i q ∧
          i.g.WroteS q d.toNat (BitVec.ofNat 64 (s.readLe (homeOf (pagesOf ls) (keyBucket x key)).1 4)) false)) ∧
    (∀ (l : BitVec 6) (f e : BitVec 5) (c : Crew) (u : State) (ls : List Located), s.crew i.g.crew = some c → c.shadow = none →
      s.padHolds i.g = false → s.l1 = [] →
      let list := field (i.g.sreg l.toNat) 0 32
      let word (a : Nat) := (c.padByte a).toNat + 256 * (c.padByte (a + 1)).toNat + 2 ^ 16 * (c.padByte (a + 2)).toNat
        + 2 ^ 24 * (c.padByte (a + 3)).toNat
      let n := word list
      let row (j : Nat) := word (list + 16 + 4 * j)
      let base := field (i.g.sreg (2 * e.toNat)) 4 28 * 16
      let pitch := field (i.g.sreg (2 * e.toNat)) 36 12 * 16
      let len := field (i.g.sreg (2 * f.toNat + 1)) 32 16
      (list % 16 = 0 → list + 16 ≤ 4096 * c.pads → (∀ k, k < 16 → c.padState ((list + k) / 4096) = .pinned) → 128 < n →
        Raises (.rgath l f e) s (s.begin i) i 0x11 i.act 0) ∧
      (list % 16 = 0 → list + 16 + 4 * n ≤ 4096 * c.pads → n ≤ 128 → (∀ j, j < n → row j ≠ 0xFFFFFFFF) →
        (∀ k, k < 16 + 4 * n → c.padState ((list + k) / 4096) = .pinned ∧ c.padPoison.contains (list + k) = false) →
        (∀ r, r = l.toNat ∨ r = 2 * f.toNat ∨ r = 2 * f.toNat + 1 ∨ r = 2 * e.toNat → i.g.smark r = false) →
        (∀ j, j < n → 0 < len → base + j * pitch + len ≤ 4096 * c.pads) →
        (∀ j, j < n → ∀ b, b < len → c.padState ((base + j * pitch + b) / 4096) = .pinned) →
        (s.begin i).coalesce i.g needRead ((List.range n).flatMap (fun j => rangeParts j (len / 128 + 2) 0
          (((i.g.sreg (2 * f.toNat)).toNat + row j * field (i.g.sreg (2 * f.toNat + 1)) 0 32) % 2 ^ 64) len)) = (u, .ok ls) →
        (∀ p ∈ ls, Own s p) →
        ∃ t q k, exec (.rgath l f e) s = .next t ∧ t.gang i.g.id = some q ∧ i.g.Same q ∧
          q.split i.k = some (i.after s.fresh (i.sp.pc + 4)) ∧ t.crew i.g.crew = some k ∧
          { t with gangs := s.gangs, fresh := s.fresh, tlb := s.tlb, ptrs := s.ptrs, sram := s.sram, l1 := s.l1, crews := s.crews } = s ∧
          (∀ a, (∀ j, j < n → a < base + j * pitch ∨ base + j * pitch + len ≤ a) → k.padByte a = c.padByte a) ∧
          ∀ p ∈ ls, ∀ b, b < p.part.len →
            (∀ j, p.part.lane < j → j < n → let a := base + p.part.lane * pitch + p.part.first + b
              a < base + j * pitch ∨ base + j * pitch + len ≤ a) →
            k.padByte (base + p.part.lane * pitch + p.part.first + b) = s.byte (dpaLocal p.phys + b)))

namespace Sys2Proof.Claims

/-! ### Buckets -/

/-- What an event leaves: nothing remains to be taken. -/
def Happens (e : Instr) (s t : State) : Prop := exec e s = .next t

/-- A bucket as its bytes stand in memory (R297): rows in use, INS, LINK and the slots. -/
structure IsBucket (s : State) (a cnt ins link : Nat) (slots : List Nat) : Prop where
  head : s.readLe a 4 = cnt + 16 * ins + 2 ^ 16 * link
  small : cnt ≤ 15 ∧ ins < 2 ^ 12 ∧ link < 2 ^ 16
  many : slots.length = 15
  slots : ∀ k, k < 15 → s.readLe (a + 4 + 4 * k) 4 = nth 0 slots k

/-- One bucket operation of a gang has been sent, and nothing stands before it (R305, R308); its bucket and its descriptor lie
apart, beyond the system frames. -/
structure Sent (s : State) (j : RetrJob) : Prop where
  quiet : s.Quiet
  only : s.retr = [j]
  ready : j.held = false ∧ j.after = none ∧ j.probes = [] ∧ ∀ p ∈ s.probes, p.gang ≠ j.gang
  clear : s.Faultless ∧ s.poison = []
  free : Unguarded s
  above : 0xC00000 ≤ j.req.bucket ∧ 0xC00000 ≤ j.req.desc
  aligned : j.req.bucket % 64 = 0 ∧ j.req.desc % 64 = 0 ∧ j.req.bucket ≠ j.req.desc
  plain : j.req.prot = false ∧ j.req.descProt = false

/-- Bucket k of a request's pool lies at a local address, apart from its bucket and its descriptor (R298, R300). -/
def InPool (q : BucketReq) (k o : Nat) : Prop :=
  ∃ a e, xlAt q.xl (q.pool + 64 * k) = some (a, e) ∧ dpaLocal a = o ∧ leafProt e = false ∧ 0xC00000 ≤ o ∧ o % 64 = 0 ∧
    o ≠ q.bucket ∧ o ≠ q.desc

/-- The rows in use and the slots of a bucket once a row has been deleted (R298). -/
def afterDelete (cnt : Nat) (slots : List Nat) (x : Nat) : Nat × List Nat :=
  if x ∈ slots.take cnt then (cnt - 1, slots.take (slots.idxOf x) ++ slots.drop (slots.idxOf x + 1) ++ [0xFFFFFFFF])
  else (cnt, slots)

/-- The mixing function of R298. -/
def mixed (x n : Nat) : Nat :=
  let h := ((x ^^^ n * 0x9E3779B9 % 2 ^ 32) * 0x85EBCA6B) % 2 ^ 32
  h ^^^ h / 2 ^ 13

/-- Beside posted events only what L1s and the SRAM of the slices hold, or are about to, has changed. -/
def OnlyRead (s t : State) : Prop := { t with l1 := s.l1, loads := s.loads, sram := s.sram, agenda := s.agenda } = s

/-- Beside that the operation has been performed, and of memory only some ranges have changed: address and length. -/
def OnlyTable (s t : State) (parts : List (Nat × Nat)) : Prop :=
  t.retr = [] ∧ OnlyRead s { t with mem := s.mem, retr := s.retr } ∧
  ∀ a, (∀ p ∈ parts, a < p.1 ∨ p.1 + p.2 ≤ a) → t.byte a = s.byte a

end Sys2Proof.Claims

/-- R297 to R300, R302, R303, R305: INSERT and DELETE on one bucket: a row present is left, a row absent takes the next slot, and a
full bucket rejects it, loses its oldest row or a row that Mix picks, with one drop counted, or sends it to its overflow bucket,
taken from the pool when first needed; DELETE closes the gap, there too. One that nobody asked for does nothing. BUCKET_READ
adds a bucket's rows to its probe, and the last one writes the candidate list and the count. -/
def Obligations.BucketOperations : Prop :=
  (∀ (s : State) (q : BucketReq), s.Quiet → s.retr = [] → exec (.insert q) s = .next s ∧ exec (.delete q) s = .next s) ∧
  (∀ (s : State) (j : RetrJob) (cnt ins link : Nat) (slots : List Nat), Sent s j → IsBucket s j.req.bucket cnt ins link slots →
    let q := j.req
    let x := q.row.toNat
    let up := min (ins + 1) 4095
    let own := (q.bucket, 64)
    let dropped := (q.desc + 32, 4)
    let drops := min (s.readLe (q.desc + 32) 4 + 1) (2 ^ 32 - 1)
    let next := s.readLe (q.desc + 40) 4
    (j.ins = true →
      (x ∈ slots.take cnt → ∃ t, Happens (.insert q) s t ∧ OnlyTable s t []) ∧
      (x ∉ slots.take cnt → cnt < 15 → ∃ t, Happens (.insert q) s t ∧ OnlyTable s t [own] ∧
        IsBucket t q.bucket (cnt + 1) up link (slots.set cnt x)) ∧
      (x ∉ slots.take cnt → cnt = 15 → q.policy < 3 → ∃ t, Happens (.insert q) s t ∧ OnlyTable s t [own, dropped] ∧
        t.readLe (q.desc + 32) 4 = drops ∧
        (q.policy = 0 → IsBucket t q.bucket 15 up link slots) ∧
        (q.policy = 1 → IsBucket t q.bucket 15 up link (slots.drop 1 ++ [x])) ∧
        (q.policy = 2 → IsBucket t q.bucket 15 up link (if mixed x up % up < 15 then slots.set (mixed x up % up) x else slots))) ∧
      (x ∉ slots.take cnt → cnt = 15 → q.policy = 3 → link = 0 →
        (q.pooln ≤ next → ∃ t, Happens (.insert q) s t ∧ OnlyTable s t [own, dropped] ∧
          t.readLe (q.desc + 32) 4 = drops ∧ IsBucket t q.bucket 15 up 0 slots) ∧
        (next < q.pooln → next + 1 < 2 ^ 16 → ∀ o, InPool q next o →
          ∃ t, Happens (.insert q) s t ∧ OnlyTable s t [own, (q.desc + 36, 8), (o, 64)] ∧
            t.readLe (q.desc + 40) 4 = next + 1 ∧ t.readLe (q.desc + 36) 4 = min (s.readLe (q.desc + 36) 4 + 1) (2 ^ 32 - 1) ∧
            IsBucket t q.bucket 15 up (next + 1) slots ∧ IsBucket t o 1 1 0 (x :: List.replicate 14 0xFFFFFFFF))) ∧
      (x ∉ slots.take cnt → cnt = 15 → q.policy = 3 → link ≠ 0 → ∀ o c n l rows, InPool q (link - 1) o → IsBucket s o c n l rows →
        (x ∈ rows.take c → ∃ t, Happens (.insert q) s t ∧ OnlyTable s t [own] ∧ IsBucket t q.bucket 15 up link slots) ∧
        (x ∉ rows.take c → c < 15 → ∃ t, Happens (.insert q) s t ∧ OnlyTable s t [own, (o, 64)] ∧
          IsBucket t q.bucket 15 up link slots ∧ IsBucket t o (c + 1) (min (n + 1) 4095) l (rows.set c x)) ∧
        (x ∉ rows.take c → c = 15 → ∃ t, Happens (.insert q) s t ∧ OnlyTable s t [own, (o, 64), dropped] ∧
          t.readLe (q.desc + 32) 4 = drops ∧ IsBucket t q.bucket 15 up link slots ∧ IsBucket t o 15 (min (n + 1) 4095) l rows))) ∧
    (j.ins = false →
      (q.policy ≠ 3 ∨ link = 0 →
        ∃ t, Happens (.delete q) s t ∧ OnlyTable s t (if x ∈ slots.take cnt then [own] else []) ∧
          IsBucket t q.bucket (afterDelete cnt slots x).1 ins link (afterDelete cnt slots x).2) ∧
      (q.policy = 3 → link ≠ 0 → ∀ o c n l rows, InPool q (link - 1) o → IsBucket s o c n l rows →
        ∃ t, Happens (.delete q) s t ∧
          OnlyTable s t ((if x ∈ slots.take cnt then [own] else []) ++ (if x ∈ rows.take c then [(o, 64)] else [])) ∧
          IsBucket t q.bucket (afterDelete cnt slots x).1 ins link (afterDelete cnt slots x).2 ∧
          IsBucket t o (afterDelete c rows x).1 n l (afterDelete c rows x).2))) ∧
  (∀ (s : State) (p : Probe) (b cnt ins link : Nat) (slots : List Nat), s.Quiet → Sound s → s.poison = [] →
    s.probes.find? (fun q => q.tag == p.tag) = some p → (b, b) ∈ p.todo → p.todo.Nodup → IsBucket s b cnt ins link slots →
    (p.policy = 3 → link = 0) → (∀ e ∈ p.todo, e.1 = e.2) →
    (s.probeReady p (b, b) = false → exec (.bucketRead p.tag b) s = .next s) ∧
    (s.probeReady p (b, b) = true →
    (p.todo ≠ [(b, b)] → ∃ t q, Happens (.bucketRead p.tag b) s t ∧ OnlyRead s { t with probes := s.probes } ∧ q.begun = true ∧
      t.probes.find? (fun r => r.tag == p.tag) = some q ∧ q.todo = p.todo.erase (b, b) ∧ q.rows = p.rows ++ [(b, slots.take cnt)]) ∧
    (p.todo = [(b, b)] → ∀ g c sp, s.gang p.gang = some g → g.split p.split = some sp → s.crew g.crew = some c → c.shadow = none →
      (∀ k, k < 16 + 5 * p.cap → c.padState ((p.list + k) / 4096) = .pinned) →
      let all := p.rows ++ [(b, slots.take cnt)]
      let hit (x : Nat) := (p.lanes.filter (fun l => all.any (fun r => r.1 == l.2 && r.2.contains x))).length
      ∃ t h k rows, Happens (.bucketRead p.tag b) s t ∧ t.gang p.gang = some h ∧ t.crew g.crew = some k ∧
        t.probes = s.probes.filter (fun r => r.tag != p.tag) ∧
        rows.length ≤ p.cap ∧ rows.Pairwise (· < ·) ∧ (∀ x ∈ rows, 0 < hit x) ∧
        (∀ x y, x ∈ rows → 0 < hit y → y ∉ rows → rows.length = p.cap ∧ (hit y < hit x ∨ (hit y = hit x ∧ x < y))) ∧
        (∀ y, 0 < hit y → p.cap ≠ 0 → rows ≠ []) ∧
        h.sreg p.dest = BitVec.ofNat 64 rows.length ∧
        h.split p.split = some { sp with blocked := none, pc := sp.pc + 4, hints := Hints.none, retry := none, word := none } ∧
        let raw := ((all.flatMap (·.2)).dedup.filter (fun x => decide (0 < hit x))).length
        (∀ j, j < 4 → (k.padByte (p.list + j)).toNat = rows.length / 256 ^ j % 256 ∧
          (k.padByte (p.list + 4 + j)).toNat = raw / 256 ^ j % 256 ∧
          (k.padByte (p.list + 8 + j)).toNat = p.lanes.length / 256 ^ j % 256 ∧
          (k.padByte (p.list + 12 + j)).toNat = (if j = 0 ∧ p.cap < raw then 1 else 0)) ∧
        (∀ m, m < rows.length → ∀ j, j < 4 → (k.padByte (p.list + 16 + 4 * m + j)).toNat = nth 0 rows m / 256 ^ j % 256) ∧
        (∀ m, m < rows.length → (k.padByte (p.list + 16 + 4 * p.cap + m)).toNat = hit (nth 0 rows m) % 256))))


namespace Sys2Proof.Claims

/-! ### Watches, tasks and counters -/

/-- −1, −2 and −3 as scalars. -/
def codeOf (k : Nat) : DWord := BitVec.ofInt 64 (-(k : Int))

/-- The issuing gang is now h and stands at the next word. -/
structure Onward (s t : State) (i : Issue) (h : Gang) : Prop where
  gang : t.gang i.g.id = some h
  here : h.split i.k = some (i.after s.fresh (i.sp.pc + 4))
  others : ∀ k, k ≠ i.k → h.split k = i.g.split k
  gangs : ∀ j, j ≠ i.g.id → t.gang j = s.gang j

/-- The part is one of a 64- or 128-byte structure in own memory that a walk finds where the TLBs do. -/
structure Described (s : State) (i : Issue) (va n : Nat) (u : State) (p : Located) (need : Nat) : Prop where
  checked : (s.begin i).coalesce i.g need (rangeParts 0 3 0 va n) = (u, .ok [p]) ∧ p.part.va = va ∧ p.part.len = n
  own : Own s p
  clean : Sound s ∧ s.poison = [] ∧ s.l1 = [] ∧ NoLines s ∧ i.g.wcb = []

/-- The bits of a descriptor of 64 bytes in memory from bit l on, n of them (R346). -/
def bitsAt (s : State) (a l n : Nat) : Nat := s.readLe a 64 / 2 ^ l % 2 ^ n

/-- What R346 asks of a descriptor. -/
def formed (s : State) (a : Nat) : Prop :=
  bitsAt s a 365 19 = 0 ∧ bitsAt s a 385 15 = 0 ∧ 6 ≤ bitsAt s a 356 5 ∧ bitsAt s a 356 5 ≤ 16 ∧ bitsAt s a 64 64 ≠ 0 ∧
  bitsAt s a 64 64 % 2 ^ bitsAt s a 356 5 = 0 ∧ bitsAt s a 0 64 % 2 ^ bitsAt s a 356 5 = 0 ∧
  bitsAt s a 0 64 + bitsAt s a 64 64 ≤ 2 ^ 56 ∧ 1 ≤ bitsAt s a 349 7 ∧ bitsAt s a 349 7 ≤ 64 ∧ bitsAt s a 361 4 ≠ 0 ∧
  bitsAt s a 256 32 % 4 = 0 ∧ bitsAt s a 192 64 % 64 = 0 ∧ (bitsAt s a 400 16 = 0 → bitsAt s a 192 64 = 0) ∧
  bitsAt s a 400 16 ≤ 2 ^ 15 ∧ shapeOk (bitsAt s a 320 25) = true

/-- The 32 bytes of a range counter: next, end, min and div (R137). -/
structure IsCounter (s : State) (a : Nat) (next end_ min_ div_ : DWord) : Prop where
  next : s.readLe a 8 = next.toNat
  end_ : s.readLe (a + 8) 8 = end_.toNat
  min_ : s.readLe (a + 16) 8 = min_.toNat
  div_ : s.readLe (a + 24) 8 = div_.toNat

/-- The length of a claim is the one R368 gives. -/
def IsLen (next end_ min_ div_ : DWord) (len : Nat) : Prop :=
  let rem := end_.toInt - next.toInt
  let d := max 1 div_.toInt
  let m := max 1 min_.toInt
  if rem ≤ 0 then len = 0 else ∃ c : Int, (c - 1) * d < rem ∧ rem ≤ c * d ∧ (len : Int) = min rem (max m c)

end Sys2Proof.Claims

/-- R346, R347, R357, R358, R360 to R363, R374: watch answers −1 for a malformed descriptor, takes the lowest free id and
clears the fields that are the device's, or raises 0x12; unwatch removes a watch with its entries and tasks; wstat reads one;
qpost queues a task, answers 2 for a malformed one and 1 where the region of the context that posts is full; another context is
context 0's to name. That it is the region of the posting context, context 0's also where context 0 posts for another on an
ordinary core, is the model's reading (log entry 82). -/
def Obligations.WatchesAndTasks : Prop :=
  ∀ (s : State) (i : Issue), Ready s i →
    (∀ (d a : BitVec 6) (u : State) (p : Located), let va := (i.g.sreg a.toNat).toNat
      Described s i va 64 u p needBoth → i.g.smark a.toNat = false →
      let m := dpaLocal p.phys
      (va % 64 ≠ 0 → ∃ t h, exec (.watch d a) s = .next t ∧ Looked s t i h ∧ i.g.WroteS h d.toNat (codeOf 1) false) ∧
      (va % 64 = 0 → ¬ formed s m → ∃ t h, exec (.watch d a) s = .next t ∧ Looked s t i h ∧ i.g.WroteS h d.toNat (codeOf 1) false) ∧
      (va % 64 = 0 → ∀ k, s.watchPages i.g.ctx va (s.readLe m 64) = .inr k →
        ∃ t h, exec (.watch d a) s = .next t ∧ Looked s t i h ∧ i.g.WroteS h d.toNat (codeOf k) false) ∧
      (va % 64 = 0 → ∀ ps, s.watchPages i.g.ctx va (s.readLe m 64) = .inl ps →
        ((∀ k, k < 1024 → ∃ w ∈ s.watches, w.ctx = i.g.ctx ∧ w.id = k) → ∃ v, Raises (.watch d a) s v i 0x12 i.act 0) ∧
        (∀ k, k < 1024 → (∀ w ∈ s.watches, ¬ (w.ctx = i.g.ctx ∧ w.id = k)) →
          (∀ j, j < k → ∃ w ∈ s.watches, w.ctx = i.g.ctx ∧ w.id = j) →
          (s.watches.map (fun w => w.pages.length)).sum + ps.length ≤ Config.watchIndex →
          (∃ e, deviceAddr s i.g.ctx va 64 true true = some (m, e)) → (∃ e, deviceAddr s i.g.ctx va 64 false true = some (m, e)) →
          ∃ t h w, exec (.watch d a) s = .next t ∧ Onward s t i h ∧ i.g.WroteS h d.toNat (BitVec.ofNat 64 k) false ∧
            t.watches = s.watches ++ [w] ∧ w.ctx = i.g.ctx ∧ w.id = k ∧ w.descVa = va ∧ w.pages = ps ∧
            w.base = bitsAt s m 0 64 ∧ w.len = bitsAt s m 64 64 ∧ w.lease = bitsAt s m 128 64 ∧ w.spill = bitsAt s m 192 64 ∧
            w.entry = bitsAt s m 256 32 ∧ w.arg = bitsAt s m 288 32 ∧ w.shape = bitsAt s m 320 25 ∧ w.dlim = bitsAt s m 345 4 ∧
            w.quota = bitsAt s m 349 7 ∧ w.glog = bitsAt s m 356 5 ∧ w.filter = bitsAt s m 361 4 ∧ w.spilln = bitsAt s m 400 16 ∧
            w.lostn = 0 ∧ w.fired = 0 ∧ w.stail = 0 ∧ w.shead = 0 ∧ w.lostf = false ∧
            t.readLe (m + 52) 12 = 0 ∧ (t.byte (m + 48)).toNat = 0 ∧
            ∀ b, b < m + 48 ∨ m + 64 ≤ b → t.byte b = s.byte b))) ∧
    (∀ d a : BitVec 6,
      ((∀ w ∈ s.watches, ¬ (w.ctx = i.g.ctx ∧ w.id = (i.g.sreg a.toNat).toNat)) →
        WritesScalar (.unwatch d a) s i d 1 false ∧ WritesScalar (.wstat d a 0) s i d 0 false ∧
        ∀ x : BitVec 4, x ≠ 0 → WritesScalar (.wstat d a x) s i d (codeOf 1) false) ∧
      (∀ w, s.watches.find? (fun v => v.ctx == i.g.ctx && v.id == (i.g.sreg a.toNat).toNat) = some w →
        ((∀ k ∈ s.tasks, ∀ k' ∈ s.tasks, k.id = k'.id → k = k') →
          ∃ t h, exec (.unwatch d a) s = .next t ∧ Onward s t i h ∧ i.g.WroteS h d.toNat 0 false ∧
          (∀ v, v ∈ t.watches ↔ v ∈ s.watches ∧ ¬ (v.ctx = w.ctx ∧ v.id = w.id)) ∧
          (∀ e, e ∈ t.pending ↔ e ∈ s.pending ∧ ¬ (e.ctx = w.ctx ∧ e.watch = w.id)) ∧
          (∀ k, k ∈ t.tasks ↔ k ∈ s.tasks ∧ k.isOf w.ctx w.id = false) ∧ t.mem = s.mem) ∧
        WritesScalar (.wstat d a 0) s i d (BitVec.ofNat 64 w.descVa) false ∧
        WritesScalar (.wstat d a 1) s i d (BitVec.ofNat 64 w.lostn) false ∧
        WritesScalar (.wstat d a 2) s i d (BitVec.ofNat 64 w.fired) false ∧
        WritesScalar (.wstat d a 3) s i d
          (BitVec.ofNat 64 (s.pending.filter (fun e => e.ctx == w.ctx && e.watch == w.id)).length) false ∧
        (w.shead < 2 ^ 16 → WritesScalar (.wstat d a 4) s i d (BitVec.ofNat 64 ((w.stail + 2 ^ 16 - w.shead) % 2 ^ 16)) false) ∧
        WritesScalar (.wstat d a 5) s i d (if w.lostf then 1 else 0) false ∧
        (∀ m e, deviceAddr s w.ctx w.descVa 64 false true = some (m, e) → s.Faultless →
          ∃ t h, exec (.wstat d a 6) s = .next t ∧ Onward s t i h ∧ i.g.WroteS h d.toNat (if w.lostf then 1 else 0) false ∧
            (t.byte (m + 48)).toNat = 0 ∧ { w with lostf := false } ∈ t.watches ∧
            ∀ b, b < m + 48 ∨ m + 64 ≤ b → t.byte b = s.byte b))) ∧
    (∀ (d a b : BitVec 6), b ≠ 0 → i.g.ctx ≠ 0 → Raises (.qpost d a b) s (s.begin i) i 0x02 i.act 0) ∧
    (∀ (d a b : BitVec 6) (u : State) (p : Located), let va := (i.g.sreg a.toNat).toNat
      let ctx := if b = 0 then i.g.ctx else field (i.g.sreg b.toNat) 0 16
      (b ≠ 0 → i.g.ctx = 0) → Described s i va 128 u p needRead → i.g.smark a.toNat = false → (b ≠ 0 → i.g.smark b.toNat = false) →
      Clear s i →
      let m := dpaLocal p.phys
      let entry := s.readLe (m + 72) 4
      let shape := s.readLe (m + 76) 4
      let poster := i.g.ctx
      let good := s.rootOf ctx ≠ none ∧ va % 128 = 0 ∧ entry % 4 = 0 ∧ shapeOk shape = true ∧ s.readLe (m + 80) 48 = 0
      (¬ good → ∃ t h, exec (.qpost d a b) s = .next t ∧ Onward s t i h ∧ i.g.WroteS h d.toNat 2 false ∧ t.tasks = s.tasks ∧
        t.mem = s.mem) ∧
      (good → (∀ k ∈ s.tasks, k.unwritten = false) → 65536 ≤ (s.spilledOf (dieOf i.g.core) poster).length →
        ∃ t h, exec (.qpost d a b) s = .next t ∧ Onward s t i h ∧ i.g.WroteS h d.toNat 1 false ∧ t.tasks = s.tasks ∧ t.mem = s.mem) ∧
      (good → (∀ k ∈ s.tasks, k.unwritten = false) → s.onChip (dieOf i.g.core) < 1024 → s.spilledOf (dieOf i.g.core) poster = [] →
        ∃ t h k, exec (.qpost d a b) s = .next t ∧ Onward s t i h ∧ i.g.WroteS h d.toNat 0 false ∧ t.tasks = s.tasks ++ [k] ∧
          k.die = dieOf i.g.core ∧ k.ctx = ctx ∧ k.entry = entry ∧ k.shape = shape ∧ k.leaseVa = s.readLe (m + 64) 8 ∧
          k.args = (List.range 8).map (fun j => BitVec.ofNat 64 (s.readLe (m + 8 * j) 8)) ∧ k.cls = shape / 2 ^ 23 % 4 ∧
          (i.g.onControl = false → k.tdepth = i.g.tdepth) ∧ k.spilled = none ∧ k.unwritten = false ∧ t.mem = s.mem))

namespace Sys2Proof.Claims

/-- What claim and rinit ask of the checks (R370). -/
def counterRequest (i : Issue) (a : BitVec 6) : Request := atomicRequest i (scalarElem (i.g.sreg a.toNat).toNat) 32 true

/-- The checks of claim and rinit pass, for a part of memory. -/
def CounterPasses (s u : State) (i : Issue) (es : List Elem) (p : Located) (a : BitVec 6) (mark : Bool) : Prop :=
  (s.begin i).check i (counterRequest i a) (fun ls => ls.any (fun q => dpaModule q.phys == s.mgmt.modid && isHost (dpaLocal q.phys)))
    (fun _ => mark) = .go u es [p] []

/-- A poisoned operand of rinit. -/
def initMark (i : Issue) (a : BitVec 6) (b : BitVec 4) : Bool :=
  i.g.smark a.toNat || (List.range 4).any (fun k => i.g.smark (4 * b.toNat + k))

/-- R137, R368, R369: claim and rinit on a counter in own memory, whose checks pass, complete. claim takes the next chunk, whose
length R368 fixes; a counter with nothing left is unchanged. rinit writes the four fields. Each is a release. -/
def CountersComplete : Prop :=
  ∀ (s u : State) (i : Issue) (es : List Elem) (p : Located) (a : BitVec 6), Ready s i → Undisturbed s i → Free s i → Unguarded s →
    Ordinary s p →
    let m := dpaLocal p.phys
    m % 32 = 0 →
    (∀ (d : BitVec 5) (next end_ min_ div_ : DWord) (len : Nat), CounterPasses s u i es p a (i.g.smark a.toNat) →
      IsCounter s m next end_ min_ div_ → IsLen next end_ min_ div_ len →
      ∃ t h, exec (.claim d a) s = .next t ∧ Exchanged s t i h ∧ Releases t i ∧
        (∀ n, h.sreg n = if n = 2 * d.toNat then next else if n = 2 * d.toNat + 1 then BitVec.ofNat 64 len else i.g.sreg n) ∧
        (∀ n, n < 64 → h.smark n = if n = 2 * d.toNat ∨ n = 2 * d.toNat + 1 then false else i.g.smark n) ∧
        { h with s := i.g.s, sPoison := i.g.sPoison, splits := i.g.splits } = i.g ∧
        IsCounter t m (next + BitVec.ofNat 64 len) end_ min_ div_ ∧ ∀ b, b < m ∨ m + 32 ≤ b → t.byte b = s.byte b) ∧
    (∀ b : BitVec 4, let r (k : Nat) := i.g.sreg (4 * b.toNat + k)
      CounterPasses s u i es p a (initMark i a b) →
      ∃ t h, exec (.rinit a b) s = .next t ∧ Exchanged s t i h ∧ Releases t i ∧ i.g.Same h ∧
        IsCounter t m (r 0) (r 1) (r 2) (r 3) ∧ ∀ b, b < m ∨ m + 32 ≤ b → t.byte b = s.byte b)

/-- R368 to R370: where claim and rinit stop: on a sealed page with 0x08, at an address that is not a multiple of 32 with 0x05, in
the host window with 0x0C, in that order; and until the gang's earlier stores have committed, which each releases first. -/
def CountersStop : Prop :=
  ∀ (s u : State) (i : Issue) (a : BitVec 6) (d : BitVec 5) (b : BitVec 4), Ready s i →
    let va := (i.g.sreg a.toNat).toNat
    let both : List Instr := [.claim d a, .rinit a b]
    (∀ ls, (s.begin i).reach i (counterRequest i a) = (u, none, ls) → (∀ p ∈ ls, p.part.lane = 0) →
      ((∃ p ∈ ls, p.isSealed = true) → ∀ n ∈ both, Raises n s u i 0x08 i.act va) ∧
      ((∀ p ∈ ls, p.isSealed = false) → va % 32 ≠ 0 → ∀ n ∈ both, Raises n s u i 0x05 i.act va) ∧
      ((∀ p ∈ ls, p.isSealed = false) → va % 32 = 0 → (∃ p ∈ ls, dpaModule p.phys = s.mgmt.modid ∧ isHost (dpaLocal p.phys) = true) →
        ∀ n ∈ both, Raises n s u i 0x0C i.act va)) ∧
    (∀ es p, s.matrixHolds i.g = false → i.g.wcb = [] → i.g.pendingAcks ≠ 0 →
      (CounterPasses s u i es p a (i.g.smark a.toNat) → ∃ t, exec (.claim d a) s = .next t ∧ BlocksOn t i .drain) ∧
      (CounterPasses s u i es p a (initMark i a b) → ∃ t, exec (.rinit a b) s = .next t ∧ BlocksOn t i .drain))

end Sys2Proof.Claims

/-- R137, R368 to R370: claim takes the next chunk of a range counter in own memory, whose length R368 fixes; a counter with
nothing left is unchanged. rinit writes the four fields. Each releases first, and waits while it has a store to wait for; a sealed
page takes 0x08, an address that is not a multiple of 32 takes 0x05, the host window 0x0C. -/
def Obligations.RangeCounters : Prop := Claims.CountersComplete ∧ Claims.CountersStop

namespace Sys2Proof.Claims

/-! ### Slices -/

/-- Slices find no error, no protection group is in force, and no task awaits a reply. -/
structure Calm (s : State) : Prop where
  quiet : s.Quiet
  faultless : s.Faultless
  group : ∀ a, s.groupOf a = none
  replies : s.awaitedSeqs = []

/-- Near-memory operations that write a value computed from the old one (R132): the event, the code, and the value by the
width, the old value and the operand. -/
noncomputable def nearEvents : List ((NearReq → Instr) × (Nat → Nat → Nat → Nat)) :=
  [(.nearSwap, fun _ _ x => x), (.nearAdd, fun n old x => (old + x) % 2 ^ n), (.nearAnd, fun _ old x => old &&& x),
   (.nearOr, fun _ old x => old ||| x), (.nearXor, fun _ old x => old ^^^ x),
   (.nearSmin, fun n old x => if (BitVec.ofNat n old).toInt ≤ (BitVec.ofNat n x).toInt then old else x),
   (.nearSmax, fun n old x => if (BitVec.ofNat n old).toInt ≤ (BitVec.ofNat n x).toInt then x else old),
   (.nearUmin, fun _ old x => if old ≤ x then old else x), (.nearUmax, fun _ old x => if old ≤ x then x else old)]

/-- A near-memory operation has answered, and only the memory of its slot has changed, L1 lines that hold it,
and what the SRAM of the slices holds. -/
structure Answered (s t : State) (q : NearReq) (a n x : Nat) (old y : Nat) (flags : Nat) : Prop where
  slot : SlotBecomes s t a n x
  reply : ∃ r, t.replies = s.replies ++ [r] ∧ r.tag = q.tag ∧ r.poison = false ∧ r.flags = w32 flags ∧
    r.data = leBytes 8 old ++ leBytes 8 y
  rest : { t with mem := s.mem, l1 := s.l1, sram := s.sram, replies := s.replies } = s

/-- The request asks for an operation on an unpoisoned slot in own memory, of a page neither watched nor protected. -/
structure Requests (s : State) (q : NearReq) (n : Nat) : Prop where
  dram : isDram q.addr = true ∧ 0xC00000 ≤ q.addr
  aligned : q.addr % n = 0
  plain : q.watched = false ∧ q.prot = false
  clean : s.poison = []

/-- The changed addresses of a write: those whose byte it does not leave as it was (R123). -/
def Differs (s : State) (w : SliceWrite) (a : Nat) : Prop :=
  ∃ b, (w.cells.reverse.find? (fun c => c.1 == a)).map (·.2) = some b ∧ b ≠ s.byte a

end Sys2Proof.Claims

/-- R84, R85, R114, R123, R132, R133, R136, R368, R369: what slices do: a read answers with the bytes as they stand, a write
sets them, of bytes named twice to the last, and a near-memory operation answers with the old value and writes the new one. -/
def Sys2Proof.Claims.SlicesPerformRequests : Prop :=
  ∀ s : State, Calm s →
    (∀ (tag a n : Nat), isDram a = true → a % 64 + n ≤ 64 → ∃ t r, exec (.sliceRead tag a n) s = .next t ∧
      t.replies = s.replies ++ [r] ∧ r.tag = tag ∧ r.data.length = n ∧ (∀ k, k < n → nth 0 r.data k = s.byte (a + k)) ∧
      (0 < n → r.poison = s.poison.contains (a / 64 * 64)) ∧ { t with replies := s.replies, sram := s.sram } = s) ∧
    (∀ w : SliceWrite, (∀ c ∈ w.cells, isDram c.1 = true ∧ 0xC00000 ≤ c.1) → w.watched = false → w.prot = false →
      (s.poison = [] → ∃ t, exec (.sliceWriteCommit w) s = .next t ∧ { t with mem := s.mem, l1 := s.l1, sram := s.sram } = s ∧
        ∀ a, t.byte a = ((w.cells.reverse.find? (fun c => c.1 == a)).map (·.2)).getD (s.byte a)) ∧
      (∀ h, s.poison = [h] → h % 64 = 0 → (∀ c ∈ w.cells, c.1 / 64 * 64 = h) →
        ∃ t, exec (.sliceWriteCommit w) s = .next t ∧
          (∀ a, t.byte a = ((w.cells.reverse.find? (fun c => c.1 == a)).map (·.2)).getD (s.byte a)) ∧
          ((∀ k, k < 64 → ∃ c ∈ w.cells, c.1 = h + k) → w.cells ≠ [] → t.poison = []) ∧
          ((∃ k, k < 64 ∧ ∀ c ∈ w.cells, c.1 ≠ h + k) → t.poison = [h]))) ∧
    (∀ q : NearReq, let n := if q.wide then 64 else 32
      let old := s.readLe q.addr (n / 8)
      let x := q.x.toNat % 2 ^ n
      (Requests s q (n / 8) →
        (∀ e ∈ nearEvents, ∃ t, exec (e.1 q) s = .next t ∧ Answered s t q q.addr (n / 8) (e.2 n old x) old 0 0) ∧
        (∃ t, exec (.nearCas q) s = .next t ∧
          Answered s t q q.addr (n / 8) (if old = q.y.toNat % 2 ^ n then x else old) old 0 0) ∧
        (q.wide = false → ∃ t, exec (.nearFadd q) s = .next t ∧
          Answered s t q q.addr 4 (addF fp32 0 false old x).1 old 0 (addF fp32 0 false old x).2)) ∧
      (Requests s q 16 → ∀ f, s.region q.addr = some (f, q.ctx) →
        ∃ t, exec (.nearFxadd q) s = .next t ∧
          Answered s t q q.addr 16 (fxAccumulate (s.readLe q.addr 16) q.elem f q.x.toNat q.poison) 0 0 0) ∧
      (Requests s q 32 → ∀ (next end_ min_ div_ : DWord) (len : Nat), IsCounter s q.addr next end_ min_ div_ →
        IsLen next end_ min_ div_ len →
        ∃ t, exec (.nearClaim q) s = .next t ∧ IsCounter t q.addr (next + BitVec.ofNat 64 len) end_ min_ div_ ∧
          Answered s t q q.addr 8 (next + BitVec.ofNat 64 len).toNat next.toNat len 0) ∧
      (Requests s q 32 → ∃ t, exec (.nearRinit q) s = .next t ∧ IsCounter t q.addr q.x q.y q.z q.w ∧
        (∀ b, b < q.addr ∨ q.addr + 32 ≤ b → t.byte b = s.byte b) ∧ t.replies.length = s.replies.length + 1))

/-- R116: the queue of a slice never holds more than 32 entries; a request enters behind those of its class that arrived before
it, and nothing is dropped; whichever class enters, one that waits and has room comes nearer in the rotation, in which three
places lie before it at most; and where the slice keeps nothing for the scrubber, that enters only when no class waits. -/
def Sys2Proof.Claims.RequestsEnterInRotation : Prop :=
  ∀ (q : SliceQueue) (lag : Bool),
    (∀ n, q.queue.length ≤ 32 → (SliceQueue.fillUp lag n q).queue.length ≤ 32) ∧
    (∀ c e, q.waiting.find? (fun x => x.1 == c) = some e → (q.enter c).queue = q.queue ++ [e.2] ∧
      (q.enter c).waiting = q.waiting.erase e) ∧
    (∀ c d, q.last ≤ 4 → 1 ≤ c → c ≤ 4 → q.waits c = true → q.room lag c = true → q.next lag = some d → d ≠ c →
      d ≤ 4 ∧ (c + 7 - d) % 4 < (c + 7 - q.last) % 4) ∧
    (q.next false = some 5 → ∀ e ∈ q.waiting, e.1 = 5)

/-- R84, R85, R114, R116, R123, R132, R133, R136, R368, R369: what slices do, and how requests enter their queues. -/
def Obligations.SlicesReadWriteAndOperate : Prop := Claims.SlicesPerformRequests ∧ Claims.RequestsEnterInRotation

namespace Sys2Proof.Claims

/-- Scaling in GF(2^8) by a power of 2, with polynomial 0x11D (R128). -/
def powerTimes : Nat → Nat → Nat
  | 0, x => x
  | j + 1, x => let y := powerTimes j x
    if y < 128 then 2 * y else (2 * y) ^^^ 0x11D

end Sys2Proof.Claims

/-- R120, R121, R128 to R130, R144, R145, R339: parity, scrubbing and slice records. A parity member takes a delta into P as
it is and into Q scaled by the position, and refuses one that no record places with it; an acknowledgement settles what its
writer waits for, unless its sender is lost; the last line of a slice ends its sweep, whose lines come in the model's order (log entry 66); a sweep that
has passed its period lags; a status record is written as R121 lays it out. -/
def Obligations.ParityScrubbingAndSliceRecords : Prop :=
  ∀ s : State, s.Quiet →
    (∀ d : DeltaMsg, s.lost.contains d.src = false → s.Faultless →
      let ok (t : State) (status : Nat) : Prop := ∃ p, t.out = s.out ++ [p] ∧ p.kind = 8 ∧ p.src = s.mgmt.modid ∧ p.dst = d.src ∧
        p.tag = d.tag ∧ p.addr = d.target ∧ p.status = status
      (∀ g r, s.groupOf d.target = some (r, g) → g.stripe d.target = d.stripe → d.bytes.Pairwise (fun x y => x.1 < y.1) →
        (∀ b ∈ d.bytes, isDram (d.target + b.1) = true) →
        (g.pMember d.stripe = s.mgmt.modid → ∃ t, exec (.delta d) s = .next t ∧ ok t 0 ∧
          ∀ a, t.byte a = ((d.bytes.find? (fun b => d.target + b.1 == a)).map (fun b => s.byte a ^^^ b.2)).getD (s.byte a)) ∧
        (g.pMember d.stripe ≠ s.mgmt.modid → g.hasQ = true → g.qMember d.stripe = s.mgmt.modid → ∃ t, exec (.delta d) s = .next t ∧ ok t 0 ∧
          ∀ a, t.byte a = ((d.bytes.find? (fun b => d.target + b.1 == a)).map
            (fun b => s.byte a ^^^ BitVec.ofNat 8 (powerTimes d.pos b.2.toNat))).getD (s.byte a))) ∧
      (s.groupOf d.target = none → s.logArea 0 = none →
        ∃ t, exec (.delta d) s = .next t ∧ ok t 0x13 ∧ ∀ a, (a < 52 ∨ 56 ≤ a) → t.byte a = s.byte a)) ∧
    (∀ (tag : Nat) (refused : Bool) (x : PendDelta) (id : Nat) (g : Gang), s.deltas.find? (fun y => y.tag == tag) = some x →
      x.org = .gang id → s.gang id = some g →
      let sender := if x.msg.src = s.mgmt.modid then x.dest else x.msg.src
      (s.lost.contains sender = true → exec (.deltaAck tag refused) s = .next s) ∧
      (s.lost.contains sender = false → ∃ t h, exec (.deltaAck tag refused) s = .next t ∧ t.gang id = some h ∧
        h.unacked = g.unacked - 1 ∧ h.lostStore = (g.lostStore || refused) ∧
        { h with unacked := g.unacked, lostStore := g.lostStore } = g ∧ t.deltas = s.deltas.eraseP (fun y => y.tag == tag) ∧
        t.mem = s.mem)) ∧
    (∀ a, isDram a = true → s.Faultless →
      let k := sliceOf a
      let line := a / 128 * 128
      ((s.slice k).dscrub = 0xFF ∨ nextLine k (s.slice k).swept ≠ some line → exec (.scrub a) s = .next s) ∧
      ((s.slice k).dscrub ≠ 0xFF → nextLine k (s.slice k).swept = some line →
        ((nextLine k (line + 128)).isSome = true → ∃ t, exec (.scrub a) s = .next t ∧ { t with slices := s.slices } = s ∧
          t.slice k = { s.slice k with swept := line + 128 } ∧ ∀ j, j ≠ k → t.slice j = s.slice j) ∧
        (nextLine k (line + 128) = none → ∃ t, exec (.scrub a) s = .next t ∧
          t.slice k = { s.slice k with sweeps := min ((s.slice k).sweeps + 1) (2 ^ 32 - 1), lag := false, swept := 0,
                                       since := s.clock } ∧
          (∀ j, j ≠ k → t.slice j = s.slice j) ∧ { t with slices := s.slices, agenda := s.agenda } = s ∧
          t.agenda = s.agenda ++ [.sliceStatusWrite k]))) ∧
    (∀ k, let due := (s.slice k).since + 60000000000 * (s.slice k).dscrub
      ((s.slice k).dscrub = 0xFF ∨ s.clock < due → exec (.sweepPeriodExpiry k) s = .next s) ∧
      ((s.slice k).dscrub ≠ 0xFF → due ≤ s.clock → ∃ t, exec (.sweepPeriodExpiry k) s = .next t ∧
        t.slice k = { s.slice k with lag := true } ∧ (∀ j, j ≠ k → t.slice j = s.slice j) ∧ t.mem = s.mem ∧
        t.agenda = s.agenda ++ [.sliceStatusWrite k])) ∧
    (∀ k, k < 768 → Unguarded s → s.Faultless →
      let a := 0x404000 + 32 * k
      let c := s.slice k
      ∃ t, exec (.sliceStatusWrite k) s = .next t ∧ { t with mem := s.mem, sram := s.sram } = s ∧
        t.readLe a 4 = c.dce % 2 ^ 32 ∧ t.readLe (a + 4) 4 = c.due % 2 ^ 32 ∧ t.readLe (a + 8) 4 = c.sce % 2 ^ 32 ∧
        t.readLe (a + 12) 4 = c.sue % 2 ^ 32 ∧ t.readLe (a + 16) 2 = c.lcregen % 2 ^ 16 ∧ t.readLe (a + 18) 2 = c.lcbad % 2 ^ 16 ∧
        t.readLe (a + 20) 2 = c.poisonw % 2 ^ 16 ∧ t.readLe (a + 22) 2 = c.rmiss % 2 ^ 16 ∧
        t.readLe (a + 24) 2 = (if c.lag then 1 else 0) + (if c.reenc then 2 else 0) ∧ t.readLe (a + 26) 2 = c.prefuse % 2 ^ 16 ∧
        t.readLe (a + 28) 4 = c.sweeps % 2 ^ 32 ∧ ∀ b, b < a ∨ a + 32 ≤ b → t.byte b = s.byte b)


namespace Sys2Proof.Claims

/-! ### Gangs and clusters -/

/-- One gang is now h, and nothing else has changed. -/
structure GangBecomes (s t : State) (id : Nat) (h : Gang) : Prop where
  gang : t.gang id = some h
  rest : { t with gangs := s.gangs } = s
  gangs : ∀ j, j ≠ id → t.gang j = s.gang j

/-- A split stands at the join of an entry of its gang that is on chip, and its core's clocks run (R17, R205). -/
structure AtJoin (s : State) (id k : Nat) (g : Gang) (sp : Split) (e : RcEntry) : Prop where
  quiet : s.Quiet
  gang : s.gang id = some g
  clocks : s.clocked g = true
  split : g.split k = some sp
  four : g.splits.length = 4 ∧ k < 4
  top : sp.top = some e.idx
  entry : g.entry e.idx = some e
  here : sp.pc = e.join ∧ sp.retry = none ∧ e.spilled = false
  kept : g.toSpill = []

/-- A bank's status word as R148 lays it out. -/
structure StatusWord (b : BankSt) (x : Nat) : Prop where
  sce : x % 2 ^ 16 = b.sce
  sue : x / 2 ^ 16 % 2 ^ 16 = b.sue
  held : x / 2 ^ 32 % 2 ^ 11 = (b.fifo.filter (fun e => match e with | .reserved _ => true | _ => false)).length
  filled : x / 2 ^ 43 % 2 ^ 11 = (b.fifo.filter (fun e => match e with | .filled _ => true | _ => false)).length
  reenc : x / 2 ^ 54 % 2 = if b.reenc then 1 else 0
  busy : x / 2 ^ 55 % 2 = if b.busy then 1 else 0
  cur : x / 2 ^ 56 % 4 = b.cur
  err : x / 2 ^ 58 % 2 = if b.err then 1 else 0

/-- The counts of a bank fit their fields. -/
def BankFits (b : BankSt) : Prop := b.sce < 2 ^ 16 ∧ b.sue < 2 ^ 16 ∧ b.fifo.length < 2 ^ 11 ∧ b.cur < 4

end Sys2Proof.Claims

/-- R17, R107, R148 to R150, R154, R156, R159, R166, R202, R203, R205, R206, R214, R223, R405: what happens at gangs and clusters
without an instruction: a split arrives at its join, an entry is read back, a yield ends, a translation enters a TLB, a load whose
data has come writes its register, a buffered line is written, each of a gang only while its core's clocks run; a bank changes
role or code and writes its status, a page takes or loses its frame, a wait for an event ends. That the frame taken is the lowest
free one is the model's reading (log entry 30), and which events a gated core holds up (log entry 105). -/
def Obligations.GangAndClusterEvents : Prop :=
  (∀ s id k g line, s.Quiet → s.gang id = some g → s.clocked g = false → exec (.joinArrival id k) s = .next s ∧
    exec (.yieldExpiry id k) s = .next s ∧ exec (.wcbIdleDrain id line) s = .next s) ∧
  (∀ s id k g sp e, AtJoin s id k g sp e →
    let all := e.mask &&& ~~~ (e.arr ||| sp.mask) = 0
    (∀ x ∈ g.rc, x.pv = false) →
    (¬ all → ∃ t h, exec (.joinArrival id k) s = .next t ∧ GangBecomes s t id h ∧ h.split k = none ∧
      (∀ j, j ≠ k → h.split j = g.split j) ∧ h.entry e.idx = some { e with arr := e.arr ||| sp.mask } ∧
      (∀ j, j ≠ e.idx → h.entry j = g.entry j)) ∧
    (all → e.mask ≠ 0 → ∃ t h m q, exec (.joinArrival id k) s = .next t ∧ GangBecomes s t id h ∧ h.entry e.idx = none ∧
      (∀ j, j ≠ e.idx → h.entry j = g.entry j) ∧ (g.split m = none ∨ m = k) ∧ m < 4 ∧ h.split m = some q ∧
      q = { Split.start e.join e.mask e.fmt with top := e.link, hm := sp.hm, glen := sp.glen, cause := sp.cause,
                                                  trapPc := sp.trapPc, trapLanes := sp.trapLanes, trapAddr := sp.trapAddr,
                                                  stamp := q.stamp } ∧
      (m ≠ k → h.split k = none) ∧ ∀ j, j ≠ m → j ≠ k → h.split j = g.split j)) ∧
  (∀ s id k g sp e, s.Quiet → s.gang id = some g → g.split k = some sp → sp.top = some e.idx → g.entry e.idx = some e →
    (e.spilled = false → exec (.reconvergenceRefill id k) s = .next s) ∧
    (e.spilled = true → s.refilling id k = false → ∀ u d, s.deviceRead g.ctx (s.gangBlock g + 0x2000 + 64 * e.idx) 64 = (u, some d) →
      let fld (o n : Nat) : Nat := ofBytes d / 2 ^ o % 2 ^ n
      ∃ t h, exec (.reconvergenceRefill id k) s = .next t ∧ GangBecomes u t id h ∧ h.entry e.idx = some { e with
          join := BitVec.ofNat 64 (fld 0 64), ppc := BitVec.ofNat 64 (fld 64 64), mask := BitVec.ofNat 32 (fld 128 32),
          arr := BitVec.ofNat 32 (fld 160 32), pmask := BitVec.ofNat 32 (fld 192 32), fmt := BitVec.ofNat 32 (fld 224 32) &&& 0x0F1FFFFF,
          link := if fld 262 1 = 1 then some (fld 256 6) else none, pv := fld 263 1 == 1, spilled := false } ∧
        (∀ j, j ≠ e.idx → h.entry j = g.entry j) ∧ { h with rc := g.rc } = g)) ∧
  (∀ s id k g sp, s.Quiet → s.gang id = some g → s.clocked g = true → g.split k = some sp → sp.yielded = true →
    ∃ t h, exec (.yieldExpiry id k) s = .next t ∧ GangBecomes s t id h ∧ h.split k = some { sp with yielded := false, rested := true } ∧
      (∀ j, j ≠ k → h.split j = g.split j) ∧ g.Same h) ∧
  (∀ s cl ctx va base size e, s.Quiet → s.Faultless → leafAt s ctx va = some (base, size, e) →
    s.tlbFind false cl ctx va = none → (∀ p ∈ s.ptrs, ¬(p.unit = cl ∧ p.ctx = ctx)) →
    ∃ t, exec (.tableWalk cl ctx va) s = .next t ∧ { t with tlb := s.tlb, ptrs := s.ptrs, sram := s.sram } = s ∧
      (∀ p ∈ t.ptrs, p ∈ s.ptrs ∨ (p.unit = cl ∧ p.ctx = ctx)) ∧
      t.tlb.getLast? = some { inCore := false, unit := cl, ctx, va := base, size, leaf := BitVec.ofNat 64 e } ∧
      ∀ y ∈ t.tlb.dropLast, y ∈ s.tlb) ∧
  (∀ s core ctx va y, s.Quiet → s.tlbFind true core ctx va = none → s.tlbFind false (clusterOf core) ctx va = some y →
    ∃ t, exec (.clusterTlbHit core ctx va) s = .next t ∧ { t with tlb := s.tlb } = s ∧
      t.tlb.getLast? = some { y with inCore := true, unit := core } ∧ ∀ z ∈ t.tlb.dropLast, z ∈ s.tlb) ∧
  (∀ s tag l g sp, s.Quiet → s.loads.find? (fun x => x.tag == tag && x.await.isEmpty) = some l → l.kind = 0 → l.faults = [] →
    l.lanes.getLsbD 0 = true → l.poison = 0 → l.acquire = none → l.size ∈ [1, 2, 4, 8] → l.reg < 64 → s.gang l.gang = some g → s.clocked g = true → g.split l.split = some sp →
    ∃ t h, exec (.loadComplete tag) s = .next t ∧ { t with gangs := s.gangs, loads := s.loads } = s ∧
      t.loads = s.loads.filter (fun x => x.tag != tag) ∧ t.gang l.gang = some h ∧ (∀ j, j ≠ l.gang → t.gang j = s.gang j) ∧
      h.split l.split = some { sp with blocked := none, pc := sp.pc + 4, hints := Hints.none, retry := none, word := none } ∧
      ∃ x, x < 256 ^ l.size ∧ (∀ k, k < l.size → x / 256 ^ k % 256 = (sget 0 l.got k).toNat) ∧
        g.WroteS h l.reg (if l.signed then (BitVec.ofNat (8 * l.size) x).signExtend 64 else BitVec.ofNat 64 x) false) ∧
  (∀ s id g e, s.Quiet → s.Faultless → Unguarded s → s.gang id = some g → s.clocked g = true → g.wcb.find? (fun x => x.line == e.line) = some e →
    dpaModule e.line = s.mgmt.modid → (∀ c ∈ e.cells, lineOf c.1 = e.line ∧ isDram (dpaLocal c.1) = true ∧ 0xC00000 ≤ dpaLocal c.1) →
    e.watched = false → e.prot = false → e.cells ≠ [] →
    ∃ t h, exec (.wcbIdleDrain id e.line) s = .next t ∧ t.gang id = some h ∧ h.wcb = g.wcb.filter (fun x => x.line != e.line) ∧
      { h with wcb := g.wcb } = g ∧ { t with gangs := s.gangs, mem := s.mem, l1 := s.l1, sram := s.sram } = s ∧
      (∀ a, t.byte a = ((e.cells.reverse.find? (fun c => dpaLocal c.1 == a)).map (·.2)).getD (s.byte a)) ∧
      ∀ j, j ≠ id → t.gang j = s.gang j) ∧
  (∀ s c b, s.Quiet → s.Faultless → Unguarded s → c < 576 → b < 48 → BankFits (s.bank c b) →
    let a := 0x648000 + 512 * c + 8 * b
    ∃ t, exec (.bankStatusWrite c b) s = .next t ∧ { t with mem := s.mem, sram := s.sram } = s ∧ StatusWord (s.bank c b) (t.readLe a 8) ∧
      ∀ x, x < a ∨ a + 8 ≤ x → t.byte x = s.byte x) ∧
  (∀ s c b, s.Quiet →
    let k := s.bank c b
    (k.busy = true → k.cur = 2 → (∃ e ∈ k.fifo, e ≠ .void) → exec (.bankRoleChange c b) s = .next s) ∧
    (k.busy = true → k.cur = 1 → s.padFrames c < s.padsReserved c → exec (.bankRoleChange c b) s = .next s) ∧
    (k.busy = true → k.cur = 1 → s.padsReserved c ≤ s.padFrames c → s.bankPages c b ≠ [] →
      (∀ p ∈ s.bankPages c b, s.pageState p ≠ .evacuating) →
      ∃ t, exec (.bankRoleChange c b) s = .next t ∧ { t with crews := s.crews, agenda := s.agenda } = s ∧
        t.agenda = s.agenda ++ (s.bankPages c b).map (fun p => .padEvacuate p.1 p.2) ++ [.bankRoleChange c b] ∧
        ∀ p ∈ s.bankPages c b, (s.crew p.1).isSome = true → t.pageState p = .evacuating) ∧
    (∀ q w g, k.change = some q → k.cur = 2 → (∀ e ∈ k.fifo, e = .void) → s.fifoQueue c b true = [w] → s.gang w.1 = some g →
      g.onControl = false → ∃ t, exec (.bankRoleChange c b) s = .next t ∧ t.gang w.1 = none ∧ (t.bank c b).cur = q.role) ∧
    (∀ q, k.change = some q → s.fifoQueue c b true = [] → (k.cur = 0 ∨ (k.cur = 2 ∧ ∀ e ∈ k.fifo, e = .void) ∨
        (k.cur = 1 ∧ s.padsReserved c ≤ s.padFrames c ∧ s.bankPages c b = [])) →
      ∃ t, exec (.bankRoleChange c b) s = .next t ∧ { t with banks := s.banks, l1 := s.l1, agenda := s.agenda } = s ∧
        t.bank c b = { k with cur := q.role, ctx := q.ctx, fnum := q.fnum, change := k.next, next := none, fifo := [],
                                  head := 0, waiting := [] } ∧
        t.agenda = s.agenda ++ ([.bankStatusWrite c b, .hubConsider (c / 36)] ++ if k.next = none then [] else [.bankRoleChange c b]) ∧ ∀ y ∈ t.l1, y ∈ s.l1)) ∧
  (∀ s c b, s.Quiet → (s.bank c b).flaws = [] → ∃ t, exec (.bankReencode c b) s = .next t ∧ { t with banks := s.banks, agenda := s.agenda } = s ∧
    t.bank c b = { s.bank c b with code := (s.bank c b).ecc, codes := [], reenc := false } ∧ t.agenda = s.agenda ++ [.bankStatusWrite c b]) ∧
  (∀ s v page c, s.Quiet → s.crew v = some c → page < c.pads → c.preempted = false →
    (c.padState page = .pinned ∨ c.padState page = .unpinned → ∃ t k, exec (.padFill v page) s = .next t ∧
      { t with crews := s.crews } = s ∧ t.crew v = some k ∧ k.padState page = .pinned ∧
      (∀ p, p ≠ page → k.padState p = c.padState p) ∧ { k with padStates := c.padStates, frames := c.frames } = c) ∧
    (c.padState page = .initial → (s.freeFrame (clusterOf c.core)).isSome = true →
      (∀ j, j < 4096 → c.padByte (4096 * page + j) = 0) → ∃ t k, exec (.padFill v page) s = .next t ∧
      { t with crews := s.crews, banks := s.banks } = s ∧ t.crew v = some k ∧ k.padState page = .pinned ∧
      (∀ x ∈ k.frames, x ∈ c.frames ∨ (x.page = page ∧ some x.frame = s.freeFrame (clusterOf c.core))) ∧
      ∀ j, j < 4096 → k.padByte (4096 * page + j) = nth 0 (s.padTemplate c) (4096 * page + j)) ∧
    (c.padState page = .initial → s.freeFrame (clusterOf c.core) = none → ∀ w q e, s.coldest (clusterOf c.core) = some (w, q) →
      s.crew w = some e → (∀ d ∈ e.padDirty, d / 32 ≠ q) →
      ∃ t, exec (.padFill v page) s = .next t ∧ t.pageState (v, page) = .pinned ∧ t.pageState (w, q) = .backed)) ∧
  (∀ s v page c, s.Quiet → s.crew v = some c → (∀ d ∈ c.padDirty, d / 32 ≠ page) →
    (c.padState page = .evacuating →
      ∃ t k, exec (.padEvacuate v page) s = .next t ∧ { t with crews := s.crews } = s ∧ t.crew v = some k ∧
      k.padState page = .backed ∧ (∀ x ∈ k.frames, x.page ≠ page) ∧ ∀ a, a / 4096 ≠ page → k.padByte a = c.padByte a) ∧
    (c.padState page ≠ .evacuating → exec (.padEvacuate v page) s = .next s)) ∧
  (∀ s cc, s.Quiet → ∃ t, exec (.wfeTimeout cc) s = .next t ∧ { t with gangs := s.gangs } = s ∧
    ∀ id g k sp, s.gang id = some g → g.split k = some sp → ∃ h q, t.gang id = some h ∧ h.split k = some q ∧
      { q with blocked := sp.blocked } = sp ∧
      (q.blocked = none ↔ sp.blocked = none ∨ (clusterOf g.core = cc ∧ ∃ x, sp.blocked = some (.event x) ∧ x ≤ s.clock)) ∧
      (q.blocked = none ∨ q.blocked = sp.blocked))


namespace Sys2Proof.Claims

/-! ### The engines -/

/-- Identities of collectives are their own, and below the next one. -/
def OwnIds (s : State) : Prop :=
  (∀ c ∈ s.colls, c.id < s.fresh) ∧ ∀ c ∈ s.colls, ∀ d ∈ s.colls, c.id = d.id → c = d

/-- A gang's slot holds a slice (R170). -/
structure Pends (s : State) (id : Nat) (g : Gang) (c : CopySlice) : Prop where
  quiet : s.Quiet
  gang : s.gang id = some g
  slot : g.copySlot = some c
  mine : c.gang = id ∧ c.crew = g.crew
  ids : OwnIds s

/-- The slot of a gang is empty again; of the rest only collectives and posted events have changed. -/
def Entered (s t : State) (id : Nat) (g : Gang) : Prop :=
  t.gang id = some { g with copySlot := none } ∧ (∀ j, j ≠ id → t.gang j = s.gang j) ∧
  { t with gangs := s.gangs, colls := s.colls, fresh := s.fresh, agenda := s.agenda } = s

/-- Nothing sent to a peer or the host carries a tag that is still to be given. -/
def OldTags (s : State) : Prop := (∀ y ∈ s.peerPending, y.tag < s.fresh) ∧ ∀ y ∈ s.hostAtomics, y.tag < s.fresh

/-- The transfer queue of a crew's cluster has a place (R168). -/
def HasPlace (s : State) (v : Nat) : Bool := decide ((s.transferQueue (clusterOf (crewCnum v))).length < 64)

/-- A gang other than one of its crew (R169). -/
def IsOther (s : State) (id v j : Nat) : Prop := j ≠ id ∧ ∃ h ∈ s.gangs, h.id = j ∧ h.crew = v ∧ h.onControl = false

/-- The next transfer of the only slice of a collective: what is left of its row and of the destination's half-line (R168). -/
def transferLen (sl : CopySlice) (pos : Nat) : Nat :=
  min (sl.len - pos % sl.len) (64 - (sl.dst + pos / sl.len * sl.dpitch + pos % sl.len) % 64)

/-- A collective of one slice of op 0 that runs. -/
structure Runs1 (s : State) (id : Nat) (c : Collective) (sl : CopySlice) (k : Crew) : Prop where
  quiet : s.Quiet
  coll : s.coll id = some c
  own : c.id = id ∧ c.op = 0 ∧ c.slices = [sl] ∧ sl.op = 0 ∧ sl.empty = false ∧ sl.dests = [] ∧ c.started = true ∧ 0 < sl.len ∧
    sl.crew = k.val ∧ c.crew = k.val
  crew : s.crew k.val = some k
  shadow : k.shadow = none
  sound : Sound s

/-- A tile job's core after the job has left. -/
def Retired (s t : State) (core : Nat) (j : MatJob) : Prop :=
  (t.core core).jobs = (s.core core).jobs.filter (fun i => i.id != j.id) ∧
  { t.core core with jobs := (s.core core).jobs } = s.core core ∧ ∀ n, n ≠ core → t.core n = s.core n

/-- A job starts (R275, R276). -/
def Started (s t : State) (core : Nat) (j : MatJob) (e : Event) : Prop :=
  (t.core core).jobs = (s.core core).jobs.map (fun i => if i.id = j.id then { j with started := true } else i) ∧
  { t.core core with jobs := (s.core core).jobs } = s.core core ∧ (∀ n, n ≠ core → t.core n = s.core n) ∧
  t.agenda = s.agenda ++ [e] ∧ { t with cores := s.cores, agenda := s.agenda } = s

/-- Only a crew, now k, and the core's queue, the issuing gang and posted events have changed. -/
def CrewWorked (s t : State) (v : Nat) (k : Crew) : Prop :=
  t.crew v = some k ∧ (∀ w, w ≠ v → t.crew w = s.crew w) ∧
  { t with crews := s.crews, cores := s.cores, gangs := s.gangs, agenda := s.agenda } = s

/-- Entry (i, j) of an accumulator. -/
def entryOf (c : Crew) (acc i j : Nat) : Acc := sget 0 (nth [] c.acc acc) (64 * i + j)

end Sys2Proof.Claims

/-- R168 to R170, R174, R177, R178, R183, R388: the copy engine: a slice opens a collective or joins the open one of its queue,
waits while that awaits other gangs, and enters it empty where it differs; a complete collective starts; transfers are read, in
the model's order (log entry 90), and land byte for byte, and the counts of the barriers fall; a poisoned transfer writes
nothing. A transfer is what is left of its row within one half-line of the destination, where R168 speaks of line transfers (the
model's reading, log entry 37), and a slice that differs at its assembly reports a deferred 0x13 (the model's choice, log entry
119). -/
def Obligations.CopyEngineEvents : Prop :=
  (∀ s id g c q, Pends s id g c → c.queues = [q] →
    ((∀ k ∈ s.colls, k.crew = c.crew → k.complete = true) → ∃ t k, exec (.copySliceAssemble id) s = .next t ∧ Entered s t id g ∧
      t.colls = s.colls ++ [k] ∧ k.crew = c.crew ∧ k.queues = [q] ∧ k.op = c.op ∧ k.slices = [c] ∧
      (∀ j, j ∈ k.awaited ↔ IsOther s id g.crew j) ∧ k.read = 0 ∧ k.started = false ∧ k.done = false ∧
      k.complete = (k.awaited.isEmpty && HasPlace s c.crew) ∧ (k.complete = true → .collectiveStart c.crew q ∈ t.agenda)) ∧
    (∀ k, s.openColl c.crew q = some k → k.awaited.contains id = false → exec (.copySliceAssemble id) s = .next s) ∧
    (∀ k x, s.openColl c.crew q = some k → id ∈ k.awaited → k.queues = [q] → k.slices.head? = some x →
      (x.op = c.op → x.queues = c.queues → x.dbar = c.dbar → x.sbar = c.sbar → x.sv = c.sv → x.code = c.code →
        ∃ t d, exec (.copySliceAssemble id) s = .next t ∧ Entered s t id g ∧ t.coll k.id = some d ∧ d.slices = k.slices ++ [c] ∧
          d.awaited = k.awaited.filter (· != id) ∧ d.complete = (d.awaited.isEmpty && HasPlace s k.crew) ∧
          (d.complete = true → .collectiveStart k.crew q ∈ t.agenda) ∧ ∀ j, j ≠ k.id → t.coll j = s.coll j) ∧
      (¬(x.op = c.op ∧ x.queues = c.queues ∧ x.dbar = c.dbar ∧ x.sbar = c.sbar ∧ x.sv = c.sv ∧ x.code = c.code) →
        c.void = false → g.core < Config.cores →
        ∃ t h d e, exec (.copySliceAssemble id) s = .next t ∧ t.gang id = some h ∧ h.copySlot = none ∧ h.d13.isSome = true ∧
          t.coll k.id = some d ∧ d.slices = k.slices ++ [e] ∧ e.empty = true ∧ e.gang = c.gang))) ∧
  (∀ s v q c, s.Quiet → OwnIds s → s.nextColl v q = some c → c.op ≠ 2 →
    (c.total ≠ 0 → ∃ t, exec (.collectiveStart v q) s = .next t ∧ { t with colls := s.colls, agenda := s.agenda } = s ∧
      t.coll c.id = some { c with started := true } ∧ (∀ j, j ≠ c.id → t.coll j = s.coll j) ∧
      t.agenda = s.agenda ++ [.copyByteRead c.id]) ∧
    (c.total = 0 → c.inflight = [] → c.read = 0 → (∀ y ∈ s.deltas, y.org ≠ .coll c.id) → ∃ t, exec (.collectiveStart v q) s = .next t ∧
      (∀ d ∈ t.colls, d.id ≠ c.id) ∧
      ∀ j d, j ≠ c.id → s.coll j = some d → ∃ e, t.coll j = some e ∧ { e with complete := d.complete } = d)) ∧
  (∀ s v q, s.Quiet → s.nextColl v q = none → exec (.collectiveStart v q) s = .next s) ∧
  (∀ s id c, s.Quiet → s.coll id = some c → s.canRead c = false → exec (.copyByteRead id) s = .next s) ∧
  (∀ s id c sl k, Runs1 s id c sl k → sl.sk = 1 → sl.dk = 1 → c.inflight = [] → c.ahead = [] → c.read < sl.rows * sl.len →
    s.inflight (clusterOf (crewCnum k.val)) < 64 →
    let n := transferLen sl c.read
    let src := sl.src + c.read / sl.len * sl.spitch + c.read % sl.len
    let dst (p : Nat) : Nat := sl.dst + p / sl.len * sl.dpitch + p % sl.len
    (∀ p, c.read + n ≤ p → p < sl.rows * sl.len → dst p / 64 ≠ dst c.read / 64) →
    (∀ j, j < n → k.padState ((src + j) / 4096) = .pinned ∧ k.padPoison.contains (src + j) = false ∧ c.writes (k.val + 1, src + j) = none) →
    (∀ off, sl.sobj = some off → off % 16 = 0 ∧ k.padState (off / 4096) = .pinned ∧ n < (s.bar k.val off).outb) →
    ∃ t d x, exec (.copyByteRead id) s = .next t ∧ t.coll id = some d ∧ d.inflight = [x] ∧ d.read = c.read + n ∧ d.slices = c.slices ∧
      x.segs = [{ slice := 0, pos := c.read, len := n }] ∧ x.await = [] ∧ x.wrote = false ∧ x.poison = none ∧
      x.bytes = (List.range n).map (fun j => k.padByte (src + j)) ∧ t.mem = s.mem ∧ t.gangs = s.gangs ∧
      t.agenda = s.agenda ++ [.copyByteRead id, .copyByteLanded id] ∧
      (sl.sobj = none → t.crews = s.crews) ∧
      (∀ off, sl.sobj = some off → t.bar k.val off = { s.bar k.val off with outb := (s.bar k.val off).outb - n })) ∧
  (∀ s id c sl k x p n, Runs1 s id c sl k → c.inflight = [x] → x.segs = [{ slice := 0, pos := p, len := n }] → x.await = [] →
    x.wrote = false → x.poison = none → x.bytes.length = n → sl.sv = false → OldTags s →
    let dst := sl.dst + p / sl.len * sl.dpitch + p % sl.len
    (sl.dk = 1 → sl.dobj = none → n ≠ 0 → dst / 4096 = (dst + n - 1) / 4096 → k.padState (dst / 4096) = .pinned →
      ∃ t e, exec (.copyByteLanded id) s = .next t ∧ t.crew k.val = some e ∧ t.mem = s.mem ∧ t.gangs = s.gangs ∧
        (∀ a, e.padByte a = if dst ≤ a ∧ a < dst + n then nth 0 x.bytes (a - dst) else k.padByte a) ∧
        (c.read < sl.rows * sl.len → ∃ d, t.coll id = some d ∧ d.inflight = []) ∧
        (sl.rows * sl.len ≤ c.read → (∀ y ∈ s.deltas, y.org ≠ .coll id) → ∀ y ∈ t.colls, y.id ≠ id)) ∧
    (sl.dk = 0 → Unguarded s → ∀ phys leaf, xlAt sl.xl (dst % 2 ^ 64) = some (phys, leaf) → n ≠ 0 →
      dpaModule phys = s.mgmt.modid → phys % 128 + n ≤ 128 → isDram (dpaLocal phys) = true → 0xC00000 ≤ dpaLocal phys →
      leafWatch leaf = false → leafProt leaf = false →
      (∀ off, sl.dobj = some off → off % 16 = 0 ∧ k.padState (off / 4096) = .pinned ∧ n < (s.bar k.val off).inb) →
      ∃ t, exec (.copyByteLanded id) s = .next t ∧ t.gangs = s.gangs ∧
        (∀ a, t.byte a = if dpaLocal phys ≤ a ∧ a < dpaLocal phys + n then nth 0 x.bytes (a - dpaLocal phys) else s.byte a) ∧
        (∀ off, sl.dobj = some off → t.bar k.val off = { s.bar k.val off with inb := (s.bar k.val off).inb - n }))) ∧
  (∀ s id c sl k x g h a, Runs1 s id c sl k → c.inflight = [x] → x.segs = [g] → g.slice = 0 → x.await = [] → x.wrote = false →
    x.poison = some a → x.bytes.length = g.len → sl.sv = false → sl.dobj = none → OldTags s → s.gang sl.gang = some h →
    h.core < Config.cores → ∃ t e, exec (.copyByteLanded id) s = .next t ∧ t.mem = s.mem ∧ t.gang sl.gang = some e ∧
      e.d09.isSome = true ∧ ∀ v j, t.crew v = some j → ∃ b, s.crew v = some b ∧ j.pad = b.pad)

/-- R275, R276, R281, R285 to R291: the array and the drain unit start the first job that may start and retire it; an mma adds the
products inside its extents to its tile and touches no other entry; a drain writes the converted entries; mzero clears a tile; the
tile port moves bytes; the trowel arrives at the gang that waits for it; while the
core's clocks are gated none of these happens (R17). Operands are taken and the effect is made when a job retires (the model's
reading, log entry 44). -/
def Obligations.MatrixUnitEvents : Prop :=
  ∀ (s : State) (core : Nat), s.Quiet →
    (s.gated core = true → ∀ e ∈ [Instr.mmaStart core, .mmaRetire core, .mdrainStart core, .mdrainRetire core, .mzeroRetire core,
      .tilePortRetire core, .trowelPass core], exec e s = .next s) ∧
    (∀ j, s.nextMma core = some j → ∃ t, exec (.mmaStart core) s = .next t ∧ Started s t core j (.mmaRetire core)) ∧
    (s.nextMma core = none → exec (.mmaStart core) s = .next s) ∧
    (∀ j, s.nextDrain core = some j → ∃ t, exec (.mdrainStart core) s = .next t ∧ Started s t core j (.mdrainRetire core)) ∧
    (s.nextDrain core = none → exec (.mdrainStart core) s = .next s) ∧
    (∀ j c g, s.runningMma core = some j → j.op = 0 → j.a.kind = 0 → j.b.kind = 0 → s.crew j.crew = some c → c.acc.length = 4 →
      j.acc < 4 → c.zPoison = [] → s.gang j.gang = some g → 0 < j.ke → j.me ≤ 128 → j.ne ≤ 64 →
      let n := (Sys2Proof.Machine.matK (fmtAF j.fmt) (fmtBF j.fmt)).getD 0
      let row (i : Nat) := c.lineValues j.a j.fmt (fmtAF j.fmt) n j.ke i
      let col (i : Nat) := c.lineValues j.b j.fmt (fmtBF j.fmt) n j.ke i
      ∃ t k h, exec (.mmaRetire core) s = .next t ∧ Retired s t core j ∧ CrewWorked s t j.crew k ∧ t.agenda = s.agenda ++ [.mmaStart core] ∧
        (∀ x y, x < 128 → y < 64 → entryOf k j.acc x y = if x < j.me ∧ y < j.ne then (dotProduct (entryOf c j.acc x y) (row x) (col y)).1
          else entryOf c j.acc x y) ∧
        (∀ m, m < 4 → m ≠ j.acc → nth [] k.acc m = nth [] c.acc m) ∧ { k with acc := c.acc } = c ∧
        t.gang j.gang = some h ∧ { h with fst := g.fst } = g ∧ (h.fst &&& g.fst = g.fst) ∧
        ∀ x y, x < j.me → y < j.ne →
          let f := w32 (dotProduct (entryOf c j.acc x y) (row x) (col y)).2
          h.fst &&& f = f) ∧
    (∀ j c g, s.runningDrain core = some j → j.op = 3 → j.acks = none → OldTags s → j.a.kind = 0 → fmtDF j.fmt = 15 → s.crew j.crew = some c →
      s.gang j.gang = some g → j.me ≤ 128 → j.ne ≤ 64 → j.a.pitch = 256 →
      ∃ t k, exec (.mdrainRetire core) s = .next t ∧ Retired s t core j ∧ CrewWorked s t j.crew k ∧ t.agenda = s.agenda ++ [.mdrainStart core] ∧
        k.acc = c.acc ∧ k.pad = c.pad ∧
        (∀ x y b, x < j.me → y < j.ne → b < 4 → (sget 0 k.z (j.a.base + 256 * x + 4 * y + b)).toNat =
          (convertF fp32 (fmtRM j.fmt) (fmtSAT j.fmt) (decodeAcc (entryOf c j.acc x y))).1 / 256 ^ b % 256) ∧
        ∀ a, (∀ x y, x < j.me → y < j.ne → a < j.a.base + 256 * x + 4 * y ∨ j.a.base + 256 * x + 4 * y + 4 ≤ a) →
          sget 0 k.z a = sget 0 c.z a) ∧
    (∀ j c, s.nextReady core (· == 2) = some j → s.crew j.crew = some c → c.acc.length = 4 → j.acc < 4 →
      ∃ t k, exec (.mzeroRetire core) s = .next t ∧ Retired s t core j ∧ CrewWorked s t j.crew k ∧ { k with acc := c.acc } = c ∧
        (∀ x y, entryOf k j.acc x y = 0) ∧ ∀ m, m < 4 → m ≠ j.acc → nth [] k.acc m = nth [] c.acc m) ∧
    (∀ j c, s.nextMove core = some j → Sound s → j.op = 5 → j.a.kind = 1 → j.a.scale = 0 → s.crew j.crew = some c → 0 < j.cnt →
      (∀ b, b < 8192 * j.cnt → c.padState ((j.a.base + b) / 4096) = .pinned ∧ c.padPoison.contains (j.a.base + b) = false) →
      j.a.base + 8192 * j.cnt ≤ 2 ^ 32 →
      ∃ t k, exec (.tilePortRetire core) s = .next t ∧ Retired s t core j ∧ CrewWorked s t j.crew k ∧ k.pad = c.pad ∧ k.acc = c.acc ∧
        (∀ b, b < 8192 * j.cnt → sget 0 k.z (8192 * j.z + b) = c.padByte (j.a.base + b)) ∧
        ∀ a, (a < 8192 * j.z ∨ 8192 * (j.z + j.cnt) ≤ a) → sget 0 k.z a = sget 0 c.z a) ∧
    (∀ j c, s.nextMove core = some j → Sound s → OldTags s → j.op = 6 → j.acks = none → j.a.kind = 1 → j.a.scale = 0 → s.crew j.crew = some c → c.shadow = none →
      c.zPoison = [] → (∀ b, b < 8192 * j.cnt → c.padState ((j.a.base + b) / 4096) = .pinned) → j.a.base + 8192 * j.cnt ≤ 2 ^ 32 →
      ∃ t k, exec (.tilePortRetire core) s = .next t ∧ Retired s t core j ∧ CrewWorked s t j.crew k ∧ k.z = c.z ∧ k.acc = c.acc ∧
        ∀ a, k.padByte a = if j.a.base ≤ a ∧ a < j.a.base + 8192 * j.cnt then sget 0 c.z (8192 * j.z + (a - j.a.base)) else c.padByte a) ∧
    (∀ id g, s.gated core = false → (s.core core).passing = some id → s.gang id = some g → g.core = core → g.splits.length = 4 →
      (∀ f, g.retake = some f → ∃ t, exec (.trowelPass core) s = .next t ∧
        t.core core = { s.core core with trowel := some (id, f), passing := none } ∧ t.gang id = some { g with retake := none } ∧
        { t with cores := s.cores, gangs := s.gangs } = s) ∧
      (g.retake = none → ∀ k q f, g.split k = some q → q.blocked = some (.trowel f) → (∀ j, j ≠ k → g.split j = none) →
        ∃ t, exec (.trowelPass core) s = .next t ∧ t.core core = { s.core core with trowel := some (id, f), passing := none } ∧
          { t with cores := s.cores } = s))

/-- R348 to R351: a die's watch cache takes the record of a watched page, and keeps 2,048; the record at the head of a spill ring
moves to its trigger unit, is passed over when it names no granule, and holds the others back while its watch has its quota in
the slice or the slice its 64 entries. -/
def Obligations.TriggerUnitEvents : Prop :=
  ∀ s : State, s.Quiet →
    (∀ die page, ((∀ w ∈ s.watches, ∀ p ∈ w.pages, p.2.2 ≠ page) → exec (.watchCacheFill die page) s = .next s) ∧
      ((∃ w ∈ s.watches, ∃ p ∈ w.pages, p.2.2 = page) → (die, page) ∉ s.watchCache →
        ∃ t, exec (.watchCacheFill die page) s = .next t ∧ { t with watchCache := s.watchCache } = s ∧
          t.watchCache.head? = some (die, page) ∧ (t.watchCache.filter (fun c => c.1 == die)).length ≤ 2048 ∧
          (∀ c ∈ t.watchCache, c = (die, page) ∨ c ∈ s.watchCache) ∧
          (∀ c ∈ s.watchCache, c.1 ≠ die → c ∈ t.watchCache))) ∧
    (∀ w, s.watches.find? (fun v => v.ctx == w.ctx && v.id == w.id) = some w →
      (w.stail = w.shead → exec (.spillRefill w.ctx w.id) s = .next s) ∧
      (∀ b m e, w.stail ≠ w.shead → w.spilln ≠ 0 → s.Faultless →
        (s.deviceRead w.ctx (w.spill + 8 * (w.shead % w.spilln)) 8).2 = some b →
        deviceAddr s w.ctx w.descVa 64 false true = some (m, e) →
        let x := ofBytes b
        let gidx := x % 2 ^ 50
        let w' := { w with shead := (w.shead + 1) % 2 ^ 16 }
        let slice := sliceOf (w.granuleAddr gidx)
        (w.len ≤ gidx * 2 ^ w.glog ∨ 4 < x / 2 ^ 61 ∨ x / 2 ^ 50 % 2 ^ 7 ≠ 0 →
          ∃ t, exec (.spillRefill w.ctx w.id) s = .next t ∧ w' ∈ t.watches ∧ t.pending = s.pending ∧ t.tasks = s.tasks ∧
            t.readLe (m + 52) 2 = w'.shead ∧ .spillRefill w.ctx w.id ∈ t.agenda) ∧
        (gidx * 2 ^ w.glog < w.len → x / 2 ^ 61 ≤ 4 → x / 2 ^ 50 % 2 ^ 7 = 0 →
          (∀ p ∈ s.pending, ¬ (p.slice = slice ∧ p.ctx = w.ctx ∧ p.watch = w.id ∧ p.gidx = gidx)) →
          ((s.pending.filter (fun p => p.slice == slice && p.ctx == w.ctx && p.watch == w.id)).length < w.quota ∧
            (s.pending.filter (fun p => p.slice == slice)).length < 64 →
            ∃ t p, exec (.spillRefill w.ctx w.id) s = .next t ∧ w' ∈ t.watches ∧ t.pending = s.pending ++ [p] ∧ p.slice = slice ∧
              p.ctx = w.ctx ∧ p.watch = w.id ∧ p.gidx = gidx ∧ p.depth = x / 2 ^ 57 % 2 ^ 4 ∧ p.kind = x / 2 ^ 61 ∧
              t.tasks.length = s.tasks.length + 1) ∧
          (w.quota ≤ (s.pending.filter (fun p => p.slice == slice && p.ctx == w.ctx && p.watch == w.id)).length ∨
              64 ≤ (s.pending.filter (fun p => p.slice == slice)).length →
            ∃ t, exec (.spillRefill w.ctx w.id) s = .next t ∧ { t with sram := s.sram } = s))))


namespace Sys2Proof.Claims

/-! ### System instructions -/

/-- Whose sysrd, syswr and tret are: the resident's, and a split's in handler mode (R382). -/
def Granted (i : Issue) : Prop := i.g.ctx = 0 ∨ i.sp.hm = true

/-- Whose the other words of the major are (R30, R382). -/
def Resident (i : Issue) : Prop := i.g.ctx = 0 ∧ i.sp.hm = false

/-- System registers that can be read (R42, R383): the value, or none where only the resident may read it. -/
def readable (s : State) (i : Issue) (n : Nat) : Option DWord :=
  let core := i.g.core
  let control := i.g.onControl
  let own (x : DWord) : DWord := if control then 0 else x
  if n = 0x000 then some (i.sp.fmt.zeroExtend 64)
  else if n = 0x001 then some (i.g.fst.zeroExtend 64)
  else if n = 0x002 then some (BitVec.ofNat 64 i.g.ctx)
  else if n = 0x003 then some (BitVec.ofNat 64 s.mgmt.modid)
  else if n = 0x004 then some (BitVec.ofNat 64 ((if core < 2304 then core / 4 else core - 2304) / 36))
  else if n = 0x005 then some (BitVec.ofNat 64 ((if core < 2304 then core / 4 else core - 2304) % 36))
  else if n = 0x006 then some (BitVec.ofNat 64 (if control then 4 else core % 4))
  else if n = 0x007 then some (own (BitVec.ofNat 64 i.g.crew))
  else if n = 0x008 then some (own (BitVec.ofNat 64 (i.g.slot + 2 ^ 8 * i.g.tidx)))
  else if n = 0x009 then some (own (BitVec.ofNat 64 i.g.tdepth))
  else if n = 0x00A then some (BitVec.ofNat 64 s.clock)
  else if n = 0x010 then some (own (BitVec.ofNat 64 (i.sp.cause.toNat + 2 ^ 8 * i.sp.glen + 2 ^ 16 * (if i.sp.hm then 1 else 0))))
  else if n = 0x011 then some (own i.sp.trapPc)
  else if n = 0x012 then some (own (i.sp.trapLanes.zeroExtend 64))
  else if n = 0x013 then some (own i.sp.trapAddr)
  else if n = 0x014 then some (BitVec.ofNat 64 (if s.ctxTvec i.g.ctx = 0 then 0 else s.ctxCb i.g.ctx + s.ctxTvec i.g.ctx))
  else if 0x400 ≤ n ∧ n < 0x440 ∧ i.g.ctx = 0 then some (BitVec.ofNat 64 (s.island (n - 0x400)).word)
  else none

/-- System register numbers that R42 reserves. -/
def numReserved (n : Nat) : Prop := (0x00A < n ∧ n < 0x010) ∨ (0x014 < n ∧ n < 0x400) ∨ 0x440 ≤ n

/-- A write of a system register: the issuing gang is h and its split q, which stands at the next word; nothing else. -/
def WritesSystem (n : Instr) (s : State) (i : Issue) (q : Split) (fst : Word) : Prop :=
  ∃ t h, exec n s = .next t ∧ Performed s t i q h ∧ { h with fst := i.g.fst, splits := i.g.splits } = i.g ∧ h.fst = fst

/-- The point that an island is due at: what its request and the power and thermal rules demand (R19, R22, R24). -/
def islGoal (x : IslSt) : Nat := if x.req = 6 then 6 else max x.req (max x.power x.thermal)

/-- Core c is one of island n's (R15). -/
def OfIsland (n c : Nat) : Prop := c < 2304 ∧ c / 144 = n / 4 ∧ c / 48 % 3 = n % 4

/-- What a write of x to the register of island n does: a code that the island refuses sets ERR alone; another becomes REQ, and
an island that is not on its way sets out, to GATED once each of its cores has passed, a pass in progress not counting (R18 to
R20). -/
def IslandWritten (s t : State) (n : Nat) (x : DWord) : Prop :=
  let code := field x 0 4
  let y := s.island n
  let e : IslSt := { y with err := y.err && !x.getLsbD 23, req := code }
  (∀ m, m ≠ n → t.island m = s.island m) ∧
  if 7 ≤ code ∨ (n % 4 = 3 ∧ 4 ≤ code) then t.island n = { y with err := true } ∧ t.agenda = s.agenda
  else if y.busy = true ∨ islGoal e = y.cur then t.island n = e ∧ t.agenda = s.agenda
  else ∃ cs, t.island n = { e with busy := true, goal := islGoal e, due := cs } ∧
    t.agenda = s.agenda ++ [.operatingPointChangeDone n] ∧ (islGoal e ≠ 6 → cs = []) ∧
    (code = 6 → ∀ c, c ∈ cs ↔ ∃ d, OfIsland n d ∧ c = if (s.core d).closed = true then d + 4096 else d)

/-- A command's operands are in good order: the resident issues it, and no operand is poisoned. -/
structure Commands (s : State) (i : Issue) (rs : List (BitVec 6)) : Prop where
  ready : Ready s i
  resident : Resident i
  clean : ∀ r ∈ rs, i.g.smark r.toNat = false
  fresh : i.sp.blocked = none

/-- The words of the major that the resident alone may issue (R405). -/
noncomputable def commands (a b d : BitVec 6) : List Instr :=
  [.lease d a b, .unlease a b, .tlbinv a b, .ctxkill d a, .halt, .wfe a, .signal a b, .preempt d a, .rbld d a b]

/-- Only posted events, gangs and the given parts of the machine have changed. -/
def Machine1 (s t : State) : Prop :=
  { t with gangs := s.gangs, fresh := s.fresh, agenda := s.agenda, crews := s.crews } = s

end Sys2Proof.Claims

/-- R18, R19, R42, R64, R71, R380, R382 to R384, R404: sysrd and syswr are the resident's and a handler's; a register that the
table does not grant raises 0x02, and a number that R42 reserves is no instruction and raises 0x01; the resident writes the
registers of islands. tret.s goes on after the faulting group, tret.r performs it again, for a resumable cause with the faulting
lanes alone; outside handler mode the resident finds machine check 6 and nothing is performed. How tret.s finds the length of the
group, in the words at TRAPPC or, where they cannot be read, in GLEN, and that tret.r goes by the trap's lanes, are the model's
readings (log entry 46). -/
def Obligations.SystemRegistersAndReturns : Prop :=
  (∀ w : Word, w.toNat / 2 ^ 22 = 0x2E0 ∨ w.toNat / 2 ^ 22 = 0x2E1 → numReserved (w.toNat / 2 ^ 4 % 2 ^ 12) → decodeWord w = none ∧
    ∀ (s : State) (i : Issue), s.issuer = some i → runWord s w = .next (s.takeCause i.g.id i.k 0x01 i.act 0).settle) ∧
  ∀ (s : State) (i : Issue), Ready s i →
    (¬ Granted i → ∀ (d : BitVec 6) (n : BitVec 12), ∀ w ∈ [Instr.sysrd d n, .syswr d n, .tretR, .tretS],
      Raises w s (s.begin i) i 0x02 i.act 0) ∧
    (Granted i →
      (∀ (d : BitVec 6) (n : BitVec 12) (x : DWord), readable s i n.toNat = some x → WritesScalar (.sysrd d n) s i d x false) ∧
      (i.g.ctx ≠ 0 → ∀ (d : BitVec 6) (n : BitVec 12), 0x400 ≤ n.toNat → ∀ w ∈ [Instr.sysrd d n, .syswr d n],
        Raises w s (s.begin i) i 0x02 i.act 0) ∧
      (∀ (d : BitVec 6) (n : BitVec 12), n.toNat ∈ [0x002, 0x003, 0x004, 0x005, 0x006, 0x007, 0x008, 0x009, 0x00A, 0x014] →
        Raises (.syswr d n) s (s.begin i) i 0x02 i.act 0) ∧
      (∀ a : BitVec 6, i.g.smark a.toNat = false →
        let x := i.g.sreg a.toNat
        let q := i.after s.fresh (i.sp.pc + 4)
        WritesSystem (.syswr a 0x000) s i { q with fmt := x.truncate 32 &&& 0x0F1FFFFF } i.g.fst ∧
        WritesSystem (.syswr a 0x001) s i q (x.truncate 32 &&& 0x3F) ∧
        (i.g.onControl = true → ∀ n ∈ [(0x010 : BitVec 12), 0x011, 0x012, 0x013], WritesSystem (.syswr a n) s i q i.g.fst) ∧
        (i.g.onControl = false →
          WritesSystem (.syswr a 0x010) s i { q with cause := x.truncate 8 } i.g.fst ∧
          WritesSystem (.syswr a 0x011) s i { q with trapPc := x } i.g.fst ∧
          WritesSystem (.syswr a 0x012) s i { q with trapLanes := x.truncate 32 } i.g.fst ∧
          WritesSystem (.syswr a 0x013) s i { q with trapAddr := x } i.g.fst)) ∧
      (i.g.ctx = 0 → ∀ (a : BitVec 6) (n : BitVec 12), 0x400 ≤ n.toNat → n.toNat < 0x440 → i.g.smark a.toNat = false →
        ∃ t h, exec (.syswr a n) s = .next t ∧ i.g.Same h ∧
          Performed s { t with islands := s.islands, agenda := s.agenda } i (i.after s.fresh (i.sp.pc + 4)) h ∧
          IslandWritten s t (n.toNat - 0x400) (i.g.sreg a.toNat)) ∧
      (∀ (a : BitVec 6) (n : BitVec 12), n = 0x000 ∨ (i.g.ctx = 0 ∧ 0x400 ≤ n.toNat ∧ n.toNat < 0x440) → i.g.smark a.toNat = true →
        Raises (.syswr a n) s (s.begin i) i 0x09 i.act 0) ∧
      (i.sp.hm = false → ∀ w ∈ [Instr.tretR, .tretS],
        exec w s = .next ((((s.begin i).machineCheck 6 i.sp.pc.toNat 0).goOn i.g.id i.k (i.sp.pc + 4)).settle)) ∧
      (i.sp.hm = true →
        (∃ t h, exec .tretR s = .next t ∧ i.g.Same h ∧
          Performed s t i { i.after s.fresh i.sp.trapPc with hm := false, retry :=
            if i.sp.cause = 0x05 ∨ i.sp.cause = 0x06 ∨ i.sp.cause = 0x08 ∨ i.sp.cause = 0x0C then some i.sp.trapLanes else none } h) ∧
        (leafAt s i.g.ctx i.sp.trapPc.toNat = none →
          ∃ t h, exec .tretS s = .next t ∧ i.g.Same h ∧
            Performed s t i { i.after s.fresh (i.sp.trapPc + BitVec.ofNat 64 (4 * (i.sp.glen + 1))) with hm := false } h) ∧
        (∀ w, s.textWord i.g.ctx i.sp.trapPc.toNat = some w → w / 2 ^ 26 % 2 ^ 6 ≠ 0x3F → i.sp.trapPc.toNat % 4096 ≤ 4060 →
          ∃ t h, exec .tretS s = .next t ∧ i.g.Same h ∧ Performed s t i { i.after s.fresh (i.sp.trapPc + 4) with hm := false } h) ∧
        (∀ base size e, leafAt s i.g.ctx i.sp.trapPc.toNat = some (base, size, e) → leafGrants e 4 i.g.ctx = true →
          leafModule e ≠ s.mgmt.modid → i.sp.trapPc.toNat % 4 = 0 → ∃ t n, exec .tretS s = .next t ∧ BlocksOn t i (.reply n))))

/-- R30, R99, R382, R395, R397, R398, R402, R405, R424: the resident's commands. Anyone else's raises 0x02. A malformed operand
is machine check 4. tlbinv drops what TLBs hold of a range; lease pins a standing set; unlease without a crew to pre-empt takes
standing leases back; ctxkill ends a context; halt stops the clocks; wfe waits for an event or a deadline; signal rings a vector or
a control core; preempt asks for a crew; rbld starts a rebuild. That preempt of a crew which is saved already answers 0 is the
model's reading (log entry 28). -/
def Obligations.ResidentCommands : Prop :=
  (∀ (s : State) (i : Issue) (a b d : BitVec 6), Ready s i → ¬ Resident i → ∀ w ∈ commands a b d, Raises w s (s.begin i) i 0x02 i.act 0) ∧
  (∀ (s : State) (i : Issue) (a b : BitVec 6), Commands s i [a, b] →
    let base := (i.g.sreg a.toNat).toNat
    let len := field (i.g.sreg b.toNat) 0 48
    let ctx := field (i.g.sreg b.toNat) 48 16
    (base % 4096 ≠ 0 → ∀ w ∈ [Instr.tlbinv a b, .unlease a b],
      exec w s = .next ((((s.begin i).machineCheck 4 base 0).goOn i.g.id i.k (i.sp.pc + 4)).settle)) ∧
    (base % 4096 = 0 → len % 4096 = 0 →
      (∃ t h, exec (.tlbinv a b) s = .next t ∧ Onward s t i h ∧ i.g.Same h ∧
        { t with gangs := s.gangs, fresh := s.fresh, tlb := s.tlb, ptrs := s.ptrs, pinned := s.pinned } = s ∧
        (∀ p ∈ t.ptrs, p ∈ s.ptrs) ∧ (∀ p ∈ s.ptrs, p.ctx ≠ ctx → p ∈ t.ptrs) ∧
        (∀ e ∈ t.tlb, e ∈ s.tlb ∧ (e.ctx = ctx → len ≠ 0 ∧ (base + len ≤ e.va ∨ e.va + e.size ≤ base))) ∧
        (∀ e ∈ s.tlb, e.ctx ≠ ctx → e ∈ t.tlb) ∧ ∀ p ∈ s.pinned, p.ctx ≠ ctx → p ∈ t.pinned) ∧
      ((∀ c ∈ s.crews, c.preempted = true) → s.tasks = [] → ∃ t h, exec (.unlease a b) s = .next t ∧ Onward s t i h ∧ i.g.Same h ∧
        { t with gangs := s.gangs, fresh := s.fresh, standing := s.standing, leases := s.leases, pinned := s.pinned } = s ∧
        (∀ l ∈ t.leases, t.leasePins ctx base len l = false ∧ ∃ m ∈ s.leases, { l with loose := m.loose } = m) ∧
        ∀ l, l ∈ t.standing ↔ l ∈ s.standing ∧ s.leasePins ctx base len l = false))) ∧
  (∀ (s : State) (i : Issue) (d a b : BitVec 6), Commands s i [a, b] →
    let va := (i.g.sreg a.toNat).toNat
    let ctx := field (i.g.sreg b.toNat) 0 16
    let die := dieOf i.g.core
    (va % 16 ≠ 0 → exec (.lease d a b) s = .next ((((s.begin i).machineCheck 4 va 0).goOn i.g.id i.k (i.sp.pc + 4)).settle)) ∧
    (∀ x y r, va % 16 = 0 → s.Faultless → setUnit s ctx va = some (.here x) → s.readLe x 16 = 1 →
      setUnit s ctx (va + 16) = some (.here y) →
      r = { base := s.readLe y 8, len := s.readLe (y + 8) 7, rights := (s.byte (y + 15)).toNat } →
      r.base < 2 ^ 56 → 1 ≤ r.len → r.base + r.len ≤ 2 ^ 56 → r.rights < 8 →
      (leaseFaults s ctx [r] = [] ∨ s.hasPin die ctx r = true → s.pinsFree die < s.pinsNeeded die ctx [r] →
        ∃ t, exec (.lease d a b) s = .next t ∧ BlocksOn t i (.pins die 1)) ∧
      (leaseFaults s ctx [r] = [] ∨ s.hasPin die ctx r = true → s.pinsNeeded die ctx [r] ≤ s.pinsFree die →
        ∃ t h, exec (.lease d a b) s = .next t ∧ Onward s t i h ∧ i.g.WroteS h d.toNat 0 false ∧ t.mem = s.mem ∧
          t.standing = s.standing ++ [{ task := 0, die, ctx, ranges := [r], loose := [] }] ∧ t.hasPin die ctx r = true) ∧
      (∀ f fs, leaseFaults s ctx [r] = f :: fs → s.hasPin die ctx r = false →
        ∃ t h, exec (.lease d a b) s = .next t ∧ Onward s t i h ∧
          i.g.WroteS h d.toNat (BitVec.ofNat 64 (f.kind + f.va / 4096 * 4096)) false ∧ t.standing = s.standing ∧ t.pinned = s.pinned))) ∧
  (∀ (s : State) (i : Issue) (d a : BitVec 6), Commands s i [a] →
    let x := field (i.g.sreg a.toNat) 0 16
    (x = 0 ∨ s.rootOf x = none → WritesScalar (.ctxkill d a) s i d 1 false) ∧
    (x ≠ 0 → s.rootOf x ≠ none → (∀ p ∈ s.out, p.ctx ≠ x) → s.deltas = [] → s.hostAtomics = [] → s.tokens = [] →
      i.g.onControl = true → (∀ c ∈ s.crews, c.ctx = x → c.val ≠ i.g.crew) →
      (∀ g ∈ s.gangs, g.ctx = x → g.unacked = 0 ∧ g.wcb = [] ∧ g.strong = []) →
      ∃ t h, exec (.ctxkill d a) s = .next t ∧ t.gang i.g.id = some h ∧ h.sreg d.toNat = 0 ∧
        h.split i.k = some (i.after s.fresh (i.sp.pc + 4)) ∧ (∀ c ∈ t.crews, c.ctx ≠ x) ∧ (∀ k ∈ t.tasks, k.ctx ≠ x) ∧ (∀ y ∈ t.hashes, y.ctx ≠ x) ∧
        (∀ w ∈ t.watches, w.ctx ≠ x) ∧ (∀ c ∈ t.colls, c.ctx ≠ x) ∧ (∀ p ∈ t.pending, p.ctx ≠ x) ∧
        ∀ c ∈ s.crews, (∀ b ∈ s.crews, b.ctx = x → b.val ≠ c.val) → t.crew c.val ≠ none) ∧
    (s.eventFlags.contains (clusterOf i.g.core) = true ∨ (i.g.sreg a.toNat).toNat ≤ s.clock →
      ∃ t h, exec (.wfe a) s = .next t ∧ Performed s { t with eventFlags := s.eventFlags } i (i.after s.fresh (i.sp.pc + 4)) h ∧ i.g.Same h ∧
        t.eventFlags = s.eventFlags.filter (· != clusterOf i.g.core)) ∧
    (s.eventFlags.contains (clusterOf i.g.core) = false → s.clock < (i.g.sreg a.toNat).toNat →
      Waits (.wfe a) s i (.event (i.g.sreg a.toNat).toNat)) ∧
    (s.crew (field (i.g.sreg a.toNat) 0 32) = none → WritesScalar (.preempt d a) s i d 1 false) ∧
    (∀ c, s.crew (field (i.g.sreg a.toNat) 0 32) = some c → c.preempting = false → s.forerunner c.ctx = false →
      (c.preempted = true → WritesScalar (.preempt d a) s i d 0 false) ∧
      (c.preempted = false → ∃ t h, exec (.preempt d a) s = .next t ∧ t.gang i.g.id = some h ∧ i.g.Same h ∧
        h.split i.k = some { i.sp.issued s.fresh with blocked := some (.saved [field (i.g.sreg a.toNat) 0 32]) } ∧ Machine1 s t ∧
        t.crew (field (i.g.sreg a.toNat) 0 32) = some { c with preempting := true, asked := s.clock, drain := false } ∧
        t.agenda = s.agenda ++ [.preemptSaveDone (field (i.g.sreg a.toNat) 0 32)]))) ∧
  (∀ (s : State) (i : Issue), Commands s i [] → s.crews = [] → s.tasks = [] → s.watches = [] → s.colls = [] → s.retr = [] →
    s.tokens = [] → (∀ p ∈ s.out, p.ctx = 0) → (∀ h ∈ s.hostAtomics, h.ctx = 0) → ∃ t h, exec .halt s = .next t ∧ Performed s { t with mgmt := s.mgmt } i (i.after s.fresh (i.sp.pc + 4)) h ∧
      i.g.Same h ∧ t.mgmt = { s.mgmt with halted := true }) ∧
  (∀ (s : State) (i : Issue) (a b : BitVec 6), Commands s i [a, b] →
    let x := (i.g.sreg a.toNat).toNat
    let kind := field (i.g.sreg b.toNat) 0 2
    (2 ≤ kind → exec (.signal a b) s = .next ((((s.begin i).machineCheck 4 (i.g.sreg b.toNat).toNat 0).goOn i.g.id i.k (i.sp.pc + 4)).settle)) ∧
    (Clear s i → (∀ c ∈ s.crews, c.val ≠ i.g.crew) →
      (kind = 0 → ∃ t h, exec (.signal a b) s = .next t ∧ Performed s { t with hostOut := s.hostOut, hashes := s.hashes } i (i.after s.fresh (i.sp.pc + 4)) h ∧
        i.g.Same h ∧ t.hostOut = s.hostOut ++ [.msix (x % 2 ^ 11)]) ∧
      (kind = 1 → x % 2 ^ 10 < 576 → (x % 2 ^ 10 = 0 ∨ s.started.contains (x % 2 ^ 10) = true) →
        ∃ t h, exec (.signal a b) s = .next t ∧ Performed s { t with eventFlags := s.eventFlags, hashes := s.hashes } i (i.after s.fresh (i.sp.pc + 4)) h ∧
          i.g.Same h ∧ ∀ n, n ∈ t.eventFlags ↔ n ∈ s.eventFlags ∨ n = x % 2 ^ 10) ∧
      (kind = 1 → x % 2 ^ 10 < 576 → x % 2 ^ 10 ≠ 0 → s.started.contains (x % 2 ^ 10) = false → (∀ g ∈ s.gangs, g.id < s.fresh) →
        ∃ t h g q, exec (.signal a b) s = .next t ∧ t.gang i.g.id = some h ∧ i.g.Same h ∧
          h.split i.k = some (i.after s.fresh (i.sp.pc + 4)) ∧ t.gangs.getLast? = some g ∧ g.core = 2304 + x % 2 ^ 10 ∧ g.ctx = 0 ∧
          g.sreg 0 = BitVec.ofNat 64 s.mgmt.modid ∧ g.sreg 1 = BitVec.ofNat 64 s.mgmt.kind ∧ g.sreg 2 = BitVec.ofNat 64 (x % 2 ^ 10) ∧
          g.split 0 = some q ∧ q.mask = BitVec.allOnes 32 ∧ q.pc = BitVec.ofNat 64 (s.ctxCb 0 + s.residentImage.2) ∧
          (x % 2 ^ 10) ∈ t.started ∧ t.eventFlags = s.eventFlags))) ∧
  (∀ (s : State) (i : Issue) (d a b : BitVec 6), Commands s i [a, b] →
    let lost := field (i.g.sreg a.toNat) 0 9
    let repl := field (i.g.sreg b.toNat) 0 9
    ((∀ r, r < 16 → (s.group r).rebuilds lost repl = false) →
      exec (.rbld d a b) s = .next ((((s.begin i).machineCheck 4 (i.g.sreg a.toNat).toNat 0).goOn i.g.id i.k (i.sp.pc + 4)).settle)) ∧
    (∀ r, r < 16 → (s.group r).rebuilds lost repl = true → (∀ q, q < 16 → q ≠ r → (s.group q).rebuilds lost repl = false) →
      s.shareOf (s.group r) ≠ [] → (∀ b ∈ s.rebuilds, ¬(b.record = r ∧ b.lost = lost)) →
      ∃ t h e f, exec (.rbld d a b) s = .next t ∧ Onward s t i h ∧
        i.g.WroteS h d.toNat (BitVec.ofNat 64 (s.shareOf (s.group r)).length) false ∧ t.rebuilds = s.rebuilds ++ [e] ∧ e.record = r ∧
        e.lost = lost ∧ e.repl = repl ∧ e.stripes = s.shareOf (s.group r) ∧ f ∈ e.stripes ∧ t.agenda = s.agenda ++ [.rebuildStripe r f]))

namespace Sys2Proof.Claims

/-- The hint words with the part of the group that each of them fills (R32). -/
noncomputable def hintWords (p : BitVec 22) (o c k : BitVec 3) (m : BitVec 2) (r : BitVec 6) : List (Instr × (Hints → Bool) × (Hints → Hints)) :=
  [(.hintImm p, fun h => decide (2 ≤ h.imms.length), fun h => { h with imms := h.imms ++ [p] }),
   (.hintOrd o, fun h => h.ord.isSome, fun h => { h with ord := some o.toNat }),
   (.hintScope c, fun h => h.scope.isSome, fun h => { h with scope := some c.toNat }),
   (.hintCache k, fun h => h.cache.isSome, fun h => { h with cache := some k.toNat }),
   (.hintSched m, fun h => h.sched.isSome, fun h => { h with sched := some m.toNat }),
   (.hintBnd r, fun h => h.bnd.isSome, fun h => { h with bnd := some r.toNat })]

end Sys2Proof.Claims

/-- R32, R33, R37: a hint word joins the group of its split, which goes on with the next word; a second one of its kind, a third
hint.imm, or an eighth word raises 0x01. -/
def Sys2Proof.Claims.HintWordsJoinTheirGroup : Prop :=
  ∀ (s : State) (i : Issue) (p : BitVec 22) (o c k : BitVec 3) (m : BitVec 2) (r : BitVec 6), s.issuer = some i → s.Quiet →
    ∀ w ∈ hintWords p o c k m r,
      (i.sp.hints.words < 7 → w.2.1 i.sp.hints = false → ∃ t h q, exec w.1 s = .next t ∧ Performed s t i q h ∧ i.g.Same h ∧
        q.pc = i.sp.pc + 4 ∧ q.hints = { (w.2.2 i.sp.hints) with words := i.sp.hints.words + 1, first := (if i.sp.hints.words = 0 then i.sp.pc else i.sp.hints.first) } ∧
        q.mask = i.sp.mask ∧ q.retry = i.sp.retry ∧ q.fmt = i.sp.fmt ∧ q.top = i.sp.top) ∧
      (7 ≤ i.sp.hints.words ∨ w.2.1 i.sp.hints = true → Raises w.1 s s i 0x01 i.act 0)

/-- R32 to R37, R71, R214, R215: the words that change only how their split stands: nop, yield, setfmt, safepoint, and the six
hint words. What safepoint does with a map that is poisoned or lies elsewhere is the model's reading (log entry 36). -/
def Obligations.NopHintsAndSafepoint : Prop := Claims.NopYieldFormatAndSafepoint ∧ Claims.HintWordsJoinTheirGroup


namespace Sys2Proof.Claims

/-! ### Hubs, leases, pre-emption and skim passes -/

/-- A task that was posted, not one that a trigger or a restore brought. -/
def Posted (k : HubTask) : Prop := k.source = .post ∨ k.source = .resident

/-- A gang as its task is placed in a crew (R198). -/
structure Placed (s : State) (k : HubTask) (c : Crew) (g : Gang) : Prop where
  place : g.core = c.core ∧ g.ctx = k.ctx ∧ g.crew = c.val ∧ g.task = k.id ∧ g.cls = k.cls
  slot : ∀ h ∈ s.gangs, h.core = c.core → h.slot ≠ g.slot
  one : ∃ q, g.splits = [some q, none, none, none] ∧ q.pc = BitVec.ofNat 64 (s.ctxCb k.ctx + k.entry) ∧ q.mask = BitVec.allOnes 32 ∧
    q.fmt = s.deffmt k.ctx ∧ q.hm = false ∧ q.blocked = none
  scalars : ∀ n, g.sreg n = if n < 8 then nth 0 k.args n else 0
  vectors : ∀ r l, g.vlane r l = 0
  predicates : ∀ n, n ≠ 0 → g.preg n = 0
  marks : g.sPoison = 0 ∧ g.vPoison = []
  flags : g.fst = 0
  empty : g.rc = [] ∧ g.wcb = [] ∧ g.copySlot = none
  depth : g.tdepth = k.tdepth
  size : g.nregs = 16 * (k.shape / 2 ^ 6 % 4 + 1)

/-- A crew as the task k makes it on a core (R196 to R198). -/
structure NewCrew (s : State) (k : HubTask) (core : Nat) (c : Crew) : Prop where
  place : c.core = core ∧ c.ctx = k.ctx ∧ c.entry = k.entry
  number : ∀ b ∈ s.crewsOf core, b.val % 64 ≠ c.val % 64
  owns : c.pads = k.shape / 2 ^ 8 % 2 ^ 7 ∧ c.accs = k.shape / 2 ^ 15 % 2 ^ 3 ∧ c.zregs = k.shape / 2 ^ 18 % 2 ^ 5
  fresh : c.bind = [] ∧ c.padStates = [] ∧ c.z = [] ∧ c.acc = [[], [], [], []] ∧ c.saved = [] ∧ c.preempted = false
  ring : ∀ b ∈ s.crewsOf core, b.ring < c.ring

/-- Nothing has changed but one task of a hub, now r, and posted events. -/
structure TaskBecomes (s t : State) (r : HubTask) (es : List Event) : Prop where
  task : t.task r.id = some r
  tasks : ∀ j, j ≠ r.id → t.task j = s.task j
  agenda : t.agenda = s.agenda ++ es

/-- The lease set of a task that holds one range, read in this module, and how many of its pages fail (R97, R98). -/
structure OneRange (s : State) (k : HubTask) (r : LeaseRange) : Prop where
  clean : s.Faultless
  asked : k.lease = .none ∧ Posted k ∧ k.spilled = none ∧ s.establishing k.die < 256 ∧ s.rootOf k.ctx ≠ none ∧ s.task k.id = some k
  set : k.leaseVa ≠ 0 ∧ k.leaseVa % 16 = 0
  header : ∃ x, setUnit s k.ctx k.leaseVa = some (.here x) ∧ s.readLe x 16 = 1
  entry : ∃ y, setUnit s k.ctx (k.leaseVa + 16) = some (.here y) ∧ r.base = s.readLe y 8 ∧ r.len = s.readLe (y + 8) 7 ∧
    r.rights = (s.byte (y + 15)).toNat

/-- A range that R97 allows. -/
def RangeOk (r : LeaseRange) : Prop := r.base < 2 ^ 56 ∧ 1 ≤ r.len ∧ r.base + r.len ≤ 2 ^ 56 ∧ r.rights < 8

end Sys2Proof.Claims

/-- R97 to R101, R197, R198, R363 to R366: hubs and lease units. A hub serves the highest class that holds a placeable task, and
within class and context the earliest arrival; it places it, whole and fresh, on the core of its die with the most free slots, or
hands it to the nearest hub that can; a lease is established from its set, its failing pages are sent as fault records, and the
reply walks again or discards; a task ages, and reserves a core; spilled descriptors return, and so does a task whose context has
ceased leave (R450). Whose region a descriptor was spilled to and what it keeps (log entry 82) is the model's reading, and that one
that is invalid by now stays there (log entry 103) its choice; so are its readings of fault records, one for each failing page, of
the second walk of a whole lease (log entry 52), and of a reply that nothing awaits (log entry 51). -/
def Obligations.HubsPlaceTasks : Prop :=
  (∀ (s : State) (d : Nat), s.Quiet → s.orphan d = none →
    ((∀ k ∈ s.tasks, k.die = d → k.spilled = none → s.placeable d k = false) → exec (.hubConsider d) s = .next s) ∧
    (∀ k v, s.hubChoice d = some (k, v) →
      k ∈ s.tasks ∧ k.die = d ∧ k.spilled = none ∧ s.placeable d k = true ∧
      (∀ j ∈ s.tasks, j.die = d → j.spilled = none → j.cls ≤ 3 → s.placeable d j = true →
        j.cls ≤ k.cls ∧ (j.cls = k.cls → j.ctx = k.ctx → k.arrival ≤ j.arrival)) ∧
      (∀ rs core, k.ready = some rs → Posted k → k.args.length = 8 → s.coreFor d k = some core →
        core / 144 = d ∧ s.admits core k = true ∧
        (∀ x, x / 144 = d → s.admits x k = true → s.freeSlots x ≤ s.freeSlots core ∧ (s.freeSlots x = s.freeSlots core → core ≤ x)) ∧
        ∃ t c gs, exec (.hubConsider d) s = .next t ∧ t.crews = s.crews ++ [c] ∧ NewCrew s k core c ∧ t.gangs = s.gangs ++ gs ∧
          gs.length = k.shape % 64 ∧ (∀ g ∈ gs, Placed s k c g) ∧ gs.Pairwise (fun a b => a.slot ≠ b.slot ∧ a.id ≠ b.id) ∧
          t.tasks = s.tasks.filter (fun x => x.id != k.id) ∧ t.mem = s.mem ∧
          t.leases = s.leases ++ [{ task := k.id, die := k.die, ctx := k.ctx, ranges := rs, loose := [] }] ∧
          (∀ n, (t.core n).reserved ≠ some k.id)) ∧
      (∀ rs e, k.ready = some rs → Posted k → s.coreFor d k = none → s.takerOf d k = some e →
        ∃ t, exec (.hubConsider d) s = .next t ∧ t.tasks = s.tasks.filter (fun x => x.id != k.id) ++
            [{ k with die := e, lease := .none, arrival := s.clock }] ∧
          t.crews = s.crews ∧ t.gangs = s.gangs ∧ t.mem = s.mem ∧ e ≠ d ∧ e < 16 ∧ .leaseEstablish k.id ∈ t.agenda ∧
          .coreReservation k.id ∈ t.agenda ∧ ∀ x, x < 16 → x ≠ d → s.coreFor x k ≠ none → dieDistance d e ≤ dieDistance d x ∧ (dieDistance d e = dieDistance d x → e ≤ x)) ∧
      (∀ rs c, k.ready = some rs → k.source = .restore c → ∃ t, exec (.hubConsider d) s = .next t ∧
        { t with hubs := s.hubs, agenda := s.agenda } = s ∧ t.agenda = s.agenda ++ [.crewRestore c]))) ∧
  (∀ (s : State) (d : Nat) (k : HubTask), s.Quiet → s.watches = [] → s.orphan d = some k → Posted k →
    ∃ t, exec (.hubConsider d) s = .next t ∧ t.tasks = s.tasks.filter (fun x => x.id != k.id) ∧ t.crews = s.crews ∧ t.gangs = s.gangs) ∧
  (∀ (s : State) (k : HubTask), s.Quiet → s.task k.id = some k →
    (k.cls < 3 → k.since + 64000 ≤ s.clock → ∃ t, exec (.taskAging k.id) s = .next t ∧
      TaskBecomes s t { k with cls := k.cls + 1, since := k.since + 64000 } [.taskAging k.id, .hubConsider k.die] ∧
      { t with tasks := s.tasks, agenda := s.agenda } = s) ∧
    (3 ≤ k.cls ∨ s.clock < k.since + 64000 → exec (.taskAging k.id) s = .next s) ∧
    (Posted k →
      (k.shape % 64 < 16 ∨ s.clock < k.arrival + 256000 ∨ 4 ≤ s.reservations k.die → exec (.coreReservation k.id) s = .next s) ∧
      (16 ≤ k.shape % 64 → k.arrival + 256000 ≤ s.clock → s.reservations k.die < 4 →
        (∀ x, x / 144 = k.die → (s.core x).reserved ≠ some k.id) →
        (∃ x, x / 144 = k.die ∧ (s.core x).reserved = none ∧ s.coreOpen x = true) →
        ∃ t x, exec (.coreReservation k.id) s = .next t ∧ { t with cores := s.cores } = s ∧ x / 144 = k.die ∧
          (s.core x).reserved = none ∧ s.coreOpen x = true ∧ t.core x = { s.core x with reserved := some k.id } ∧
          (∀ y, y ≠ x → t.core y = s.core y) ∧
          ∀ y, y / 144 = k.die → (s.core y).reserved = none → s.coreOpen y = true →
            s.freeSlots y ≤ s.freeSlots x ∧ (s.freeSlots y = s.freeSlots x → x ≤ y)))) ∧
  (∀ (s : State) (d : Nat), s.Quiet →
    (1024 ≤ s.onChip d ∨ (∀ k ∈ s.tasks, k.die = d → k.spilled = none) → exec (.hubSpillRefill d) s = .next s) ∧
    (∀ k u b, s.onChip d < 1024 → s.fetching 17 d = false → s.firstSpilled d = some k → s.task k.id = some k →
      let va := s.hubSpillVa k.poster d (k.spilled.getD 0)
      s.deviceRead k.poster va 128 = (u, some b) →
      (descriptorBad b = true → exec (.hubSpillRefill d) s = .next ((u.machineCheck 11 va k.poster).settle)) ∧
      (descriptorBad b = false → ∃ t r, exec (.hubSpillRefill d) s = .next t ∧ TaskBecomes s t r [.hubSpillRefill d] ∧
        { t with tasks := s.tasks, agenda := s.agenda } = u ∧ r.id = k.id ∧ r.spilled = none ∧ r.die = d ∧ r.ctx = k.ctx ∧
        r.cls = k.cls ∧ r.arrival = k.arrival ∧ r.since = k.since ∧ r.source = k.source ∧ r.poster = k.poster ∧
        r.args = (List.range 8).map (fun j => BitVec.ofNat 64 (ofBytes ((b.drop (8 * j)).take 8))) ∧
        r.leaseVa = ofBytes ((b.drop 64).take 8) ∧ r.entry = ofBytes ((b.drop 72).take 4) ∧ r.shape = ofBytes ((b.drop 76).take 4)))) ∧
  (∀ (s : State) (k : HubTask), s.Quiet → Posted k → s.task k.id = some k → k.lease = .none → k.spilled = none →
    s.establishing k.die < 256 → s.rootOf k.ctx ≠ none → s.Faultless →
    (k.leaseVa = 0 → ∃ t, exec (.leaseEstablish k.id) s = .next t ∧ { t with tasks := s.tasks, agenda := s.agenda } = s ∧
      TaskBecomes s t { k with lease := .ready [] } [.hubConsider k.die]) ∧
    (s.watches = [] → k.leaseVa ≠ 0 → (k.leaseVa % 16 ≠ 0 ∨ setUnit s k.ctx k.leaseVa = none) →
      ∃ t, exec (.leaseEstablish k.id) s = .next t ∧ t.tasks = s.tasks.filter (fun x => x.id != k.id) ∧ t.pinned = s.pinned)) ∧
  (∀ (s : State) (k : HubTask) (r : LeaseRange), s.Quiet → OneRange s k r →
    (s.watches = [] → ¬ RangeOk r → ∃ t, exec (.leaseEstablish k.id) s = .next t ∧ t.tasks = s.tasks.filter (fun x => x.id != k.id)) ∧
    (RangeOk r → s.lost = [] → leaseFaults s k.ctx [r] = [] →
      (s.pinsNeeded k.die k.ctx [r] ≤ s.pinsFree k.die → ∃ t, exec (.leaseEstablish k.id) s = .next t ∧
        TaskBecomes s t { k with lease := .ready [r] } [.hubConsider k.die] ∧ t.hasPin k.die k.ctx r = true ∧ t.mem = s.mem) ∧
      (s.pinsFree k.die < s.pinsNeeded k.die k.ctx [r] → ∃ t, exec (.leaseEstablish k.id) s = .next t ∧
        TaskBecomes s t { k with lease := .waiting [r] [] } [.leaseEstablish k.id] ∧ t.pinned = s.pinned ∧ t.mem = s.mem)) ∧
    (RangeOk r → s.hasPin k.die k.ctx r = false → ∀ f, leaseFaults s k.ctx [r] = [f] → homeModule s k.ctx f.va = s.mgmt.modid →
      ∃ t q, exec (.leaseEstablish k.id) s = .next t ∧ t.faultRecs = s.faultRecs ++ [q] ∧ q.seq ≠ 0 ∧
        TaskBecomes s t { k with lease := .waiting [r] [(q.seq, f.va, f.kind)] } [.faultRecordWrite] ∧
        q.va = f.va ∧ q.ctx = k.ctx ∧ q.rights = f.rights ∧ q.kind = f.kind ∧ q.level = f.level ∧ q.reqmod = s.mgmt.modid ∧
        q.reqdie = k.die ∧ t.mem = s.mem)) ∧
  (∀ (s : State) (seq code : Nat), s.Quiet →
    ((∀ k ∈ s.tasks, ∀ rs ss, k.lease = .waiting rs ss → ∀ x ∈ ss, x.1 ≠ seq) ∨ (code ≠ 1 ∧ code ≠ 2) →
      exec (.leaseReply seq code) s = .next s) ∧
    (∀ k rs va kind, s.Faultless → k ∈ s.tasks → s.task k.id = some k → k.lease = .waiting rs [(seq, va, kind)] → Posted k →
      (∀ j ∈ s.tasks, ∀ ls ss, j.lease = .waiting ls ss → (∃ x ∈ ss, x.1 = seq) → j = k) →
      (s.lost.contains (homeModule s k.ctx va) = true → exec (.leaseReply seq code) s = .next s) ∧
      (s.lost.contains (homeModule s k.ctx va) = false →
      ((pageCheck s k.ctx rs va).1 = none → leaseFaults s k.ctx rs = [] → s.lost = [] → s.pinsNeeded k.die k.ctx rs ≤ s.pinsFree k.die →
        ∃ t, exec (.leaseReply seq 1) s = .next t ∧ TaskBecomes s t { k with lease := .ready rs } [.hubConsider k.die] ∧ t.mem = s.mem) ∧
      (∀ f, (pageCheck s k.ctx rs va).1 = some f → homeModule s k.ctx f.va = s.mgmt.modid →
        ∃ t q, exec (.leaseReply seq 1) s = .next t ∧ t.faultRecs = s.faultRecs ++ [q] ∧
          TaskBecomes s t { k with lease := .waiting rs [(q.seq, f.va, f.kind)] } [.faultRecordWrite] ∧ t.mem = s.mem) ∧
      (s.watches = [] → ∃ t, exec (.leaseReply seq 2) s = .next t ∧ t.tasks = s.tasks.filter (fun x => x.id != k.id))))) ∧
  (∀ (s : State) (p : Packet) (r : FaultRec), s.Quiet → r.va < 2 ^ 64 → r.ctx < 2 ^ 16 → r.rights < 2 ^ 8 → r.kind < 2 ^ 8 →
    r.level < 2 ^ 8 → r.reqmod < 2 ^ 9 → r.reqdie < 2 ^ 8 → r.reply < 2 ^ 64 → r.seq < 2 ^ 64 → p.data = r.toBytes →
    (s.lost.contains p.src = true → exec (.leaseRecord p) s = .next s) ∧
    (s.lost.contains p.src = false → ∃ t, exec (.leaseRecord p) s = .next t ∧
      { t with faultRecs := s.faultRecs, agenda := s.agenda, heard := s.heard, ports := s.ports } = s ∧ t.heardAt p.src = s.clock ∧
      t.faultRecs = s.faultRecs ++ [{ r with task := 0 }])) ∧
  (∀ (s : State) (r : FaultRec) (rest : List FaultRec), s.Quiet → s.faultRecs = r :: rest →
    (s.faultSlot = none → exec .faultRecordWrite s = .next s) ∧
    (∀ x, s.faultSlot = some x → 0xE00000 ≤ x → s.Faultless → s.watches = [] → Unguarded s → (s.hostAttr x).2 = false →
      ∃ t, exec .faultRecordWrite s = .next t ∧ t.faultRecs = rest ∧ t.lfqIndex = s.lfqIndex + 1 ∧ t.tasks = s.tasks ∧
        t.readLe x 8 = r.va % 2 ^ 64 ∧ t.readLe (x + 8) 2 = r.ctx % 2 ^ 16 ∧ t.readLe (x + 10) 1 = r.rights % 2 ^ 8 ∧
        t.readLe (x + 11) 1 = r.kind % 2 ^ 8 ∧ t.readLe (x + 12) 2 = r.reqmod % 2 ^ 16 ∧ t.readLe (x + 14) 1 = r.reqdie % 2 ^ 8 ∧
        t.readLe (x + 15) 1 = r.level % 2 ^ 8 ∧ t.readLe (x + 16) 8 = r.reply % 2 ^ 64 ∧ t.readLe (x + 24) 8 = r.seq % 2 ^ 64 ∧
        t.readLe (x + 32) 32 = 0 ∧ ∀ a, a < x ∨ x + 64 ≤ a → t.byte a = s.byte a))


namespace Sys2Proof.Claims

/-- A crew that has been asked to leave its core can be saved now: no gang is within a hint group, no access of theirs is out and
every store of theirs has committed, no matrix or retrieval work and no buffered line is left, none holds the trowel, and its save area takes what is written (R395). -/
structure Savable (s : State) (c : Crew) : Prop where
  quiet : s.Quiet
  crew : s.crew c.val = some c
  asked : c.preempting = true
  ids : s.gangs.Pairwise (fun a b => a.id ≠ b.id)
  gangs : ∀ g ∈ s.members c.val, (∀ p ∈ g.live, p.2.hints.words = 0) ∧ s.forerunner g.ctx = false ∧ g.wcb = [] ∧ g.taken = none ∧ g.retake = none
  acks : ∀ g ∈ s.members c.val, g.pendingAcks = 0 ∧ g.strong = [] ∧ ∀ e ∈ s.peerPending, e.org ≠ .gang g.id
  some_ : s.members c.val ≠ []
  loads : s.loads = []
  work : (∀ n, (s.core n).jobs = [] ∧ (s.core n).trowel = none ∧ (s.core n).passing = none) ∧ s.retr = [] ∧ s.probes = []
  area : (s.saveArea c).raises = []

/-- A core of a die is the next that its skim controller visits: in service and not gated (R399). -/
def NextVisited (s : State) (d core : Nat) : Prop :=
  ∃ k, k < 144 ∧ core = 144 * d + ((s.hub d).skim + k) % 144 ∧ s.skips core = false ∧
    ∀ j, j < k → s.skips (144 * d + ((s.hub d).skim + j) % 144) = true

/-- An island with the point that the thermal, or else the power rule demands. -/
def demands (y : IslSt) (thermal : Bool) (p : Nat) : IslSt := if thermal then { y with thermal := p } else { y with power := p }

/-- An island after a step down by a rule, whose lowest point is floor: CUR is one point lower, and the rule demands that point,
unless the other rule has stepped the island within 100 µs: that step serves both (R22, R24; log entry 31). -/
def steppedDown (floor now : Nat) (thermal : Bool) (y : IslSt) : IslSt :=
  if y.stepped.any (fun e => e.1 != thermal && decide (now < e.2 + 100000)) then
    let e := demands y thermal (min y.cur floor)
    { e with stepped := none }
  else if floor ≤ y.cur then y
  else
    let e := demands y thermal (y.cur + 1)
    { e with cur := y.cur + 1, stepped := some (thermal, now) }

/-- An island after a step up by a rule that demanded point p of it: the rule demands a point less, or nothing where the request
is as low, and CUR rises by one point as far as the request and the other rule allow (R22, R24; log entry 31). -/
def steppedUp (thermal : Bool) (p : Nat) (y : IslSt) : IslSt :=
  let d := demands y thermal (if y.req < 6 ∧ p - 1 ≤ y.req then 0 else p - 1)
  let e : IslSt := { d with stepped := none }
  if y.cur ≤ 5 ∧ islGoal e < y.cur then { e with cur := y.cur - 1 } else e

/-- The pages of a crew that is back: those that stayed in frames are held again (R159). -/
def pinAgain (l : List (Nat × PadState)) : List (Nat × PadState) := l.map (fun e => (e.1, if e.2 = .unpinned then .pinned else e.2))

/-- A split as it is saved: its yield is over, and a wait at a FIFO is given up, to be issued again (R167, R214). -/
def savedSplit (q : Split) : Split :=
  let r := if q.yielded then { q with yielded := false, rested := true } else q
  match q.blocked with
  | some (.fifoPush _) | some (.fifoPop _) => { r with blocked := none }
  | _ => r

end Sys2Proof.Claims

/-- R371, R372, R395 to R397, R399, R400: a crew is saved once its gangs have stopped, and queued as a restore; it returns to the
same core and slots; forerunner mode takes a gang after 10 ms; a skim controller closes one core of its die at a time, which the
scan reopens or takes out of service; and the detector declares a gang that waits on nothing that can end its wait in its second
scan. The gangs of a restore come from the state (the model's choice, log entry 35); which crews end with a failed pass (log entry
68), and on what a split waits, told by its stamp (log entry 26), are the model's readings. -/
def Obligations.PreemptionRestoreSkimAndDetector : Prop :=
  (∀ (s : State) (v : Nat), s.Quiet →
    ((s.crew v = none ∨ (∃ c, s.crew v = some c ∧ c.preempting = false) ∨ (∃ g ∈ s.members v, ∃ p ∈ g.live, p.2.hints.words ≠ 0 ∧ p.2.blocked = none)) →
      exec (.preemptSaveDone v) s = .next s) ∧
    (∀ c, c.val = v → Savable s c → ∃ t k r g, exec (.preemptSaveDone v) s = .next t ∧ t.crew v = some k ∧ k.preempted = true ∧
      k.preempting = false ∧ k.core = c.core ∧ k.bind = c.bind ∧ k.acc = c.acc ∧ k.z = c.z ∧
      k.saved = (s.members v).map (fun h => { h with splits := h.splits.map (fun o => o.map savedSplit) }) ∧
      (∀ page, k.padState page ≠ .pinned) ∧ t.gangs = s.gangs.filter (fun h => !(s.members v).any (fun m => m.id == h.id)) ∧
      r ∈ t.tasks ∧ r.source = .restore v ∧ r.die = dieOf c.core ∧ r.ctx = c.ctx ∧ r.arrival = s.clock ∧ r.lease = .none ∧
      (s.members v).head? = some g ∧ r.cls = g.cls)) ∧
  (∀ (s : State) (v : Nat), s.Quiet →
    (s.crew v = none ∨ s.restoreTask v = none → exec (.crewRestore v) s = .next s) ∧
    (∀ c k, s.crew v = some c → s.restoreTask v = some k →
      ((∀ rs, k.lease ≠ .ready rs) ∨ s.restorable c = false → exec (.crewRestore v) s = .next s) ∧
      (∀ rs u, k.lease = .ready rs → s.restorable c = true → s.Faultless → c.saved ≠ [] →
        (∀ g ∈ c.saved, g.retake = none ∧ g.core = c.core) → (∀ j ∈ s.retr, j.held = false) → (∀ p ∈ s.probes, p.held = false) →
        s.restoring v = false → s.readPages c.ctx (s.savedRanges c) = (u, none) → u.awayLines c.ctx (u.savedRanges c) = [] →
        ∃ t, exec (.crewRestore v) s = .next t ∧ t.crew v = some { c with saved := [], preempted := false, padStates := pinAgain c.padStates } ∧
          t.gangs.map (fun g => { g with acquired := 0 })
            = s.gangs.map (fun g => { g with acquired := 0 }) ++ c.saved.map (fun g => { g with cls := k.cls, acquired := 0 }) ∧
          t.tasks = s.tasks.filter (fun x => x.id != k.id) ∧
          t.l1 = s.l1.filter (fun x => x.cluster != clusterOf c.core || x.sealed) ∧ t.mem = s.mem))) ∧
  (∀ (s : State) (id : Nat) (g : Gang) (c : Crew), s.Quiet → s.gang id = some g → s.crew g.crew = some c →
    (c.preempting = false ∨ s.clock < c.asked + 10000000 → exec (.forerunnerTimeout id) s = .next s) ∧
    (c.preempting = true → c.asked + 10000000 ≤ s.clock → g.taken = none →
      ∃ t, exec (.forerunnerTimeout id) s = .next t ∧ GangBecomes s t id { g with taken := some allLive })) ∧
  (∀ (s : State) (d : Nat), s.Quiet →
    ((16 ≤ d ∨ ∃ c, c / 144 = d ∧ (s.core c).closed = true) → exec (.skimVisit d) s = .next s) ∧
    (∀ core, d < 16 → (∀ c, c / 144 = d → (s.core c).closed = false) → NextVisited s d core →
      ∃ t, exec (.skimVisit d) s = .next t ∧ t.core core = { s.core core with closed := true, passStart := s.clock } ∧
        (∀ n, n ≠ core → t.core n = s.core n) ∧ (t.hub d).skim = (core % 144 + 1) % 144 ∧ t.mem = s.mem ∧
        (∀ c ∈ s.crews, c.core = core → c.preempted = false → c.preempting = false → s.crew c.val = some c →
          ∃ k, t.crew c.val = some k ∧ k.preempting = true ∧ k.asked = s.clock ∧ k.drain = true ∧ .preemptSaveDone c.val ∈ t.agenda))) ∧
  (∀ (s : State) (core : Nat) (pass : Bool), s.Quiet →
    ((s.core core).closed = false ∨ (∃ c ∈ s.crews, c.core = core ∧ c.preempted = false) → exec (.skimScanDone core pass) s = .next s) ∧
    ((s.core core).closed = true → (∀ c ∈ s.crews, c.core = core → c.preempted = true) →
      (∃ t, exec (.skimScanDone core true) s = .next t ∧ t.mem = s.mem ∧ t.agenda = s.agenda ++ [.hubConsider (core / 144)] ∧
        t.core core = { s.core core with closed := false, lastPass := (s.core core).passStart, passes := (s.core core).passes + 1 } ∧
        ∀ id g k sp cs bad, s.gang id = some g → g.split k = some sp → sp.blocked = some (.skim cs bad) →
          ∃ h q ds, t.gang id = some h ∧ h.split k = some q ∧ q.blocked = some (.skim ds bad) ∧
            ∀ x, x ∈ ds ↔ (x ∈ cs ∧ x ≠ core ∧ x ≠ core + 4096) ∨ (x = core ∧ core + 4096 ∈ cs)) ∧
      ((∀ c ∈ s.crews, c.core = core → c.preempted = true ∧ c.asked < (s.core core).passStart) →
        ∃ t, exec (.skimScanDone core false) s = .next t ∧ (t.core core).closed = false ∧ (t.core core).outOfService = true ∧
          ∀ id g k sp cs bad, s.gang id = some g → g.split k = some sp → sp.blocked = some (.skim cs bad) →
            ∃ h q ds, t.gang id = some h ∧ h.split k = some q ∧ q.blocked = some (.skim ds true) ∧
              ∀ x, x ∈ ds ↔ x ∈ cs ∧ x ≠ core ∧ x ≠ core + 4096) ∧
      (∀ c g, s.crews = [c] → c.core = core → (s.core core).passStart ≤ c.asked → c.saved = [g] → g.crew = c.val → g.onControl = false →
        s.tasks = [] → s.gangs = [] → ∃ t, exec (.skimScanDone core false) s = .next t ∧ (t.core core).outOfService = true ∧ t.crews = []))) ∧
  (∀ (s : State) (d : Nat), s.Quiet →
    (s.blockedOn d = [] → exec (.detectorScan d) s = .next { s with suspects := s.suspects.filter (fun x => x.1 != d) }) ∧
    (∀ g k sp w l, s.blockedOn d = [g] → g.live = [(k, sp)] → sp.blocked = some w → s.waitsOn g w = some l → (∀ x ∈ l, x = g.id) →
      ((d, g.id, [sp.stamp]) ∉ s.suspects → exec (.detectorScan d) s
        = .next { s with suspects := s.suspects.filter (fun x => x.1 != d) ++ [(d, g.id, [sp.stamp])] }) ∧
      ((d, g.id, [sp.stamp]) ∈ s.suspects → let u := (s.leaveFifos (fun x => x.1 == g.id)).takeCause g.id k 0x0B sp.mask 0
        exec (.detectorScan d) s = .next ({ u with suspects := u.suspects.filter (fun x => x.1 != d) }.settle))) ∧
    (∀ g b, g.onControl = false → (∀ c, s.crew g.crew = some c → c.bound b = none) →
      ∃ l, s.waitsOn g (.name b) = some l ∧ ∀ x, x ∈ l ↔ x ≠ g.id ∧ ∃ h ∈ s.members g.crew, h.id = x))

/-- R18 to R20, R22, R24: a write of ISLCTL sets the request, or ERR for a point the island refuses; a change of operating point ends
at its goal, one to GATED once its cores have passed; the power rule steps the islands of one die after another, island 3 last,
and raises them again, one die after another; heat steps one island, and a trip stops the module with no context left. How the power controller and heat
share the steps of an island is the model's reading (log entry 31). -/
def Obligations.IslandsPowerAndHeat : Prop :=
  ∀ s : State, s.Quiet →
    let bottom (n : Nat) : Nat := if n % 4 = 3 then 3 else 5
    (∀ (n : Nat) (x : BitVec 64), (64 ≤ n → exec (.islctl n x) s = .next s) ∧
      (n < 64 → ∃ t, exec (.islctl n x) s = .next t ∧ { t with islands := s.islands, agenda := s.agenda } = s ∧ IslandWritten s t n x)) ∧
    (∀ n, let y := s.island n
      let landed := if y.goal = 6 then 6 else max y.goal (max y.power y.thermal)
      (y.busy = false ∨ y.due ≠ [] → exec (.operatingPointChangeDone n) s = .next s) ∧
      (y.busy = true → y.due = [] → islGoal y = landed → ∃ t, exec (.operatingPointChangeDone n) s = .next t ∧
        { t with islands := s.islands, agenda := s.agenda } = s ∧ t.island n = { y with cur := landed, busy := false } ∧
        (∀ m, m ≠ n → t.island m = s.island m) ∧
        t.agenda = s.agenda ++ (if y.cur = 6 ∧ y.goal ≠ 6 then [.hubConsider (n / 4)] else [])) ∧
      (y.busy = true → y.due = [] → islGoal y ≠ landed → ∃ t, exec (.operatingPointChangeDone n) s = .next t ∧
        (t.island n).cur = landed ∧ (t.island n).busy = true ∧ (t.island n).goal = islGoal y ∧ .operatingPointChangeDone n ∈ t.agenda)) ∧
    (∀ j, let d := (s.power.next + j) % 16
      s.power.active = true → j < 16 → (∃ k, k < 3 ∧ (s.island (4 * d + k)).cur < 5) →
      (∀ i, i < j → ∀ k, k < 3 → 5 ≤ (s.island (4 * ((s.power.next + i) % 16) + k)).cur) →
      ∃ t, exec .powerStepDown s = .next t ∧ { t with islands := s.islands, power := s.power } = s ∧ t.power.next = (d + 1) % 16 ∧
        t.power.next3 = s.power.next3 ∧
        (∀ k, k < 3 → t.island (4 * d + k) = steppedDown 5 s.clock false (s.island (4 * d + k))) ∧
        ∀ m, m / 4 ≠ d ∨ m % 4 = 3 → t.island m = s.island m) ∧
    (∀ j, let d := (s.power.next3 + j) % 16
      s.power.active = true → j < 16 → (∀ n, n < 64 → n % 4 ≠ 3 → 5 ≤ (s.island n).cur) → (s.island (4 * d + 3)).cur < 3 →
      (∀ i, i < j → 3 ≤ (s.island (4 * ((s.power.next3 + i) % 16) + 3)).cur) →
      ∃ t, exec .powerStepDown s = .next t ∧ { t with islands := s.islands, power := s.power } = s ∧ t.power.next3 = (d + 1) % 16 ∧
        t.island (4 * d + 3) = steppedDown 3 s.clock false (s.island (4 * d + 3)) ∧ ∀ m, m ≠ 4 * d + 3 → t.island m = s.island m) ∧
    ((∀ n, n < 64 → bottom n ≤ (s.island n).cur) → s.power.capped = true → exec .powerStepDown s = .next s) ∧
    ((∀ n, n < 64 → (s.island n).power = 0) → ∀ d, exec (.powerStepUp d) s = .next s) ∧
    (∀ j, let d := (s.power.rise + j) % 16
      j < 16 → (∃ k, k < 4 ∧ (s.island (4 * d + k)).power ≠ 0) →
      (∀ i, i < j → ∀ k, k < 4 → (s.island (4 * ((s.power.rise + i) % 16) + k)).power = 0) →
      (∀ x, x ≠ d → exec (.powerStepUp x) s = .next s) ∧
      ∃ t, exec (.powerStepUp d) s = .next t ∧ { t with islands := s.islands, power := s.power } = s ∧
        t.power = { s.power with active := false, capped := false, rise := (d + 1) % 16 } ∧
        (∀ k, k < 4 → t.island (4 * d + k) = steppedUp false (s.island (4 * d + k)).power (s.island (4 * d + k))) ∧
        ∀ m, m / 4 ≠ d → t.island m = s.island m) ∧
    (∀ n, (∃ t, exec (.thermalStep n) s = .next t ∧ (∀ m, m ≠ n → t.island m = s.island m) ∧
        t.island n = steppedDown (bottom n) s.clock true (s.island n)) ∧
      ∃ t, exec (.thermalRecover n) s = .next t ∧ { t with islands := s.islands } = s ∧ (∀ m, m ≠ n → t.island m = s.island m) ∧
        t.island n = steppedUp true (s.island n).thermal (s.island n)) ∧
    (∃ t, exec .thermalTrip s = .next t ∧ t.gangs = [] ∧ t.crews = [] ∧ t.leases = [] ∧ t.standing = [] ∧ t.pinned = [] ∧ t.tasks = [] ∧
      t.watches = [] ∧ t.colls = [] ∧ t.agenda = [] ∧ t.mgmt = { s.mgmt with ttrip := true } ∧ t.mem = s.mem ∧ t.ports = s.ports)


namespace Sys2Proof.Claims

/-! ### The host port -/

/-- The local address that an offset of a host decoder names (R407). -/
def HostAt (dec h a : Nat) : Prop :=
  (dec = 0 ∧ h < 0x30000000000 ∧ a = h) ∨ (dec = 1 ∧ h < 0x80000000000 ∧ a = 0x40000000000 + h)

/-- The load that awaits tag has its data: the wait is over for that reply, and with the last one the load completes. -/
structure GotData (s t : State) (tag : Nat) (l : PendLoad) (w : Await) (data : List Byte) : Prop where
  loads : ∃ m, t.loads = s.loads.map (fun x => if x.tag == l.tag then m else x) ∧
    m = { l with await := l.await.filter (fun v => v.tag != tag), got := putBytes l.got w.lane w.first ((data.drop w.skip).take w.count) }
  done : (∀ v ∈ l.await, v.tag = tag) → t.agenda = s.agenda ++ [.loadComplete l.tag]

/-- A load into registers awaits tag for one part, its line not to be kept, and no part waits for others to be performed. -/
structure Awaiting (s : State) (tag : Nat) (l : PendLoad) (w : Await) : Prop where
  quiet : s.Quiet
  load : s.loadOf tag = some l
  one : l.await.filter (fun v => v.tag == tag) = [w]
  plain : w.line = none ∧ l.kind ≠ 3 ∧ l.kind ≠ 4 ∧ l.kind ≠ 19 ∧ l.rest = []

/-- The link agent performs one access, that of tag. -/
structure Performs (s : State) (tag : Nat) (h : HostAtomic) : Prop where
  only : s.hostAtomics = [h]
  tag : h.tag = tag
  quiet : s.Quiet

end Sys2Proof.Claims

/-- R236, R237, R327, R406 to R409, R414: the host port. The host writes and reads whole memory but for the system frames, which read as
zero; a snoop is answered from the agent cache; an uncached atomic is a loop of CAS, of 64 rounds at most, after which its lane
has cause 0x0C; a granted line serves the access that asked for it, and a load over two lines once both are granted; training sets the width, the rate and agent status. -/
def Obligations.HostPortTransactions : Prop :=
  (∀ (s : State) (dec h n a : Nat) (data : List Byte), s.Quiet →
    ((∀ b, ¬ HostAt dec h b) → exec (.hostWrite dec h data) s = .next s ∧ exec (.hostRead dec h n) s = .next s) ∧
    (HostAt dec h a → a < 0xE00000 → exec (.hostWrite dec h data) s = .next s ∧
      exec (.hostRead dec h n) s = .next { s with hostOut := s.hostOut ++ [.reply a (List.replicate n 0) false] }) ∧
    (HostAt dec h a → 0xE00000 ≤ a → s.Faultless →
      ∃ t, exec (.hostRead dec h n) s = .next t ∧ { t with hostOut := s.hostOut, sram := s.sram } = s ∧
        t.hostOut = s.hostOut ++ [.reply a (s.bytes a n) (s.anyPoison a n)]) ∧
    (HostAt dec h a → 0xE00000 ≤ a → s.Faultless → a % 64 = 0 → data.length = 64 → s.watches = [] → Unguarded s →
      (s.hostAttr a).2 = false →
      ∃ t, exec (.hostWrite dec h data) s = .next t ∧ { t with mem := s.mem, sram := s.sram } = s ∧
        ∀ b, t.byte b = if a ≤ b ∧ b < a + 64 then nth 0 data (b - a) else s.byte b)) ∧
  (∀ (s : State) (line : Nat), s.Quiet →
    let kept := (s.agentCache.find? (fun e => s.hostPhys e.1 == line)).map (fun e => e.2.2)
    exec (.hostSnoop line true) s = .next { s with
      hostOut := s.hostOut ++ [.snoop line kept], agentCache := s.agentCache.filter (fun e => s.hostPhys e.1 != line) } ∧
    ∃ t, exec (.hostSnoop line false) s = .next t ∧ { t with hostOut := s.hostOut, agentCache := s.agentCache } = s ∧
      t.hostOut = s.hostOut ++ [.snoop line kept] ∧ t.agentCache.length = s.agentCache.length ∧
      ∀ (k : Nat) (e : Nat × Bool × List Byte), s.agentCache[k]? = some e → t.agentCache[k]? = some (e.1, if s.hostPhys e.1 = line then false else e.2.1, e.2.2)) ∧
  (∀ (s : State) (tag : Nat) (data : List Byte), s.Quiet → (∀ h ∈ s.hostAtomics, h.tag ≠ tag) →
    exec (.hostAtomicCompletion tag data) s = .next s ∧ exec (.hostWriteCompletion tag) s = .next s ∧
    exec (.cxlCacheOwnership tag data) s = .next s) ∧
  (∀ (s : State) (tag : Nat) (h : HostAtomic) (data : List Byte) (l : PendLoad) (w : Await), Performs s tag h → Awaiting s tag l w →
    (∀ n, h.job = .load n → h.phase = 1 →
      ∃ t, exec (.hostAtomicCompletion tag data) s = .next t ∧ t.hostAtomics = [] ∧ GotData s t tag l w data ∧
        { t with hostAtomics := s.hostAtomics, tokens := s.tokens, loads := s.loads, agenda := s.agenda } = s) ∧
    (∀ op wide x y old, h.job = .atomic op wide x y → ofBytes (data.take (if wide then 8 else 4)) = old →
      let n := if wide then 8 else 4
      (h.phase = 1 → ∃ t, exec (.hostAtomicCompletion tag data) s = .next t ∧ t.hostAtomics = [] ∧ GotData s t tag l w (leBytes n old) ∧
        t.mem = s.mem) ∧
      (h.phase = 2 ∨ (h.phase = 3 ∧ old ≠ h.old.toNat ∧ h.attempts < 64) →
        ∃ t, exec (.hostAtomicCompletion tag data) s = .next t ∧ { t with hostAtomics := s.hostAtomics, hostOut := s.hostOut } = s ∧
          t.hostAtomics = [{ h with old := BitVec.ofNat 64 old, phase := 3, attempts := h.attempts + 1 }] ∧
          ∃ v, (∀ m f, atomApply op (8 * n) old (x.toNat % 2 ^ (8 * n)) 0 = (some m, f) → v = m) ∧
            t.hostOut = s.hostOut ++ [.cas tag (s.hostPhys h.addr) wide (BitVec.ofNat 64 old) (BitVec.ofNat 64 v)]) ∧
      (h.phase = 3 → old = h.old.toNat → ∃ t, exec (.hostAtomicCompletion tag data) s = .next t ∧ t.hostAtomics = [] ∧
        GotData s t tag l w (leBytes n old) ∧ t.mem = s.mem ∧
        ∀ id g, h.org = .gang id → s.gang id = some g → ∃ k, t.gang id = some k ∧
          k = { g with fst := g.fst ||| BitVec.ofNat 32 (atomApply op (8 * n) old (x.toNat % 2 ^ (8 * n)) 0).2 }) ∧
      (h.phase = 3 → old ≠ h.old.toNat → 64 ≤ h.attempts → ∃ t m, exec (.hostAtomicCompletion tag data) s = .next t ∧ t.hostAtomics = [] ∧
        t.loads = s.loads.map (fun x => if x.tag == l.tag then m else x) ∧ m.faults = l.faults ++ [(w.lane, 0x0C, w.base)] ∧
        (∀ k, k < 32 → m.lanes.getLsbD k = (l.lanes.getLsbD k && k != w.lane)) ∧ m.got = l.got ∧ t.mem = s.mem))) ∧
  (∀ (s : State) (tag : Nat) (h : HostAtomic) (id : Nat) (g : Gang) (cells : List (Nat × Byte)), Performs s tag h → h.org = .gang id →
    s.gang id = some g → g.strong = [] → h.job = .store cells →
    (h.phase ≠ 1 → exec (.hostWriteCompletion tag) s = .next s) ∧
    (h.phase = 1 → ∃ t, exec (.hostWriteCompletion tag) s = .next t ∧ t.hostAtomics = [] ∧ t.tokens = s.tokens.filter (fun x => x.2 != tag) ∧
      t.gang id = some { g with pendingAcks := g.pendingAcks - 1 } ∧ (∀ j, j ≠ id → t.gang j = s.gang j) ∧ t.mem = s.mem)) ∧
  (∀ (s : State) (tag : Nat) (h : HostAtomic) (data : List Byte), Performs s tag h → h.phase = 0 → s.agentLine h.addr = none →
    s.agentCache.length < 16384 →
    let line := h.addr / 64 * 64
    let o := h.addr % 64
    (∀ n l w, h.job = .load n → 0 < n → o + n ≤ 64 → data.length = 64 → Awaiting s tag l w → ∃ t, exec (.cxlCacheOwnership tag data) s = .next t ∧
      t.agentCache = (line, false, data) :: s.agentCache ∧ t.hostAtomics = [] ∧ GotData s t tag l w ((data.drop o).take n) ∧
      t.hostOut = s.hostOut ∧ t.mem = s.mem) ∧
    (∀ n, h.job = .load n → 64 < o + n → o + n ≤ 128 → s.agentLine (line + 64) = none → ∃ t, exec (.cxlCacheOwnership tag data) s = .next t ∧
      { t with agentCache := s.agentCache, hostOut := s.hostOut } = s ∧ t.agentCache = (line, false, data) :: s.agentCache ∧
      t.hostOut = s.hostOut ++ [.own tag (s.hostPhys (line + 64)) false]) ∧
    (∀ cells id g, h.job = .store cells → h.org = .gang id → s.gang id = some g → g.strong = [] → (∀ e ∈ s.agentCache, e.1 ≠ line) →
      (∀ c ∈ cells, c.1 / 64 * 64 = line) → data.length = 64 →
      ∃ t d, exec (.cxlCacheOwnership tag data) s = .next t ∧ t.agentCache = (line, true, d) :: s.agentCache ∧ t.hostAtomics = [] ∧
        t.gang id = some { g with pendingAcks := g.pendingAcks - 1 } ∧
        ∀ k, k < 64 → nth 0 d k = ((cells.reverse.find? (fun c => c.1 == line + k)).map (·.2)).getD (nth 0 data k))) ∧
  (∀ (s : State) (width rate : Nat) (support : BitVec 6), s.Quiet → ∃ t, exec (.hostLinkTraining width rate support) s = .next t ∧
    t.mgmt = { s.mgmt with linkWidth := width, linkRate := rate } ∧ { t with mgmt := s.mgmt, mem := s.mem } = s ∧
    ∀ b, t.byte b = if b = 0xA00080 then BitVec.ofNat 8 support.toNat else if 0xA00080 < b ∧ b < 0xA00088 then 0 else s.byte b)


namespace Sys2Proof.Claims

/-! ### Packets -/

/-- A packet comes from a module that is not lost, on a port that its peer was heard on before: only the time at which the peer
was last heard changes. -/
structure Comes (s : State) (p : Packet) (u : State) : Prop where
  quiet : s.Quiet
  here : s.lost.contains p.src = false
  port : ∀ n, s.route p.dst p.addr = some n → (s.port n).peer = p.src
  heard : u = { s with heard := sput 0 s.heard p.src s.clock }

/-- An answer of a kind to a packet. -/
structure Answers (s : State) (p q : Packet) (kind : Nat) : Prop where
  kind : q.kind = kind
  src : q.src = s.mgmt.modid
  dst : q.dst = p.src
  tag : q.tag = p.tag
  port : q.port = s.route q.dst q.addr

/-- A half-line in which a read packet names a sector; with no mask it names all of them (R420). -/
def HalfNamed (p : Packet) (h : Nat) : Prop :=
  ∃ k, k < (p.len + 31) / 32 ∧ (p.mask = [] ∨ nth false p.mask k = true) ∧ h = (p.addr + 32 * k) / 64 * 64

/-- The packets of other modules that only a module which counts as present may send (R422). -/
noncomputable def packets (p : Packet) (port : Nat) : List Instr :=
  [.read p, .readData p, .write p, .writeAck p, .atomic p, .atomicData p, .leaseRecord p, .rebuildQuery p, .rebuildAnswer p,
   .drainToken p, .tokenReturn p, .groupExchange p, .heartbeat p port, .reservedPacketKind p port]

/-- Record r has failed: VALID and FORMED are clear, and every other member that it names is told so (R417). -/
def RecordFailed (s t : State) (r : Nat) : Prop :=
  (t.group r).valid = false ∧ t.byte (groupFlags r) = s.byte (groupFlags r) &&& 0xF6 ∧
  ∃ qs, t.out = s.out ++ qs ∧ qs.map (fun q => q.dst) = ((s.group r).members.take (s.group r).n).filter (· != s.mgmt.modid) ∧
    ∀ q ∈ qs, q.kind = 0x0F ∧ q.op = 2 ∧ q.src = s.mgmt.modid ∧ q.addr = r

/-- A write or an operation of a packet meets nothing at its slice but memory. -/
structure Unwatched (s : State) (p : Packet) : Prop where
  clean : s.Faultless
  open_ : Unguarded s
  plain : p.watched = false ∧ p.prot = false
  where_ : 0xE00000 ≤ p.addr ∧ isDram p.addr = true

end Sys2Proof.Claims

/-- R335, R352, R398, R402, R403, R417, R420, R422: packets of other modules. What a lost module sends is dropped. A read, a write and
an atomic are performed at their home slice and answered; an answer completes what awaited it; a drain token returns behind the
deltas sent on its sender's behalf; group records are exchanged and compared, and one that fails fails at every member; a rebuild
queries surviving members, and its answers reach it. How records are exchanged (log entry 63) and tokens passed on (log entry 62) is
the model's reading. -/
def Obligations.PacketsBetweenModules : Prop :=
  (∀ (s : State) (p : Packet) (port : Nat), s.Quiet → s.lost.contains p.src = true → ∀ w ∈ packets p port, exec w s = .next s) ∧
  (∀ (s u : State) (p : Packet), Comes s p u →
    (isDram p.addr = false → exec (.read p) s = .next u ∧ exec (.write p) s = .next u ∧ exec (.atomic p) s = .next u) ∧
    (isDram p.addr = true → s.Faultless → ∃ t q, exec (.read p) s = .next t ∧ { t with out := s.out, sram := s.sram } = u ∧
      t.out = s.out ++ [q] ∧ Answers s p q 2 ∧ q.data.length = p.len ∧
      (∀ k, k < p.len → HalfNamed p ((p.addr + k) / 64 * 64) → nth 0 q.data k = s.byte (p.addr + k)) ∧
      (q.status = 0 ∨ q.status = 0x09) ∧ (q.status = 0x09 ↔ ∃ h, HalfNamed p h ∧ h ∈ s.poison) ∧
      ∀ h, h ∈ q.refusals.map (·.2) ↔ HalfNamed p h ∧ h ∈ s.poison) ∧
    (Unwatched s p → p.op = 0 →
      ∃ t q, exec (.write p) s = .next t ∧ t.out = s.out ++ [q] ∧ Answers s p q 4 ∧ q.refusals = [] ∧ q.count = 0 ∧
        { t with mem := s.mem, sram := s.sram, out := s.out } = u ∧
        ∀ b, t.byte b = if p.addr ≤ b ∧ b < p.addr + p.data.length ∧ (p.mask = [] ∨ nth false p.mask (b - p.addr) = true)
          then nth 0 p.data (b - p.addr) else s.byte b) ∧
    (∀ x old m f, Unwatched s p → p.near = [x] → p.op ≤ 0xA → let n := if x.wide then 8 else 4
      p.addr % n = 0 → s.readLe p.addr n = old → atomApply p.op (8 * n) old (x.x.toNat % 2 ^ (8 * n)) (x.y.toNat % 2 ^ (8 * n)) = (some m, f) →
      ∃ t q, exec (.atomic p) s = .next t ∧ t.out = s.out ++ [q] ∧ Answers s p q 6 ∧ q.data = leBytes 8 old ++ leBytes 8 0 ∧
        q.op = f ∧ q.status = 0 ∧ q.refusals = [] ∧ q.count = 0 ∧
        { t with mem := s.mem, sram := s.sram, out := s.out } = u ∧ t.readLe p.addr n = m % 2 ^ (8 * n) ∧
        ∀ b, b < p.addr ∨ p.addr + n ≤ b → t.byte b = s.byte b)) ∧
  (∀ (s u : State) (p : Packet), Comes s p u →
    (∀ l w, Awaiting s p.tag l w → p.status = 0 → ∃ t, exec (.readData p) s = .next t ∧ GotData s t p.tag l w p.data ∧
      { t with loads := s.loads, agenda := s.agenda } = u) ∧
    (∀ l w g, Awaiting s p.tag l w → s.pendingAt p.tag = none → s.gang l.gang = some g → p.status = 0 → p.count = 0 → p.refusals = [] →
      ∃ t h, exec (.atomicData p) s = .next t ∧ GotData s t p.tag l w p.data ∧ t.gang l.gang = some h ∧
        h = { g with fst := g.fst ||| BitVec.ofNat 32 p.op } ∧ t.mem = s.mem) ∧
    (∀ e id g, s.pendingAt p.tag = some e → e.org = .gang id → s.gang id = some g → g.strong = [] → p.refusals = [] →
      ∀ w ∈ [Instr.writeAck p, .atomicData p],
      ∃ t, exec w s = .next t ∧ t.gang id = some { g with pendingAcks := g.pendingAcks - 1, unacked := g.unacked + p.count } ∧
        (∀ j, j ≠ id → t.gang j = s.gang j) ∧ t.peerPending = s.peerPending.filter (fun x => x.tag != p.tag) ∧
        t.deltas.length = s.deltas.length + p.count ∧ t.mem = s.mem)) ∧
  (∀ (s u : State) (p : Packet), Comes s p u →
    ((∀ d ∈ s.deltas, ∀ m n, d.org = .peer m n → m ≠ p.src) → ∃ q, exec (.drainToken p) s = .next { u with out := s.out ++ [q] } ∧
      Answers s p q 0x0E ∧ q.ctx = p.ctx) ∧
    (∀ d n, s.deltas = [d] → d.held = false → d.org = .peer p.src n → ∃ t q, exec (.drainToken p) s = .next t ∧ t.out = s.out ++ [q] ∧
      q.kind = 0x0D ∧ q.dst = d.dest ∧ q.ctx = p.ctx ∧ t.relays = s.relays ++ [(q.tag, p.src, p.tag)] ∧ t.mem = s.mem) ∧
    ((∀ r ∈ s.relays, r.1 ≠ p.tag) → exec (.tokenReturn p) s = .next { u with tokens := s.tokens.filter (fun x => x.2 != p.tag) }) ∧
    (∀ m tag, s.relays = [(p.tag, m, tag)] → ∃ t q, exec (.tokenReturn p) s = .next t ∧ t.relays = [] ∧ t.tokens = s.tokens ∧
      t.out = s.out ++ [q] ∧ q.kind = 0x0E ∧ q.dst = m ∧ q.tag = tag ∧ q.ctx = p.ctx)) ∧
  (∀ (s u : State) (p : Packet), Comes s p u →
    (16 ≤ p.addr → exec (.groupExchange p) s = .next u) ∧
    (p.addr < 16 → s.beforeFormation = true → exec (.groupExchange p) s = .next { u with agenda := s.agenda ++ [.groupExchange p] }) ∧
    (p.addr < 16 → s.beforeFormation = false → recordFields (s.bytes (0xA00100 + 64 * p.addr) 64) = none →
      (p.op ≠ 0 → exec (.groupExchange p) s = .next u) ∧
      (p.op = 0 → ∃ q, exec (.groupExchange p) s = .next { u with out := s.out ++ [q] } ∧ q.kind = 0x0F ∧ q.op = 1 ∧ q.dst = p.src ∧
        q.src = s.mgmt.modid ∧ q.addr = p.addr ∧ q.data = s.bytes (0xA00100 + 64 * p.addr) 64)) ∧
    (p.addr < 16 → s.beforeFormation = false → p.op = 1 → s.logArea 0 = none → ∀ mine, recordFields (s.bytes (0xA00100 + 64 * p.addr) 64) = some mine →
      (recordFields p.data ≠ some mine → ∃ t, exec (.groupExchange p) s = .next t ∧ RecordFailed s t p.addr) ∧
      (recordFields p.data = some mine → (s.group p.addr).valid = false →
        (∀ x ∈ (s.group p.addr).members.take (s.group p.addr).n, x = s.mgmt.modid ∨ x = p.src ∨ (p.addr, x) ∈ s.agreed) →
        ∃ t, exec (.groupExchange p) s = .next t ∧ (t.group p.addr).valid = true ∧
          t.byte (groupFlags p.addr) = s.byte (groupFlags p.addr) ||| 8 ∧ ∀ b, b ≠ groupFlags p.addr → t.byte b = s.byte b)) ∧
    (p.addr < 16 → s.beforeFormation = false → p.op = 2 → s.logArea 0 = none → recordFields (s.bytes (0xA00100 + 64 * p.addr) 64) ≠ none →
      ∃ t, exec (.groupExchange p) s = .next t ∧ RecordFailed s t p.addr)) ∧
  (∀ (s u : State) (p : Packet), Comes s p u → p.src ≠ s.mgmt.modid → isDram p.addr = true → s.Faultless →
    (p.op = 2 → ∃ t q, exec (.rebuildQuery p) s = .next t ∧ { t with out := s.out, sram := s.sram } = u ∧ t.out = s.out ++ [q] ∧
      Answers s p q 0x0C ∧ q.data = s.bytes p.addr 64) ∧
    (p.op = 0 → s.deltasOut p.addr = true → exec (.rebuildQuery p) s = .next { u with agenda := s.agenda ++ [.rebuildQuery p] }) ∧
    (p.op = 0 → s.deltasOut p.addr = false → ∃ t q, exec (.rebuildQuery p) s = .next t ∧ t.out = s.out ++ [q] ∧ Answers s p q 0x0C ∧
      q.data = s.bytes p.addr 64 ∧ t.cuts = s.cuts ++ [(p.addr, s.fresh)] ∧ t.mem = s.mem)) ∧
  (∀ (s u : State) (p : Packet), Comes s p u →
    (s.rebuildWaiting p.tag = none → exec (.rebuildAnswer p) s = .next u) ∧
    (∀ b pos, s.rebuilds = [b] → (b.wait.find? (fun w => w.1 == p.tag)) = some (p.tag, pos) → (∃ w ∈ b.wait, w.1 ≠ p.tag) →
      exec (.rebuildAnswer p) s = .next { u with rebuilds := [{ b with
        wait := b.wait.filter (fun w => w.1 != p.tag), got := b.got ++ [(pos, p.data, p.status != 0)] }] })) ∧
  (∀ (s : State) (b : Rebuild) (f : Nat), s.Quiet → s.rebuilds = [b] → b.stripe = none → b.wait = [] → f ∈ b.stripes →
    s.dataToRead b f ≠ [] → (∀ x ∈ s.dataToRead b f, nth 0 (s.group b.record).members x ≠ s.mgmt.modid) →
    ∃ t c qs, exec (.rebuildStripe b.record f) s = .next t ∧ t.rebuilds = [c] ∧ c.stripe = some f ∧ c.half = 0 ∧
      c.stripes = b.stripes.filter (· != f) ∧ c.wait.map (·.2) = s.dataToRead b f ∧ c.wait.map (·.1) = qs.map (fun q => q.tag) ∧
      t.out = s.out ++ qs ∧ qs.map (fun q => q.dst) = (s.dataToRead b f).map (nth 0 (s.group b.record).members ·) ∧
      (∀ q ∈ qs, q.kind = 0x0B ∧ q.op = 0 ∧ q.addr = (s.group b.record).base + 2 ^ 21 * f) ∧ t.mem = s.mem) ∧
  (∀ (s : State) (r f : Nat), s.Quiet → (∀ b ∈ s.rebuilds, b.record ≠ r) → exec (.rebuildStripe r f) s = .next s)


namespace Sys2Proof.Claims

/-! ### Ports, the loss of modules, and starts -/

/-- Port n is now x, its status word says so as R415 lays it out, and nothing else has changed but the time a peer was heard. -/
structure PortBecomes (s t : State) (n : Nat) (x : PortSt) : Prop where
  port : t.port n = x
  others : ∀ m, m ≠ n → t.port m = s.port m
  word : x.retry < 2 ^ 16 → x.peer < 2 ^ 9 → t.readLe (0xA00500 + 8 * n) 8
    = (if x.up then 1 else 0) + (if x.trained then 2 else 0) + 2 ^ 16 * x.retry + 2 ^ 32 * x.peer
  frame : ∀ a, a < 0xA00500 + 8 * n ∨ 0xA00508 + 8 * n ≤ a → t.byte a = s.byte a
  rest : { t with ports := s.ports, mem := s.mem, heard := s.heard } = s

/-- A start is at step 1: no gang, crew, task, watch, lease or event is left, and memory, ports and counters stand as they were
(R411, R423, R425). -/
structure AtStep1 (s t : State) (kind : Nat) : Prop where
  step : t.mgmt.step = 1 ∧ t.mgmt.state = 1 ∧ t.mgmt.kind = kind ∧ t.mgmt.fail = 0
  gone : t.gangs = [] ∧ t.crews = [] ∧ t.tasks = [] ∧ t.watches = [] ∧ t.leases = [] ∧ t.pinned = [] ∧ t.agenda = [] ∧ t.loads = [] ∧
    t.colls = [] ∧ t.lost = []
  kept : t.mem = s.mem ∧ t.poison = s.poison ∧ t.errors = s.errors ∧ t.ports = s.ports ∧ t.clock = s.clock
  config : t.mgmt.cfgModid = s.mgmt.cfgModid ∧ t.mgmt.porten = s.mgmt.porten ∧ t.mgmt.groupCfg = s.mgmt.groupCfg ∧
    t.mgmt.bootWindow = s.mgmt.bootWindow ∧ t.mgmt.modid = s.mgmt.modid
  made : t.mgmt.fuses = s.mgmt.fuses ∧ t.mgmt.firmware = s.mgmt.firmware ∧ t.mgmt.resident = s.mgmt.resident ∧
    t.mgmt.identity = s.mgmt.identity ∧ t.mgmt.certificate = s.mgmt.certificate

/-- The 8 bytes that a read of BAR0 finds from an offset on. -/
def barWord (m : Mgmt) (off : Nat) : Nat := ofBytes ((List.range 8).map (fun k => m.bar0 (off + k)))

/-- Group record r, with VALID set, is being formed, and names module m. -/
def Unformed (s : State) (r m : Nat) : Prop :=
  r < 16 ∧ (s.byte (groupFlags r)).getLsbD 0 = true ∧ (s.group r).valid = false ∧ m ≠ s.mgmt.modid ∧
  m ∈ (s.group r).members.take (s.group r).n

/-- A requested start, with HALTED and TTRIP clear (R411, R412). -/
def Started1 (s t : State) (kind : Nat) : Prop :=
  AtStep1 s t kind ∧ t.mgmt.halted = false ∧ (kind = 1 → t.mgmt.ttrip = false) ∧ t.mgmt.starts = s.mgmt.starts + 1

end Sys2Proof.Claims

/-- R341, R401, R405, R415, R417, R418, R420 to R422: ports and the loss of modules. A port says whom it last heard, and counts what was
retransmitted or of a reserved kind; every UP port sends heartbeats; a port that goes down carries no traffic, and what its far end has not acknowledged is sent again on
the ports that routing gives. A peer that shares a group record and has been silent for 1 ms is lost: its groups are degraded, and
what awaited it waits no longer; a record that was being formed with one that cannot be reached fails (the model's choice of when,
log entry 122). A module that has heard nothing for 500 µs halts. Planes and retry buffers (log entry 61) and self-fencing (log entry
70) follow the model's readings. -/
def Obligations.PortsAndTheLossOfModules : Prop :=
  (∀ (s : State) (p : Packet) (n : Nat), s.Quiet → s.lost.contains p.src = false →
    ((s.port n).peer = p.src → exec (.heartbeat p n) s = .next { s with heard := sput 0 s.heard p.src s.clock }) ∧
    ((s.port n).peer ≠ p.src → ∃ t, exec (.heartbeat p n) s = .next t ∧ PortBecomes s t n { s.port n with peer := p.src } ∧
      t.heard = sput 0 s.heard p.src s.clock) ∧
    (∃ t, exec (.reservedPacketKind p n) s = .next t ∧ t.heard = sput 0 s.heard p.src s.clock ∧
      PortBecomes s t n { s.port n with peer := p.src, retry := min ((s.port n).retry + 1) (2 ^ 16 - 1) })) ∧
  (∀ s : State, s.Quiet → ∃ qs, exec .heartbeatTimer s = .next { s with out := s.out ++ qs } ∧
    qs.map (fun q => q.port) = ((List.range 48).filter (fun n => (s.port n).up)).map some ∧
    ∀ q ∈ qs, q.kind = 0x10 ∧ q.src = s.mgmt.modid ∧ ∃ n, q.port = some n ∧ q.dst = (s.port n).peer) ∧
  (∀ (s : State) (n : Nat), s.Quiet →
    (48 ≤ n → exec (.flitRetransmit n) s = .next s ∧ exec (.portDown n) s = .next s) ∧
    (n < 48 → (∃ t, exec (.flitRetransmit n) s = .next t ∧ PortBecomes s t n { s.port n with retry := min ((s.port n).retry + 1) (2 ^ 16 - 1) }) ∧
      ∃ t qs, exec (.portDown n) s = .next t ∧ t.out = s.out ++ qs ∧ (∀ q ∈ qs, q.port = t.route q.dst q.addr) ∧
        qs.map (fun q => { q with port := some n })
          = ((s.out.filter (fun q => q.port == some n)).drop (s.port n).acked).filter (fun q => q.kind != 0x10) ∧
        PortBecomes s { t with out := s.out } n
          { s.port n with up := false, acked := (s.out.filter (fun q => q.port == some n)).length } ∧
        ∀ dst a, t.route dst a ≠ some n)) ∧
  (∀ (s : State) (m : Nat), s.Quiet →
    (s.clock < s.heardAt m + 1000000 → exec (.peerLostTimeout m) s = .next s) ∧
    (s.lost.contains m = true ∨ m = s.mgmt.modid ∨ s.sharedGroups m = [] →
      (s.mgmt.state ≠ 2 ∨ (∀ r, ¬ Unformed s r m) → exec (.peerLostTimeout m) s = .next s) ∧
      (s.mgmt.state = 2 → s.heardAt m + 1000000 ≤ s.clock → s.logArea 0 = none → ∀ r, Unformed s r m → (∀ q, Unformed s q m → q = r) →
        ∃ t, exec (.peerLostTimeout m) s = .next t ∧ RecordFailed s t r ∧ t.lost = s.lost)) ∧
    (s.lost.contains m = false → m ≠ s.mgmt.modid → s.sharedGroups m ≠ [] → s.heardAt m + 1000000 ≤ s.clock → s.logArea 0 = none →
      ∃ t, exec (.peerLostTimeout m) s = .next t ∧ t.lost = s.lost ++ [m] ∧
        (∀ r ∈ s.sharedGroups m, t.readLe (0xA00100 + 64 * r + 56) 4 = (s.group r).lostm ||| 2 ^ (s.group r).position m ∧
          t.byte (groupFlags r) = s.byte (groupFlags r) ||| 4) ∧
        ((∀ g ∈ s.gangs, g.strong = []) → (∀ q ∈ s.out, q.kind = 5 → q.dst ≠ m) → ∀ e ∈ t.peerPending, e.dest ≠ m) ∧
        (∀ d ∈ t.deltas, d.msg.src ≠ m ∧ (d.dest = m → d.msg.src = s.mgmt.modid → d.held = true)) ∧
        ∀ id g e, s.gang id = some g → s.peerPending = [e] → e.org = .gang id → e.dest = m → g.strong = [] →
          (∀ q ∈ s.out, q.kind = 5 → q.dst ≠ m) → s.deltas = [] → s.tokens = [] → s.relays = [] →
          t.gang id = some { g with pendingAcks := g.pendingAcks - 1, lostStore := g.lostStore || e.prot })) ∧
  (∀ s : State, s.Quiet →
    (s.deaf = false → exec .selfFenceTimeout s = .next s) ∧
    (s.deaf = true → s.liveCtxs = [] → exec .selfFenceTimeout s
      = .next { s with tokens := [], relays := [], peerPending := [], mgmt := { s.mgmt with halted := true } }) ∧
    (s.deaf = true → ∃ t, exec .selfFenceTimeout s = .next t ∧ t.mgmt.halted = true ∧ (∀ c ∈ t.crews, c.ctx = 0) ∧ t.tokens = [] ∧
      t.relays = [] ∧ t.peerPending = []) ∧
    (s.deaf = true ↔ 500000 ≤ s.clock ∧ ∀ e ∈ s.heard, e.2 + 500000 ≤ s.clock))

/-- R410 to R413, R416, R417, R423 to R427: starts and the management block. A start runs its steps in order from step 1, with
nothing left of what ran; a failing warm start becomes a cold one, a failing cold start stops the module; step 4 clears memory, step
6 trains the enabled ports and takes the module id, step 7 ends with context 0 set up and the resident alone at its entry. Registers
take the writes that the state admits, and BAR0 reads as they stand. The digest and the signature check of an image are functions
that nothing fixes (log entry 124), what a warm start takes for a retained resident (log entry 23) is the model's reading, and the
order in which a report lists its parts (log entry 125) the model's choice. -/
def Obligations.StartsAndManagementBlock : Prop :=
  (∀ s : State, s.Quiet →
    (∃ t, exec .coldStart s = .next t ∧ Started1 s t 1) ∧
    (s.mgmt.ttrip = true → exec .warmStart s = .next s) ∧
    (s.mgmt.ttrip = false → ∃ t, exec .warmStart s = .next t ∧ Started1 s t 2 ∧ t.mgmt.fell = false ∧ t.mgmt.kept = false ∧
      ∀ r d, (r, d) ∈ t.mgmt.kept_groups ↔ r < 16 ∧ (s.group r).valid = true ∧ d = s.bytes (0xA00100 + 64 * r) 64) ∧
    (∃ t, exec .powerLoss s = .next t ∧ t.mgmt.state = 0 ∧ t.gangs = [] ∧ t.mem = [] ∧ t.mgmt.cfgModid = 0 ∧
      t.mgmt.porten = BitVec.allOnes 48 ∧ t.mgmt.groupCfg = [])) ∧
  (∀ (s : State) (off : Nat) (x : BitVec 64), s.Quiet →
    let m := s.mgmt
    let free : Prop := m.state = 0 ∨ m.state = 3
    (off % 8 ≠ 0 → exec (.registerWrite off x) s = .next s) ∧
    (off = 0x8 → field x 16 16 ≠ 0x5A17 → exec (.registerWrite off x) s = .next s) ∧
    (off = 0x8 → field x 16 16 = 0x5A17 → field x 0 2 ∈ [0, 3] → exec (.registerWrite off x) s
      = .next { s with mgmt := { m with rsrc := x.getLsbD 9, retain := x.getLsbD 8 } }) ∧
    (off = 0x8 → field x 16 16 = 0x5A17 → field x 0 2 = 1 → ∃ t, exec (.registerWrite off x) s = .next t ∧ Started1 s t 1 ∧
      t.mgmt.rsrc = x.getLsbD 9 ∧ t.mgmt.retain = x.getLsbD 8) ∧
    (off = 0x8 → field x 16 16 = 0x5A17 → field x 0 2 = 2 → m.ttrip = false → ∃ t, exec (.registerWrite off x) s = .next t ∧ Started1 s t 2 ∧
      t.mgmt.rsrc = x.getLsbD 9 ∧ t.mgmt.retain = x.getLsbD 8) ∧
    (off = 0x10 → free → exec (.registerWrite off x) s = .next { s with mgmt := { m with cfgModid := field x 48 9, porten := x.truncate 48 } }) ∧
    (off = 0x10 ∨ (0x800 ≤ off ∧ off < 0xC00) → ¬ free → exec (.registerWrite off x) s = .next s) ∧
    (0x800 ≤ off → off < 0xC00 → off % 8 = 0 → free → ∃ t, exec (.registerWrite off x) s = .next t ∧
      { t with mgmt := { t.mgmt with groupCfg := m.groupCfg } } = s ∧
      ∀ k, sget 0 t.mgmt.groupCfg k = if off - 0x800 ≤ k ∧ k < off - 0x800 + 8 then BitVec.ofNat 8 (field x (8 * (k - (off - 0x800))) 8)
        else sget 0 m.groupCfg k) ∧
    (0x100 ≤ off → off < 0x140 → off % 8 = 0 → m.attreq = false → m.nonce.length = 64 → ∃ t, exec (.registerWrite off x) s = .next t ∧
      { t with mgmt := { t.mgmt with nonce := m.nonce } } = s ∧ t.mgmt.nonce.length = 64 ∧
      ∀ k, k < 64 → nth 0 t.mgmt.nonce k = if off - 0x100 ≤ k ∧ k < off - 0x100 + 8 then BitVec.ofNat 8 (field x (8 * (k - (off - 0x100))) 8)
        else nth 0 m.nonce k) ∧
    (off ∉ [0x8, 0x10, 0x140] → (off < 0x100 ∨ 0x140 ≤ off) → (off < 0x800 ∨ 0xC00 ≤ off) → exec (.registerWrite off x) s = .next s) ∧
    (x = 1 → ∀ w ∈ [Instr.attreq x, .registerWrite 0x140 x], exec w s = .next { s with mgmt := { m with attreq := true } }) ∧
    (x ≠ 1 → ∀ w ∈ [Instr.attreq x, .registerWrite 0x140 x], exec w s = .next s)) ∧
  (∀ (s : State) (d : List Byte) (off : Nat), s.Quiet →
    (s.mgmt.attreq = false → exec (.attestationReport d) s = .next s) ∧
    (s.mgmt.attreq = true → let m := s.mgmt
      exec (.attestationReport d) s = .next { s with mgmt := { m with attreq := false, report :=
        (m.firmware ++ m.resident ++ m.fuses.flatten ++ leBytes 8 (m.porten.toNat + 2 ^ 48 * m.cfgModid) ++ m.nonce ++
          leBytes 8 m.starts ++ m.identity ++ m.certificate ++ d).take 8192 } }) ∧
    (0x4000000 < off + d.length → exec (.bootWindowWrite off d) s = .next s) ∧
    (off + d.length ≤ 0x4000000 → ∃ t, exec (.bootWindowWrite off d) s = .next t ∧
      { t with mgmt := { t.mgmt with bootWindow := s.mgmt.bootWindow } } = s ∧
      ∀ k, sget 0 t.mgmt.bootWindow k = if off ≤ k ∧ k < off + d.length then nth 0 d (k - off) else sget 0 s.mgmt.bootWindow k)) ∧
  (∀ m : Mgmt,
    barWord m 0x0 = (m.state + 2 ^ 16 * (if m.ttrip then 1 else 0) + 2 ^ 17 * (if m.halted then 1 else 0) + 2 ^ 24 * (if m.kept then 1 else 0) +
      2 ^ 25 * (if m.fell then 1 else 0) + 2 ^ 26 * m.kind + 2 ^ 28 * m.step + 2 ^ 32 * m.fail) % 2 ^ 64 ∧
    barWord m 0x8 = (if m.retain then 0x100 else 0) + (if m.rsrc then 0x200 else 0) ∧
    barWord m 0x10 = (m.porten.toNat + 2 ^ 48 * m.cfgModid) % 2 ^ 64 ∧ barWord m 0x140 = (if m.attreq then 1 else 0) ∧
    (∀ k, k < 64 → m.bar0 (0x100 + k) = nth 0 m.nonce k) ∧ (∀ k, k < 0x400 → m.bar0 (0x800 + k) = sget 0 m.groupCfg k) ∧
    (∀ k, k < 0x2000 → m.bar0 (0x1000 + k) = nth 0 m.report k) ∧ (∀ k, k < 0x4000000 → m.bar0 (0x4000000 + k) = sget 0 m.bootWindow k) ∧
    ∀ off, (0x18 ≤ off ∧ off < 0x100) ∨ (0x148 ≤ off ∧ off < 0x800) ∨ (0xC00 ≤ off ∧ off < 0x1000) ∨ (0x3000 ≤ off ∧ off < 0x4000000) →
      m.bar0 off = 0) ∧
  (∀ (s : State) (ok : Bool) (ports : BitVec 48), s.Quiet →
    (s.mgmt.state ≠ 1 → exec (.startStepComplete ok ports) s = .next s) ∧
    (s.mgmt.state = 1 → s.mgmt.step ≤ 5 → s.mgmt.kind = 1 → exec (.startStepComplete false ports) s
      = .next { s with mgmt := { s.mgmt with state := 3, fail := s.mgmt.step, step := 0 } }) ∧
    (s.mgmt.state = 1 → s.mgmt.step ≤ 5 → s.mgmt.kind = 2 → s.mgmt.fail = 0 → ∃ t, exec (.startStepComplete false ports) s = .next t ∧
      AtStep1 s t 1 ∧ t.mgmt.fell = true ∧ t.mgmt.kept = false) ∧
    (s.mgmt.state = 1 → s.mgmt.step = 1 ∨ s.mgmt.step = 3 ∨ (s.mgmt.step = 2 ∧ s.mgmt.kind = 2 ∧ s.mgmt.rsrc = true) →
      exec (.startStepComplete true ports) s = .next { s with mgmt := { s.mgmt with step := s.mgmt.step + 1 } }) ∧
    (s.mgmt.state = 1 → s.mgmt.step = 2 → s.mgmt.kind = 1 → s.bootImageOk = false → exec (.startStepComplete true ports) s
      = .next { s with mgmt := { s.mgmt with state := 3, fail := 2, step := 0 } }) ∧
    (s.mgmt.state = 1 → s.mgmt.step = 2 → s.mgmt.kind = 1 → s.bootImageOk = true → exec (.startStepComplete true ports) s
      = .next (if s.bootVerified = true then { s with mgmt := { s.mgmt with resident := s.bootBytes (s.bootLe 56 8 + 8) 64, step := 3 } }
        else { s with mgmt := { s.mgmt with state := 3, fail := 2, step := 0 } })) ∧
    (s.bootVerified = true ↔ let a := s.bootLe 56 8
      let slot := s.bootLe (a + 4) 4
      let key := s.bootBytes (a + 72) 1952
      a + 8192 ≤ 0x4000000 ∧ s.bootLe a 4 ≤ 0x4000000 ∧ 1 ≤ slot ∧ slot ≤ 4 ∧ Config.shake256 key = nth [] s.mgmt.fuses slot ∧
      Config.shake256 (s.bootBytes 0 (s.bootLe a 4)) = s.bootBytes (a + 8) 64 ∧
      Config.mlDsa65 key (s.bootBytes (a + 8) 64) (s.bootBytes (a + 2024) 3309) = true) ∧
    (s.mgmt.state = 1 → s.mgmt.step = 4 → s.mgmt.kind = 2 → s.mgmt.rsrc = true → s.mgmt.retain = false ∨ (∀ i ∈ s.images, i.ctx ≠ 0) →
      ∃ t, exec (.startStepComplete true ports) s = .next t ∧ t.mgmt.step = 1 ∧ t.mgmt.kind = 1 ∧ t.mgmt.state = 1 ∧ t.mgmt.fell = true ∧
        t.mgmt.kept = false) ∧
    (s.mgmt.state = 1 → s.mgmt.step = 4 → ¬(s.mgmt.kind = 2 ∧ s.mgmt.rsrc = true ∧ (s.mgmt.retain = false ∨ ∀ i ∈ s.images, i.ctx ≠ 0)) →
      ∃ t, exec (.startStepComplete true ports) s = .next t ∧ t.mgmt.step = 5 ∧
      (¬ (s.mgmt.kind = 2 ∧ s.mgmt.retain = true) → t.mem = [] ∧ t.poison = []) ∧
      (s.mgmt.kind = 2 → s.mgmt.retain = true → t.mgmt.kept = true ∧ ∀ a, t.byte a = if a < 0xE00000 then resetByte a else s.byte a)) ∧
    (s.mgmt.state = 1 → s.mgmt.step = 5 → exec (.startStepComplete true ports) s = .next { s with cores := [], mgmt := { s.mgmt with step := 6 } }) ∧
    (s.mgmt.state = 1 → s.mgmt.step = 6 → s.logArea 0 = none → ∃ t, exec (.startStepComplete ok ports) s = .next t ∧ t.mgmt.step = 7 ∧
      t.mgmt.modid = s.mgmt.cfgModid ∧ (∀ n, n < 48 → t.port n =
        { up := ports.getLsbD n && s.mgmt.porten.getLsbD n, trained := ports.getLsbD n && s.mgmt.porten.getLsbD n, peer := 0, retry := 0, acked := 0 })) ∧
    (s.mgmt.state = 1 → s.mgmt.step = 7 → s.mgmt.kind = 1 → s.rebuilds = [] →
      (∀ r, r < 16 → (s.byte (groupFlags r)).toNat % 2 = 0 ∨ (s.group r).valid = true) → s.bootImageOk = true →
      ∃ t g q, exec (.startStepComplete ok ports) s = .next t ∧ t.mgmt = { s.mgmt with state := 2, step := 0, kept_groups := [] } ∧ t.clock = 0 ∧
        t.gangs = [g] ∧ g.core = 2304 ∧ g.ctx = 0 ∧ g.split 0 = some q ∧ (∀ k, k ≠ 0 → g.split k = none) ∧ q.mask = BitVec.allOnes 32 ∧
        q.pc = BitVec.ofNat 64 (0x1000000 + s.bootLe (s.bootLe 24 8) 3) ∧ q.fmt = BitVec.ofNat 32 (s.bootLe 12 4) ∧ g.fst = 0 ∧
        (∀ n, g.sreg n = if n = 0 then BitVec.ofNat 64 s.mgmt.modid else if n = 1 then 1 else 0) ∧
        t.readLe 0 8 = 0x8000000000C00000 ∧ t.readLe 8 8 = 0x1000000 ∧ t.readLe 16 48 = 0 ∧ t.readLe 0xC00000 8 = 0xC01001 ∧
        t.readLe 0xC01000 8 = 0xC02001 ∧ t.readLe 0xC02000 8 = 0xC03001 ∧
        ∀ k, k < 128 → t.readLe (0xC03000 + 8 * k) 8 = (0x2FB + k * 2 ^ 21 + s.mgmt.modid * 2 ^ 51) % 2 ^ 64))


namespace Sys2Proof.Claims

/-! ### Words, steps and reset -/

/-- Words that the reference writes out beside their assembly text, and what they stand for. -/
noncomputable def workedWords : List (Word × Instr) :=
  [(0x04518700, .add 5 6 7), (0x04518715, .divS 5 6 7), (0x10900040, .ori 9 0 64), (0x08413FFC, .addi 4 4 16380),
   (0x30313008, .ld 3 4 3 0 8), (0x28423450, .addpc 4 144464), (0x2C580000, .addcb 5 524288), (0x3847000C, .bnez 7 12),
   (0x42802809, .braD 10 5 9), (0x47FFFFEB, .jmp 67108843), (0x4C450000, .jr 5), (0x4CC00002, .exit 2),
   (0x4D000250, .trap 37 0), (0x50CC5000, .barSync 3 5 0), (0x52070000, .cjoin 7), (0x52D40000, .crank 20),
   (0x54414600, .vfadd 4 5 6 0 0), (0x54414680, .vfadd 4 5 6 1 0), (0x5C70C030, .vfexp 7 3 0),
   (0x64204000, .vfrintNe 2 1 0), (0x64510340, .vfscale 5 4 3 0), (0x742240D1, .vcmpEqScalar 2 9 0 1),
   (0x80000090, .vlane 0 0), (0x8050C040, .vredZ32 5 3 0), (0x84226000, .pand 4 2 3), (0x88904F41, .vsel 9 1 15 4 1),
   (0x88A083B0, .rebal 10 2 3 0), (0x888106A1, .vkaddF32 8 4 6 1), (0x98410C21, .vatadd 4 4 6 0 1),
   (0xA0000180, .fenceAcq 3), (0xA0400080, .fenceRel 1), (0xA0C01400, .fenceSv 5), (0xA1060000, .fenceRemote 6),
   (0xA140000C, .qfence 3), (0xA1841400, .sealPages 4 5), (0xA1C41400, .unsealPages 4 5), (0xA2001C00, .drysync 7),
   (0xA4885000, .fpush 2 5 0), (0xA8886400, .copyChk 8 1 1 2 0 0 0), (0xAC100089, .mma 1 0 0 0 2 9),
   (0xAC0980C9, .mma 0 1 12 0 3 9), (0xACA00000, .mzero 2), (0xACC04009, .mdrain 0 0 4 9),
   (0xAD14C389, .mdrainT 1 1 12 14 9), (0xB008A000, .rfam 1 5), (0xB04A8620, .rprobe 1 20 12 16),
   (0xB0888300, .rins 1 4 6 0), (0xB1088300, .rmove 1 4 3 0), (0xB15038C0, .rgath 16 7 6), (0xB4051000, .watch 5 4),
   (0xB4890C01, .wstat 9 3 1), (0xB5401080, .rinit 4 2), (0xB8050100, .sysrd 5 16), (0xB8460120, .syswr 6 18),
   (0xB8A00000, .tretS), (0xB8C51060, .lease 5 4 6), (0xB9041400, .unlease 4 5), (0xBA040000, .wfe 4),
   (0xBA441400, .signal 4 5), (0xBA851000, .preempt 5 4), (0xBAC51060, .rbld 5 4 6), (0xFC400001, .hintOrd 1),
   (0xFC800003, .hintScope 3), (0xFD490000, .hintBnd 9), (0xFC1FE000, .hintImm 2088960)]

/-- The split k of gang g is the next to issue, at the word that its bytes in this module's own memory hold: its page grants the
fetch, no poison and no error lies there, and nothing was fetched ahead (R3, R25, R87, R104). -/
structure FetchesHere (s : State) (i : Issue) (p : Located) : Prop where
  issuer : s.issuer = some i
  ahead : i.sp.fetched = none
  aligned : i.sp.pc.toNat % 4 = 0
  page : (s.walked i.g.ctx i.sp.pc.toNat).wordAt i = some p
  own : p.ownDram s = true
  sound : s.poison = [] ∧ s.Faultless

/-- A half-line that was and still is under a rebuild's cut is not as it was (R403). -/
def WritesCut (s t : State) : Prop :=
  ∃ c ∈ s.cuts, c ∈ t.cuts ∧ ((∃ a, c.1 ≤ a ∧ a < c.1 + 64 ∧ t.byte a ≠ s.byte a) ∨ t.poisoned c.1 ≠ s.poisoned c.1)

/-- The little-endian word at four addresses from a on (R3, R25). -/
def wordHere (s : State) (a : Nat) : Word := s.byte (a + 3) ++ s.byte (a + 2) ++ s.byte (a + 1) ++ s.byte a

end Sys2Proof.Claims

/-- Decoding and encoding agree: the word of every legal instruction decodes to it, with every operand at every value that the
encoding has, and a word that decodes to an instruction is that instruction's word. An event of the module has no word. -/
def Obligations.WordsAndInstructionsAgree : Prop :=
  (∀ i : Instr, i.wellFormed = true → encodeNat i ≠ 0 → decodeWord (encodeWord i) = some i) ∧
  (∀ (w : Word) (i : Instr), decodeWord w = some i → encodeWord i = w ∧ i.wellFormed = true) ∧
  (∀ (e : Event) (w : Word), decodeWord w ≠ some e.toInstr)

/-- R26, R27, R29 to R31: words that the reference writes out decode to their instructions; a word of a reserved major is no
instruction, and a word that is none raises 0x01 where it stands. -/
def Obligations.WorkedWordsDecode : Prop :=
  (∀ p ∈ workedWords, decodeWord p.1 = some p.2) ∧
  (∀ w : Word, w.toNat / 2 ^ 26 ∈ [0x00, 0x23, 0x2F, 0x30, 0x31, 0x32, 0x33, 0x34, 0x35, 0x36, 0x37, 0x38, 0x39, 0x3A, 0x3B, 0x3C, 0x3D, 0x3E] → decodeWord w = none) ∧
  (∀ (s : State) (i : Issue) (w : Word), s.issuer = some i → decodeWord w = none →
    runWord s w = .next (s.takeCause i.g.id i.k 0x01 i.act 0).settle)

/-- R3, R25, R205, R371, R403: a step runs what it fetches. Where a split issues, the little-endian word at its pc decodes to an
instruction, and the step is that instruction; where an event happens, the step is the event. What would write a half-line under
the cut of a rebuild does not happen yet (the model's reading, log entry 64). A turn that is named and possible is taken, and is
used up. -/
def Obligations.AStepRunsWhatItFetches : Prop :=
  (∀ (s t u : State) (g k : Nat) (w : Word) (i : Instr), s.act = .issue g k t → t.fetchAt g k = .word u w → decodeWord w = some i →
    ((∀ r, exec i u = .next r → ¬ WritesCut u r) → step s = exec i u) ∧
    (∀ r, exec i u = .next r → WritesCut u r → step s = .next u)) ∧
  (∀ (s t : State) (e : Event), s.act = .event e t →
    ((∀ r, exec e.toInstr t = .next r → ¬ WritesCut t r) → step s = exec e.toInstr t) ∧
    (∀ r, exec e.toInstr t = .next r → WritesCut t r → step s = .next { t with agenda := t.agenda ++ [e] })) ∧
  (∀ s t : State, s.act = .idle t → step s = .next t) ∧
  (∀ (s : State) (i : Issue) (p : Located), FetchesHere { s with cur := (i.g.id, i.k) } i p →
    ∃ u, s.fetchAt i.g.id i.k = .word u (wordHere s (dpaLocal p.phys)) ∧ u.issuer = some i ∧ u.mem = s.mem ∧
      u.gangs = s.gangs ∧ u.crews = s.crews) ∧
  (∀ (s t : State) (ts : List Turn) (p : Nat) (stalled : List (Nat × Nat)) (c : Cand), s.turns = .issue p stalled :: ts →
    s.stoppedClocks = false → s.crowded = false → { s with turns := ts }.issuable p stalled = some (c, t) →
    s.act = .issue c.g.id c.k t ∧ { t with gangs := s.gangs, turns := s.turns } = s ∧ c.g ∈ s.gangs ∧ c.g.split c.k = some c.sp ∧
      c.g.pipe = p ∧ (c.g.id, c.k) ∉ stalled) ∧
  (∀ (s : State) (ts : List Turn) (e : Event), s.turns = .event e :: ts → s.stoppedClocks = false → s.crowded = false →
    { s with turns := ts }.mayEnter e = true → s.act = .event e { s with turns := ts })

/-- No step faults or is refused: whatever the state, there is a next one. -/
def Obligations.EveryStepEndsInANextState : Prop := ∀ s : State, ∃ t, step s = .next t

/-- Every step keeps memory in its canonical form. -/
def Obligations.EveryStepKeepsMemoryForm : Prop := ∀ s t : State, s.Inv → step s = .next t → t.Inv

/-- R198, R423, R424: what reset leaves. One split runs, on control core 0, with s0 = MODID and s1 the kind of the start, every
other register zero and CLOCK 0; no crew, task, watch, lease or transaction is there, and memory is in its canonical form. That the
firmware's entry offset is 0, and that module 0 was started cold, is the model's choice (log entries 20 and 21). -/
def Obligations.ResetState : Prop :=
  State.reset.Inv ∧ State.reset.clock = 0 ∧ State.reset.crews = [] ∧ State.reset.tasks = [] ∧ State.reset.watches = [] ∧
  State.reset.leases = [] ∧ State.reset.out = [] ∧ State.reset.hostOut = [] ∧ State.reset.mgmt.halted = false ∧
  (∀ a, State.reset.byte a = resetByte a) ∧
  ∃ g sp, State.reset.gangs = [g] ∧ g.core = 2304 ∧ g.ctx = 0 ∧ g.splits = [some sp, none, none, none] ∧
    sp.pc = BitVec.ofNat 64 (State.reset.ctxCb 0) ∧ sp.mask = BitVec.allOnes 32 ∧ sp.fmt = 0 ∧ sp.hm = false ∧
    (∀ n, g.sreg n = if n = 1 then 1 else 0) ∧ (∀ r l, g.vlane r l = 0) ∧ (∀ n, n ≠ 0 → g.preg n = 0) ∧ g.fst = 0
end

