-- ==== Sys2Proof/Laws/Bits.lean ====
section
/-! SUPPORT. Sparse arrays: what an entry reads as after another is written, and their canonical form. -/

namespace Sys2Proof.Machine

variable {α : Type}

theorem sget_sdel_self (d : α) (m : Store α) (k : Nat) : sget d (sdel m k) k = d := by
  induction m with
  | nil => rfl
  | cons e m ih =>
    unfold sdel at *
    by_cases h : e.1 = k
    · simpa [h] using ih
    · simpa [h, sget] using ih

theorem sget_sdel_of_ne (d : α) (m : Store α) {k j : Nat} (h : j ≠ k) : sget d (sdel m k) j = sget d m j := by
  induction m with
  | nil => rfl
  | cons e m ih =>
    unfold sdel at *
    by_cases hk : e.1 = k
    · have hj : e.1 ≠ j := by omega
      simpa [hk, sget, hj, h.symm] using ih
    · by_cases hj : e.1 = j
      · simp [sget, hj, h]
      · simpa [hk, sget, hj] using ih

theorem sget_sins (d : α) (k : Nat) (v : α) (m : Store α) (j : Nat) (h : ∀ e ∈ m, e.1 ≠ k) :
    sget d (sins k v m) j = if j = k then v else sget d m j := by
  induction m with
  | nil => simp [sins, sget, eq_comm]
  | cons e m ih =>
    have he := h e (by simp)
    have hm := ih (fun x hx => h x (by simp [hx]))
    by_cases hlt : k < e.1
    · simp [sins, hlt, sget, eq_comm]
    · simp only [sins, hlt, if_false, sget, hm]
      by_cases hj : j = k
      · simp [hj, he]
      · simp [hj]

theorem sdel_ne (m : Store α) (k : Nat) : ∀ e ∈ sdel m k, e.1 ≠ k := by
  intro e he
  simpa using (List.mem_filter.mp he).2

/-- Reading after a write: the key written holds the value, every other key what it held. -/
@[simp] theorem sget_sput [DecidableEq α] (d : α) (m : Store α) (k : Nat) (v : α) (j : Nat) :
    sget d (sput d m k v) j = if j = k then v else sget d m j := by
  unfold sput
  by_cases h : v = d
  · by_cases hj : j = k
    · simp [h, hj, sget_sdel_self]
    · simp [h, hj, sget_sdel_of_ne d m hj]
  · by_cases hj : j = k
    · simp [h, hj, sget_sins d k v _ _ (sdel_ne m k)]
    · simp [h, hj, sget_sins d k v _ _ (sdel_ne m k), sget_sdel_of_ne d m hj]

/-- Reading an entry under another default than it was written with, where the key's own default is given. -/
theorem sget_sput_at [DecidableEq α] (f : Nat → α) (m : Store α) (k : Nat) (v : α) (j : Nat) :
    sget (f j) (sput (f k) m k v) j = if j = k then v else sget (f j) m j := by
  by_cases hj : j = k
  · subst hj; simp
  · unfold sput
    by_cases h : v = f k
    · simp [h, hj, sget_sdel_of_ne (f j) m hj]
    · simp [h, hj, sget_sins (f j) k v _ _ (sdel_ne m k), sget_sdel_of_ne (f j) m hj]

/-- Keys strictly rising. -/
def Sorted (m : Store α) : Prop := m.Pairwise (fun a b => a.1 < b.1)

theorem Sorted.sdel {m : Store α} (h : Sorted m) (k : Nat) : Sorted (sdel m k) := List.Pairwise.filter _ h

theorem mem_sins {k : Nat} {v : α} {m : Store α} {e : Nat × α} (h : e ∈ sins k v m) : e = (k, v) ∨ e ∈ m := by
  induction m with
  | nil => simpa [sins] using h
  | cons a m ih =>
    unfold sins at h
    split at h
    · simpa using h
    · rcases List.mem_cons.mp h with rfl | h'
      · simp
      · rcases ih h' with h1 | h1 <;> simp [h1]

theorem Sorted.sins {m : Store α} (hs : Sorted m) (k : Nat) (v : α) (h : ∀ e ∈ m, e.1 ≠ k) : Sorted (sins k v m) := by
  induction m with
  | nil => simp [Machine.sins, Sorted]
  | cons a m ih =>
    have ha := List.pairwise_cons.mp hs
    unfold Machine.sins
    split
    · rename_i hlt
      refine List.pairwise_cons.mpr ⟨?_, hs⟩
      intro e he
      rcases List.mem_cons.mp he with rfl | he'
      · exact hlt
      · exact Nat.lt_trans hlt (ha.1 e he')
    · rename_i hlt
      refine List.pairwise_cons.mpr ⟨?_, ih ha.2 (fun e he => h e (by simp [he]))⟩
      intro e he
      have hk := h a (by simp)
      rcases mem_sins he with rfl | he'
      · show a.1 < k; omega
      · exact ha.1 e he'

/-- A store keeps its keys rising. -/
theorem Sorted.sput [DecidableEq α] {d : α} {m : Store α} (h : Sorted m) (k : Nat) (v : α) : Sorted (sput d m k v) := by
  unfold Machine.sput
  split
  · exact h.sdel k
  · exact (h.sdel k).sins k v (sdel_ne m k)

/-- An entry of a store after a write is the one written, and not the default, or one of before with another key. -/
theorem mem_sput [DecidableEq α] {d : α} {m : Store α} {k : Nat} {v : α} {e : Nat × α} (h : e ∈ sput d m k v) :
    (e = (k, v) ∧ v ≠ d) ∨ (e ∈ m ∧ e.1 ≠ k) := by
  unfold sput at h
  split at h
  · exact .inr ⟨(List.mem_filter.mp h).1, sdel_ne m k e h⟩
  · rename_i hv
    rcases mem_sins h with rfl | h'
    · exact .inl ⟨rfl, hv⟩
    · exact .inr ⟨(List.mem_filter.mp h').1, sdel_ne m k e h'⟩

/-! ### Lanes -/

@[simp] theorem mem_lanesOf (m : Mask) (l : Nat) : l ∈ lanesOf m ↔ m.getLsbD l = true := by
  simp only [lanesOf, List.mem_filter, List.mem_range]
  constructor
  · exact fun h => h.2
  · intro h
    refine ⟨?_, h⟩
    by_contra hl
    simp [BitVec.getLsbD_of_ge m l (by omega)] at h

theorem laneBit_getLsbD (l k : Nat) (hk : k < 32) : (laneBit l).getLsbD k = decide (k = l) := by
  simp only [laneBit, BitVec.getLsbD_ofNat, hk, decide_true, Bool.true_and, Nat.testBit_two_pow]
  exact decide_eq_decide.mpr eq_comm

end Sys2Proof.Machine
end

