-- ==== Sys2Proof/Laws/Decode.lean ====
section
/-! SUPPORT. Fields of encoded words: what was placed at a field is read there, and what lies beyond is read as it was. -/

namespace Sys2Proof

/-- The lowest field of an encoding is the one placed last. -/
@[simp] theorem fld_snoc_self {k : Nat} (hi : Nat) (x : BitVec k) : fld (snoc hi x) 0 k = x := by
  apply BitVec.eq_of_toNat_eq
  simp [fld, snoc, Nat.mod_eq_of_lt x.isLt]

/-- A field above the one placed last is a field of the bits above. -/
theorem fld_snoc_above {k : Nat} (hi : Nat) (x : BitVec k) (lo n : Nat) : fld (snoc hi x) (k + lo) n = fld hi lo n := by
  have h : snoc hi x >>> (k + lo) = hi >>> lo := by
    rw [Nat.shiftRight_add, snoc, Nat.shiftRight_eq_div_pow _ k, Nat.add_comm, Nat.add_mul_div_right _ _ (Nat.two_pow_pos k),
      Nat.div_eq_of_lt x.isLt, Nat.zero_add]
  rw [fld, fld, h]

/-- Reading the field at a position not below the last one placed: how far it lies above that one. -/
theorem fld_snoc {k : Nat} (hi : Nat) (x : BitVec k) (lo n : Nat) (h : k ≤ lo) : fld (snoc hi x) lo n = fld hi (lo - k) n := by
  obtain ⟨d, rfl⟩ := Nat.exists_eq_add_of_le h
  rw [fld_snoc_above, Nat.add_sub_cancel_left]

/-- A number is its low bits below its high bits. -/
theorem snoc_fld (n k : Nat) : snoc (n >>> k) (fld n 0 k) = n := by
  simp [snoc, fld, Nat.shiftRight_eq_div_pow, Nat.div_add_mod']

/-- The high bits of a number by the field above its low bits. -/
theorem shiftRight_eq_snoc (n lo k : Nat) : n >>> lo = snoc (n >>> (lo + k)) (fld n lo k) := by
  have h := snoc_fld (n >>> lo) k
  rw [← Nat.shiftRight_add] at h
  simpa [fld] using h.symm

end Sys2Proof
end

