-- ==== Sys2Proof/Laws/Exec.lean ====
section
/-! SUPPORT. One equation per instruction: what `exec` calls for it. -/

namespace Sys2Proof.Machine

@[simp] theorem exec_add x1 x2 x3 (s : State) : exec (.add x1 x2 x3) s = execAdd x1 x2 x3 s := rfl
@[simp] theorem exec_sub x1 x2 x3 (s : State) : exec (.sub x1 x2 x3) s = execSub x1 x2 x3 s := rfl
@[simp] theorem exec_and x1 x2 x3 (s : State) : exec (.and x1 x2 x3) s = execAnd x1 x2 x3 s := rfl
@[simp] theorem exec_or x1 x2 x3 (s : State) : exec (.or x1 x2 x3) s = execOr x1 x2 x3 s := rfl
@[simp] theorem exec_xor x1 x2 x3 (s : State) : exec (.xor x1 x2 x3) s = execXor x1 x2 x3 s := rfl
@[simp] theorem exec_andn x1 x2 x3 (s : State) : exec (.andn x1 x2 x3) s = execAndn x1 x2 x3 s := rfl
@[simp] theorem exec_sll x1 x2 x3 (s : State) : exec (.sll x1 x2 x3) s = execSll x1 x2 x3 s := rfl
@[simp] theorem exec_srl x1 x2 x3 (s : State) : exec (.srl x1 x2 x3) s = execSrl x1 x2 x3 s := rfl
@[simp] theorem exec_sra x1 x2 x3 (s : State) : exec (.sra x1 x2 x3) s = execSra x1 x2 x3 s := rfl
@[simp] theorem exec_rol x1 x2 x3 (s : State) : exec (.rol x1 x2 x3) s = execRol x1 x2 x3 s := rfl
@[simp] theorem exec_ror x1 x2 x3 (s : State) : exec (.ror x1 x2 x3) s = execRor x1 x2 x3 s := rfl
@[simp] theorem exec_slt x1 x2 x3 (s : State) : exec (.slt x1 x2 x3) s = execSlt x1 x2 x3 s := rfl
@[simp] theorem exec_sltz x1 x2 x3 (s : State) : exec (.sltz x1 x2 x3) s = execSltz x1 x2 x3 s := rfl
@[simp] theorem exec_seq x1 x2 x3 (s : State) : exec (.seq x1 x2 x3) s = execSeq x1 x2 x3 s := rfl
@[simp] theorem exec_minS x1 x2 x3 (s : State) : exec (.minS x1 x2 x3) s = execMinS x1 x2 x3 s := rfl
@[simp] theorem exec_maxS x1 x2 x3 (s : State) : exec (.maxS x1 x2 x3) s = execMaxS x1 x2 x3 s := rfl
@[simp] theorem exec_minZ x1 x2 x3 (s : State) : exec (.minZ x1 x2 x3) s = execMinZ x1 x2 x3 s := rfl
@[simp] theorem exec_maxZ x1 x2 x3 (s : State) : exec (.maxZ x1 x2 x3) s = execMaxZ x1 x2 x3 s := rfl
@[simp] theorem exec_mul x1 x2 x3 (s : State) : exec (.mul x1 x2 x3) s = execMul x1 x2 x3 s := rfl
@[simp] theorem exec_mulhS x1 x2 x3 (s : State) : exec (.mulhS x1 x2 x3) s = execMulhS x1 x2 x3 s := rfl
@[simp] theorem exec_mulhZ x1 x2 x3 (s : State) : exec (.mulhZ x1 x2 x3) s = execMulhZ x1 x2 x3 s := rfl
@[simp] theorem exec_divS x1 x2 x3 (s : State) : exec (.divS x1 x2 x3) s = execDivS x1 x2 x3 s := rfl
@[simp] theorem exec_divZ x1 x2 x3 (s : State) : exec (.divZ x1 x2 x3) s = execDivZ x1 x2 x3 s := rfl
@[simp] theorem exec_remS x1 x2 x3 (s : State) : exec (.remS x1 x2 x3) s = execRemS x1 x2 x3 s := rfl
@[simp] theorem exec_remZ x1 x2 x3 (s : State) : exec (.remZ x1 x2 x3) s = execRemZ x1 x2 x3 s := rfl
@[simp] theorem exec_clz x1 x2 (s : State) : exec (.clz x1 x2) s = execClz x1 x2 s := rfl
@[simp] theorem exec_ctz x1 x2 (s : State) : exec (.ctz x1 x2) s = execCtz x1 x2 s := rfl
@[simp] theorem exec_popc x1 x2 (s : State) : exec (.popc x1 x2) s = execPopc x1 x2 s := rfl
@[simp] theorem exec_brev x1 x2 (s : State) : exec (.brev x1 x2) s = execBrev x1 x2 s := rfl
@[simp] theorem exec_bswap x1 x2 (s : State) : exec (.bswap x1 x2) s = execBswap x1 x2 s := rfl
@[simp] theorem exec_sextS8 x1 x2 (s : State) : exec (.sextS8 x1 x2) s = execSextS8 x1 x2 s := rfl
@[simp] theorem exec_sextS16 x1 x2 (s : State) : exec (.sextS16 x1 x2) s = execSextS16 x1 x2 s := rfl
@[simp] theorem exec_sextS32 x1 x2 (s : State) : exec (.sextS32 x1 x2) s = execSextS32 x1 x2 s := rfl
@[simp] theorem exec_zextZ32 x1 x2 (s : State) : exec (.zextZ32 x1 x2) s = execZextZ32 x1 x2 s := rfl
@[simp] theorem exec_addW x1 x2 x3 (s : State) : exec (.addW x1 x2 x3) s = execAddW x1 x2 x3 s := rfl
@[simp] theorem exec_subW x1 x2 x3 (s : State) : exec (.subW x1 x2 x3) s = execSubW x1 x2 x3 s := rfl
@[simp] theorem exec_mulW x1 x2 x3 (s : State) : exec (.mulW x1 x2 x3) s = execMulW x1 x2 x3 s := rfl
@[simp] theorem exec_addi x1 x2 x3 (s : State) : exec (.addi x1 x2 x3) s = execAddi x1 x2 x3 s := rfl
@[simp] theorem exec_andi x1 x2 x3 (s : State) : exec (.andi x1 x2 x3) s = execAndi x1 x2 x3 s := rfl
@[simp] theorem exec_ori x1 x2 x3 (s : State) : exec (.ori x1 x2 x3) s = execOri x1 x2 x3 s := rfl
@[simp] theorem exec_xori x1 x2 x3 (s : State) : exec (.xori x1 x2 x3) s = execXori x1 x2 x3 s := rfl
@[simp] theorem exec_slti x1 x2 x3 (s : State) : exec (.slti x1 x2 x3) s = execSlti x1 x2 x3 s := rfl
@[simp] theorem exec_sltiz x1 x2 x3 (s : State) : exec (.sltiz x1 x2 x3) s = execSltiz x1 x2 x3 s := rfl
@[simp] theorem exec_slli x1 x2 x3 (s : State) : exec (.slli x1 x2 x3) s = execSlli x1 x2 x3 s := rfl
@[simp] theorem exec_srli x1 x2 x3 (s : State) : exec (.srli x1 x2 x3) s = execSrli x1 x2 x3 s := rfl
@[simp] theorem exec_srai x1 x2 x3 (s : State) : exec (.srai x1 x2 x3) s = execSrai x1 x2 x3 s := rfl
@[simp] theorem exec_rori x1 x2 x3 (s : State) : exec (.rori x1 x2 x3) s = execRori x1 x2 x3 s := rfl
@[simp] theorem exec_slliW x1 x2 x3 (s : State) : exec (.slliW x1 x2 x3) s = execSlliW x1 x2 x3 s := rfl
@[simp] theorem exec_srliW x1 x2 x3 (s : State) : exec (.srliW x1 x2 x3) s = execSrliW x1 x2 x3 s := rfl
@[simp] theorem exec_sraiW x1 x2 x3 (s : State) : exec (.sraiW x1 x2 x3) s = execSraiW x1 x2 x3 s := rfl
@[simp] theorem exec_roriW x1 x2 x3 (s : State) : exec (.roriW x1 x2 x3) s = execRoriW x1 x2 x3 s := rfl
@[simp] theorem exec_lui x1 x2 (s : State) : exec (.lui x1 x2) s = execLui x1 x2 s := rfl
@[simp] theorem exec_addpc x1 x2 (s : State) : exec (.addpc x1 x2) s = execAddpc x1 x2 s := rfl
@[simp] theorem exec_addcb x1 x2 (s : State) : exec (.addcb x1 x2) s = execAddcb x1 x2 s := rfl
@[simp] theorem exec_ld x1 x2 x3 x4 x5 (s : State) : exec (.ld x1 x2 x3 x4 x5) s = execLd x1 x2 x3 x4 x5 s := rfl
@[simp] theorem exec_st x1 x2 x3 x4 (s : State) : exec (.st x1 x2 x3 x4) s = execSt x1 x2 x3 x4 s := rfl
@[simp] theorem exec_beqz x1 x2 (s : State) : exec (.beqz x1 x2) s = execBeqz x1 x2 s := rfl
@[simp] theorem exec_bnez x1 x2 (s : State) : exec (.bnez x1 x2) s = execBnez x1 x2 s := rfl
@[simp] theorem exec_bltz x1 x2 (s : State) : exec (.bltz x1 x2) s = execBltz x1 x2 s := rfl
@[simp] theorem exec_bgez x1 x2 (s : State) : exec (.bgez x1 x2) s = execBgez x1 x2 s := rfl
@[simp] theorem exec_bgtz x1 x2 (s : State) : exec (.bgtz x1 x2) s = execBgtz x1 x2 s := rfl
@[simp] theorem exec_blez x1 x2 (s : State) : exec (.blez x1 x2) s = execBlez x1 x2 s := rfl
@[simp] theorem exec_bany x1 x2 (s : State) : exec (.bany x1 x2) s = execBany x1 x2 s := rfl
@[simp] theorem exec_ball x1 x2 (s : State) : exec (.ball x1 x2) s = execBall x1 x2 s := rfl
@[simp] theorem exec_bnone x1 x2 (s : State) : exec (.bnone x1 x2) s = execBnone x1 x2 s := rfl
@[simp] theorem exec_bnall x1 x2 (s : State) : exec (.bnall x1 x2) s = execBnall x1 x2 s := rfl
@[simp] theorem exec_braD x1 x2 x3 (s : State) : exec (.braD x1 x2 x3) s = execBraD x1 x2 x3 s := rfl
@[simp] theorem exec_jmp x1 (s : State) : exec (.jmp x1) s = execJmp x1 s := rfl
@[simp] theorem exec_call x1 (s : State) : exec (.call x1) s = execCall x1 s := rfl
@[simp] theorem exec_nop (s : State) : exec (.nop) s = execNop s := rfl
@[simp] theorem exec_jr x1 (s : State) : exec (.jr x1) s = execJr x1 s := rfl
@[simp] theorem exec_jrL x1 x2 (s : State) : exec (.jrL x1 x2) s = execJrL x1 x2 s := rfl
@[simp] theorem exec_ret (s : State) : exec (.ret) s = execRet s := rfl
@[simp] theorem exec_exit x1 (s : State) : exec (.exit x1) s = execExit x1 s := rfl
@[simp] theorem exec_trap x1 x2 (s : State) : exec (.trap x1 x2) s = execTrap x1 x2 s := rfl
@[simp] theorem exec_brk x1 (s : State) : exec (.brk x1) s = execBrk x1 s := rfl
@[simp] theorem exec_yield (s : State) : exec (.yield) s = execYield s := rfl
@[simp] theorem exec_setfmt x1 (s : State) : exec (.setfmt x1) s = execSetfmt x1 s := rfl
@[simp] theorem exec_getfmt x1 (s : State) : exec (.getfmt x1) s = execGetfmt x1 s := rfl
@[simp] theorem exec_safept x1 (s : State) : exec (.safept x1) s = execSafept x1 s := rfl
@[simp] theorem exec_barInit x1 x2 x3 (s : State) : exec (.barInit x1 x2 x3) s = execBarInit x1 x2 x3 s := rfl
@[simp] theorem exec_barArrive x1 x2 x3 (s : State) : exec (.barArrive x1 x2 x3) s = execBarArrive x1 x2 x3 s := rfl
@[simp] theorem exec_barWait x1 x2 (s : State) : exec (.barWait x1 x2) s = execBarWait x1 x2 s := rfl
@[simp] theorem exec_barSync x1 x2 x3 (s : State) : exec (.barSync x1 x2 x3) s = execBarSync x1 x2 x3 s := rfl
@[simp] theorem exec_barGen x1 x2 (s : State) : exec (.barGen x1 x2) s = execBarGen x1 x2 s := rfl
@[simp] theorem exec_barObs x1 (s : State) : exec (.barObs x1) s = execBarObs x1 s := rfl
@[simp] theorem exec_barDrop x1 (s : State) : exec (.barDrop x1) s = execBarDrop x1 s := rfl
@[simp] theorem exec_cjoin x1 (s : State) : exec (.cjoin x1) s = execCjoin x1 s := rfl
@[simp] theorem exec_cleave x1 (s : State) : exec (.cleave x1) s = execCleave x1 s := rfl
@[simp] theorem exec_cmask x1 (s : State) : exec (.cmask x1) s = execCmask x1 s := rfl
@[simp] theorem exec_crank x1 (s : State) : exec (.crank x1) s = execCrank x1 s := rfl
@[simp] theorem exec_vfadd x1 x2 x3 x4 x5 (s : State) : exec (.vfadd x1 x2 x3 x4 x5) s = execVfadd x1 x2 x3 x4 x5 s := rfl
@[simp] theorem exec_vfsub x1 x2 x3 x4 x5 (s : State) : exec (.vfsub x1 x2 x3 x4 x5) s = execVfsub x1 x2 x3 x4 x5 s := rfl
@[simp] theorem exec_vfmul x1 x2 x3 x4 x5 (s : State) : exec (.vfmul x1 x2 x3 x4 x5) s = execVfmul x1 x2 x3 x4 x5 s := rfl
@[simp] theorem exec_vfdiv x1 x2 x3 x4 x5 (s : State) : exec (.vfdiv x1 x2 x3 x4 x5) s = execVfdiv x1 x2 x3 x4 x5 s := rfl
@[simp] theorem exec_vfmin x1 x2 x3 x4 x5 (s : State) : exec (.vfmin x1 x2 x3 x4 x5) s = execVfmin x1 x2 x3 x4 x5 s := rfl
@[simp] theorem exec_vfmax x1 x2 x3 x4 x5 (s : State) : exec (.vfmax x1 x2 x3 x4 x5) s = execVfmax x1 x2 x3 x4 x5 s := rfl
@[simp] theorem exec_vfabs x1 x2 x3 x4 (s : State) : exec (.vfabs x1 x2 x3 x4) s = execVfabs x1 x2 x3 x4 s := rfl
@[simp] theorem exec_vfneg x1 x2 x3 x4 (s : State) : exec (.vfneg x1 x2 x3 x4) s = execVfneg x1 x2 x3 x4 s := rfl
@[simp] theorem exec_vffma x1 x2 x3 x4 x5 (s : State) : exec (.vffma x1 x2 x3 x4 x5) s = execVffma x1 x2 x3 x4 x5 s := rfl
@[simp] theorem exec_vffms x1 x2 x3 x4 x5 (s : State) : exec (.vffms x1 x2 x3 x4 x5) s = execVffms x1 x2 x3 x4 x5 s := rfl
@[simp] theorem exec_vfnma x1 x2 x3 x4 x5 (s : State) : exec (.vfnma x1 x2 x3 x4 x5) s = execVfnma x1 x2 x3 x4 x5 s := rfl
@[simp] theorem exec_vfnms x1 x2 x3 x4 x5 (s : State) : exec (.vfnms x1 x2 x3 x4 x5) s = execVfnms x1 x2 x3 x4 x5 s := rfl
@[simp] theorem exec_vfsqrt x1 x2 x3 (s : State) : exec (.vfsqrt x1 x2 x3) s = execVfsqrt x1 x2 x3 s := rfl
@[simp] theorem exec_vfrcp x1 x2 x3 (s : State) : exec (.vfrcp x1 x2 x3) s = execVfrcp x1 x2 x3 s := rfl
@[simp] theorem exec_vfrsq x1 x2 x3 (s : State) : exec (.vfrsq x1 x2 x3) s = execVfrsq x1 x2 x3 s := rfl
@[simp] theorem exec_vfexp x1 x2 x3 (s : State) : exec (.vfexp x1 x2 x3) s = execVfexp x1 x2 x3 s := rfl
@[simp] theorem exec_vflog2 x1 x2 x3 (s : State) : exec (.vflog2 x1 x2 x3) s = execVflog2 x1 x2 x3 s := rfl
@[simp] theorem exec_vfcmpEq x1 x2 x3 x4 (s : State) : exec (.vfcmpEq x1 x2 x3 x4) s = execVfcmpEq x1 x2 x3 x4 s := rfl
@[simp] theorem exec_vfcmpNe x1 x2 x3 x4 (s : State) : exec (.vfcmpNe x1 x2 x3 x4) s = execVfcmpNe x1 x2 x3 x4 s := rfl
@[simp] theorem exec_vfcmpLt x1 x2 x3 x4 (s : State) : exec (.vfcmpLt x1 x2 x3 x4) s = execVfcmpLt x1 x2 x3 x4 s := rfl
@[simp] theorem exec_vfcmpLe x1 x2 x3 x4 (s : State) : exec (.vfcmpLe x1 x2 x3 x4) s = execVfcmpLe x1 x2 x3 x4 s := rfl
@[simp] theorem exec_vfcmpGt x1 x2 x3 x4 (s : State) : exec (.vfcmpGt x1 x2 x3 x4) s = execVfcmpGt x1 x2 x3 x4 s := rfl
@[simp] theorem exec_vfcmpGe x1 x2 x3 x4 (s : State) : exec (.vfcmpGe x1 x2 x3 x4) s = execVfcmpGe x1 x2 x3 x4 s := rfl
@[simp] theorem exec_vfcmpUn x1 x2 x3 x4 (s : State) : exec (.vfcmpUn x1 x2 x3 x4) s = execVfcmpUn x1 x2 x3 x4 s := rfl
@[simp] theorem exec_vfcmpOrd x1 x2 x3 x4 (s : State) : exec (.vfcmpOrd x1 x2 x3 x4) s = execVfcmpOrd x1 x2 x3 x4 s := rfl
@[simp] theorem exec_vfrintNe x1 x2 x3 (s : State) : exec (.vfrintNe x1 x2 x3) s = execVfrintNe x1 x2 x3 s := rfl
@[simp] theorem exec_vfrintZ x1 x2 x3 (s : State) : exec (.vfrintZ x1 x2 x3) s = execVfrintZ x1 x2 x3 s := rfl
@[simp] theorem exec_vfrintDn x1 x2 x3 (s : State) : exec (.vfrintDn x1 x2 x3) s = execVfrintDn x1 x2 x3 s := rfl
@[simp] theorem exec_vfrintUp x1 x2 x3 (s : State) : exec (.vfrintUp x1 x2 x3) s = execVfrintUp x1 x2 x3 s := rfl
@[simp] theorem exec_vfscale x1 x2 x3 x4 (s : State) : exec (.vfscale x1 x2 x3 x4) s = execVfscale x1 x2 x3 x4 s := rfl
@[simp] theorem exec_vfrint x1 x2 x3 (s : State) : exec (.vfrint x1 x2 x3) s = execVfrint x1 x2 x3 s := rfl
@[simp] theorem exec_vcvtSF32 x1 x2 x3 x4 (s : State) : exec (.vcvtSF32 x1 x2 x3 x4) s = execVcvtSF32 x1 x2 x3 x4 s := rfl
@[simp] theorem exec_vcvtZF32 x1 x2 x3 x4 (s : State) : exec (.vcvtZF32 x1 x2 x3 x4) s = execVcvtZF32 x1 x2 x3 x4 s := rfl
@[simp] theorem exec_vcvtF32S x1 x2 x3 x4 (s : State) : exec (.vcvtF32S x1 x2 x3 x4) s = execVcvtF32S x1 x2 x3 x4 s := rfl
@[simp] theorem exec_vcvtF32Z x1 x2 x3 x4 (s : State) : exec (.vcvtF32Z x1 x2 x3 x4) s = execVcvtF32Z x1 x2 x3 x4 s := rfl
@[simp] theorem exec_vcvtNfF32 x1 x2 x3 x4 (s : State) : exec (.vcvtNfF32 x1 x2 x3 x4) s = execVcvtNfF32 x1 x2 x3 x4 s := rfl
@[simp] theorem exec_vcvtF32Nf x1 x2 x3 x4 (s : State) : exec (.vcvtF32Nf x1 x2 x3 x4) s = execVcvtF32Nf x1 x2 x3 x4 s := rfl
@[simp] theorem exec_vadd x1 x2 x3 x4 (s : State) : exec (.vadd x1 x2 x3 x4) s = execVadd x1 x2 x3 x4 s := rfl
@[simp] theorem exec_vsub x1 x2 x3 x4 (s : State) : exec (.vsub x1 x2 x3 x4) s = execVsub x1 x2 x3 x4 s := rfl
@[simp] theorem exec_vmul x1 x2 x3 x4 (s : State) : exec (.vmul x1 x2 x3 x4) s = execVmul x1 x2 x3 x4 s := rfl
@[simp] theorem exec_vmulhS32 x1 x2 x3 x4 (s : State) : exec (.vmulhS32 x1 x2 x3 x4) s = execVmulhS32 x1 x2 x3 x4 s := rfl
@[simp] theorem exec_vmulhZ32 x1 x2 x3 x4 (s : State) : exec (.vmulhZ32 x1 x2 x3 x4) s = execVmulhZ32 x1 x2 x3 x4 s := rfl
@[simp] theorem exec_vand x1 x2 x3 x4 (s : State) : exec (.vand x1 x2 x3 x4) s = execVand x1 x2 x3 x4 s := rfl
@[simp] theorem exec_vor x1 x2 x3 x4 (s : State) : exec (.vor x1 x2 x3 x4) s = execVor x1 x2 x3 x4 s := rfl
@[simp] theorem exec_vxor x1 x2 x3 x4 (s : State) : exec (.vxor x1 x2 x3 x4) s = execVxor x1 x2 x3 x4 s := rfl
@[simp] theorem exec_vsll x1 x2 x3 x4 (s : State) : exec (.vsll x1 x2 x3 x4) s = execVsll x1 x2 x3 x4 s := rfl
@[simp] theorem exec_vsrl x1 x2 x3 x4 (s : State) : exec (.vsrl x1 x2 x3 x4) s = execVsrl x1 x2 x3 x4 s := rfl
@[simp] theorem exec_vsra x1 x2 x3 x4 (s : State) : exec (.vsra x1 x2 x3 x4) s = execVsra x1 x2 x3 x4 s := rfl
@[simp] theorem exec_vminS32 x1 x2 x3 x4 (s : State) : exec (.vminS32 x1 x2 x3 x4) s = execVminS32 x1 x2 x3 x4 s := rfl
@[simp] theorem exec_vmaxS32 x1 x2 x3 x4 (s : State) : exec (.vmaxS32 x1 x2 x3 x4) s = execVmaxS32 x1 x2 x3 x4 s := rfl
@[simp] theorem exec_vminZ32 x1 x2 x3 x4 (s : State) : exec (.vminZ32 x1 x2 x3 x4) s = execVminZ32 x1 x2 x3 x4 s := rfl
@[simp] theorem exec_vmaxZ32 x1 x2 x3 x4 (s : State) : exec (.vmaxZ32 x1 x2 x3 x4) s = execVmaxZ32 x1 x2 x3 x4 s := rfl
@[simp] theorem exec_vaddsatS32 x1 x2 x3 x4 (s : State) : exec (.vaddsatS32 x1 x2 x3 x4) s = execVaddsatS32 x1 x2 x3 x4 s := rfl
@[simp] theorem exec_vcmpEqZ32 x1 x2 x3 x4 (s : State) : exec (.vcmpEqZ32 x1 x2 x3 x4) s = execVcmpEqZ32 x1 x2 x3 x4 s := rfl
@[simp] theorem exec_vcmpNeZ32 x1 x2 x3 x4 (s : State) : exec (.vcmpNeZ32 x1 x2 x3 x4) s = execVcmpNeZ32 x1 x2 x3 x4 s := rfl
@[simp] theorem exec_vcmpLtS32 x1 x2 x3 x4 (s : State) : exec (.vcmpLtS32 x1 x2 x3 x4) s = execVcmpLtS32 x1 x2 x3 x4 s := rfl
@[simp] theorem exec_vcmpLeS32 x1 x2 x3 x4 (s : State) : exec (.vcmpLeS32 x1 x2 x3 x4) s = execVcmpLeS32 x1 x2 x3 x4 s := rfl
@[simp] theorem exec_vcmpGtS32 x1 x2 x3 x4 (s : State) : exec (.vcmpGtS32 x1 x2 x3 x4) s = execVcmpGtS32 x1 x2 x3 x4 s := rfl
@[simp] theorem exec_vcmpGeS32 x1 x2 x3 x4 (s : State) : exec (.vcmpGeS32 x1 x2 x3 x4) s = execVcmpGeS32 x1 x2 x3 x4 s := rfl
@[simp] theorem exec_vcmpLtZ32 x1 x2 x3 x4 (s : State) : exec (.vcmpLtZ32 x1 x2 x3 x4) s = execVcmpLtZ32 x1 x2 x3 x4 s := rfl
@[simp] theorem exec_vcmpLeZ32 x1 x2 x3 x4 (s : State) : exec (.vcmpLeZ32 x1 x2 x3 x4) s = execVcmpLeZ32 x1 x2 x3 x4 s := rfl
@[simp] theorem exec_vcmpGtZ32 x1 x2 x3 x4 (s : State) : exec (.vcmpGtZ32 x1 x2 x3 x4) s = execVcmpGtZ32 x1 x2 x3 x4 s := rfl
@[simp] theorem exec_vcmpGeZ32 x1 x2 x3 x4 (s : State) : exec (.vcmpGeZ32 x1 x2 x3 x4) s = execVcmpGeZ32 x1 x2 x3 x4 s := rfl
@[simp] theorem exec_vtest x1 x2 x3 x4 (s : State) : exec (.vtest x1 x2 x3 x4) s = execVtest x1 x2 x3 x4 s := rfl
@[simp] theorem exec_vaddScalar x1 x2 x3 x4 (s : State) : exec (.vaddScalar x1 x2 x3 x4) s = execVaddScalar x1 x2 x3 x4 s := rfl
@[simp] theorem exec_vsubScalar x1 x2 x3 x4 (s : State) : exec (.vsubScalar x1 x2 x3 x4) s = execVsubScalar x1 x2 x3 x4 s := rfl
@[simp] theorem exec_vmulScalar x1 x2 x3 x4 (s : State) : exec (.vmulScalar x1 x2 x3 x4) s = execVmulScalar x1 x2 x3 x4 s := rfl
@[simp] theorem exec_vandScalar x1 x2 x3 x4 (s : State) : exec (.vandScalar x1 x2 x3 x4) s = execVandScalar x1 x2 x3 x4 s := rfl
@[simp] theorem exec_vorScalar x1 x2 x3 x4 (s : State) : exec (.vorScalar x1 x2 x3 x4) s = execVorScalar x1 x2 x3 x4 s := rfl
@[simp] theorem exec_vxorScalar x1 x2 x3 x4 (s : State) : exec (.vxorScalar x1 x2 x3 x4) s = execVxorScalar x1 x2 x3 x4 s := rfl
@[simp] theorem exec_vsllScalar x1 x2 x3 x4 (s : State) : exec (.vsllScalar x1 x2 x3 x4) s = execVsllScalar x1 x2 x3 x4 s := rfl
@[simp] theorem exec_vsrlScalar x1 x2 x3 x4 (s : State) : exec (.vsrlScalar x1 x2 x3 x4) s = execVsrlScalar x1 x2 x3 x4 s := rfl
@[simp] theorem exec_vsraScalar x1 x2 x3 x4 (s : State) : exec (.vsraScalar x1 x2 x3 x4) s = execVsraScalar x1 x2 x3 x4 s := rfl
@[simp] theorem exec_vfaddScalar x1 x2 x3 x4 (s : State) : exec (.vfaddScalar x1 x2 x3 x4) s = execVfaddScalar x1 x2 x3 x4 s := rfl
@[simp] theorem exec_vfmulScalar x1 x2 x3 x4 (s : State) : exec (.vfmulScalar x1 x2 x3 x4) s = execVfmulScalar x1 x2 x3 x4 s := rfl
@[simp] theorem exec_vffmaScalar x1 x2 x3 x4 (s : State) : exec (.vffmaScalar x1 x2 x3 x4) s = execVffmaScalar x1 x2 x3 x4 s := rfl
@[simp] theorem exec_vmovScalar x1 x2 x3 (s : State) : exec (.vmovScalar x1 x2 x3) s = execVmovScalar x1 x2 x3 s := rfl
@[simp] theorem exec_vcmpEqScalar x1 x2 x3 x4 (s : State) : exec (.vcmpEqScalar x1 x2 x3 x4) s = execVcmpEqScalar x1 x2 x3 x4 s := rfl
@[simp] theorem exec_vcmpLtS32Scalar x1 x2 x3 x4 (s : State) : exec (.vcmpLtS32Scalar x1 x2 x3 x4) s = execVcmpLtS32Scalar x1 x2 x3 x4 s := rfl
@[simp] theorem exec_vcmpLtZ32Scalar x1 x2 x3 x4 (s : State) : exec (.vcmpLtZ32Scalar x1 x2 x3 x4) s = execVcmpLtZ32Scalar x1 x2 x3 x4 s := rfl
@[simp] theorem exec_vaddImm x1 x2 x3 x4 (s : State) : exec (.vaddImm x1 x2 x3 x4) s = execVaddImm x1 x2 x3 x4 s := rfl
@[simp] theorem exec_vli x1 x2 x3 (s : State) : exec (.vli x1 x2 x3) s = execVli x1 x2 x3 s := rfl
@[simp] theorem exec_vperm x1 x2 x3 x4 (s : State) : exec (.vperm x1 x2 x3 x4) s = execVperm x1 x2 x3 x4 s := rfl
@[simp] theorem exec_vscanZ32 x1 x2 x3 (s : State) : exec (.vscanZ32 x1 x2 x3) s = execVscanZ32 x1 x2 x3 s := rfl
@[simp] theorem exec_vscanF32 x1 x2 x3 (s : State) : exec (.vscanF32 x1 x2 x3) s = execVscanF32 x1 x2 x3 s := rfl
@[simp] theorem exec_vscanxZ32 x1 x2 x3 (s : State) : exec (.vscanxZ32 x1 x2 x3) s = execVscanxZ32 x1 x2 x3 s := rfl
@[simp] theorem exec_vredZ32 x1 x2 x3 (s : State) : exec (.vredZ32 x1 x2 x3) s = execVredZ32 x1 x2 x3 s := rfl
@[simp] theorem exec_vredF32 x1 x2 x3 (s : State) : exec (.vredF32 x1 x2 x3) s = execVredF32 x1 x2 x3 s := rfl
@[simp] theorem exec_vsgn x1 x2 x3 (s : State) : exec (.vsgn x1 x2 x3) s = execVsgn x1 x2 x3 s := rfl
@[simp] theorem exec_vget x1 x2 x3 (s : State) : exec (.vget x1 x2 x3) s = execVget x1 x2 x3 s := rfl
@[simp] theorem exec_vins x1 x2 x3 x4 (s : State) : exec (.vins x1 x2 x3 x4) s = execVins x1 x2 x3 x4 s := rfl
@[simp] theorem exec_vlane x1 x2 (s : State) : exec (.vlane x1 x2) s = execVlane x1 x2 s := rfl
@[simp] theorem exec_vpopc x1 x2 x3 (s : State) : exec (.vpopc x1 x2 x3) s = execVpopc x1 x2 x3 s := rfl
@[simp] theorem exec_vclz x1 x2 x3 (s : State) : exec (.vclz x1 x2 x3) s = execVclz x1 x2 x3 s := rfl
@[simp] theorem exec_pand x1 x2 x3 (s : State) : exec (.pand x1 x2 x3) s = execPand x1 x2 x3 s := rfl
@[simp] theorem exec_por x1 x2 x3 (s : State) : exec (.por x1 x2 x3) s = execPor x1 x2 x3 s := rfl
@[simp] theorem exec_pxor x1 x2 x3 (s : State) : exec (.pxor x1 x2 x3) s = execPxor x1 x2 x3 s := rfl
@[simp] theorem exec_pandn x1 x2 x3 (s : State) : exec (.pandn x1 x2 x3) s = execPandn x1 x2 x3 s := rfl
@[simp] theorem exec_pnot x1 x2 (s : State) : exec (.pnot x1 x2) s = execPnot x1 x2 s := rfl
@[simp] theorem exec_pmov x1 x2 (s : State) : exec (.pmov x1 x2) s = execPmov x1 x2 s := rfl
@[simp] theorem exec_prd x1 x2 (s : State) : exec (.prd x1 x2) s = execPrd x1 x2 s := rfl
@[simp] theorem exec_pact x1 (s : State) : exec (.pact x1) s = execPact x1 s := rfl
@[simp] theorem exec_pcnt x1 x2 (s : State) : exec (.pcnt x1 x2) s = execPcnt x1 x2 s := rfl
@[simp] theorem exec_pfirst x1 x2 (s : State) : exec (.pfirst x1 x2) s = execPfirst x1 x2 s := rfl
@[simp] theorem exec_vsel x1 x2 x3 x4 x5 (s : State) : exec (.vsel x1 x2 x3 x4 x5) s = execVsel x1 x2 x3 x4 x5 s := rfl
@[simp] theorem exec_vconf x1 x2 x3 (s : State) : exec (.vconf x1 x2 x3) s = execVconf x1 x2 x3 s := rfl
@[simp] theorem exec_vkaddZ32 x1 x2 x3 x4 (s : State) : exec (.vkaddZ32 x1 x2 x3 x4) s = execVkaddZ32 x1 x2 x3 x4 s := rfl
@[simp] theorem exec_vkaddF32 x1 x2 x3 x4 (s : State) : exec (.vkaddF32 x1 x2 x3 x4) s = execVkaddF32 x1 x2 x3 x4 s := rfl
@[simp] theorem exec_rebal x1 x2 x3 x4 (s : State) : exec (.rebal x1 x2 x3 x4) s = execRebal x1 x2 x3 x4 s := rfl
@[simp] theorem exec_vld x1 x2 x3 x4 x5 x6 (s : State) : exec (.vld x1 x2 x3 x4 x5 x6) s = execVld x1 x2 x3 x4 x5 x6 s := rfl
@[simp] theorem exec_vst x1 x2 x3 x4 x5 x6 (s : State) : exec (.vst x1 x2 x3 x4 x5 x6) s = execVst x1 x2 x3 x4 x5 x6 s := rfl
@[simp] theorem exec_vatswap x1 x2 x3 x4 x5 (s : State) : exec (.vatswap x1 x2 x3 x4 x5) s = execVatswap x1 x2 x3 x4 x5 s := rfl
@[simp] theorem exec_vatcas x1 x2 x3 x4 x5 (s : State) : exec (.vatcas x1 x2 x3 x4 x5) s = execVatcas x1 x2 x3 x4 x5 s := rfl
@[simp] theorem exec_vatadd x1 x2 x3 x4 x5 (s : State) : exec (.vatadd x1 x2 x3 x4 x5) s = execVatadd x1 x2 x3 x4 x5 s := rfl
@[simp] theorem exec_vatand x1 x2 x3 x4 x5 (s : State) : exec (.vatand x1 x2 x3 x4 x5) s = execVatand x1 x2 x3 x4 x5 s := rfl
@[simp] theorem exec_vator x1 x2 x3 x4 x5 (s : State) : exec (.vator x1 x2 x3 x4 x5) s = execVator x1 x2 x3 x4 x5 s := rfl
@[simp] theorem exec_vatxor x1 x2 x3 x4 x5 (s : State) : exec (.vatxor x1 x2 x3 x4 x5) s = execVatxor x1 x2 x3 x4 x5 s := rfl
@[simp] theorem exec_vatsmin x1 x2 x3 x4 x5 (s : State) : exec (.vatsmin x1 x2 x3 x4 x5) s = execVatsmin x1 x2 x3 x4 x5 s := rfl
@[simp] theorem exec_vatsmax x1 x2 x3 x4 x5 (s : State) : exec (.vatsmax x1 x2 x3 x4 x5) s = execVatsmax x1 x2 x3 x4 x5 s := rfl
@[simp] theorem exec_vatumin x1 x2 x3 x4 x5 (s : State) : exec (.vatumin x1 x2 x3 x4 x5) s = execVatumin x1 x2 x3 x4 x5 s := rfl
@[simp] theorem exec_vatumax x1 x2 x3 x4 x5 (s : State) : exec (.vatumax x1 x2 x3 x4 x5) s = execVatumax x1 x2 x3 x4 x5 s := rfl
@[simp] theorem exec_vatfadd x1 x2 x3 x4 (s : State) : exec (.vatfadd x1 x2 x3 x4) s = execVatfadd x1 x2 x3 x4 s := rfl
@[simp] theorem exec_vatfxadd x1 x2 x3 x4 x5 (s : State) : exec (.vatfxadd x1 x2 x3 x4 x5) s = execVatfxadd x1 x2 x3 x4 x5 s := rfl
@[simp] theorem exec_vatfxaddS32 x1 x2 x3 x4 (s : State) : exec (.vatfxaddS32 x1 x2 x3 x4) s = execVatfxaddS32 x1 x2 x3 x4 s := rfl
@[simp] theorem exec_vatfxaddF16 x1 x2 x3 x4 (s : State) : exec (.vatfxaddF16 x1 x2 x3 x4) s = execVatfxaddF16 x1 x2 x3 x4 s := rfl
@[simp] theorem exec_vatfxaddBf16 x1 x2 x3 x4 (s : State) : exec (.vatfxaddBf16 x1 x2 x3 x4) s = execVatfxaddBf16 x1 x2 x3 x4 s := rfl
@[simp] theorem exec_atswap x1 x2 x3 (s : State) : exec (.atswap x1 x2 x3) s = execAtswap x1 x2 x3 s := rfl
@[simp] theorem exec_atcas x1 x2 x3 x4 (s : State) : exec (.atcas x1 x2 x3 x4) s = execAtcas x1 x2 x3 x4 s := rfl
@[simp] theorem exec_atadd x1 x2 x3 (s : State) : exec (.atadd x1 x2 x3) s = execAtadd x1 x2 x3 s := rfl
@[simp] theorem exec_atand x1 x2 x3 (s : State) : exec (.atand x1 x2 x3) s = execAtand x1 x2 x3 s := rfl
@[simp] theorem exec_ator x1 x2 x3 (s : State) : exec (.ator x1 x2 x3) s = execAtor x1 x2 x3 s := rfl
@[simp] theorem exec_atxor x1 x2 x3 (s : State) : exec (.atxor x1 x2 x3) s = execAtxor x1 x2 x3 s := rfl
@[simp] theorem exec_atsmin x1 x2 x3 (s : State) : exec (.atsmin x1 x2 x3) s = execAtsmin x1 x2 x3 s := rfl
@[simp] theorem exec_atsmax x1 x2 x3 (s : State) : exec (.atsmax x1 x2 x3) s = execAtsmax x1 x2 x3 s := rfl
@[simp] theorem exec_atumin x1 x2 x3 (s : State) : exec (.atumin x1 x2 x3) s = execAtumin x1 x2 x3 s := rfl
@[simp] theorem exec_atumax x1 x2 x3 (s : State) : exec (.atumax x1 x2 x3) s = execAtumax x1 x2 x3 s := rfl
@[simp] theorem exec_atfadd x1 x2 (s : State) : exec (.atfadd x1 x2) s = execAtfadd x1 x2 s := rfl
@[simp] theorem exec_atfxadd x1 x2 x3 (s : State) : exec (.atfxadd x1 x2 x3) s = execAtfxadd x1 x2 x3 s := rfl
@[simp] theorem exec_atfxaddS32 x1 x2 (s : State) : exec (.atfxaddS32 x1 x2) s = execAtfxaddS32 x1 x2 s := rfl
@[simp] theorem exec_atfxaddF16 x1 x2 (s : State) : exec (.atfxaddF16 x1 x2) s = execAtfxaddF16 x1 x2 s := rfl
@[simp] theorem exec_atfxaddBf16 x1 x2 (s : State) : exec (.atfxaddBf16 x1 x2) s = execAtfxaddBf16 x1 x2 s := rfl
@[simp] theorem exec_fenceAcq x1 (s : State) : exec (.fenceAcq x1) s = execFenceAcq x1 s := rfl
@[simp] theorem exec_fenceRel x1 (s : State) : exec (.fenceRel x1) s = execFenceRel x1 s := rfl
@[simp] theorem exec_fenceFull x1 (s : State) : exec (.fenceFull x1) s = execFenceFull x1 s := rfl
@[simp] theorem exec_fenceSv x1 (s : State) : exec (.fenceSv x1) s = execFenceSv x1 s := rfl
@[simp] theorem exec_fenceRemote x1 (s : State) : exec (.fenceRemote x1) s = execFenceRemote x1 s := rfl
@[simp] theorem exec_qfence x1 (s : State) : exec (.qfence x1) s = execQfence x1 s := rfl
@[simp] theorem exec_sealPages x1 x2 (s : State) : exec (.sealPages x1 x2) s = execSealPages x1 x2 s := rfl
@[simp] theorem exec_unsealPages x1 x2 (s : State) : exec (.unsealPages x1 x2) s = execUnsealPages x1 x2 s := rfl
@[simp] theorem exec_drysync x1 (s : State) : exec (.drysync x1) s = execDrysync x1 s := rfl
@[simp] theorem exec_pf x1 x2 (s : State) : exec (.pf x1 x2) s = execPf x1 x2 s := rfl
@[simp] theorem exec_vpf x1 x2 x3 (s : State) : exec (.vpf x1 x2 x3) s = execVpf x1 x2 x3 s := rfl
@[simp] theorem exec_fpush x1 x2 x3 (s : State) : exec (.fpush x1 x2 x3) s = execFpush x1 x2 x3 s := rfl
@[simp] theorem exec_fpop x1 x2 x3 (s : State) : exec (.fpop x1 x2 x3) s = execFpop x1 x2 x3 s := rfl
@[simp] theorem exec_copy x1 x2 x3 x4 x5 x6 x7 (s : State) : exec (.copy x1 x2 x3 x4 x5 x6 x7) s = execCopy x1 x2 x3 x4 x5 x6 x7 s := rfl
@[simp] theorem exec_copyAcc x1 x2 x3 x4 x5 x6 x7 (s : State) : exec (.copyAcc x1 x2 x3 x4 x5 x6 x7) s = execCopyAcc x1 x2 x3 x4 x5 x6 x7 s := rfl
@[simp] theorem exec_copyChk x1 x2 x3 x4 x5 x6 x7 (s : State) : exec (.copyChk x1 x2 x3 x4 x5 x6 x7) s = execCopyChk x1 x2 x3 x4 x5 x6 x7 s := rfl
@[simp] theorem exec_copyMc x1 x2 x3 x4 x5 x6 (s : State) : exec (.copyMc x1 x2 x3 x4 x5 x6) s = execCopyMc x1 x2 x3 x4 x5 x6 s := rfl
@[simp] theorem exec_mma x1 x2 x3 x4 x5 x6 (s : State) : exec (.mma x1 x2 x3 x4 x5 x6) s = execMma x1 x2 x3 x4 x5 x6 s := rfl
@[simp] theorem exec_mmaP x1 x2 x3 x4 x5 x6 (s : State) : exec (.mmaP x1 x2 x3 x4 x5 x6) s = execMmaP x1 x2 x3 x4 x5 x6 s := rfl
@[simp] theorem exec_mzero x1 (s : State) : exec (.mzero x1) s = execMzero x1 s := rfl
@[simp] theorem exec_mdrain x1 x2 x3 x4 (s : State) : exec (.mdrain x1 x2 x3 x4) s = execMdrain x1 x2 x3 x4 s := rfl
@[simp] theorem exec_mdrainT x1 x2 x3 x4 x5 (s : State) : exec (.mdrainT x1 x2 x3 x4 x5) s = execMdrainT x1 x2 x3 x4 x5 s := rfl
@[simp] theorem exec_mtake (s : State) : exec (.mtake) s = execMtake s := rfl
@[simp] theorem exec_mtakeF (s : State) : exec (.mtakeF) s = execMtakeF s := rfl
@[simp] theorem exec_mgive (s : State) : exec (.mgive) s = execMgive s := rfl
@[simp] theorem exec_zld x1 x2 x3 x4 (s : State) : exec (.zld x1 x2 x3 x4) s = execZld x1 x2 x3 x4 s := rfl
@[simp] theorem exec_zst x1 x2 x3 x4 (s : State) : exec (.zst x1 x2 x3 x4) s = execZst x1 x2 x3 x4 s := rfl
@[simp] theorem exec_rfam x1 x2 (s : State) : exec (.rfam x1 x2) s = execRfam x1 x2 s := rfl
@[simp] theorem exec_rprobe x1 x2 x3 x4 (s : State) : exec (.rprobe x1 x2 x3 x4) s = execRprobe x1 x2 x3 x4 s := rfl
@[simp] theorem exec_rins x1 x2 x3 x4 (s : State) : exec (.rins x1 x2 x3 x4) s = execRins x1 x2 x3 x4 s := rfl
@[simp] theorem exec_rdel x1 x2 x3 x4 (s : State) : exec (.rdel x1 x2 x3 x4) s = execRdel x1 x2 x3 x4 s := rfl
@[simp] theorem exec_rmove x1 x2 x3 x4 (s : State) : exec (.rmove x1 x2 x3 x4) s = execRmove x1 x2 x3 x4 s := rfl
@[simp] theorem exec_rgath x1 x2 x3 (s : State) : exec (.rgath x1 x2 x3) s = execRgath x1 x2 x3 s := rfl
@[simp] theorem exec_rstat x1 x2 x3 x4 (s : State) : exec (.rstat x1 x2 x3 x4) s = execRstat x1 x2 x3 x4 s := rfl
@[simp] theorem exec_watch x1 x2 (s : State) : exec (.watch x1 x2) s = execWatch x1 x2 s := rfl
@[simp] theorem exec_unwatch x1 x2 (s : State) : exec (.unwatch x1 x2) s = execUnwatch x1 x2 s := rfl
@[simp] theorem exec_wstat x1 x2 x3 (s : State) : exec (.wstat x1 x2 x3) s = execWstat x1 x2 x3 s := rfl
@[simp] theorem exec_qpost x1 x2 x3 (s : State) : exec (.qpost x1 x2 x3) s = execQpost x1 x2 x3 s := rfl
@[simp] theorem exec_claim x1 x2 (s : State) : exec (.claim x1 x2) s = execClaim x1 x2 s := rfl
@[simp] theorem exec_rinit x1 x2 (s : State) : exec (.rinit x1 x2) s = execRinit x1 x2 s := rfl
@[simp] theorem exec_sysrd x1 x2 (s : State) : exec (.sysrd x1 x2) s = execSysrd x1 x2 s := rfl
@[simp] theorem exec_syswr x1 x2 (s : State) : exec (.syswr x1 x2) s = execSyswr x1 x2 s := rfl
@[simp] theorem exec_tretR (s : State) : exec (.tretR) s = execTretR s := rfl
@[simp] theorem exec_tretS (s : State) : exec (.tretS) s = execTretS s := rfl
@[simp] theorem exec_lease x1 x2 x3 (s : State) : exec (.lease x1 x2 x3) s = execLease x1 x2 x3 s := rfl
@[simp] theorem exec_unlease x1 x2 (s : State) : exec (.unlease x1 x2) s = execUnlease x1 x2 s := rfl
@[simp] theorem exec_tlbinv x1 x2 (s : State) : exec (.tlbinv x1 x2) s = execTlbinv x1 x2 s := rfl
@[simp] theorem exec_ctxkill x1 x2 (s : State) : exec (.ctxkill x1 x2) s = execCtxkill x1 x2 s := rfl
@[simp] theorem exec_halt (s : State) : exec (.halt) s = execHalt s := rfl
@[simp] theorem exec_wfe x1 (s : State) : exec (.wfe x1) s = execWfe x1 s := rfl
@[simp] theorem exec_signal x1 x2 (s : State) : exec (.signal x1 x2) s = execSignal x1 x2 s := rfl
@[simp] theorem exec_preempt x1 x2 (s : State) : exec (.preempt x1 x2) s = execPreempt x1 x2 s := rfl
@[simp] theorem exec_rbld x1 x2 x3 (s : State) : exec (.rbld x1 x2 x3) s = execRbld x1 x2 x3 s := rfl
@[simp] theorem exec_hintImm x1 (s : State) : exec (.hintImm x1) s = execHintImm x1 s := rfl
@[simp] theorem exec_hintOrd x1 (s : State) : exec (.hintOrd x1) s = execHintOrd x1 s := rfl
@[simp] theorem exec_hintScope x1 (s : State) : exec (.hintScope x1) s = execHintScope x1 s := rfl
@[simp] theorem exec_hintCache x1 (s : State) : exec (.hintCache x1) s = execHintCache x1 s := rfl
@[simp] theorem exec_hintSched x1 (s : State) : exec (.hintSched x1) s = execHintSched x1 s := rfl
@[simp] theorem exec_hintBnd x1 (s : State) : exec (.hintBnd x1) s = execHintBnd x1 s := rfl
@[simp] theorem exec_joinArrival x1 x2 (s : State) : exec (.joinArrival x1 x2) s = execJoinArrival x1 x2 s := rfl
@[simp] theorem exec_reconvergenceRefill x1 x2 (s : State) : exec (.reconvergenceRefill x1 x2) s = execReconvergenceRefill x1 x2 s := rfl
@[simp] theorem exec_yieldExpiry x1 x2 (s : State) : exec (.yieldExpiry x1 x2) s = execYieldExpiry x1 x2 s := rfl
@[simp] theorem exec_tableWalk x1 x2 x3 (s : State) : exec (.tableWalk x1 x2 x3) s = execTableWalk x1 x2 x3 s := rfl
@[simp] theorem exec_loadComplete x1 (s : State) : exec (.loadComplete x1) s = execLoadComplete x1 s := rfl
@[simp] theorem exec_wcbIdleDrain x1 x2 (s : State) : exec (.wcbIdleDrain x1 x2) s = execWcbIdleDrain x1 x2 s := rfl
@[simp] theorem exec_sliceWriteCommit x1 (s : State) : exec (.sliceWriteCommit x1) s = execSliceWriteCommit x1 s := rfl
@[simp] theorem exec_sliceRead x1 x2 x3 (s : State) : exec (.sliceRead x1 x2 x3) s = execSliceRead x1 x2 x3 s := rfl
@[simp] theorem exec_watchCacheFill x1 x2 (s : State) : exec (.watchCacheFill x1 x2) s = execWatchCacheFill x1 x2 s := rfl
@[simp] theorem exec_spillRefill x1 x2 (s : State) : exec (.spillRefill x1 x2) s = execSpillRefill x1 x2 s := rfl
@[simp] theorem exec_nearSwap x1 (s : State) : exec (.nearSwap x1) s = execNearSwap x1 s := rfl
@[simp] theorem exec_nearCas x1 (s : State) : exec (.nearCas x1) s = execNearCas x1 s := rfl
@[simp] theorem exec_nearAdd x1 (s : State) : exec (.nearAdd x1) s = execNearAdd x1 s := rfl
@[simp] theorem exec_nearAnd x1 (s : State) : exec (.nearAnd x1) s = execNearAnd x1 s := rfl
@[simp] theorem exec_nearOr x1 (s : State) : exec (.nearOr x1) s = execNearOr x1 s := rfl
@[simp] theorem exec_nearXor x1 (s : State) : exec (.nearXor x1) s = execNearXor x1 s := rfl
@[simp] theorem exec_nearSmin x1 (s : State) : exec (.nearSmin x1) s = execNearSmin x1 s := rfl
@[simp] theorem exec_nearSmax x1 (s : State) : exec (.nearSmax x1) s = execNearSmax x1 s := rfl
@[simp] theorem exec_nearUmin x1 (s : State) : exec (.nearUmin x1) s = execNearUmin x1 s := rfl
@[simp] theorem exec_nearUmax x1 (s : State) : exec (.nearUmax x1) s = execNearUmax x1 s := rfl
@[simp] theorem exec_nearFadd x1 (s : State) : exec (.nearFadd x1) s = execNearFadd x1 s := rfl
@[simp] theorem exec_nearFxadd x1 (s : State) : exec (.nearFxadd x1) s = execNearFxadd x1 s := rfl
@[simp] theorem exec_nearClaim x1 (s : State) : exec (.nearClaim x1) s = execNearClaim x1 s := rfl
@[simp] theorem exec_nearRinit x1 (s : State) : exec (.nearRinit x1) s = execNearRinit x1 s := rfl
@[simp] theorem exec_insert x1 (s : State) : exec (.insert x1) s = execInsert x1 s := rfl
@[simp] theorem exec_delete x1 (s : State) : exec (.delete x1) s = execDelete x1 s := rfl
@[simp] theorem exec_bucketRead x1 x2 (s : State) : exec (.bucketRead x1 x2) s = execBucketRead x1 x2 s := rfl
@[simp] theorem exec_delta x1 (s : State) : exec (.delta x1) s = execDelta x1 s := rfl
@[simp] theorem exec_deltaAck x1 x2 (s : State) : exec (.deltaAck x1 x2) s = execDeltaAck x1 x2 s := rfl
@[simp] theorem exec_scrub x1 (s : State) : exec (.scrub x1) s = execScrub x1 s := rfl
@[simp] theorem exec_sweepPeriodExpiry x1 (s : State) : exec (.sweepPeriodExpiry x1) s = execSweepPeriodExpiry x1 s := rfl
@[simp] theorem exec_sliceStatusWrite x1 (s : State) : exec (.sliceStatusWrite x1) s = execSliceStatusWrite x1 s := rfl
@[simp] theorem exec_bankStatusWrite x1 x2 (s : State) : exec (.bankStatusWrite x1 x2) s = execBankStatusWrite x1 x2 s := rfl
@[simp] theorem exec_bankRoleChange x1 x2 (s : State) : exec (.bankRoleChange x1 x2) s = execBankRoleChange x1 x2 s := rfl
@[simp] theorem exec_bankReencode x1 x2 (s : State) : exec (.bankReencode x1 x2) s = execBankReencode x1 x2 s := rfl
@[simp] theorem exec_padFill x1 x2 (s : State) : exec (.padFill x1 x2) s = execPadFill x1 x2 s := rfl
@[simp] theorem exec_padEvacuate x1 x2 (s : State) : exec (.padEvacuate x1 x2) s = execPadEvacuate x1 x2 s := rfl
@[simp] theorem exec_copySliceAssemble x1 (s : State) : exec (.copySliceAssemble x1) s = execCopySliceAssemble x1 s := rfl
@[simp] theorem exec_collectiveStart x1 x2 (s : State) : exec (.collectiveStart x1 x2) s = execCollectiveStart x1 x2 s := rfl
@[simp] theorem exec_copyByteRead x1 (s : State) : exec (.copyByteRead x1) s = execCopyByteRead x1 s := rfl
@[simp] theorem exec_copyByteLanded x1 (s : State) : exec (.copyByteLanded x1) s = execCopyByteLanded x1 s := rfl
@[simp] theorem exec_trowelPass x1 (s : State) : exec (.trowelPass x1) s = execTrowelPass x1 s := rfl
@[simp] theorem exec_mmaStart x1 (s : State) : exec (.mmaStart x1) s = execMmaStart x1 s := rfl
@[simp] theorem exec_mmaRetire x1 (s : State) : exec (.mmaRetire x1) s = execMmaRetire x1 s := rfl
@[simp] theorem exec_mdrainStart x1 (s : State) : exec (.mdrainStart x1) s = execMdrainStart x1 s := rfl
@[simp] theorem exec_mdrainRetire x1 (s : State) : exec (.mdrainRetire x1) s = execMdrainRetire x1 s := rfl
@[simp] theorem exec_leaseEstablish x1 (s : State) : exec (.leaseEstablish x1) s = execLeaseEstablish x1 s := rfl
@[simp] theorem exec_faultRecordWrite (s : State) : exec (.faultRecordWrite) s = execFaultRecordWrite s := rfl
@[simp] theorem exec_hubConsider x1 (s : State) : exec (.hubConsider x1) s = execHubConsider x1 s := rfl
@[simp] theorem exec_taskAging x1 (s : State) : exec (.taskAging x1) s = execTaskAging x1 s := rfl
@[simp] theorem exec_coreReservation x1 (s : State) : exec (.coreReservation x1) s = execCoreReservation x1 s := rfl
@[simp] theorem exec_hubSpillRefill x1 (s : State) : exec (.hubSpillRefill x1) s = execHubSpillRefill x1 s := rfl
@[simp] theorem exec_detectorScan x1 (s : State) : exec (.detectorScan x1) s = execDetectorScan x1 s := rfl
@[simp] theorem exec_crewRestore x1 (s : State) : exec (.crewRestore x1) s = execCrewRestore x1 s := rfl
@[simp] theorem exec_preemptSaveDone x1 (s : State) : exec (.preemptSaveDone x1) s = execPreemptSaveDone x1 s := rfl
@[simp] theorem exec_forerunnerTimeout x1 (s : State) : exec (.forerunnerTimeout x1) s = execForerunnerTimeout x1 s := rfl
@[simp] theorem exec_skimVisit x1 (s : State) : exec (.skimVisit x1) s = execSkimVisit x1 s := rfl
@[simp] theorem exec_skimScanDone x1 x2 (s : State) : exec (.skimScanDone x1 x2) s = execSkimScanDone x1 x2 s := rfl
@[simp] theorem exec_rebuildStripe x1 x2 (s : State) : exec (.rebuildStripe x1 x2) s = execRebuildStripe x1 x2 s := rfl
@[simp] theorem exec_islctl x1 x2 (s : State) : exec (.islctl x1 x2) s = execIslctl x1 x2 s := rfl
@[simp] theorem exec_operatingPointChangeDone x1 (s : State) : exec (.operatingPointChangeDone x1) s = execOperatingPointChangeDone x1 s := rfl
@[simp] theorem exec_powerStepDown (s : State) : exec (.powerStepDown) s = execPowerStepDown s := rfl
@[simp] theorem exec_powerStepUp x1 (s : State) : exec (.powerStepUp x1) s = execPowerStepUp x1 s := rfl
@[simp] theorem exec_thermalStep x1 (s : State) : exec (.thermalStep x1) s = execThermalStep x1 s := rfl
@[simp] theorem exec_thermalRecover x1 (s : State) : exec (.thermalRecover x1) s = execThermalRecover x1 s := rfl
@[simp] theorem exec_thermalTrip (s : State) : exec (.thermalTrip) s = execThermalTrip s := rfl
@[simp] theorem exec_wfeTimeout x1 (s : State) : exec (.wfeTimeout x1) s = execWfeTimeout x1 s := rfl
@[simp] theorem exec_hostWrite x1 x2 x3 (s : State) : exec (.hostWrite x1 x2 x3) s = execHostWrite x1 x2 x3 s := rfl
@[simp] theorem exec_hostRead x1 x2 x3 (s : State) : exec (.hostRead x1 x2 x3) s = execHostRead x1 x2 x3 s := rfl
@[simp] theorem exec_hostSnoop x1 x2 (s : State) : exec (.hostSnoop x1 x2) s = execHostSnoop x1 x2 s := rfl
@[simp] theorem exec_hostAtomicCompletion x1 x2 (s : State) : exec (.hostAtomicCompletion x1 x2) s = execHostAtomicCompletion x1 x2 s := rfl
@[simp] theorem exec_read x1 (s : State) : exec (.read x1) s = execRead x1 s := rfl
@[simp] theorem exec_readData x1 (s : State) : exec (.readData x1) s = execReadData x1 s := rfl
@[simp] theorem exec_write x1 (s : State) : exec (.write x1) s = execWrite x1 s := rfl
@[simp] theorem exec_writeAck x1 (s : State) : exec (.writeAck x1) s = execWriteAck x1 s := rfl
@[simp] theorem exec_atomic x1 (s : State) : exec (.atomic x1) s = execAtomic x1 s := rfl
@[simp] theorem exec_atomicData x1 (s : State) : exec (.atomicData x1) s = execAtomicData x1 s := rfl
@[simp] theorem exec_leaseRecord x1 (s : State) : exec (.leaseRecord x1) s = execLeaseRecord x1 s := rfl
@[simp] theorem exec_leaseReply x1 x2 (s : State) : exec (.leaseReply x1 x2) s = execLeaseReply x1 x2 s := rfl
@[simp] theorem exec_rebuildQuery x1 (s : State) : exec (.rebuildQuery x1) s = execRebuildQuery x1 s := rfl
@[simp] theorem exec_rebuildAnswer x1 (s : State) : exec (.rebuildAnswer x1) s = execRebuildAnswer x1 s := rfl
@[simp] theorem exec_drainToken x1 (s : State) : exec (.drainToken x1) s = execDrainToken x1 s := rfl
@[simp] theorem exec_tokenReturn x1 (s : State) : exec (.tokenReturn x1) s = execTokenReturn x1 s := rfl
@[simp] theorem exec_groupExchange x1 (s : State) : exec (.groupExchange x1) s = execGroupExchange x1 s := rfl
@[simp] theorem exec_heartbeat x1 x2 (s : State) : exec (.heartbeat x1 x2) s = execHeartbeat x1 x2 s := rfl
@[simp] theorem exec_reservedPacketKind x1 x2 (s : State) : exec (.reservedPacketKind x1 x2) s = execReservedPacketKind x1 x2 s := rfl
@[simp] theorem exec_heartbeatTimer (s : State) : exec (.heartbeatTimer) s = execHeartbeatTimer s := rfl
@[simp] theorem exec_flitRetransmit x1 (s : State) : exec (.flitRetransmit x1) s = execFlitRetransmit x1 s := rfl
@[simp] theorem exec_portDown x1 (s : State) : exec (.portDown x1) s = execPortDown x1 s := rfl
@[simp] theorem exec_peerLostTimeout x1 (s : State) : exec (.peerLostTimeout x1) s = execPeerLostTimeout x1 s := rfl
@[simp] theorem exec_selfFenceTimeout (s : State) : exec (.selfFenceTimeout) s = execSelfFenceTimeout s := rfl
@[simp] theorem exec_coldStart (s : State) : exec (.coldStart) s = execColdStart s := rfl
@[simp] theorem exec_warmStart (s : State) : exec (.warmStart) s = execWarmStart s := rfl
@[simp] theorem exec_attreq x1 (s : State) : exec (.attreq x1) s = execAttreq x1 s := rfl
@[simp] theorem exec_registerWrite x1 x2 (s : State) : exec (.registerWrite x1 x2) s = execRegisterWrite x1 x2 s := rfl
@[simp] theorem exec_clusterTlbHit x1 x2 x3 (s : State) : exec (.clusterTlbHit x1 x2 x3) s = execClusterTlbHit x1 x2 x3 s := rfl
@[simp] theorem exec_mzeroRetire x1 (s : State) : exec (.mzeroRetire x1) s = execMzeroRetire x1 s := rfl
@[simp] theorem exec_tilePortRetire x1 (s : State) : exec (.tilePortRetire x1) s = execTilePortRetire x1 s := rfl
@[simp] theorem exec_hostWriteCompletion x1 (s : State) : exec (.hostWriteCompletion x1) s = execHostWriteCompletion x1 s := rfl
@[simp] theorem exec_cxlCacheOwnership x1 x2 (s : State) : exec (.cxlCacheOwnership x1 x2) s = execCxlCacheOwnership x1 x2 s := rfl
@[simp] theorem exec_hostLinkTraining x1 x2 x3 (s : State) : exec (.hostLinkTraining x1 x2 x3) s = execHostLinkTraining x1 x2 x3 s := rfl
@[simp] theorem exec_bootWindowWrite x1 x2 (s : State) : exec (.bootWindowWrite x1 x2) s = execBootWindowWrite x1 x2 s := rfl
@[simp] theorem exec_attestationReport x1 (s : State) : exec (.attestationReport x1) s = execAttestationReport x1 s := rfl
@[simp] theorem exec_startStepComplete x1 x2 (s : State) : exec (.startStepComplete x1 x2) s = execStartStepComplete x1 x2 s := rfl
@[simp] theorem exec_powerLoss (s : State) : exec (.powerLoss) s = execPowerLoss s := rfl

end Sys2Proof.Machine
end

