-- ==== Sys2Proof/Laws/Memory.lean ====
section
/-! SUPPORT. The module's memory: reading after a write, and the canonical form that every write of bytes keeps. -/

namespace Sys2Proof.Machine

/-- A byte read after one is written. -/
@[simp] theorem byte_setByte (s : State) (a : Nat) (v : Byte) (b : Nat) :
    (s.setByte a v).byte b = if b = a then v else s.byte b := by
  simp only [State.byte, State.setByte]
  exact sget_sput_at resetByte s.mem a v b

theorem wf_iff (m : List Host.Cell) : Memory.wf m = true ↔ Sorted m ∧ ∀ c ∈ m, c.2 ≠ resetByte c.1 := by
  simp [Memory.wf, Sorted, List.all_eq_true]

/-- One byte written keeps the canonical form. -/
theorem wf_setByte {s : State} (h : Memory.wf s.mem = true) (a : Nat) (v : Byte) : Memory.wf (s.setByte a v).mem = true := by
  rw [wf_iff] at *
  refine ⟨h.1.sput a v, ?_⟩
  intro c hc
  rcases mem_sput hc with ⟨rfl, hv⟩ | ⟨hm, _⟩
  · exact hv
  · exact h.2 c hm

/-- Bytes written keep the canonical form. -/
theorem wf_setCells (cells : List (Nat × Byte)) {s : State} (h : Memory.wf s.mem = true) :
    Memory.wf (s.setCells cells).mem = true := by
  induction cells generalizing s with
  | nil => exact h
  | cons c cs ih => exact ih (wf_setByte h c.1 c.2)

/-- A memory without some addresses is canonical. -/
theorem wf_filter {m : List Host.Cell} (h : Memory.wf m = true) (p : Host.Cell → Bool) : Memory.wf (m.filter p) = true := by
  rw [wf_iff] at *
  exact ⟨List.Pairwise.filter _ h.1, fun c hc => h.2 c (List.mem_filter.mp hc).1⟩

/-- A byte that no cell names reads as before. -/
theorem byte_setCells_of_not_mem (cells : List (Nat × Byte)) (s : State) (b : Nat) (h : ∀ c ∈ cells, c.1 ≠ b) :
    (s.setCells cells).byte b = s.byte b := by
  induction cells generalizing s with
  | nil => rfl
  | cons c cs ih =>
    have hc : b ≠ c.1 := fun e => h c (by simp) e.symm
    have := ih (s.setByte c.1 c.2) (fun x hx => h x (by simp [hx]))
    simpa [State.setCells, hc] using this

/-- Cells of distinct addresses read as written. -/
theorem byte_setCells_of_mem (cells : List (Nat × Byte)) (s : State) (c : Nat × Byte)
    (hd : cells.Pairwise (fun x y => x.1 ≠ y.1)) (h : c ∈ cells) : (s.setCells cells).byte c.1 = c.2 := by
  induction cells generalizing s with
  | nil => cases h
  | cons x xs ih =>
    have hx := List.pairwise_cons.mp hd
    rcases List.mem_cons.mp h with rfl | h'
    · have := byte_setCells_of_not_mem xs (s.setByte c.1 c.2) c.1 (fun y hy e => hx.1 y hy e.symm)
      simpa [State.setCells] using this
    · exact ih (s.setByte x.1 x.2) hx.2 h'

/-- Nothing but memory changes as bytes are written. -/
theorem setCells_eq (cells : List (Nat × Byte)) (s : State) : s.setCells cells = { s with mem := (s.setCells cells).mem } := by
  induction cells generalizing s with
  | nil => rfl
  | cons c cs ih =>
    have h := ih (s.setByte c.1 c.2)
    simp only [State.setCells, List.foldl_cons] at *
    rw [h]
    rfl

end Sys2Proof.Machine
end

