-- ==== Sys2Proof/Laws/State.lean ====
section
/-! SUPPORT. One lemma per field and update of the state: what an update does not name it leaves as it was. -/

namespace Sys2Proof.Machine

variable (s : State)

/-! ### updGang -/

@[simp] theorem updGang_mem (id : Nat) (f : Gang → Gang) : (s.updGang id f).mem = s.mem := rfl
@[simp] theorem updGang_poison (id : Nat) (f : Gang → Gang) : (s.updGang id f).poison = s.poison := rfl
@[simp] theorem updGang_errors (id : Nat) (f : Gang → Gang) : (s.updGang id f).errors = s.errors := rfl
@[simp] theorem updGang_sram (id : Nat) (f : Gang → Gang) : (s.updGang id f).sram = s.sram := rfl
@[simp] theorem updGang_sramFlaws (id : Nat) (f : Gang → Gang) : (s.updGang id f).sramFlaws = s.sramFlaws := rfl
@[simp] theorem updGang_cur (id : Nat) (f : Gang → Gang) : (s.updGang id f).cur = s.cur := rfl
@[simp] theorem updGang_crews (id : Nat) (f : Gang → Gang) : (s.updGang id f).crews = s.crews := rfl
@[simp] theorem updGang_leases (id : Nat) (f : Gang → Gang) : (s.updGang id f).leases = s.leases := rfl
@[simp] theorem updGang_cores (id : Nat) (f : Gang → Gang) : (s.updGang id f).cores = s.cores := rfl
@[simp] theorem updGang_banks (id : Nat) (f : Gang → Gang) : (s.updGang id f).banks = s.banks := rfl
@[simp] theorem updGang_l1 (id : Nat) (f : Gang → Gang) : (s.updGang id f).l1 = s.l1 := rfl
@[simp] theorem updGang_tlb (id : Nat) (f : Gang → Gang) : (s.updGang id f).tlb = s.tlb := rfl
@[simp] theorem updGang_ptrs (id : Nat) (f : Gang → Gang) : (s.updGang id f).ptrs = s.ptrs := rfl
@[simp] theorem updGang_slices (id : Nat) (f : Gang → Gang) : (s.updGang id f).slices = s.slices := rfl
@[simp] theorem updGang_queues (id : Nat) (f : Gang → Gang) : (s.updGang id f).queues = s.queues := rfl
@[simp] theorem updGang_pinned (id : Nat) (f : Gang → Gang) : (s.updGang id f).pinned = s.pinned := rfl
@[simp] theorem updGang_standing (id : Nat) (f : Gang → Gang) : (s.updGang id f).standing = s.standing := rfl
@[simp] theorem updGang_tasks (id : Nat) (f : Gang → Gang) : (s.updGang id f).tasks = s.tasks := rfl
@[simp] theorem updGang_hubs (id : Nat) (f : Gang → Gang) : (s.updGang id f).hubs = s.hubs := rfl
@[simp] theorem updGang_watches (id : Nat) (f : Gang → Gang) : (s.updGang id f).watches = s.watches := rfl
@[simp] theorem updGang_pending (id : Nat) (f : Gang → Gang) : (s.updGang id f).pending = s.pending := rfl
@[simp] theorem updGang_watchCache (id : Nat) (f : Gang → Gang) : (s.updGang id f).watchCache = s.watchCache := rfl
@[simp] theorem updGang_hashes (id : Nat) (f : Gang → Gang) : (s.updGang id f).hashes = s.hashes := rfl
@[simp] theorem updGang_retr (id : Nat) (f : Gang → Gang) : (s.updGang id f).retr = s.retr := rfl
@[simp] theorem updGang_probes (id : Nat) (f : Gang → Gang) : (s.updGang id f).probes = s.probes := rfl
@[simp] theorem updGang_raises (id : Nat) (f : Gang → Gang) : (s.updGang id f).raises = s.raises := rfl
@[simp] theorem updGang_colls (id : Nat) (f : Gang → Gang) : (s.updGang id f).colls = s.colls := rfl
@[simp] theorem updGang_loads (id : Nat) (f : Gang → Gang) : (s.updGang id f).loads = s.loads := rfl
@[simp] theorem updGang_replies (id : Nat) (f : Gang → Gang) : (s.updGang id f).replies = s.replies := rfl
@[simp] theorem updGang_deltas (id : Nat) (f : Gang → Gang) : (s.updGang id f).deltas = s.deltas := rfl
@[simp] theorem updGang_out (id : Nat) (f : Gang → Gang) : (s.updGang id f).out = s.out := rfl
@[simp] theorem updGang_hostOut (id : Nat) (f : Gang → Gang) : (s.updGang id f).hostOut = s.hostOut := rfl
@[simp] theorem updGang_hostAtomics (id : Nat) (f : Gang → Gang) : (s.updGang id f).hostAtomics = s.hostAtomics := rfl
@[simp] theorem updGang_agentCache (id : Nat) (f : Gang → Gang) : (s.updGang id f).agentCache = s.agentCache := rfl
@[simp] theorem updGang_peerPending (id : Nat) (f : Gang → Gang) : (s.updGang id f).peerPending = s.peerPending := rfl
@[simp] theorem updGang_ports (id : Nat) (f : Gang → Gang) : (s.updGang id f).ports = s.ports := rfl
@[simp] theorem updGang_lost (id : Nat) (f : Gang → Gang) : (s.updGang id f).lost = s.lost := rfl
@[simp] theorem updGang_faultRecs (id : Nat) (f : Gang → Gang) : (s.updGang id f).faultRecs = s.faultRecs := rfl
@[simp] theorem updGang_logQueue (id : Nat) (f : Gang → Gang) : (s.updGang id f).logQueue = s.logQueue := rfl
@[simp] theorem updGang_lfqIndex (id : Nat) (f : Gang → Gang) : (s.updGang id f).lfqIndex = s.lfqIndex := rfl
@[simp] theorem updGang_rebuilds (id : Nat) (f : Gang → Gang) : (s.updGang id f).rebuilds = s.rebuilds := rfl
@[simp] theorem updGang_images (id : Nat) (f : Gang → Gang) : (s.updGang id f).images = s.images := rfl
@[simp] theorem updGang_islands (id : Nat) (f : Gang → Gang) : (s.updGang id f).islands = s.islands := rfl
@[simp] theorem updGang_power (id : Nat) (f : Gang → Gang) : (s.updGang id f).power = s.power := rfl
@[simp] theorem updGang_eventFlags (id : Nat) (f : Gang → Gang) : (s.updGang id f).eventFlags = s.eventFlags := rfl
@[simp] theorem updGang_suspects (id : Nat) (f : Gang → Gang) : (s.updGang id f).suspects = s.suspects := rfl
@[simp] theorem updGang_tokens (id : Nat) (f : Gang → Gang) : (s.updGang id f).tokens = s.tokens := rfl
@[simp] theorem updGang_relays (id : Nat) (f : Gang → Gang) : (s.updGang id f).relays = s.relays := rfl
@[simp] theorem updGang_agreed (id : Nat) (f : Gang → Gang) : (s.updGang id f).agreed = s.agreed := rfl
@[simp] theorem updGang_cuts (id : Nat) (f : Gang → Gang) : (s.updGang id f).cuts = s.cuts := rfl
@[simp] theorem updGang_rebuilt (id : Nat) (f : Gang → Gang) : (s.updGang id f).rebuilt = s.rebuilt := rfl
@[simp] theorem updGang_started (id : Nat) (f : Gang → Gang) : (s.updGang id f).started = s.started := rfl
@[simp] theorem updGang_heard (id : Nat) (f : Gang → Gang) : (s.updGang id f).heard = s.heard := rfl
@[simp] theorem updGang_mgmt (id : Nat) (f : Gang → Gang) : (s.updGang id f).mgmt = s.mgmt := rfl
@[simp] theorem updGang_clock (id : Nat) (f : Gang → Gang) : (s.updGang id f).clock = s.clock := rfl
@[simp] theorem updGang_agenda (id : Nat) (f : Gang → Gang) : (s.updGang id f).agenda = s.agenda := rfl
@[simp] theorem updGang_turns (id : Nat) (f : Gang → Gang) : (s.updGang id f).turns = s.turns := rfl
@[simp] theorem updGang_gone (id : Nat) (f : Gang → Gang) : (s.updGang id f).gone = s.gone := rfl
@[simp] theorem updGang_fresh (id : Nat) (f : Gang → Gang) : (s.updGang id f).fresh = s.fresh := rfl
@[simp] theorem updGang_freeCtr (id : Nat) (f : Gang → Gang) : (s.updGang id f).freeCtr = s.freeCtr := rfl

/-! ### updCrew -/

@[simp] theorem updCrew_mem (v : Nat) (f : Crew → Crew) : (s.updCrew v f).mem = s.mem := rfl
@[simp] theorem updCrew_poison (v : Nat) (f : Crew → Crew) : (s.updCrew v f).poison = s.poison := rfl
@[simp] theorem updCrew_errors (v : Nat) (f : Crew → Crew) : (s.updCrew v f).errors = s.errors := rfl
@[simp] theorem updCrew_sram (v : Nat) (f : Crew → Crew) : (s.updCrew v f).sram = s.sram := rfl
@[simp] theorem updCrew_sramFlaws (v : Nat) (f : Crew → Crew) : (s.updCrew v f).sramFlaws = s.sramFlaws := rfl
@[simp] theorem updCrew_cur (v : Nat) (f : Crew → Crew) : (s.updCrew v f).cur = s.cur := rfl
@[simp] theorem updCrew_gangs (v : Nat) (f : Crew → Crew) : (s.updCrew v f).gangs = s.gangs := rfl
@[simp] theorem updCrew_leases (v : Nat) (f : Crew → Crew) : (s.updCrew v f).leases = s.leases := rfl
@[simp] theorem updCrew_cores (v : Nat) (f : Crew → Crew) : (s.updCrew v f).cores = s.cores := rfl
@[simp] theorem updCrew_banks (v : Nat) (f : Crew → Crew) : (s.updCrew v f).banks = s.banks := rfl
@[simp] theorem updCrew_l1 (v : Nat) (f : Crew → Crew) : (s.updCrew v f).l1 = s.l1 := rfl
@[simp] theorem updCrew_tlb (v : Nat) (f : Crew → Crew) : (s.updCrew v f).tlb = s.tlb := rfl
@[simp] theorem updCrew_ptrs (v : Nat) (f : Crew → Crew) : (s.updCrew v f).ptrs = s.ptrs := rfl
@[simp] theorem updCrew_slices (v : Nat) (f : Crew → Crew) : (s.updCrew v f).slices = s.slices := rfl
@[simp] theorem updCrew_queues (v : Nat) (f : Crew → Crew) : (s.updCrew v f).queues = s.queues := rfl
@[simp] theorem updCrew_pinned (v : Nat) (f : Crew → Crew) : (s.updCrew v f).pinned = s.pinned := rfl
@[simp] theorem updCrew_standing (v : Nat) (f : Crew → Crew) : (s.updCrew v f).standing = s.standing := rfl
@[simp] theorem updCrew_tasks (v : Nat) (f : Crew → Crew) : (s.updCrew v f).tasks = s.tasks := rfl
@[simp] theorem updCrew_hubs (v : Nat) (f : Crew → Crew) : (s.updCrew v f).hubs = s.hubs := rfl
@[simp] theorem updCrew_watches (v : Nat) (f : Crew → Crew) : (s.updCrew v f).watches = s.watches := rfl
@[simp] theorem updCrew_pending (v : Nat) (f : Crew → Crew) : (s.updCrew v f).pending = s.pending := rfl
@[simp] theorem updCrew_watchCache (v : Nat) (f : Crew → Crew) : (s.updCrew v f).watchCache = s.watchCache := rfl
@[simp] theorem updCrew_hashes (v : Nat) (f : Crew → Crew) : (s.updCrew v f).hashes = s.hashes := rfl
@[simp] theorem updCrew_retr (v : Nat) (f : Crew → Crew) : (s.updCrew v f).retr = s.retr := rfl
@[simp] theorem updCrew_probes (v : Nat) (f : Crew → Crew) : (s.updCrew v f).probes = s.probes := rfl
@[simp] theorem updCrew_raises (v : Nat) (f : Crew → Crew) : (s.updCrew v f).raises = s.raises := rfl
@[simp] theorem updCrew_colls (v : Nat) (f : Crew → Crew) : (s.updCrew v f).colls = s.colls := rfl
@[simp] theorem updCrew_loads (v : Nat) (f : Crew → Crew) : (s.updCrew v f).loads = s.loads := rfl
@[simp] theorem updCrew_replies (v : Nat) (f : Crew → Crew) : (s.updCrew v f).replies = s.replies := rfl
@[simp] theorem updCrew_deltas (v : Nat) (f : Crew → Crew) : (s.updCrew v f).deltas = s.deltas := rfl
@[simp] theorem updCrew_out (v : Nat) (f : Crew → Crew) : (s.updCrew v f).out = s.out := rfl
@[simp] theorem updCrew_hostOut (v : Nat) (f : Crew → Crew) : (s.updCrew v f).hostOut = s.hostOut := rfl
@[simp] theorem updCrew_hostAtomics (v : Nat) (f : Crew → Crew) : (s.updCrew v f).hostAtomics = s.hostAtomics := rfl
@[simp] theorem updCrew_agentCache (v : Nat) (f : Crew → Crew) : (s.updCrew v f).agentCache = s.agentCache := rfl
@[simp] theorem updCrew_peerPending (v : Nat) (f : Crew → Crew) : (s.updCrew v f).peerPending = s.peerPending := rfl
@[simp] theorem updCrew_ports (v : Nat) (f : Crew → Crew) : (s.updCrew v f).ports = s.ports := rfl
@[simp] theorem updCrew_lost (v : Nat) (f : Crew → Crew) : (s.updCrew v f).lost = s.lost := rfl
@[simp] theorem updCrew_faultRecs (v : Nat) (f : Crew → Crew) : (s.updCrew v f).faultRecs = s.faultRecs := rfl
@[simp] theorem updCrew_logQueue (v : Nat) (f : Crew → Crew) : (s.updCrew v f).logQueue = s.logQueue := rfl
@[simp] theorem updCrew_lfqIndex (v : Nat) (f : Crew → Crew) : (s.updCrew v f).lfqIndex = s.lfqIndex := rfl
@[simp] theorem updCrew_rebuilds (v : Nat) (f : Crew → Crew) : (s.updCrew v f).rebuilds = s.rebuilds := rfl
@[simp] theorem updCrew_images (v : Nat) (f : Crew → Crew) : (s.updCrew v f).images = s.images := rfl
@[simp] theorem updCrew_islands (v : Nat) (f : Crew → Crew) : (s.updCrew v f).islands = s.islands := rfl
@[simp] theorem updCrew_power (v : Nat) (f : Crew → Crew) : (s.updCrew v f).power = s.power := rfl
@[simp] theorem updCrew_eventFlags (v : Nat) (f : Crew → Crew) : (s.updCrew v f).eventFlags = s.eventFlags := rfl
@[simp] theorem updCrew_suspects (v : Nat) (f : Crew → Crew) : (s.updCrew v f).suspects = s.suspects := rfl
@[simp] theorem updCrew_tokens (v : Nat) (f : Crew → Crew) : (s.updCrew v f).tokens = s.tokens := rfl
@[simp] theorem updCrew_relays (v : Nat) (f : Crew → Crew) : (s.updCrew v f).relays = s.relays := rfl
@[simp] theorem updCrew_agreed (v : Nat) (f : Crew → Crew) : (s.updCrew v f).agreed = s.agreed := rfl
@[simp] theorem updCrew_cuts (v : Nat) (f : Crew → Crew) : (s.updCrew v f).cuts = s.cuts := rfl
@[simp] theorem updCrew_rebuilt (v : Nat) (f : Crew → Crew) : (s.updCrew v f).rebuilt = s.rebuilt := rfl
@[simp] theorem updCrew_started (v : Nat) (f : Crew → Crew) : (s.updCrew v f).started = s.started := rfl
@[simp] theorem updCrew_heard (v : Nat) (f : Crew → Crew) : (s.updCrew v f).heard = s.heard := rfl
@[simp] theorem updCrew_mgmt (v : Nat) (f : Crew → Crew) : (s.updCrew v f).mgmt = s.mgmt := rfl
@[simp] theorem updCrew_clock (v : Nat) (f : Crew → Crew) : (s.updCrew v f).clock = s.clock := rfl
@[simp] theorem updCrew_agenda (v : Nat) (f : Crew → Crew) : (s.updCrew v f).agenda = s.agenda := rfl
@[simp] theorem updCrew_turns (v : Nat) (f : Crew → Crew) : (s.updCrew v f).turns = s.turns := rfl
@[simp] theorem updCrew_gone (v : Nat) (f : Crew → Crew) : (s.updCrew v f).gone = s.gone := rfl
@[simp] theorem updCrew_fresh (v : Nat) (f : Crew → Crew) : (s.updCrew v f).fresh = s.fresh := rfl
@[simp] theorem updCrew_freeCtr (v : Nat) (f : Crew → Crew) : (s.updCrew v f).freeCtr = s.freeCtr := rfl

/-! ### updCore -/

@[simp] theorem updCore_mem (n : Nat) (f : CoreSt → CoreSt) : (s.updCore n f).mem = s.mem := rfl
@[simp] theorem updCore_poison (n : Nat) (f : CoreSt → CoreSt) : (s.updCore n f).poison = s.poison := rfl
@[simp] theorem updCore_errors (n : Nat) (f : CoreSt → CoreSt) : (s.updCore n f).errors = s.errors := rfl
@[simp] theorem updCore_sram (n : Nat) (f : CoreSt → CoreSt) : (s.updCore n f).sram = s.sram := rfl
@[simp] theorem updCore_sramFlaws (n : Nat) (f : CoreSt → CoreSt) : (s.updCore n f).sramFlaws = s.sramFlaws := rfl
@[simp] theorem updCore_cur (n : Nat) (f : CoreSt → CoreSt) : (s.updCore n f).cur = s.cur := rfl
@[simp] theorem updCore_gangs (n : Nat) (f : CoreSt → CoreSt) : (s.updCore n f).gangs = s.gangs := rfl
@[simp] theorem updCore_crews (n : Nat) (f : CoreSt → CoreSt) : (s.updCore n f).crews = s.crews := rfl
@[simp] theorem updCore_leases (n : Nat) (f : CoreSt → CoreSt) : (s.updCore n f).leases = s.leases := rfl
@[simp] theorem updCore_banks (n : Nat) (f : CoreSt → CoreSt) : (s.updCore n f).banks = s.banks := rfl
@[simp] theorem updCore_l1 (n : Nat) (f : CoreSt → CoreSt) : (s.updCore n f).l1 = s.l1 := rfl
@[simp] theorem updCore_tlb (n : Nat) (f : CoreSt → CoreSt) : (s.updCore n f).tlb = s.tlb := rfl
@[simp] theorem updCore_ptrs (n : Nat) (f : CoreSt → CoreSt) : (s.updCore n f).ptrs = s.ptrs := rfl
@[simp] theorem updCore_slices (n : Nat) (f : CoreSt → CoreSt) : (s.updCore n f).slices = s.slices := rfl
@[simp] theorem updCore_queues (n : Nat) (f : CoreSt → CoreSt) : (s.updCore n f).queues = s.queues := rfl
@[simp] theorem updCore_pinned (n : Nat) (f : CoreSt → CoreSt) : (s.updCore n f).pinned = s.pinned := rfl
@[simp] theorem updCore_standing (n : Nat) (f : CoreSt → CoreSt) : (s.updCore n f).standing = s.standing := rfl
@[simp] theorem updCore_tasks (n : Nat) (f : CoreSt → CoreSt) : (s.updCore n f).tasks = s.tasks := rfl
@[simp] theorem updCore_hubs (n : Nat) (f : CoreSt → CoreSt) : (s.updCore n f).hubs = s.hubs := rfl
@[simp] theorem updCore_watches (n : Nat) (f : CoreSt → CoreSt) : (s.updCore n f).watches = s.watches := rfl
@[simp] theorem updCore_pending (n : Nat) (f : CoreSt → CoreSt) : (s.updCore n f).pending = s.pending := rfl
@[simp] theorem updCore_watchCache (n : Nat) (f : CoreSt → CoreSt) : (s.updCore n f).watchCache = s.watchCache := rfl
@[simp] theorem updCore_hashes (n : Nat) (f : CoreSt → CoreSt) : (s.updCore n f).hashes = s.hashes := rfl
@[simp] theorem updCore_retr (n : Nat) (f : CoreSt → CoreSt) : (s.updCore n f).retr = s.retr := rfl
@[simp] theorem updCore_probes (n : Nat) (f : CoreSt → CoreSt) : (s.updCore n f).probes = s.probes := rfl
@[simp] theorem updCore_raises (n : Nat) (f : CoreSt → CoreSt) : (s.updCore n f).raises = s.raises := rfl
@[simp] theorem updCore_colls (n : Nat) (f : CoreSt → CoreSt) : (s.updCore n f).colls = s.colls := rfl
@[simp] theorem updCore_loads (n : Nat) (f : CoreSt → CoreSt) : (s.updCore n f).loads = s.loads := rfl
@[simp] theorem updCore_replies (n : Nat) (f : CoreSt → CoreSt) : (s.updCore n f).replies = s.replies := rfl
@[simp] theorem updCore_deltas (n : Nat) (f : CoreSt → CoreSt) : (s.updCore n f).deltas = s.deltas := rfl
@[simp] theorem updCore_out (n : Nat) (f : CoreSt → CoreSt) : (s.updCore n f).out = s.out := rfl
@[simp] theorem updCore_hostOut (n : Nat) (f : CoreSt → CoreSt) : (s.updCore n f).hostOut = s.hostOut := rfl
@[simp] theorem updCore_hostAtomics (n : Nat) (f : CoreSt → CoreSt) : (s.updCore n f).hostAtomics = s.hostAtomics := rfl
@[simp] theorem updCore_agentCache (n : Nat) (f : CoreSt → CoreSt) : (s.updCore n f).agentCache = s.agentCache := rfl
@[simp] theorem updCore_peerPending (n : Nat) (f : CoreSt → CoreSt) : (s.updCore n f).peerPending = s.peerPending := rfl
@[simp] theorem updCore_ports (n : Nat) (f : CoreSt → CoreSt) : (s.updCore n f).ports = s.ports := rfl
@[simp] theorem updCore_lost (n : Nat) (f : CoreSt → CoreSt) : (s.updCore n f).lost = s.lost := rfl
@[simp] theorem updCore_faultRecs (n : Nat) (f : CoreSt → CoreSt) : (s.updCore n f).faultRecs = s.faultRecs := rfl
@[simp] theorem updCore_logQueue (n : Nat) (f : CoreSt → CoreSt) : (s.updCore n f).logQueue = s.logQueue := rfl
@[simp] theorem updCore_lfqIndex (n : Nat) (f : CoreSt → CoreSt) : (s.updCore n f).lfqIndex = s.lfqIndex := rfl
@[simp] theorem updCore_rebuilds (n : Nat) (f : CoreSt → CoreSt) : (s.updCore n f).rebuilds = s.rebuilds := rfl
@[simp] theorem updCore_images (n : Nat) (f : CoreSt → CoreSt) : (s.updCore n f).images = s.images := rfl
@[simp] theorem updCore_islands (n : Nat) (f : CoreSt → CoreSt) : (s.updCore n f).islands = s.islands := rfl
@[simp] theorem updCore_power (n : Nat) (f : CoreSt → CoreSt) : (s.updCore n f).power = s.power := rfl
@[simp] theorem updCore_eventFlags (n : Nat) (f : CoreSt → CoreSt) : (s.updCore n f).eventFlags = s.eventFlags := rfl
@[simp] theorem updCore_suspects (n : Nat) (f : CoreSt → CoreSt) : (s.updCore n f).suspects = s.suspects := rfl
@[simp] theorem updCore_tokens (n : Nat) (f : CoreSt → CoreSt) : (s.updCore n f).tokens = s.tokens := rfl
@[simp] theorem updCore_relays (n : Nat) (f : CoreSt → CoreSt) : (s.updCore n f).relays = s.relays := rfl
@[simp] theorem updCore_agreed (n : Nat) (f : CoreSt → CoreSt) : (s.updCore n f).agreed = s.agreed := rfl
@[simp] theorem updCore_cuts (n : Nat) (f : CoreSt → CoreSt) : (s.updCore n f).cuts = s.cuts := rfl
@[simp] theorem updCore_rebuilt (n : Nat) (f : CoreSt → CoreSt) : (s.updCore n f).rebuilt = s.rebuilt := rfl
@[simp] theorem updCore_started (n : Nat) (f : CoreSt → CoreSt) : (s.updCore n f).started = s.started := rfl
@[simp] theorem updCore_heard (n : Nat) (f : CoreSt → CoreSt) : (s.updCore n f).heard = s.heard := rfl
@[simp] theorem updCore_mgmt (n : Nat) (f : CoreSt → CoreSt) : (s.updCore n f).mgmt = s.mgmt := rfl
@[simp] theorem updCore_clock (n : Nat) (f : CoreSt → CoreSt) : (s.updCore n f).clock = s.clock := rfl
@[simp] theorem updCore_agenda (n : Nat) (f : CoreSt → CoreSt) : (s.updCore n f).agenda = s.agenda := rfl
@[simp] theorem updCore_turns (n : Nat) (f : CoreSt → CoreSt) : (s.updCore n f).turns = s.turns := rfl
@[simp] theorem updCore_gone (n : Nat) (f : CoreSt → CoreSt) : (s.updCore n f).gone = s.gone := rfl
@[simp] theorem updCore_fresh (n : Nat) (f : CoreSt → CoreSt) : (s.updCore n f).fresh = s.fresh := rfl
@[simp] theorem updCore_freeCtr (n : Nat) (f : CoreSt → CoreSt) : (s.updCore n f).freeCtr = s.freeCtr := rfl

/-! ### postEvent -/

@[simp] theorem postEvent_mem (e : Event) : (s.postEvent e).mem = s.mem := rfl
@[simp] theorem postEvent_poison (e : Event) : (s.postEvent e).poison = s.poison := rfl
@[simp] theorem postEvent_errors (e : Event) : (s.postEvent e).errors = s.errors := rfl
@[simp] theorem postEvent_sram (e : Event) : (s.postEvent e).sram = s.sram := rfl
@[simp] theorem postEvent_sramFlaws (e : Event) : (s.postEvent e).sramFlaws = s.sramFlaws := rfl
@[simp] theorem postEvent_cur (e : Event) : (s.postEvent e).cur = s.cur := rfl
@[simp] theorem postEvent_gangs (e : Event) : (s.postEvent e).gangs = s.gangs := rfl
@[simp] theorem postEvent_crews (e : Event) : (s.postEvent e).crews = s.crews := rfl
@[simp] theorem postEvent_leases (e : Event) : (s.postEvent e).leases = s.leases := rfl
@[simp] theorem postEvent_cores (e : Event) : (s.postEvent e).cores = s.cores := rfl
@[simp] theorem postEvent_banks (e : Event) : (s.postEvent e).banks = s.banks := rfl
@[simp] theorem postEvent_l1 (e : Event) : (s.postEvent e).l1 = s.l1 := rfl
@[simp] theorem postEvent_tlb (e : Event) : (s.postEvent e).tlb = s.tlb := rfl
@[simp] theorem postEvent_ptrs (e : Event) : (s.postEvent e).ptrs = s.ptrs := rfl
@[simp] theorem postEvent_slices (e : Event) : (s.postEvent e).slices = s.slices := rfl
@[simp] theorem postEvent_queues (e : Event) : (s.postEvent e).queues = s.queues := rfl
@[simp] theorem postEvent_pinned (e : Event) : (s.postEvent e).pinned = s.pinned := rfl
@[simp] theorem postEvent_standing (e : Event) : (s.postEvent e).standing = s.standing := rfl
@[simp] theorem postEvent_tasks (e : Event) : (s.postEvent e).tasks = s.tasks := rfl
@[simp] theorem postEvent_hubs (e : Event) : (s.postEvent e).hubs = s.hubs := rfl
@[simp] theorem postEvent_watches (e : Event) : (s.postEvent e).watches = s.watches := rfl
@[simp] theorem postEvent_pending (e : Event) : (s.postEvent e).pending = s.pending := rfl
@[simp] theorem postEvent_watchCache (e : Event) : (s.postEvent e).watchCache = s.watchCache := rfl
@[simp] theorem postEvent_hashes (e : Event) : (s.postEvent e).hashes = s.hashes := rfl
@[simp] theorem postEvent_retr (e : Event) : (s.postEvent e).retr = s.retr := rfl
@[simp] theorem postEvent_probes (e : Event) : (s.postEvent e).probes = s.probes := rfl
@[simp] theorem postEvent_raises (e : Event) : (s.postEvent e).raises = s.raises := rfl
@[simp] theorem postEvent_colls (e : Event) : (s.postEvent e).colls = s.colls := rfl
@[simp] theorem postEvent_loads (e : Event) : (s.postEvent e).loads = s.loads := rfl
@[simp] theorem postEvent_replies (e : Event) : (s.postEvent e).replies = s.replies := rfl
@[simp] theorem postEvent_deltas (e : Event) : (s.postEvent e).deltas = s.deltas := rfl
@[simp] theorem postEvent_out (e : Event) : (s.postEvent e).out = s.out := rfl
@[simp] theorem postEvent_hostOut (e : Event) : (s.postEvent e).hostOut = s.hostOut := rfl
@[simp] theorem postEvent_hostAtomics (e : Event) : (s.postEvent e).hostAtomics = s.hostAtomics := rfl
@[simp] theorem postEvent_agentCache (e : Event) : (s.postEvent e).agentCache = s.agentCache := rfl
@[simp] theorem postEvent_peerPending (e : Event) : (s.postEvent e).peerPending = s.peerPending := rfl
@[simp] theorem postEvent_ports (e : Event) : (s.postEvent e).ports = s.ports := rfl
@[simp] theorem postEvent_lost (e : Event) : (s.postEvent e).lost = s.lost := rfl
@[simp] theorem postEvent_faultRecs (e : Event) : (s.postEvent e).faultRecs = s.faultRecs := rfl
@[simp] theorem postEvent_logQueue (e : Event) : (s.postEvent e).logQueue = s.logQueue := rfl
@[simp] theorem postEvent_lfqIndex (e : Event) : (s.postEvent e).lfqIndex = s.lfqIndex := rfl
@[simp] theorem postEvent_rebuilds (e : Event) : (s.postEvent e).rebuilds = s.rebuilds := rfl
@[simp] theorem postEvent_images (e : Event) : (s.postEvent e).images = s.images := rfl
@[simp] theorem postEvent_islands (e : Event) : (s.postEvent e).islands = s.islands := rfl
@[simp] theorem postEvent_power (e : Event) : (s.postEvent e).power = s.power := rfl
@[simp] theorem postEvent_eventFlags (e : Event) : (s.postEvent e).eventFlags = s.eventFlags := rfl
@[simp] theorem postEvent_suspects (e : Event) : (s.postEvent e).suspects = s.suspects := rfl
@[simp] theorem postEvent_tokens (e : Event) : (s.postEvent e).tokens = s.tokens := rfl
@[simp] theorem postEvent_relays (e : Event) : (s.postEvent e).relays = s.relays := rfl
@[simp] theorem postEvent_agreed (e : Event) : (s.postEvent e).agreed = s.agreed := rfl
@[simp] theorem postEvent_cuts (e : Event) : (s.postEvent e).cuts = s.cuts := rfl
@[simp] theorem postEvent_rebuilt (e : Event) : (s.postEvent e).rebuilt = s.rebuilt := rfl
@[simp] theorem postEvent_started (e : Event) : (s.postEvent e).started = s.started := rfl
@[simp] theorem postEvent_heard (e : Event) : (s.postEvent e).heard = s.heard := rfl
@[simp] theorem postEvent_mgmt (e : Event) : (s.postEvent e).mgmt = s.mgmt := rfl
@[simp] theorem postEvent_clock (e : Event) : (s.postEvent e).clock = s.clock := rfl
@[simp] theorem postEvent_turns (e : Event) : (s.postEvent e).turns = s.turns := rfl
@[simp] theorem postEvent_gone (e : Event) : (s.postEvent e).gone = s.gone := rfl
@[simp] theorem postEvent_fresh (e : Event) : (s.postEvent e).fresh = s.fresh := rfl
@[simp] theorem postEvent_freeCtr (e : Event) : (s.postEvent e).freeCtr = s.freeCtr := rfl

/-! ### post -/

@[simp] theorem post_mem (r : LogRec) : (s.post r).mem = s.mem := rfl
@[simp] theorem post_poison (r : LogRec) : (s.post r).poison = s.poison := rfl
@[simp] theorem post_errors (r : LogRec) : (s.post r).errors = s.errors := rfl
@[simp] theorem post_sram (r : LogRec) : (s.post r).sram = s.sram := rfl
@[simp] theorem post_sramFlaws (r : LogRec) : (s.post r).sramFlaws = s.sramFlaws := rfl
@[simp] theorem post_cur (r : LogRec) : (s.post r).cur = s.cur := rfl
@[simp] theorem post_gangs (r : LogRec) : (s.post r).gangs = s.gangs := rfl
@[simp] theorem post_crews (r : LogRec) : (s.post r).crews = s.crews := rfl
@[simp] theorem post_leases (r : LogRec) : (s.post r).leases = s.leases := rfl
@[simp] theorem post_cores (r : LogRec) : (s.post r).cores = s.cores := rfl
@[simp] theorem post_banks (r : LogRec) : (s.post r).banks = s.banks := rfl
@[simp] theorem post_l1 (r : LogRec) : (s.post r).l1 = s.l1 := rfl
@[simp] theorem post_tlb (r : LogRec) : (s.post r).tlb = s.tlb := rfl
@[simp] theorem post_ptrs (r : LogRec) : (s.post r).ptrs = s.ptrs := rfl
@[simp] theorem post_slices (r : LogRec) : (s.post r).slices = s.slices := rfl
@[simp] theorem post_queues (r : LogRec) : (s.post r).queues = s.queues := rfl
@[simp] theorem post_pinned (r : LogRec) : (s.post r).pinned = s.pinned := rfl
@[simp] theorem post_standing (r : LogRec) : (s.post r).standing = s.standing := rfl
@[simp] theorem post_tasks (r : LogRec) : (s.post r).tasks = s.tasks := rfl
@[simp] theorem post_hubs (r : LogRec) : (s.post r).hubs = s.hubs := rfl
@[simp] theorem post_watches (r : LogRec) : (s.post r).watches = s.watches := rfl
@[simp] theorem post_pending (r : LogRec) : (s.post r).pending = s.pending := rfl
@[simp] theorem post_watchCache (r : LogRec) : (s.post r).watchCache = s.watchCache := rfl
@[simp] theorem post_hashes (r : LogRec) : (s.post r).hashes = s.hashes := rfl
@[simp] theorem post_retr (r : LogRec) : (s.post r).retr = s.retr := rfl
@[simp] theorem post_probes (r : LogRec) : (s.post r).probes = s.probes := rfl
@[simp] theorem post_raises (r : LogRec) : (s.post r).raises = s.raises := rfl
@[simp] theorem post_colls (r : LogRec) : (s.post r).colls = s.colls := rfl
@[simp] theorem post_loads (r : LogRec) : (s.post r).loads = s.loads := rfl
@[simp] theorem post_replies (r : LogRec) : (s.post r).replies = s.replies := rfl
@[simp] theorem post_deltas (r : LogRec) : (s.post r).deltas = s.deltas := rfl
@[simp] theorem post_out (r : LogRec) : (s.post r).out = s.out := rfl
@[simp] theorem post_hostOut (r : LogRec) : (s.post r).hostOut = s.hostOut := rfl
@[simp] theorem post_hostAtomics (r : LogRec) : (s.post r).hostAtomics = s.hostAtomics := rfl
@[simp] theorem post_agentCache (r : LogRec) : (s.post r).agentCache = s.agentCache := rfl
@[simp] theorem post_peerPending (r : LogRec) : (s.post r).peerPending = s.peerPending := rfl
@[simp] theorem post_ports (r : LogRec) : (s.post r).ports = s.ports := rfl
@[simp] theorem post_lost (r : LogRec) : (s.post r).lost = s.lost := rfl
@[simp] theorem post_faultRecs (r : LogRec) : (s.post r).faultRecs = s.faultRecs := rfl
@[simp] theorem post_lfqIndex (r : LogRec) : (s.post r).lfqIndex = s.lfqIndex := rfl
@[simp] theorem post_rebuilds (r : LogRec) : (s.post r).rebuilds = s.rebuilds := rfl
@[simp] theorem post_images (r : LogRec) : (s.post r).images = s.images := rfl
@[simp] theorem post_islands (r : LogRec) : (s.post r).islands = s.islands := rfl
@[simp] theorem post_power (r : LogRec) : (s.post r).power = s.power := rfl
@[simp] theorem post_eventFlags (r : LogRec) : (s.post r).eventFlags = s.eventFlags := rfl
@[simp] theorem post_suspects (r : LogRec) : (s.post r).suspects = s.suspects := rfl
@[simp] theorem post_tokens (r : LogRec) : (s.post r).tokens = s.tokens := rfl
@[simp] theorem post_relays (r : LogRec) : (s.post r).relays = s.relays := rfl
@[simp] theorem post_agreed (r : LogRec) : (s.post r).agreed = s.agreed := rfl
@[simp] theorem post_cuts (r : LogRec) : (s.post r).cuts = s.cuts := rfl
@[simp] theorem post_rebuilt (r : LogRec) : (s.post r).rebuilt = s.rebuilt := rfl
@[simp] theorem post_started (r : LogRec) : (s.post r).started = s.started := rfl
@[simp] theorem post_heard (r : LogRec) : (s.post r).heard = s.heard := rfl
@[simp] theorem post_mgmt (r : LogRec) : (s.post r).mgmt = s.mgmt := rfl
@[simp] theorem post_clock (r : LogRec) : (s.post r).clock = s.clock := rfl
@[simp] theorem post_agenda (r : LogRec) : (s.post r).agenda = s.agenda := rfl
@[simp] theorem post_turns (r : LogRec) : (s.post r).turns = s.turns := rfl
@[simp] theorem post_gone (r : LogRec) : (s.post r).gone = s.gone := rfl
@[simp] theorem post_fresh (r : LogRec) : (s.post r).fresh = s.fresh := rfl
@[simp] theorem post_freeCtr (r : LogRec) : (s.post r).freeCtr = s.freeCtr := rfl

/-! ### raise -/

@[simp] theorem raise_mem (r : Raise) : (s.raise r).mem = s.mem := rfl
@[simp] theorem raise_poison (r : Raise) : (s.raise r).poison = s.poison := rfl
@[simp] theorem raise_errors (r : Raise) : (s.raise r).errors = s.errors := rfl
@[simp] theorem raise_sram (r : Raise) : (s.raise r).sram = s.sram := rfl
@[simp] theorem raise_sramFlaws (r : Raise) : (s.raise r).sramFlaws = s.sramFlaws := rfl
@[simp] theorem raise_cur (r : Raise) : (s.raise r).cur = s.cur := rfl
@[simp] theorem raise_gangs (r : Raise) : (s.raise r).gangs = s.gangs := rfl
@[simp] theorem raise_crews (r : Raise) : (s.raise r).crews = s.crews := rfl
@[simp] theorem raise_leases (r : Raise) : (s.raise r).leases = s.leases := rfl
@[simp] theorem raise_cores (r : Raise) : (s.raise r).cores = s.cores := rfl
@[simp] theorem raise_banks (r : Raise) : (s.raise r).banks = s.banks := rfl
@[simp] theorem raise_l1 (r : Raise) : (s.raise r).l1 = s.l1 := rfl
@[simp] theorem raise_tlb (r : Raise) : (s.raise r).tlb = s.tlb := rfl
@[simp] theorem raise_ptrs (r : Raise) : (s.raise r).ptrs = s.ptrs := rfl
@[simp] theorem raise_slices (r : Raise) : (s.raise r).slices = s.slices := rfl
@[simp] theorem raise_queues (r : Raise) : (s.raise r).queues = s.queues := rfl
@[simp] theorem raise_pinned (r : Raise) : (s.raise r).pinned = s.pinned := rfl
@[simp] theorem raise_standing (r : Raise) : (s.raise r).standing = s.standing := rfl
@[simp] theorem raise_tasks (r : Raise) : (s.raise r).tasks = s.tasks := rfl
@[simp] theorem raise_hubs (r : Raise) : (s.raise r).hubs = s.hubs := rfl
@[simp] theorem raise_watches (r : Raise) : (s.raise r).watches = s.watches := rfl
@[simp] theorem raise_pending (r : Raise) : (s.raise r).pending = s.pending := rfl
@[simp] theorem raise_watchCache (r : Raise) : (s.raise r).watchCache = s.watchCache := rfl
@[simp] theorem raise_hashes (r : Raise) : (s.raise r).hashes = s.hashes := rfl
@[simp] theorem raise_retr (r : Raise) : (s.raise r).retr = s.retr := rfl
@[simp] theorem raise_probes (r : Raise) : (s.raise r).probes = s.probes := rfl
@[simp] theorem raise_colls (r : Raise) : (s.raise r).colls = s.colls := rfl
@[simp] theorem raise_loads (r : Raise) : (s.raise r).loads = s.loads := rfl
@[simp] theorem raise_replies (r : Raise) : (s.raise r).replies = s.replies := rfl
@[simp] theorem raise_deltas (r : Raise) : (s.raise r).deltas = s.deltas := rfl
@[simp] theorem raise_out (r : Raise) : (s.raise r).out = s.out := rfl
@[simp] theorem raise_hostOut (r : Raise) : (s.raise r).hostOut = s.hostOut := rfl
@[simp] theorem raise_hostAtomics (r : Raise) : (s.raise r).hostAtomics = s.hostAtomics := rfl
@[simp] theorem raise_agentCache (r : Raise) : (s.raise r).agentCache = s.agentCache := rfl
@[simp] theorem raise_peerPending (r : Raise) : (s.raise r).peerPending = s.peerPending := rfl
@[simp] theorem raise_ports (r : Raise) : (s.raise r).ports = s.ports := rfl
@[simp] theorem raise_lost (r : Raise) : (s.raise r).lost = s.lost := rfl
@[simp] theorem raise_faultRecs (r : Raise) : (s.raise r).faultRecs = s.faultRecs := rfl
@[simp] theorem raise_logQueue (r : Raise) : (s.raise r).logQueue = s.logQueue := rfl
@[simp] theorem raise_lfqIndex (r : Raise) : (s.raise r).lfqIndex = s.lfqIndex := rfl
@[simp] theorem raise_rebuilds (r : Raise) : (s.raise r).rebuilds = s.rebuilds := rfl
@[simp] theorem raise_images (r : Raise) : (s.raise r).images = s.images := rfl
@[simp] theorem raise_islands (r : Raise) : (s.raise r).islands = s.islands := rfl
@[simp] theorem raise_power (r : Raise) : (s.raise r).power = s.power := rfl
@[simp] theorem raise_eventFlags (r : Raise) : (s.raise r).eventFlags = s.eventFlags := rfl
@[simp] theorem raise_suspects (r : Raise) : (s.raise r).suspects = s.suspects := rfl
@[simp] theorem raise_tokens (r : Raise) : (s.raise r).tokens = s.tokens := rfl
@[simp] theorem raise_relays (r : Raise) : (s.raise r).relays = s.relays := rfl
@[simp] theorem raise_agreed (r : Raise) : (s.raise r).agreed = s.agreed := rfl
@[simp] theorem raise_cuts (r : Raise) : (s.raise r).cuts = s.cuts := rfl
@[simp] theorem raise_rebuilt (r : Raise) : (s.raise r).rebuilt = s.rebuilt := rfl
@[simp] theorem raise_started (r : Raise) : (s.raise r).started = s.started := rfl
@[simp] theorem raise_heard (r : Raise) : (s.raise r).heard = s.heard := rfl
@[simp] theorem raise_mgmt (r : Raise) : (s.raise r).mgmt = s.mgmt := rfl
@[simp] theorem raise_clock (r : Raise) : (s.raise r).clock = s.clock := rfl
@[simp] theorem raise_agenda (r : Raise) : (s.raise r).agenda = s.agenda := rfl
@[simp] theorem raise_turns (r : Raise) : (s.raise r).turns = s.turns := rfl
@[simp] theorem raise_gone (r : Raise) : (s.raise r).gone = s.gone := rfl
@[simp] theorem raise_fresh (r : Raise) : (s.raise r).fresh = s.fresh := rfl
@[simp] theorem raise_freeCtr (r : Raise) : (s.raise r).freeCtr = s.freeCtr := rfl

/-! ### setByte -/

@[simp] theorem setByte_poison (a : Nat) (b : Byte) : (s.setByte a b).poison = s.poison := rfl
@[simp] theorem setByte_errors (a : Nat) (b : Byte) : (s.setByte a b).errors = s.errors := rfl
@[simp] theorem setByte_sram (a : Nat) (b : Byte) : (s.setByte a b).sram = s.sram := rfl
@[simp] theorem setByte_sramFlaws (a : Nat) (b : Byte) : (s.setByte a b).sramFlaws = s.sramFlaws := rfl
@[simp] theorem setByte_cur (a : Nat) (b : Byte) : (s.setByte a b).cur = s.cur := rfl
@[simp] theorem setByte_gangs (a : Nat) (b : Byte) : (s.setByte a b).gangs = s.gangs := rfl
@[simp] theorem setByte_crews (a : Nat) (b : Byte) : (s.setByte a b).crews = s.crews := rfl
@[simp] theorem setByte_leases (a : Nat) (b : Byte) : (s.setByte a b).leases = s.leases := rfl
@[simp] theorem setByte_cores (a : Nat) (b : Byte) : (s.setByte a b).cores = s.cores := rfl
@[simp] theorem setByte_banks (a : Nat) (b : Byte) : (s.setByte a b).banks = s.banks := rfl
@[simp] theorem setByte_l1 (a : Nat) (b : Byte) : (s.setByte a b).l1 = s.l1 := rfl
@[simp] theorem setByte_tlb (a : Nat) (b : Byte) : (s.setByte a b).tlb = s.tlb := rfl
@[simp] theorem setByte_ptrs (a : Nat) (b : Byte) : (s.setByte a b).ptrs = s.ptrs := rfl
@[simp] theorem setByte_slices (a : Nat) (b : Byte) : (s.setByte a b).slices = s.slices := rfl
@[simp] theorem setByte_queues (a : Nat) (b : Byte) : (s.setByte a b).queues = s.queues := rfl
@[simp] theorem setByte_pinned (a : Nat) (b : Byte) : (s.setByte a b).pinned = s.pinned := rfl
@[simp] theorem setByte_standing (a : Nat) (b : Byte) : (s.setByte a b).standing = s.standing := rfl
@[simp] theorem setByte_tasks (a : Nat) (b : Byte) : (s.setByte a b).tasks = s.tasks := rfl
@[simp] theorem setByte_hubs (a : Nat) (b : Byte) : (s.setByte a b).hubs = s.hubs := rfl
@[simp] theorem setByte_watches (a : Nat) (b : Byte) : (s.setByte a b).watches = s.watches := rfl
@[simp] theorem setByte_pending (a : Nat) (b : Byte) : (s.setByte a b).pending = s.pending := rfl
@[simp] theorem setByte_watchCache (a : Nat) (b : Byte) : (s.setByte a b).watchCache = s.watchCache := rfl
@[simp] theorem setByte_hashes (a : Nat) (b : Byte) : (s.setByte a b).hashes = s.hashes := rfl
@[simp] theorem setByte_retr (a : Nat) (b : Byte) : (s.setByte a b).retr = s.retr := rfl
@[simp] theorem setByte_probes (a : Nat) (b : Byte) : (s.setByte a b).probes = s.probes := rfl
@[simp] theorem setByte_raises (a : Nat) (b : Byte) : (s.setByte a b).raises = s.raises := rfl
@[simp] theorem setByte_colls (a : Nat) (b : Byte) : (s.setByte a b).colls = s.colls := rfl
@[simp] theorem setByte_loads (a : Nat) (b : Byte) : (s.setByte a b).loads = s.loads := rfl
@[simp] theorem setByte_replies (a : Nat) (b : Byte) : (s.setByte a b).replies = s.replies := rfl
@[simp] theorem setByte_deltas (a : Nat) (b : Byte) : (s.setByte a b).deltas = s.deltas := rfl
@[simp] theorem setByte_out (a : Nat) (b : Byte) : (s.setByte a b).out = s.out := rfl
@[simp] theorem setByte_hostOut (a : Nat) (b : Byte) : (s.setByte a b).hostOut = s.hostOut := rfl
@[simp] theorem setByte_hostAtomics (a : Nat) (b : Byte) : (s.setByte a b).hostAtomics = s.hostAtomics := rfl
@[simp] theorem setByte_agentCache (a : Nat) (b : Byte) : (s.setByte a b).agentCache = s.agentCache := rfl
@[simp] theorem setByte_peerPending (a : Nat) (b : Byte) : (s.setByte a b).peerPending = s.peerPending := rfl
@[simp] theorem setByte_ports (a : Nat) (b : Byte) : (s.setByte a b).ports = s.ports := rfl
@[simp] theorem setByte_lost (a : Nat) (b : Byte) : (s.setByte a b).lost = s.lost := rfl
@[simp] theorem setByte_faultRecs (a : Nat) (b : Byte) : (s.setByte a b).faultRecs = s.faultRecs := rfl
@[simp] theorem setByte_logQueue (a : Nat) (b : Byte) : (s.setByte a b).logQueue = s.logQueue := rfl
@[simp] theorem setByte_lfqIndex (a : Nat) (b : Byte) : (s.setByte a b).lfqIndex = s.lfqIndex := rfl
@[simp] theorem setByte_rebuilds (a : Nat) (b : Byte) : (s.setByte a b).rebuilds = s.rebuilds := rfl
@[simp] theorem setByte_images (a : Nat) (b : Byte) : (s.setByte a b).images = s.images := rfl
@[simp] theorem setByte_islands (a : Nat) (b : Byte) : (s.setByte a b).islands = s.islands := rfl
@[simp] theorem setByte_power (a : Nat) (b : Byte) : (s.setByte a b).power = s.power := rfl
@[simp] theorem setByte_eventFlags (a : Nat) (b : Byte) : (s.setByte a b).eventFlags = s.eventFlags := rfl
@[simp] theorem setByte_suspects (a : Nat) (b : Byte) : (s.setByte a b).suspects = s.suspects := rfl
@[simp] theorem setByte_tokens (a : Nat) (b : Byte) : (s.setByte a b).tokens = s.tokens := rfl
@[simp] theorem setByte_relays (a : Nat) (b : Byte) : (s.setByte a b).relays = s.relays := rfl
@[simp] theorem setByte_agreed (a : Nat) (b : Byte) : (s.setByte a b).agreed = s.agreed := rfl
@[simp] theorem setByte_cuts (a : Nat) (b : Byte) : (s.setByte a b).cuts = s.cuts := rfl
@[simp] theorem setByte_rebuilt (a : Nat) (b : Byte) : (s.setByte a b).rebuilt = s.rebuilt := rfl
@[simp] theorem setByte_started (a : Nat) (b : Byte) : (s.setByte a b).started = s.started := rfl
@[simp] theorem setByte_heard (a : Nat) (b : Byte) : (s.setByte a b).heard = s.heard := rfl
@[simp] theorem setByte_mgmt (a : Nat) (b : Byte) : (s.setByte a b).mgmt = s.mgmt := rfl
@[simp] theorem setByte_clock (a : Nat) (b : Byte) : (s.setByte a b).clock = s.clock := rfl
@[simp] theorem setByte_agenda (a : Nat) (b : Byte) : (s.setByte a b).agenda = s.agenda := rfl
@[simp] theorem setByte_turns (a : Nat) (b : Byte) : (s.setByte a b).turns = s.turns := rfl
@[simp] theorem setByte_gone (a : Nat) (b : Byte) : (s.setByte a b).gone = s.gone := rfl
@[simp] theorem setByte_fresh (a : Nat) (b : Byte) : (s.setByte a b).fresh = s.fresh := rfl
@[simp] theorem setByte_freeCtr (a : Nat) (b : Byte) : (s.setByte a b).freeCtr = s.freeCtr := rfl

end Sys2Proof.Machine
end

