-- ==== Sys2Proof/Laws/Ops.lean ====
section
/-! SUPPORT. What the shared operations do: gangs and splits that are changed, registers that are written, the end of an
issue, and the frame in which every instruction issues. -/

namespace Sys2Proof.Machine

/-! ### Gangs and splits -/

@[simp] theorem gang_updGang (s : State) (id : Nat) (f : Gang → Gang) (hf : ∀ g, (f g).id = g.id) (j : Nat) :
    (s.updGang id f).gang j = if j = id then (s.gang j).map f else s.gang j := by
  have key : ∀ l : List Gang, (l.map (fun h => if h.id == id then f h else h)).find? (fun g => g.id == j)
      = if j = id then (l.find? (fun g => g.id == j)).map f else l.find? (fun g => g.id == j) := by
    intro l
    induction l with
    | nil => simp
    | cons g l ih =>
      simp only [List.map_cons, List.find?_cons, ih]
      by_cases hg : g.id = id
      · by_cases hj : j = id
        · simp [hg, hj, hf]
        · have : (id == j) = false := by simpa using fun e : id = j => hj e.symm
          simp [hg, hj, hf, this]
      · by_cases hj : j = id
        · subst hj
          have : (g.id == j) = false := by simpa using hg
          simp [this]
        · simp [hg, hj]
  exact key s.gangs

theorem gang_id {s : State} {j : Nat} {g : Gang} (h : s.gang j = some g) : g.id = j := by
  have := List.find?_some h
  simpa using this

theorem split_lt {g : Gang} {k : Nat} {sp : Split} (h : g.split k = some sp) : k < g.splits.length := by
  unfold Gang.split at h
  by_contra hk
  simp [List.getElem?_eq_none (Nat.not_lt.mp hk)] at h

@[simp] theorem split_setSplit (g : Gang) (k : Nat) (o : Option Split) (j : Nat) (h : k < g.splits.length) :
    (g.setSplit k o).split j = if j = k then o else g.split j := by
  unfold Gang.split Gang.setSplit
  by_cases hj : j = k
  · subst hj; simp [h]
  · simp [hj, List.getElem?_set_ne (Ne.symm hj)]

theorem split_updSplit (g : Gang) (k : Nat) (f : Split → Split) (j : Nat) :
    (g.updSplit k f).split j = if j = k then (g.split k).map f else g.split j := by
  unfold Gang.updSplit
  cases h : g.split k with
  | some sp => simp [split_setSplit g k _ j (split_lt h)]
  | none =>
    by_cases hk : k < g.splits.length
    · simp [split_setSplit g k _ j hk]
    · by_cases hj : j = k
      · subst hj
        have : (g.splits.set j none)[j]? = none := List.getElem?_eq_none (by simpa using Nat.not_lt.mp hk)
        simp [Gang.split, Gang.setSplit, this]
      · simp [hj, Gang.split, Gang.setSplit, List.getElem?_set_ne (Ne.symm hj)]

@[simp] theorem setSplit_id (g : Gang) (k : Nat) (o : Option Split) : (g.setSplit k o).id = g.id := rfl
@[simp] theorem updSplit_id (g : Gang) (k : Nat) (f : Split → Split) : (g.updSplit k f).id = g.id := rfl

/-! ### Registers -/

@[simp] theorem sreg_setS (g : Gang) (d : Nat) (x : DWord) (m : Bool) (n : Nat) :
    (g.setS d x m).sreg n = if n = d then x else g.sreg n := by simp [Gang.sreg, Gang.setS]

theorem dwBit_getLsbD (d n : Nat) (hn : n < 64) : (dw (2 ^ d)).getLsbD n = decide (n = d) := by
  rw [dw, BitVec.getLsbD_ofNat, Nat.testBit_two_pow]
  simp only [hn, decide_true, Bool.true_and]
  exact decide_eq_decide.mpr ⟨Eq.symm, Eq.symm⟩

theorem smark_setS (g : Gang) (d : Nat) (x : DWord) (m : Bool) (n : Nat) (hn : n < 64) :
    (g.setS d x m).smark n = if n = d then m else g.smark n := by
  have hb := dwBit_getLsbD d n hn
  cases m
  · show (g.sPoison &&& ~~~ (dw (2 ^ d))).getLsbD n = _
    rw [BitVec.getLsbD_and, BitVec.getLsbD_not, hb]
    by_cases h : n = d <;> simp [h, hn, Gang.smark]
  · show (g.sPoison ||| dw (2 ^ d)).getLsbD n = _
    rw [BitVec.getLsbD_or, hb]
    by_cases h : n = d <;> simp [h, Gang.smark]

@[simp] theorem setS_id (g : Gang) (d : Nat) (x : DWord) (m : Bool) : (g.setS d x m).id = g.id := rfl

/-- What a write of a scalar leaves and does. -/
theorem wroteS_setS (g h : Gang) (d : Nat) (x : DWord) (m : Bool)
    (hh : { h with splits := g.splits } = g.setS d x m) : g.WroteS h d x m := by
  have hs : h.s = (g.setS d x m).s := by rw [← hh]
  have hp : h.sPoison = (g.setS d x m).sPoison := by rw [← hh]
  refine ⟨?_, fun n => ?_, fun n hn => ?_⟩
  · have : { h with s := g.s, sPoison := g.sPoison, splits := g.splits }
        = { { h with splits := g.splits } with s := g.s, sPoison := g.sPoison } := rfl
    rw [this, hh]; rfl
  · have := sreg_setS g d x m n
    simpa [Gang.sreg, hs] using this
  · have := smark_setS g d x m n hn
    simpa [Gang.smark, hp] using this

@[simp] theorem vlane_setLane (g : Gang) (d l : Nat) (x : Word) (m : Bool) (r k : Nat) (hl : l < 32) (hk : k < 32) :
    (g.setLane d l x m).vlane r k = if r = d ∧ k = l then x else g.vlane r k := by
  have : (32 * r + k = 32 * d + l) ↔ (r = d ∧ k = l) := by omega
  simp [Gang.vlane, Gang.setLane, this]

theorem vmarks_setLane (g : Gang) (d l : Nat) (x : Word) (m : Bool) (r k : Nat) (hk : k < 32) :
    ((g.setLane d l x m).vmarks r).getLsbD k = if r = d ∧ k = l then m else (g.vmarks r).getLsbD k := by
  have hb := laneBit_getLsbD l k hk
  unfold Gang.vmarks Gang.setLane
  by_cases hr : r = d
  · subst hr
    cases m <;> by_cases h : k = l <;> simp [Gang.vmarks, h, hk] <;> simp_all
  · simp [hr]

theorem setLane_frame (g : Gang) (d l : Nat) (x : Word) (m : Bool) :
    { g.setLane d l x m with v := g.v, vPoison := g.vPoison } = g := rfl

theorem setLanes_fold (ls : List Nat) (g : Gang) (d : Nat) (f : Nat → Word) (pf : Nat → Bool) (hls : ∀ l ∈ ls, l < 32) :
    (∀ r k, k < 32 → (ls.foldl (fun h l => h.setLane d l (f l) (pf l)) g).vlane r k
      = if r = d ∧ k ∈ ls then f k else g.vlane r k) ∧
    (∀ r k, k < 32 → ((ls.foldl (fun h l => h.setLane d l (f l) (pf l)) g).vmarks r).getLsbD k
      = if r = d ∧ k ∈ ls then pf k else (g.vmarks r).getLsbD k) ∧
    { ls.foldl (fun h l => h.setLane d l (f l) (pf l)) g with v := g.v, vPoison := g.vPoison } = g := by
  induction ls generalizing g with
  | nil => simp
  | cons l ls ih =>
    have h := ih (g.setLane d l (f l) (pf l)) (fun x hx => hls x (by simp [hx]))
    have hl := hls l (by simp)
    refine ⟨fun r k hk => ?_, fun r k hk => ?_, ?_⟩
    · rw [List.foldl_cons, h.1 r k hk, vlane_setLane g d l _ _ r k hl hk]
      by_cases h1 : k = l <;> by_cases h2 : r = d <;> by_cases h3 : k ∈ ls <;> simp_all
    · rw [List.foldl_cons, h.2.1 r k hk, vmarks_setLane g d l _ _ r k hk]
      by_cases h1 : k = l <;> by_cases h2 : r = d <;> by_cases h3 : k ∈ ls <;> simp_all
    · have e := h.2.2
      rw [List.foldl_cons]
      have : { (ls.foldl (fun h l => h.setLane d l (f l) (pf l)) (g.setLane d l (f l) (pf l))) with v := g.v, vPoison := g.vPoison }
          = { { (ls.foldl (fun h l => h.setLane d l (f l) (pf l)) (g.setLane d l (f l) (pf l))) with
                v := (g.setLane d l (f l) (pf l)).v, vPoison := (g.setLane d l (f l) (pf l)).vPoison } with
              v := g.v, vPoison := g.vPoison } := rfl
      rw [this, e]
      rfl

/-- What a write of lanes leaves and does. -/
theorem wroteV_setLanes (g h : Gang) (d : Nat) (m : Mask) (f : Nat → Word) (pf : Nat → Bool) (fl : Nat)
    (hh : { h with splits := g.splits } = (g.setLanes d m f pf).raise fl) : g.WroteV h d m f pf fl := by
  have hl : ∀ l ∈ lanesOf m, l < 32 := fun l hl => by simpa using (List.mem_filter.mp hl).1
  have k := setLanes_fold (lanesOf m) g d f pf hl
  have hv : h.v = (g.setLanes d m f pf).v := by
    have : ({ h with splits := g.splits } : Gang).v = ((g.setLanes d m f pf).raise fl).v := by rw [hh]
    exact this
  have hp : h.vPoison = (g.setLanes d m f pf).vPoison := by
    have : ({ h with splits := g.splits } : Gang).vPoison = ((g.setLanes d m f pf).raise fl).vPoison := by rw [hh]
    exact this
  have hf : h.fst = (g.setLanes d m f pf).fst ||| w32 fl := by
    have : ({ h with splits := g.splits } : Gang).fst = ((g.setLanes d m f pf).raise fl).fst := by rw [hh]
    exact this
  have hfst : (g.setLanes d m f pf).fst = g.fst := by
    have : ({ g.setLanes d m f pf with v := g.v, vPoison := g.vPoison } : Gang).fst = g.fst := by
      unfold Gang.setLanes; rw [k.2.2]
    exact this
  refine ⟨?_, fun r l hl => ?_, fun r l hl => ?_, ?_⟩
  · have e1 : { h with v := g.v, vPoison := g.vPoison, fst := g.fst, splits := g.splits }
        = { { h with splits := g.splits } with v := g.v, vPoison := g.vPoison, fst := g.fst } := rfl
    rw [e1, hh]
    have e2 : { (g.setLanes d m f pf).raise fl with v := g.v, vPoison := g.vPoison, fst := g.fst }
        = { { g.setLanes d m f pf with v := g.v, vPoison := g.vPoison } with fst := g.fst } := rfl
    have e3 : { g.setLanes d m f pf with v := g.v, vPoison := g.vPoison } = g := k.2.2
    rw [e2, e3]
  · have := k.1 r l hl
    simpa [Gang.vlane, hv, Gang.setLanes] using this
  · have := k.2.1 r l hl
    simpa [Gang.vmarks, hp, Gang.setLanes] using this
  · rw [hf, hfst]

theorem setLanes_id (g : Gang) (d : Nat) (m : Mask) (f : Nat → Word) (pf : Nat → Bool) : (g.setLanes d m f pf).id = g.id := by
  unfold Gang.setLanes
  generalize lanesOf m = ls
  induction ls generalizing g with
  | nil => rfl
  | cons l ls ih => exact ih _

@[simp] theorem raise_id (g : Gang) (fl : Nat) : (g.raise fl).id = g.id := rfl

theorem preg_setP (g : Gang) (d : Nat) (m x : Mask) (n : Nat) :
    (g.setP d m x).preg n = if n = d ∧ d ≠ 0 then (g.preg n &&& ~~~ m) ||| (x &&& m) else g.preg n := by
  unfold Gang.setP
  by_cases hd : d = 0
  · simp [hd]
  · by_cases hn : n = d
    · subst hn; simp [hd, Gang.preg]
    · simp [hd, hn, Gang.preg]

theorem setP_id (g : Gang) (d : Nat) (m x : Mask) : (g.setP d m x).id = g.id := by
  unfold Gang.setP; split <;> rfl

/-- What a write of a predicate leaves and does. -/
theorem wroteP_setP (g h : Gang) (d : Nat) (m x : Mask) (fl : Nat)
    (hh : { h with splits := g.splits } = (g.setP d m x).raise fl) : g.WroteP h d m x fl := by
  have hp : h.p = (g.setP d m x).p := by
    have : ({ h with splits := g.splits } : Gang).p = ((g.setP d m x).raise fl).p := by rw [hh]
    exact this
  have hf : h.fst = (g.setP d m x).fst ||| w32 fl := by
    have : ({ h with splits := g.splits } : Gang).fst = ((g.setP d m x).raise fl).fst := by rw [hh]
    exact this
  have hfst : (g.setP d m x).fst = g.fst := by unfold Gang.setP; split <;> rfl
  refine ⟨?_, fun n => ?_, by rw [hf, hfst]⟩
  · have e1 : { h with p := g.p, fst := g.fst, splits := g.splits }
        = { { h with splits := g.splits } with p := g.p, fst := g.fst } := rfl
    rw [e1, hh]
    unfold Gang.setP
    split <;> rfl
  · have := preg_setP g d m x n
    simpa [Gang.preg, hp] using this

/-! ### The end of an issue -/

/-- With nothing left over, the end of a step does nothing. -/
theorem settle_of_quiet {s : State} (h : s.Quiet) : s.settle = s := by
  have e : s.crews.filter (fun c => !c.ckpts.isEmpty) = [] := List.filter_eq_nil_iff.2 fun c hc => by simp [h.2.2 c hc]
  simp [State.settle, e, h.1, h.2.1]

/-- An instruction that is legal where it stands is performed. -/
theorem issue_legal {a : Accepts} {legal : Issue → Bool} {body : Issue → State → Res} {s : State} {i : Issue}
    (hi : s.issuer = some i) (ha : a.ok i.sp.hints = true) (hl : legal i = true) :
    issue a legal body s = .next (i.finish (body i (s.begin i))) := by
  simp [issue, hi, ha, hl]

/-- What the issuer is. -/
theorem issuer_eq {s : State} {i : Issue} (hi : s.issuer = some i) :
    s.gang i.g.id = some i.g ∧ i.g.split i.k = some i.sp := by
  unfold State.issuer at hi
  split at hi
  · cases hi
  · rename_i g hg
    cases hs : g.split s.cur.2 with
    | none => simp [hs] at hi
    | some sp =>
      simp only [hs, Option.map_some, Option.some.injEq] at hi
      subst hi
      exact ⟨by rw [gang_id hg]; exact hg, hs⟩

theorem gang_goOn (s : State) (id k : Nat) (pc : DWord) (j : Nat) :
    (s.goOn id k pc).gang j = if j = id then (s.gang j).map (fun g => g.updSplit k (fun sp => sp.next pc)) else s.gang j :=
  gang_updGang s id (fun g => g.updSplit k (fun sp => sp.next pc)) (fun _ => rfl) j

theorem gang_begin (s : State) (i : Issue) (j : Nat) :
    (s.begin i).gang j
      = if j = i.g.id then (s.gang j).map (fun g => g.setSplit i.k (some (i.sp.issued s.fresh))) else s.gang j :=
  gang_updGang { s with fresh := s.fresh + 1 } i.g.id (fun g => g.setSplit i.k (some (i.sp.issued s.fresh))) (fun _ => rfl) j

/-- A change of a gang that neither sees nor changes its splits. -/
def KeepsSplits (f : Gang → Gang) : Prop := ∀ (g : Gang) l, f { g with splits := l } = { f g with splits := l }

/-- The end of an instruction that changed its own gang by f alone: where it goes on, and what it leaves. -/
theorem performed_updGang {s : State} {i : Issue} (hi : s.issuer = some i) (hq : s.Quiet) (f : Gang → Gang) (pc : DWord)
    (hid : ∀ g, (f g).id = g.id) (hs : KeepsSplits f) :
    ∃ t h, i.finish (.goto ((s.begin i).updGang i.g.id f) pc) = t ∧ Performed s t i (i.after s.fresh pc) h ∧
      { h with splits := i.g.splits } = f i.g := by
  obtain ⟨hg, hsp⟩ := issuer_eq hi
  have hlt := split_lt hsp
  have hspl : ∀ g, (f g).splits = g.splits := fun g => by
    have : f g = { f g with splits := g.splits } := hs g g.splits
    rw [this]
  have hf : (f (i.g.setSplit i.k (some (i.sp.issued s.fresh)))).split = (i.g.setSplit i.k (some (i.sp.issued s.fresh))).split := by
    funext k; simp [Gang.split, hspl]
  refine ⟨((s.begin i).updGang i.g.id f).goOn i.g.id i.k pc,
    (f (i.g.setSplit i.k (some (i.sp.issued s.fresh)))).updSplit i.k (fun sp => sp.next pc),
    settle_of_quiet ⟨hq.1, hq.2⟩, ⟨?_, ⟨rfl, ?_⟩, ?_, ?_⟩, ?_⟩
  · rw [gang_goOn, gang_updGang _ _ _ hid, gang_begin]
    simp [hg]
  · intro j hj
    rw [gang_goOn, gang_updGang _ _ _ hid, gang_begin]
    simp [hj]
  · rw [split_updSplit, hf, split_setSplit _ _ _ _ hlt]
    simp [Split.issued, Split.next, Issue.after]
  · intro k hk
    rw [split_updSplit, hf]
    simp only [hk, if_false]
    rw [split_setSplit _ _ _ _ hlt]
    simp [hk]
  · have e := hs i.g (i.g.splits.set i.k (some (i.sp.issued s.fresh)))
    have e2 : { f i.g with splits := i.g.splits } = f i.g := (hs i.g i.g.splits).symm
    show { f { i.g with splits := i.g.splits.set i.k (some (i.sp.issued s.fresh)) } with splits := i.g.splits } = f i.g
    rw [e]
    exact e2

theorem keepsSplits_setS (d : Nat) (x : DWord) (m : Bool) : KeepsSplits (fun g => g.setS d x m) := fun _ _ => rfl

theorem keepsSplits_setLanes (d : Nat) (m : Mask) (f : Nat → Word) (pf : Nat → Bool) (fl : Nat) :
    KeepsSplits (fun g => (g.setLanes d m f pf).raise fl) := by
  intro g l
  have : ∀ (ls : List Nat) (g : Gang), ls.foldl (fun h l => h.setLane d l (f l) (pf l)) { g with splits := l }
      = { ls.foldl (fun h l => h.setLane d l (f l) (pf l)) g with splits := l } := by
    intro ls
    induction ls with
    | nil => intro g; rfl
    | cons x xs ih => intro g; exact ih (g.setLane d x (f x) (pf x))
  show (Gang.setLanes _ d m f pf).raise fl = _
  unfold Gang.setLanes
  rw [this]
  rfl

theorem keepsSplits_setP (d : Nat) (m x : Mask) (fl : Nat) : KeepsSplits (fun g => (g.setP d m x).raise fl) := by
  intro g l
  simp only [Gang.setP, Gang.raise, Gang.preg]
  split <;> rfl

/-- An instruction whose only effect is to write a scalar. -/
theorem performs_setS {s : State} {i : Issue} {a : Accepts} {legal : Issue → Bool} {body : Issue → State → Res}
    (hi : s.issuer = some i) (hq : s.Quiet) (ha : a.ok i.sp.hints = true) (hl : legal i = true) (d : Nat) (x : DWord) (m : Bool)
    (hb : body i (s.begin i) = .done ((s.begin i).updGang i.g.id (fun g => g.setS d x m))) :
    ∃ t h, issue a legal body s = .next t ∧ Performed s t i (i.after s.fresh (i.sp.pc + 4)) h ∧ i.g.WroteS h d x m := by
  obtain ⟨t, h, ht, hp, hh⟩ := performed_updGang hi hq (fun g => g.setS d x m) (i.sp.pc + 4) (fun _ => rfl) (keepsSplits_setS d x m)
  exact ⟨t, h, by rw [issue_legal hi ha hl, hb, ← ht]; rfl, hp, wroteS_setS _ _ _ _ _ hh⟩

/-- An instruction whose only effect is to write lanes of a vector register. -/
theorem performs_setLanes {s : State} {i : Issue} {a : Accepts} {legal : Issue → Bool} {body : Issue → State → Res}
    (hi : s.issuer = some i) (hq : s.Quiet) (ha : a.ok i.sp.hints = true) (hl : legal i = true) (d : Nat) (m : Mask)
    (f : Nat → Word) (pf : Nat → Bool) (fl : Nat)
    (hb : body i (s.begin i) = .done ((s.begin i).updGang i.g.id (fun g => (g.setLanes d m f pf).raise fl))) :
    ∃ t h, issue a legal body s = .next t ∧ Performed s t i (i.after s.fresh (i.sp.pc + 4)) h ∧ i.g.WroteV h d m f pf fl := by
  obtain ⟨t, h, ht, hp, hh⟩ := performed_updGang hi hq (fun g => (g.setLanes d m f pf).raise fl) (i.sp.pc + 4)
    (fun g => setLanes_id g d m f pf) (keepsSplits_setLanes d m f pf fl)
  exact ⟨t, h, by rw [issue_legal hi ha hl, hb, ← ht]; rfl, hp, wroteV_setLanes _ _ _ _ _ _ _ hh⟩

/-- An instruction whose only effect is to write a predicate. -/
theorem performs_setP {s : State} {i : Issue} {a : Accepts} {legal : Issue → Bool} {body : Issue → State → Res}
    (hi : s.issuer = some i) (hq : s.Quiet) (ha : a.ok i.sp.hints = true) (hl : legal i = true) (d : Nat) (m x : Mask) (fl : Nat)
    (hb : body i (s.begin i) = .done ((s.begin i).updGang i.g.id (fun g => (g.setP d m x).raise fl))) :
    ∃ t h, issue a legal body s = .next t ∧ Performed s t i (i.after s.fresh (i.sp.pc + 4)) h ∧ i.g.WroteP h d m x fl := by
  obtain ⟨t, h, ht, hp, hh⟩ := performed_updGang hi hq (fun g => (g.setP d m x).raise fl) (i.sp.pc + 4)
    (fun g => setP_id g d m x) (keepsSplits_setP d m x fl)
  exact ⟨t, h, by rw [issue_legal hi ha hl, hb, ← ht]; rfl, hp, wroteP_setP _ _ _ _ _ _ hh⟩

/-- An instruction whose only effect is where its split goes on. -/
theorem performs_goto {s : State} {i : Issue} {a : Accepts} {legal : Issue → Bool} {body : Issue → State → Res}
    (hi : s.issuer = some i) (hq : s.Quiet) (ha : a.ok i.sp.hints = true) (hl : legal i = true) (pc : DWord)
    (hb : i.finish (body i (s.begin i)) = i.finish (.goto (s.begin i) pc)) :
    ∃ t h, issue a legal body s = .next t ∧ Performed s t i (i.after s.fresh pc) h ∧ i.g.Same h := by
  obtain ⟨t, h, ht, hp, hh⟩ := performed_updGang hi hq id pc (fun _ => rfl) (fun _ _ => rfl)
  have e : (s.begin i).updGang i.g.id id = s.begin i := by simp [State.updGang]
  rw [e] at ht
  exact ⟨t, h, by rw [issue_legal hi ha hl, hb, ht], hp, hh⟩

end Sys2Proof.Machine
end

