-- ==== Sys2Proof/Laws/PerInstr.lean ====
section
/-! SUPPORT. What holds of every instruction as syntax, one lemma per constructor: its word is one of 32 bits. -/

namespace Sys2Proof.Laws

/-- A field below some bits takes as many more. -/
theorem snoc_lt {k m hi : Nat} (x : BitVec k) (h : hi < 2 ^ m) : snoc hi x < 2 ^ (m + k) := by
  unfold snoc
  have h1 : hi * 2 ^ k + 2 ^ k ≤ 2 ^ m * 2 ^ k := by
    rw [← Nat.succ_mul]; exact Nat.mul_le_mul_right _ h
  rw [Nat.pow_add]; exact lt_of_lt_of_le (Nat.add_lt_add_left x.isLt _) h1

/-- The bits of an encoding fit one word (R25). -/
def Fits.Statement (i : Instr) : Prop := encodeNat i < 2 ^ 32

theorem Fits.add x0 x1 x2 : Fits.Statement (.add x0 x1 x2) := snoc_lt _ (snoc_lt _ (snoc_lt _ (snoc_lt _ (snoc_lt _ (Nat.one_pos : 0 < 2 ^ 0)))))
theorem Fits.sub x0 x1 x2 : Fits.Statement (.sub x0 x1 x2) := snoc_lt _ (snoc_lt _ (snoc_lt _ (snoc_lt _ (snoc_lt _ (Nat.one_pos : 0 < 2 ^ 0)))))
theorem Fits.and x0 x1 x2 : Fits.Statement (.and x0 x1 x2) := snoc_lt _ (snoc_lt _ (snoc_lt _ (snoc_lt _ (snoc_lt _ (Nat.one_pos : 0 < 2 ^ 0)))))
theorem Fits.or x0 x1 x2 : Fits.Statement (.or x0 x1 x2) := snoc_lt _ (snoc_lt _ (snoc_lt _ (snoc_lt _ (snoc_lt _ (Nat.one_pos : 0 < 2 ^ 0)))))
theorem Fits.xor x0 x1 x2 : Fits.Statement (.xor x0 x1 x2) := snoc_lt _ (snoc_lt _ (snoc_lt _ (snoc_lt _ (snoc_lt _ (Nat.one_pos : 0 < 2 ^ 0)))))
theorem Fits.andn x0 x1 x2 : Fits.Statement (.andn x0 x1 x2) := snoc_lt _ (snoc_lt _ (snoc_lt _ (snoc_lt _ (snoc_lt _ (Nat.one_pos : 0 < 2 ^ 0)))))
theorem Fits.sll x0 x1 x2 : Fits.Statement (.sll x0 x1 x2) := snoc_lt _ (snoc_lt _ (snoc_lt _ (snoc_lt _ (snoc_lt _ (Nat.one_pos : 0 < 2 ^ 0)))))
theorem Fits.srl x0 x1 x2 : Fits.Statement (.srl x0 x1 x2) := snoc_lt _ (snoc_lt _ (snoc_lt _ (snoc_lt _ (snoc_lt _ (Nat.one_pos : 0 < 2 ^ 0)))))
theorem Fits.sra x0 x1 x2 : Fits.Statement (.sra x0 x1 x2) := snoc_lt _ (snoc_lt _ (snoc_lt _ (snoc_lt _ (snoc_lt _ (Nat.one_pos : 0 < 2 ^ 0)))))
theorem Fits.rol x0 x1 x2 : Fits.Statement (.rol x0 x1 x2) := snoc_lt _ (snoc_lt _ (snoc_lt _ (snoc_lt _ (snoc_lt _ (Nat.one_pos : 0 < 2 ^ 0)))))
theorem Fits.ror x0 x1 x2 : Fits.Statement (.ror x0 x1 x2) := snoc_lt _ (snoc_lt _ (snoc_lt _ (snoc_lt _ (snoc_lt _ (Nat.one_pos : 0 < 2 ^ 0)))))
theorem Fits.slt x0 x1 x2 : Fits.Statement (.slt x0 x1 x2) := snoc_lt _ (snoc_lt _ (snoc_lt _ (snoc_lt _ (snoc_lt _ (Nat.one_pos : 0 < 2 ^ 0)))))
theorem Fits.sltz x0 x1 x2 : Fits.Statement (.sltz x0 x1 x2) := snoc_lt _ (snoc_lt _ (snoc_lt _ (snoc_lt _ (snoc_lt _ (Nat.one_pos : 0 < 2 ^ 0)))))
theorem Fits.seq x0 x1 x2 : Fits.Statement (.seq x0 x1 x2) := snoc_lt _ (snoc_lt _ (snoc_lt _ (snoc_lt _ (snoc_lt _ (Nat.one_pos : 0 < 2 ^ 0)))))
theorem Fits.minS x0 x1 x2 : Fits.Statement (.minS x0 x1 x2) := snoc_lt _ (snoc_lt _ (snoc_lt _ (snoc_lt _ (snoc_lt _ (Nat.one_pos : 0 < 2 ^ 0)))))
theorem Fits.maxS x0 x1 x2 : Fits.Statement (.maxS x0 x1 x2) := snoc_lt _ (snoc_lt _ (snoc_lt _ (snoc_lt _ (snoc_lt _ (Nat.one_pos : 0 < 2 ^ 0)))))
theorem Fits.minZ x0 x1 x2 : Fits.Statement (.minZ x0 x1 x2) := snoc_lt _ (snoc_lt _ (snoc_lt _ (snoc_lt _ (snoc_lt _ (Nat.one_pos : 0 < 2 ^ 0)))))
theorem Fits.maxZ x0 x1 x2 : Fits.Statement (.maxZ x0 x1 x2) := snoc_lt _ (snoc_lt _ (snoc_lt _ (snoc_lt _ (snoc_lt _ (Nat.one_pos : 0 < 2 ^ 0)))))
theorem Fits.mul x0 x1 x2 : Fits.Statement (.mul x0 x1 x2) := snoc_lt _ (snoc_lt _ (snoc_lt _ (snoc_lt _ (snoc_lt _ (Nat.one_pos : 0 < 2 ^ 0)))))
theorem Fits.mulhS x0 x1 x2 : Fits.Statement (.mulhS x0 x1 x2) := snoc_lt _ (snoc_lt _ (snoc_lt _ (snoc_lt _ (snoc_lt _ (Nat.one_pos : 0 < 2 ^ 0)))))
theorem Fits.mulhZ x0 x1 x2 : Fits.Statement (.mulhZ x0 x1 x2) := snoc_lt _ (snoc_lt _ (snoc_lt _ (snoc_lt _ (snoc_lt _ (Nat.one_pos : 0 < 2 ^ 0)))))
theorem Fits.divS x0 x1 x2 : Fits.Statement (.divS x0 x1 x2) := snoc_lt _ (snoc_lt _ (snoc_lt _ (snoc_lt _ (snoc_lt _ (Nat.one_pos : 0 < 2 ^ 0)))))
theorem Fits.divZ x0 x1 x2 : Fits.Statement (.divZ x0 x1 x2) := snoc_lt _ (snoc_lt _ (snoc_lt _ (snoc_lt _ (snoc_lt _ (Nat.one_pos : 0 < 2 ^ 0)))))
theorem Fits.remS x0 x1 x2 : Fits.Statement (.remS x0 x1 x2) := snoc_lt _ (snoc_lt _ (snoc_lt _ (snoc_lt _ (snoc_lt _ (Nat.one_pos : 0 < 2 ^ 0)))))
theorem Fits.remZ x0 x1 x2 : Fits.Statement (.remZ x0 x1 x2) := snoc_lt _ (snoc_lt _ (snoc_lt _ (snoc_lt _ (snoc_lt _ (Nat.one_pos : 0 < 2 ^ 0)))))
theorem Fits.clz x0 x1 : Fits.Statement (.clz x0 x1) := snoc_lt _ (snoc_lt _ (snoc_lt _ (snoc_lt _ (snoc_lt _ (Nat.one_pos : 0 < 2 ^ 0)))))
theorem Fits.ctz x0 x1 : Fits.Statement (.ctz x0 x1) := snoc_lt _ (snoc_lt _ (snoc_lt _ (snoc_lt _ (snoc_lt _ (Nat.one_pos : 0 < 2 ^ 0)))))
theorem Fits.popc x0 x1 : Fits.Statement (.popc x0 x1) := snoc_lt _ (snoc_lt _ (snoc_lt _ (snoc_lt _ (snoc_lt _ (Nat.one_pos : 0 < 2 ^ 0)))))
theorem Fits.brev x0 x1 : Fits.Statement (.brev x0 x1) := snoc_lt _ (snoc_lt _ (snoc_lt _ (snoc_lt _ (snoc_lt _ (Nat.one_pos : 0 < 2 ^ 0)))))
theorem Fits.bswap x0 x1 : Fits.Statement (.bswap x0 x1) := snoc_lt _ (snoc_lt _ (snoc_lt _ (snoc_lt _ (snoc_lt _ (Nat.one_pos : 0 < 2 ^ 0)))))
theorem Fits.sextS8 x0 x1 : Fits.Statement (.sextS8 x0 x1) := snoc_lt _ (snoc_lt _ (snoc_lt _ (snoc_lt _ (snoc_lt _ (Nat.one_pos : 0 < 2 ^ 0)))))
theorem Fits.sextS16 x0 x1 : Fits.Statement (.sextS16 x0 x1) := snoc_lt _ (snoc_lt _ (snoc_lt _ (snoc_lt _ (snoc_lt _ (Nat.one_pos : 0 < 2 ^ 0)))))
theorem Fits.sextS32 x0 x1 : Fits.Statement (.sextS32 x0 x1) := snoc_lt _ (snoc_lt _ (snoc_lt _ (snoc_lt _ (snoc_lt _ (Nat.one_pos : 0 < 2 ^ 0)))))
theorem Fits.zextZ32 x0 x1 : Fits.Statement (.zextZ32 x0 x1) := snoc_lt _ (snoc_lt _ (snoc_lt _ (snoc_lt _ (snoc_lt _ (Nat.one_pos : 0 < 2 ^ 0)))))
theorem Fits.addW x0 x1 x2 : Fits.Statement (.addW x0 x1 x2) := snoc_lt _ (snoc_lt _ (snoc_lt _ (snoc_lt _ (snoc_lt _ (Nat.one_pos : 0 < 2 ^ 0)))))
theorem Fits.subW x0 x1 x2 : Fits.Statement (.subW x0 x1 x2) := snoc_lt _ (snoc_lt _ (snoc_lt _ (snoc_lt _ (snoc_lt _ (Nat.one_pos : 0 < 2 ^ 0)))))
theorem Fits.mulW x0 x1 x2 : Fits.Statement (.mulW x0 x1 x2) := snoc_lt _ (snoc_lt _ (snoc_lt _ (snoc_lt _ (snoc_lt _ (Nat.one_pos : 0 < 2 ^ 0)))))
theorem Fits.addi x0 x1 x2 : Fits.Statement (.addi x0 x1 x2) := snoc_lt _ (snoc_lt _ (snoc_lt _ (snoc_lt _ (Nat.one_pos : 0 < 2 ^ 0))))
theorem Fits.andi x0 x1 x2 : Fits.Statement (.andi x0 x1 x2) := snoc_lt _ (snoc_lt _ (snoc_lt _ (snoc_lt _ (Nat.one_pos : 0 < 2 ^ 0))))
theorem Fits.ori x0 x1 x2 : Fits.Statement (.ori x0 x1 x2) := snoc_lt _ (snoc_lt _ (snoc_lt _ (snoc_lt _ (Nat.one_pos : 0 < 2 ^ 0))))
theorem Fits.xori x0 x1 x2 : Fits.Statement (.xori x0 x1 x2) := snoc_lt _ (snoc_lt _ (snoc_lt _ (snoc_lt _ (Nat.one_pos : 0 < 2 ^ 0))))
theorem Fits.slti x0 x1 x2 : Fits.Statement (.slti x0 x1 x2) := snoc_lt _ (snoc_lt _ (snoc_lt _ (snoc_lt _ (Nat.one_pos : 0 < 2 ^ 0))))
theorem Fits.sltiz x0 x1 x2 : Fits.Statement (.sltiz x0 x1 x2) := snoc_lt _ (snoc_lt _ (snoc_lt _ (snoc_lt _ (Nat.one_pos : 0 < 2 ^ 0))))
theorem Fits.slli x0 x1 x2 : Fits.Statement (.slli x0 x1 x2) := snoc_lt _ (snoc_lt _ (snoc_lt _ (snoc_lt _ (snoc_lt _ (snoc_lt _ (Nat.one_pos : 0 < 2 ^ 0))))))
theorem Fits.srli x0 x1 x2 : Fits.Statement (.srli x0 x1 x2) := snoc_lt _ (snoc_lt _ (snoc_lt _ (snoc_lt _ (snoc_lt _ (snoc_lt _ (Nat.one_pos : 0 < 2 ^ 0))))))
theorem Fits.srai x0 x1 x2 : Fits.Statement (.srai x0 x1 x2) := snoc_lt _ (snoc_lt _ (snoc_lt _ (snoc_lt _ (snoc_lt _ (snoc_lt _ (Nat.one_pos : 0 < 2 ^ 0))))))
theorem Fits.rori x0 x1 x2 : Fits.Statement (.rori x0 x1 x2) := snoc_lt _ (snoc_lt _ (snoc_lt _ (snoc_lt _ (snoc_lt _ (snoc_lt _ (Nat.one_pos : 0 < 2 ^ 0))))))
theorem Fits.slliW x0 x1 x2 : Fits.Statement (.slliW x0 x1 x2) := snoc_lt _ (snoc_lt _ (snoc_lt _ (snoc_lt _ (snoc_lt _ (snoc_lt _ (Nat.one_pos : 0 < 2 ^ 0))))))
theorem Fits.srliW x0 x1 x2 : Fits.Statement (.srliW x0 x1 x2) := snoc_lt _ (snoc_lt _ (snoc_lt _ (snoc_lt _ (snoc_lt _ (snoc_lt _ (Nat.one_pos : 0 < 2 ^ 0))))))
theorem Fits.sraiW x0 x1 x2 : Fits.Statement (.sraiW x0 x1 x2) := snoc_lt _ (snoc_lt _ (snoc_lt _ (snoc_lt _ (snoc_lt _ (snoc_lt _ (Nat.one_pos : 0 < 2 ^ 0))))))
theorem Fits.roriW x0 x1 x2 : Fits.Statement (.roriW x0 x1 x2) := snoc_lt _ (snoc_lt _ (snoc_lt _ (snoc_lt _ (snoc_lt _ (snoc_lt _ (Nat.one_pos : 0 < 2 ^ 0))))))
theorem Fits.lui x0 x1 : Fits.Statement (.lui x0 x1) := snoc_lt _ (snoc_lt _ (snoc_lt _ (Nat.one_pos : 0 < 2 ^ 0)))
theorem Fits.addpc x0 x1 : Fits.Statement (.addpc x0 x1) := snoc_lt _ (snoc_lt _ (snoc_lt _ (Nat.one_pos : 0 < 2 ^ 0)))
theorem Fits.addcb x0 x1 : Fits.Statement (.addcb x0 x1) := snoc_lt _ (snoc_lt _ (snoc_lt _ (Nat.one_pos : 0 < 2 ^ 0)))
theorem Fits.ld x0 x1 x2 x3 x4 : Fits.Statement (.ld x0 x1 x2 x3 x4) := snoc_lt _ (snoc_lt _ (snoc_lt _ (snoc_lt _ (snoc_lt _ (snoc_lt _ (Nat.one_pos : 0 < 2 ^ 0))))))
theorem Fits.st x0 x1 x2 x3 : Fits.Statement (.st x0 x1 x2 x3) := snoc_lt _ (snoc_lt _ (snoc_lt _ (snoc_lt _ (snoc_lt _ (snoc_lt _ (Nat.one_pos : 0 < 2 ^ 0))))))
theorem Fits.beqz x0 x1 : Fits.Statement (.beqz x0 x1) := snoc_lt _ (snoc_lt _ (snoc_lt _ (snoc_lt _ (Nat.one_pos : 0 < 2 ^ 0))))
theorem Fits.bnez x0 x1 : Fits.Statement (.bnez x0 x1) := snoc_lt _ (snoc_lt _ (snoc_lt _ (snoc_lt _ (Nat.one_pos : 0 < 2 ^ 0))))
theorem Fits.bltz x0 x1 : Fits.Statement (.bltz x0 x1) := snoc_lt _ (snoc_lt _ (snoc_lt _ (snoc_lt _ (Nat.one_pos : 0 < 2 ^ 0))))
theorem Fits.bgez x0 x1 : Fits.Statement (.bgez x0 x1) := snoc_lt _ (snoc_lt _ (snoc_lt _ (snoc_lt _ (Nat.one_pos : 0 < 2 ^ 0))))
theorem Fits.bgtz x0 x1 : Fits.Statement (.bgtz x0 x1) := snoc_lt _ (snoc_lt _ (snoc_lt _ (snoc_lt _ (Nat.one_pos : 0 < 2 ^ 0))))
theorem Fits.blez x0 x1 : Fits.Statement (.blez x0 x1) := snoc_lt _ (snoc_lt _ (snoc_lt _ (snoc_lt _ (Nat.one_pos : 0 < 2 ^ 0))))
theorem Fits.bany x0 x1 : Fits.Statement (.bany x0 x1) := snoc_lt _ (snoc_lt _ (snoc_lt _ (snoc_lt _ (snoc_lt _ (Nat.one_pos : 0 < 2 ^ 0)))))
theorem Fits.ball x0 x1 : Fits.Statement (.ball x0 x1) := snoc_lt _ (snoc_lt _ (snoc_lt _ (snoc_lt _ (snoc_lt _ (Nat.one_pos : 0 < 2 ^ 0)))))
theorem Fits.bnone x0 x1 : Fits.Statement (.bnone x0 x1) := snoc_lt _ (snoc_lt _ (snoc_lt _ (snoc_lt _ (snoc_lt _ (Nat.one_pos : 0 < 2 ^ 0)))))
theorem Fits.bnall x0 x1 : Fits.Statement (.bnall x0 x1) := snoc_lt _ (snoc_lt _ (snoc_lt _ (snoc_lt _ (snoc_lt _ (Nat.one_pos : 0 < 2 ^ 0)))))
theorem Fits.braD x0 x1 x2 : Fits.Statement (.braD x0 x1 x2) := snoc_lt _ (snoc_lt _ (snoc_lt _ (snoc_lt _ (Nat.one_pos : 0 < 2 ^ 0))))
theorem Fits.jmp x0 : Fits.Statement (.jmp x0) := snoc_lt _ (snoc_lt _ (Nat.one_pos : 0 < 2 ^ 0))
theorem Fits.call x0 : Fits.Statement (.call x0) := snoc_lt _ (snoc_lt _ (Nat.one_pos : 0 < 2 ^ 0))
theorem Fits.nop : Fits.Statement (.nop) := snoc_lt _ (snoc_lt _ (snoc_lt _ (Nat.one_pos : 0 < 2 ^ 0)))
theorem Fits.jr x0 : Fits.Statement (.jr x0) := snoc_lt _ (snoc_lt _ (snoc_lt _ (snoc_lt _ (snoc_lt _ (snoc_lt _ (Nat.one_pos : 0 < 2 ^ 0))))))
theorem Fits.jrL x0 x1 : Fits.Statement (.jrL x0 x1) := snoc_lt _ (snoc_lt _ (snoc_lt _ (snoc_lt _ (snoc_lt _ (snoc_lt _ (Nat.one_pos : 0 < 2 ^ 0))))))
theorem Fits.ret : Fits.Statement (.ret) := snoc_lt _ (snoc_lt _ (snoc_lt _ (Nat.one_pos : 0 < 2 ^ 0)))
theorem Fits.exit x0 : Fits.Statement (.exit x0) := snoc_lt _ (snoc_lt _ (snoc_lt _ (snoc_lt _ (Nat.one_pos : 0 < 2 ^ 0))))
theorem Fits.trap x0 x1 : Fits.Statement (.trap x0 x1) := snoc_lt _ (snoc_lt _ (snoc_lt _ (snoc_lt _ (snoc_lt _ (Nat.one_pos : 0 < 2 ^ 0)))))
theorem Fits.brk x0 : Fits.Statement (.brk x0) := snoc_lt _ (snoc_lt _ (snoc_lt _ (snoc_lt _ (snoc_lt _ (Nat.one_pos : 0 < 2 ^ 0)))))
theorem Fits.yield : Fits.Statement (.yield) := snoc_lt _ (snoc_lt _ (snoc_lt _ (Nat.one_pos : 0 < 2 ^ 0)))
theorem Fits.setfmt x0 : Fits.Statement (.setfmt x0) := snoc_lt _ (snoc_lt _ (snoc_lt _ (snoc_lt _ (Nat.one_pos : 0 < 2 ^ 0))))
theorem Fits.getfmt x0 : Fits.Statement (.getfmt x0) := snoc_lt _ (snoc_lt _ (snoc_lt _ (snoc_lt _ (snoc_lt _ (Nat.one_pos : 0 < 2 ^ 0)))))
theorem Fits.safept x0 : Fits.Statement (.safept x0) := snoc_lt _ (snoc_lt _ (snoc_lt _ (snoc_lt _ (Nat.one_pos : 0 < 2 ^ 0))))
theorem Fits.barInit x0 x1 x2 : Fits.Statement (.barInit x0 x1 x2) := snoc_lt _ (snoc_lt _ (snoc_lt _ (snoc_lt _ (snoc_lt _ (snoc_lt _ (Nat.one_pos : 0 < 2 ^ 0))))))
theorem Fits.barArrive x0 x1 x2 : Fits.Statement (.barArrive x0 x1 x2) := snoc_lt _ (snoc_lt _ (snoc_lt _ (snoc_lt _ (snoc_lt _ (snoc_lt _ (Nat.one_pos : 0 < 2 ^ 0))))))
theorem Fits.barWait x0 x1 : Fits.Statement (.barWait x0 x1) := snoc_lt _ (snoc_lt _ (snoc_lt _ (snoc_lt _ (snoc_lt _ (Nat.one_pos : 0 < 2 ^ 0)))))
theorem Fits.barSync x0 x1 x2 : Fits.Statement (.barSync x0 x1 x2) := snoc_lt _ (snoc_lt _ (snoc_lt _ (snoc_lt _ (snoc_lt _ (snoc_lt _ (Nat.one_pos : 0 < 2 ^ 0))))))
theorem Fits.barGen x0 x1 : Fits.Statement (.barGen x0 x1) := snoc_lt _ (snoc_lt _ (snoc_lt _ (snoc_lt _ (snoc_lt _ (Nat.one_pos : 0 < 2 ^ 0)))))
theorem Fits.barObs x0 : Fits.Statement (.barObs x0) := snoc_lt _ (snoc_lt _ (snoc_lt _ (snoc_lt _ (Nat.one_pos : 0 < 2 ^ 0))))
theorem Fits.barDrop x0 : Fits.Statement (.barDrop x0) := snoc_lt _ (snoc_lt _ (snoc_lt _ (snoc_lt _ (Nat.one_pos : 0 < 2 ^ 0))))
theorem Fits.cjoin x0 : Fits.Statement (.cjoin x0) := snoc_lt _ (snoc_lt _ (snoc_lt _ (snoc_lt _ (Nat.one_pos : 0 < 2 ^ 0))))
theorem Fits.cleave x0 : Fits.Statement (.cleave x0) := snoc_lt _ (snoc_lt _ (snoc_lt _ (snoc_lt _ (Nat.one_pos : 0 < 2 ^ 0))))
theorem Fits.cmask x0 : Fits.Statement (.cmask x0) := snoc_lt _ (snoc_lt _ (snoc_lt _ (snoc_lt _ (Nat.one_pos : 0 < 2 ^ 0))))
theorem Fits.crank x0 : Fits.Statement (.crank x0) := snoc_lt _ (snoc_lt _ (snoc_lt _ (snoc_lt _ (Nat.one_pos : 0 < 2 ^ 0))))
theorem Fits.vfadd x0 x1 x2 x3 x4 : Fits.Statement (.vfadd x0 x1 x2 x3 x4) := snoc_lt _ (snoc_lt _ (snoc_lt _ (snoc_lt _ (snoc_lt _ (snoc_lt _ (snoc_lt _ (Nat.one_pos : 0 < 2 ^ 0)))))))
theorem Fits.vfsub x0 x1 x2 x3 x4 : Fits.Statement (.vfsub x0 x1 x2 x3 x4) := snoc_lt _ (snoc_lt _ (snoc_lt _ (snoc_lt _ (snoc_lt _ (snoc_lt _ (snoc_lt _ (Nat.one_pos : 0 < 2 ^ 0)))))))
theorem Fits.vfmul x0 x1 x2 x3 x4 : Fits.Statement (.vfmul x0 x1 x2 x3 x4) := snoc_lt _ (snoc_lt _ (snoc_lt _ (snoc_lt _ (snoc_lt _ (snoc_lt _ (snoc_lt _ (Nat.one_pos : 0 < 2 ^ 0)))))))
theorem Fits.vfdiv x0 x1 x2 x3 x4 : Fits.Statement (.vfdiv x0 x1 x2 x3 x4) := snoc_lt _ (snoc_lt _ (snoc_lt _ (snoc_lt _ (snoc_lt _ (snoc_lt _ (snoc_lt _ (Nat.one_pos : 0 < 2 ^ 0)))))))
theorem Fits.vfmin x0 x1 x2 x3 x4 : Fits.Statement (.vfmin x0 x1 x2 x3 x4) := snoc_lt _ (snoc_lt _ (snoc_lt _ (snoc_lt _ (snoc_lt _ (snoc_lt _ (snoc_lt _ (Nat.one_pos : 0 < 2 ^ 0)))))))
theorem Fits.vfmax x0 x1 x2 x3 x4 : Fits.Statement (.vfmax x0 x1 x2 x3 x4) := snoc_lt _ (snoc_lt _ (snoc_lt _ (snoc_lt _ (snoc_lt _ (snoc_lt _ (snoc_lt _ (Nat.one_pos : 0 < 2 ^ 0)))))))
theorem Fits.vfabs x0 x1 x2 x3 : Fits.Statement (.vfabs x0 x1 x2 x3) := snoc_lt _ (snoc_lt _ (snoc_lt _ (snoc_lt _ (snoc_lt _ (snoc_lt _ (snoc_lt _ (Nat.one_pos : 0 < 2 ^ 0)))))))
theorem Fits.vfneg x0 x1 x2 x3 : Fits.Statement (.vfneg x0 x1 x2 x3) := snoc_lt _ (snoc_lt _ (snoc_lt _ (snoc_lt _ (snoc_lt _ (snoc_lt _ (snoc_lt _ (Nat.one_pos : 0 < 2 ^ 0)))))))
theorem Fits.vffma x0 x1 x2 x3 x4 : Fits.Statement (.vffma x0 x1 x2 x3 x4) := snoc_lt _ (snoc_lt _ (snoc_lt _ (snoc_lt _ (snoc_lt _ (snoc_lt _ (snoc_lt _ (Nat.one_pos : 0 < 2 ^ 0)))))))
theorem Fits.vffms x0 x1 x2 x3 x4 : Fits.Statement (.vffms x0 x1 x2 x3 x4) := snoc_lt _ (snoc_lt _ (snoc_lt _ (snoc_lt _ (snoc_lt _ (snoc_lt _ (snoc_lt _ (Nat.one_pos : 0 < 2 ^ 0)))))))
theorem Fits.vfnma x0 x1 x2 x3 x4 : Fits.Statement (.vfnma x0 x1 x2 x3 x4) := snoc_lt _ (snoc_lt _ (snoc_lt _ (snoc_lt _ (snoc_lt _ (snoc_lt _ (snoc_lt _ (Nat.one_pos : 0 < 2 ^ 0)))))))
theorem Fits.vfnms x0 x1 x2 x3 x4 : Fits.Statement (.vfnms x0 x1 x2 x3 x4) := snoc_lt _ (snoc_lt _ (snoc_lt _ (snoc_lt _ (snoc_lt _ (snoc_lt _ (snoc_lt _ (Nat.one_pos : 0 < 2 ^ 0)))))))
theorem Fits.vfsqrt x0 x1 x2 : Fits.Statement (.vfsqrt x0 x1 x2) := snoc_lt _ (snoc_lt _ (snoc_lt _ (snoc_lt _ (snoc_lt _ (snoc_lt _ (Nat.one_pos : 0 < 2 ^ 0))))))
theorem Fits.vfrcp x0 x1 x2 : Fits.Statement (.vfrcp x0 x1 x2) := snoc_lt _ (snoc_lt _ (snoc_lt _ (snoc_lt _ (snoc_lt _ (snoc_lt _ (Nat.one_pos : 0 < 2 ^ 0))))))
theorem Fits.vfrsq x0 x1 x2 : Fits.Statement (.vfrsq x0 x1 x2) := snoc_lt _ (snoc_lt _ (snoc_lt _ (snoc_lt _ (snoc_lt _ (snoc_lt _ (Nat.one_pos : 0 < 2 ^ 0))))))
theorem Fits.vfexp x0 x1 x2 : Fits.Statement (.vfexp x0 x1 x2) := snoc_lt _ (snoc_lt _ (snoc_lt _ (snoc_lt _ (snoc_lt _ (snoc_lt _ (Nat.one_pos : 0 < 2 ^ 0))))))
theorem Fits.vflog2 x0 x1 x2 : Fits.Statement (.vflog2 x0 x1 x2) := snoc_lt _ (snoc_lt _ (snoc_lt _ (snoc_lt _ (snoc_lt _ (snoc_lt _ (Nat.one_pos : 0 < 2 ^ 0))))))
theorem Fits.vfcmpEq x0 x1 x2 x3 : Fits.Statement (.vfcmpEq x0 x1 x2 x3) := snoc_lt _ (snoc_lt _ (snoc_lt _ (snoc_lt _ (snoc_lt _ (snoc_lt _ (Nat.one_pos : 0 < 2 ^ 0))))))
theorem Fits.vfcmpNe x0 x1 x2 x3 : Fits.Statement (.vfcmpNe x0 x1 x2 x3) := snoc_lt _ (snoc_lt _ (snoc_lt _ (snoc_lt _ (snoc_lt _ (snoc_lt _ (Nat.one_pos : 0 < 2 ^ 0))))))
theorem Fits.vfcmpLt x0 x1 x2 x3 : Fits.Statement (.vfcmpLt x0 x1 x2 x3) := snoc_lt _ (snoc_lt _ (snoc_lt _ (snoc_lt _ (snoc_lt _ (snoc_lt _ (Nat.one_pos : 0 < 2 ^ 0))))))
theorem Fits.vfcmpLe x0 x1 x2 x3 : Fits.Statement (.vfcmpLe x0 x1 x2 x3) := snoc_lt _ (snoc_lt _ (snoc_lt _ (snoc_lt _ (snoc_lt _ (snoc_lt _ (Nat.one_pos : 0 < 2 ^ 0))))))
theorem Fits.vfcmpGt x0 x1 x2 x3 : Fits.Statement (.vfcmpGt x0 x1 x2 x3) := snoc_lt _ (snoc_lt _ (snoc_lt _ (snoc_lt _ (snoc_lt _ (snoc_lt _ (Nat.one_pos : 0 < 2 ^ 0))))))
theorem Fits.vfcmpGe x0 x1 x2 x3 : Fits.Statement (.vfcmpGe x0 x1 x2 x3) := snoc_lt _ (snoc_lt _ (snoc_lt _ (snoc_lt _ (snoc_lt _ (snoc_lt _ (Nat.one_pos : 0 < 2 ^ 0))))))
theorem Fits.vfcmpUn x0 x1 x2 x3 : Fits.Statement (.vfcmpUn x0 x1 x2 x3) := snoc_lt _ (snoc_lt _ (snoc_lt _ (snoc_lt _ (snoc_lt _ (snoc_lt _ (Nat.one_pos : 0 < 2 ^ 0))))))
theorem Fits.vfcmpOrd x0 x1 x2 x3 : Fits.Statement (.vfcmpOrd x0 x1 x2 x3) := snoc_lt _ (snoc_lt _ (snoc_lt _ (snoc_lt _ (snoc_lt _ (snoc_lt _ (Nat.one_pos : 0 < 2 ^ 0))))))
theorem Fits.vfrintNe x0 x1 x2 : Fits.Statement (.vfrintNe x0 x1 x2) := snoc_lt _ (snoc_lt _ (snoc_lt _ (snoc_lt _ (snoc_lt _ (snoc_lt _ (Nat.one_pos : 0 < 2 ^ 0))))))
theorem Fits.vfrintZ x0 x1 x2 : Fits.Statement (.vfrintZ x0 x1 x2) := snoc_lt _ (snoc_lt _ (snoc_lt _ (snoc_lt _ (snoc_lt _ (snoc_lt _ (Nat.one_pos : 0 < 2 ^ 0))))))
theorem Fits.vfrintDn x0 x1 x2 : Fits.Statement (.vfrintDn x0 x1 x2) := snoc_lt _ (snoc_lt _ (snoc_lt _ (snoc_lt _ (snoc_lt _ (snoc_lt _ (Nat.one_pos : 0 < 2 ^ 0))))))
theorem Fits.vfrintUp x0 x1 x2 : Fits.Statement (.vfrintUp x0 x1 x2) := snoc_lt _ (snoc_lt _ (snoc_lt _ (snoc_lt _ (snoc_lt _ (snoc_lt _ (Nat.one_pos : 0 < 2 ^ 0))))))
theorem Fits.vfscale x0 x1 x2 x3 : Fits.Statement (.vfscale x0 x1 x2 x3) := snoc_lt _ (snoc_lt _ (snoc_lt _ (snoc_lt _ (snoc_lt _ (snoc_lt _ (Nat.one_pos : 0 < 2 ^ 0))))))
theorem Fits.vfrint x0 x1 x2 : Fits.Statement (.vfrint x0 x1 x2) := snoc_lt _ (snoc_lt _ (snoc_lt _ (snoc_lt _ (snoc_lt _ (snoc_lt _ (Nat.one_pos : 0 < 2 ^ 0))))))
theorem Fits.vcvtSF32 x0 x1 x2 x3 : Fits.Statement (.vcvtSF32 x0 x1 x2 x3) := snoc_lt _ (snoc_lt _ (snoc_lt _ (snoc_lt _ (snoc_lt _ (snoc_lt _ (snoc_lt _ (Nat.one_pos : 0 < 2 ^ 0)))))))
theorem Fits.vcvtZF32 x0 x1 x2 x3 : Fits.Statement (.vcvtZF32 x0 x1 x2 x3) := snoc_lt _ (snoc_lt _ (snoc_lt _ (snoc_lt _ (snoc_lt _ (snoc_lt _ (snoc_lt _ (Nat.one_pos : 0 < 2 ^ 0)))))))
theorem Fits.vcvtF32S x0 x1 x2 x3 : Fits.Statement (.vcvtF32S x0 x1 x2 x3) := snoc_lt _ (snoc_lt _ (snoc_lt _ (snoc_lt _ (snoc_lt _ (snoc_lt _ (snoc_lt _ (Nat.one_pos : 0 < 2 ^ 0)))))))
theorem Fits.vcvtF32Z x0 x1 x2 x3 : Fits.Statement (.vcvtF32Z x0 x1 x2 x3) := snoc_lt _ (snoc_lt _ (snoc_lt _ (snoc_lt _ (snoc_lt _ (snoc_lt _ (snoc_lt _ (Nat.one_pos : 0 < 2 ^ 0)))))))
theorem Fits.vcvtNfF32 x0 x1 x2 x3 : Fits.Statement (.vcvtNfF32 x0 x1 x2 x3) := snoc_lt _ (snoc_lt _ (snoc_lt _ (snoc_lt _ (snoc_lt _ (snoc_lt _ (snoc_lt _ (Nat.one_pos : 0 < 2 ^ 0)))))))
theorem Fits.vcvtF32Nf x0 x1 x2 x3 : Fits.Statement (.vcvtF32Nf x0 x1 x2 x3) := snoc_lt _ (snoc_lt _ (snoc_lt _ (snoc_lt _ (snoc_lt _ (snoc_lt _ (snoc_lt _ (Nat.one_pos : 0 < 2 ^ 0)))))))
theorem Fits.vadd x0 x1 x2 x3 : Fits.Statement (.vadd x0 x1 x2 x3) := snoc_lt _ (snoc_lt _ (snoc_lt _ (snoc_lt _ (snoc_lt _ (snoc_lt _ (Nat.one_pos : 0 < 2 ^ 0))))))
theorem Fits.vsub x0 x1 x2 x3 : Fits.Statement (.vsub x0 x1 x2 x3) := snoc_lt _ (snoc_lt _ (snoc_lt _ (snoc_lt _ (snoc_lt _ (snoc_lt _ (Nat.one_pos : 0 < 2 ^ 0))))))
theorem Fits.vmul x0 x1 x2 x3 : Fits.Statement (.vmul x0 x1 x2 x3) := snoc_lt _ (snoc_lt _ (snoc_lt _ (snoc_lt _ (snoc_lt _ (snoc_lt _ (Nat.one_pos : 0 < 2 ^ 0))))))
theorem Fits.vmulhS32 x0 x1 x2 x3 : Fits.Statement (.vmulhS32 x0 x1 x2 x3) := snoc_lt _ (snoc_lt _ (snoc_lt _ (snoc_lt _ (snoc_lt _ (snoc_lt _ (Nat.one_pos : 0 < 2 ^ 0))))))
theorem Fits.vmulhZ32 x0 x1 x2 x3 : Fits.Statement (.vmulhZ32 x0 x1 x2 x3) := snoc_lt _ (snoc_lt _ (snoc_lt _ (snoc_lt _ (snoc_lt _ (snoc_lt _ (Nat.one_pos : 0 < 2 ^ 0))))))
theorem Fits.vand x0 x1 x2 x3 : Fits.Statement (.vand x0 x1 x2 x3) := snoc_lt _ (snoc_lt _ (snoc_lt _ (snoc_lt _ (snoc_lt _ (snoc_lt _ (Nat.one_pos : 0 < 2 ^ 0))))))
theorem Fits.vor x0 x1 x2 x3 : Fits.Statement (.vor x0 x1 x2 x3) := snoc_lt _ (snoc_lt _ (snoc_lt _ (snoc_lt _ (snoc_lt _ (snoc_lt _ (Nat.one_pos : 0 < 2 ^ 0))))))
theorem Fits.vxor x0 x1 x2 x3 : Fits.Statement (.vxor x0 x1 x2 x3) := snoc_lt _ (snoc_lt _ (snoc_lt _ (snoc_lt _ (snoc_lt _ (snoc_lt _ (Nat.one_pos : 0 < 2 ^ 0))))))
theorem Fits.vsll x0 x1 x2 x3 : Fits.Statement (.vsll x0 x1 x2 x3) := snoc_lt _ (snoc_lt _ (snoc_lt _ (snoc_lt _ (snoc_lt _ (snoc_lt _ (Nat.one_pos : 0 < 2 ^ 0))))))
theorem Fits.vsrl x0 x1 x2 x3 : Fits.Statement (.vsrl x0 x1 x2 x3) := snoc_lt _ (snoc_lt _ (snoc_lt _ (snoc_lt _ (snoc_lt _ (snoc_lt _ (Nat.one_pos : 0 < 2 ^ 0))))))
theorem Fits.vsra x0 x1 x2 x3 : Fits.Statement (.vsra x0 x1 x2 x3) := snoc_lt _ (snoc_lt _ (snoc_lt _ (snoc_lt _ (snoc_lt _ (snoc_lt _ (Nat.one_pos : 0 < 2 ^ 0))))))
theorem Fits.vminS32 x0 x1 x2 x3 : Fits.Statement (.vminS32 x0 x1 x2 x3) := snoc_lt _ (snoc_lt _ (snoc_lt _ (snoc_lt _ (snoc_lt _ (snoc_lt _ (Nat.one_pos : 0 < 2 ^ 0))))))
theorem Fits.vmaxS32 x0 x1 x2 x3 : Fits.Statement (.vmaxS32 x0 x1 x2 x3) := snoc_lt _ (snoc_lt _ (snoc_lt _ (snoc_lt _ (snoc_lt _ (snoc_lt _ (Nat.one_pos : 0 < 2 ^ 0))))))
theorem Fits.vminZ32 x0 x1 x2 x3 : Fits.Statement (.vminZ32 x0 x1 x2 x3) := snoc_lt _ (snoc_lt _ (snoc_lt _ (snoc_lt _ (snoc_lt _ (snoc_lt _ (Nat.one_pos : 0 < 2 ^ 0))))))
theorem Fits.vmaxZ32 x0 x1 x2 x3 : Fits.Statement (.vmaxZ32 x0 x1 x2 x3) := snoc_lt _ (snoc_lt _ (snoc_lt _ (snoc_lt _ (snoc_lt _ (snoc_lt _ (Nat.one_pos : 0 < 2 ^ 0))))))
theorem Fits.vaddsatS32 x0 x1 x2 x3 : Fits.Statement (.vaddsatS32 x0 x1 x2 x3) := snoc_lt _ (snoc_lt _ (snoc_lt _ (snoc_lt _ (snoc_lt _ (snoc_lt _ (Nat.one_pos : 0 < 2 ^ 0))))))
theorem Fits.vcmpEqZ32 x0 x1 x2 x3 : Fits.Statement (.vcmpEqZ32 x0 x1 x2 x3) := snoc_lt _ (snoc_lt _ (snoc_lt _ (snoc_lt _ (snoc_lt _ (snoc_lt _ (Nat.one_pos : 0 < 2 ^ 0))))))
theorem Fits.vcmpNeZ32 x0 x1 x2 x3 : Fits.Statement (.vcmpNeZ32 x0 x1 x2 x3) := snoc_lt _ (snoc_lt _ (snoc_lt _ (snoc_lt _ (snoc_lt _ (snoc_lt _ (Nat.one_pos : 0 < 2 ^ 0))))))
theorem Fits.vcmpLtS32 x0 x1 x2 x3 : Fits.Statement (.vcmpLtS32 x0 x1 x2 x3) := snoc_lt _ (snoc_lt _ (snoc_lt _ (snoc_lt _ (snoc_lt _ (snoc_lt _ (Nat.one_pos : 0 < 2 ^ 0))))))
theorem Fits.vcmpLeS32 x0 x1 x2 x3 : Fits.Statement (.vcmpLeS32 x0 x1 x2 x3) := snoc_lt _ (snoc_lt _ (snoc_lt _ (snoc_lt _ (snoc_lt _ (snoc_lt _ (Nat.one_pos : 0 < 2 ^ 0))))))
theorem Fits.vcmpGtS32 x0 x1 x2 x3 : Fits.Statement (.vcmpGtS32 x0 x1 x2 x3) := snoc_lt _ (snoc_lt _ (snoc_lt _ (snoc_lt _ (snoc_lt _ (snoc_lt _ (Nat.one_pos : 0 < 2 ^ 0))))))
theorem Fits.vcmpGeS32 x0 x1 x2 x3 : Fits.Statement (.vcmpGeS32 x0 x1 x2 x3) := snoc_lt _ (snoc_lt _ (snoc_lt _ (snoc_lt _ (snoc_lt _ (snoc_lt _ (Nat.one_pos : 0 < 2 ^ 0))))))
theorem Fits.vcmpLtZ32 x0 x1 x2 x3 : Fits.Statement (.vcmpLtZ32 x0 x1 x2 x3) := snoc_lt _ (snoc_lt _ (snoc_lt _ (snoc_lt _ (snoc_lt _ (snoc_lt _ (Nat.one_pos : 0 < 2 ^ 0))))))
theorem Fits.vcmpLeZ32 x0 x1 x2 x3 : Fits.Statement (.vcmpLeZ32 x0 x1 x2 x3) := snoc_lt _ (snoc_lt _ (snoc_lt _ (snoc_lt _ (snoc_lt _ (snoc_lt _ (Nat.one_pos : 0 < 2 ^ 0))))))
theorem Fits.vcmpGtZ32 x0 x1 x2 x3 : Fits.Statement (.vcmpGtZ32 x0 x1 x2 x3) := snoc_lt _ (snoc_lt _ (snoc_lt _ (snoc_lt _ (snoc_lt _ (snoc_lt _ (Nat.one_pos : 0 < 2 ^ 0))))))
theorem Fits.vcmpGeZ32 x0 x1 x2 x3 : Fits.Statement (.vcmpGeZ32 x0 x1 x2 x3) := snoc_lt _ (snoc_lt _ (snoc_lt _ (snoc_lt _ (snoc_lt _ (snoc_lt _ (Nat.one_pos : 0 < 2 ^ 0))))))
theorem Fits.vtest x0 x1 x2 x3 : Fits.Statement (.vtest x0 x1 x2 x3) := snoc_lt _ (snoc_lt _ (snoc_lt _ (snoc_lt _ (snoc_lt _ (snoc_lt _ (Nat.one_pos : 0 < 2 ^ 0))))))
theorem Fits.vaddScalar x0 x1 x2 x3 : Fits.Statement (.vaddScalar x0 x1 x2 x3) := snoc_lt _ (snoc_lt _ (snoc_lt _ (snoc_lt _ (snoc_lt _ (snoc_lt _ (Nat.one_pos : 0 < 2 ^ 0))))))
theorem Fits.vsubScalar x0 x1 x2 x3 : Fits.Statement (.vsubScalar x0 x1 x2 x3) := snoc_lt _ (snoc_lt _ (snoc_lt _ (snoc_lt _ (snoc_lt _ (snoc_lt _ (Nat.one_pos : 0 < 2 ^ 0))))))
theorem Fits.vmulScalar x0 x1 x2 x3 : Fits.Statement (.vmulScalar x0 x1 x2 x3) := snoc_lt _ (snoc_lt _ (snoc_lt _ (snoc_lt _ (snoc_lt _ (snoc_lt _ (Nat.one_pos : 0 < 2 ^ 0))))))
theorem Fits.vandScalar x0 x1 x2 x3 : Fits.Statement (.vandScalar x0 x1 x2 x3) := snoc_lt _ (snoc_lt _ (snoc_lt _ (snoc_lt _ (snoc_lt _ (snoc_lt _ (Nat.one_pos : 0 < 2 ^ 0))))))
theorem Fits.vorScalar x0 x1 x2 x3 : Fits.Statement (.vorScalar x0 x1 x2 x3) := snoc_lt _ (snoc_lt _ (snoc_lt _ (snoc_lt _ (snoc_lt _ (snoc_lt _ (Nat.one_pos : 0 < 2 ^ 0))))))
theorem Fits.vxorScalar x0 x1 x2 x3 : Fits.Statement (.vxorScalar x0 x1 x2 x3) := snoc_lt _ (snoc_lt _ (snoc_lt _ (snoc_lt _ (snoc_lt _ (snoc_lt _ (Nat.one_pos : 0 < 2 ^ 0))))))
theorem Fits.vsllScalar x0 x1 x2 x3 : Fits.Statement (.vsllScalar x0 x1 x2 x3) := snoc_lt _ (snoc_lt _ (snoc_lt _ (snoc_lt _ (snoc_lt _ (snoc_lt _ (Nat.one_pos : 0 < 2 ^ 0))))))
theorem Fits.vsrlScalar x0 x1 x2 x3 : Fits.Statement (.vsrlScalar x0 x1 x2 x3) := snoc_lt _ (snoc_lt _ (snoc_lt _ (snoc_lt _ (snoc_lt _ (snoc_lt _ (Nat.one_pos : 0 < 2 ^ 0))))))
theorem Fits.vsraScalar x0 x1 x2 x3 : Fits.Statement (.vsraScalar x0 x1 x2 x3) := snoc_lt _ (snoc_lt _ (snoc_lt _ (snoc_lt _ (snoc_lt _ (snoc_lt _ (Nat.one_pos : 0 < 2 ^ 0))))))
theorem Fits.vfaddScalar x0 x1 x2 x3 : Fits.Statement (.vfaddScalar x0 x1 x2 x3) := snoc_lt _ (snoc_lt _ (snoc_lt _ (snoc_lt _ (snoc_lt _ (snoc_lt _ (Nat.one_pos : 0 < 2 ^ 0))))))
theorem Fits.vfmulScalar x0 x1 x2 x3 : Fits.Statement (.vfmulScalar x0 x1 x2 x3) := snoc_lt _ (snoc_lt _ (snoc_lt _ (snoc_lt _ (snoc_lt _ (snoc_lt _ (Nat.one_pos : 0 < 2 ^ 0))))))
theorem Fits.vffmaScalar x0 x1 x2 x3 : Fits.Statement (.vffmaScalar x0 x1 x2 x3) := snoc_lt _ (snoc_lt _ (snoc_lt _ (snoc_lt _ (snoc_lt _ (snoc_lt _ (Nat.one_pos : 0 < 2 ^ 0))))))
theorem Fits.vmovScalar x0 x1 x2 : Fits.Statement (.vmovScalar x0 x1 x2) := snoc_lt _ (snoc_lt _ (snoc_lt _ (snoc_lt _ (snoc_lt _ (snoc_lt _ (Nat.one_pos : 0 < 2 ^ 0))))))
theorem Fits.vcmpEqScalar x0 x1 x2 x3 : Fits.Statement (.vcmpEqScalar x0 x1 x2 x3) := snoc_lt _ (snoc_lt _ (snoc_lt _ (snoc_lt _ (snoc_lt _ (snoc_lt _ (Nat.one_pos : 0 < 2 ^ 0))))))
theorem Fits.vcmpLtS32Scalar x0 x1 x2 x3 : Fits.Statement (.vcmpLtS32Scalar x0 x1 x2 x3) := snoc_lt _ (snoc_lt _ (snoc_lt _ (snoc_lt _ (snoc_lt _ (snoc_lt _ (Nat.one_pos : 0 < 2 ^ 0))))))
theorem Fits.vcmpLtZ32Scalar x0 x1 x2 x3 : Fits.Statement (.vcmpLtZ32Scalar x0 x1 x2 x3) := snoc_lt _ (snoc_lt _ (snoc_lt _ (snoc_lt _ (snoc_lt _ (snoc_lt _ (Nat.one_pos : 0 < 2 ^ 0))))))
theorem Fits.vaddImm x0 x1 x2 x3 : Fits.Statement (.vaddImm x0 x1 x2 x3) := snoc_lt _ (snoc_lt _ (snoc_lt _ (snoc_lt _ (snoc_lt _ (Nat.one_pos : 0 < 2 ^ 0)))))
theorem Fits.vli x0 x1 x2 : Fits.Statement (.vli x0 x1 x2) := snoc_lt _ (snoc_lt _ (snoc_lt _ (snoc_lt _ (snoc_lt _ (Nat.one_pos : 0 < 2 ^ 0)))))
theorem Fits.vperm x0 x1 x2 x3 : Fits.Statement (.vperm x0 x1 x2 x3) := snoc_lt _ (snoc_lt _ (snoc_lt _ (snoc_lt _ (snoc_lt _ (snoc_lt _ (Nat.one_pos : 0 < 2 ^ 0))))))
theorem Fits.vscanZ32 x0 x1 x2 : Fits.Statement (.vscanZ32 x0 x1 x2) := snoc_lt _ (snoc_lt _ (snoc_lt _ (snoc_lt _ (snoc_lt _ (snoc_lt _ (Nat.one_pos : 0 < 2 ^ 0))))))
theorem Fits.vscanF32 x0 x1 x2 : Fits.Statement (.vscanF32 x0 x1 x2) := snoc_lt _ (snoc_lt _ (snoc_lt _ (snoc_lt _ (snoc_lt _ (snoc_lt _ (Nat.one_pos : 0 < 2 ^ 0))))))
theorem Fits.vscanxZ32 x0 x1 x2 : Fits.Statement (.vscanxZ32 x0 x1 x2) := snoc_lt _ (snoc_lt _ (snoc_lt _ (snoc_lt _ (snoc_lt _ (snoc_lt _ (Nat.one_pos : 0 < 2 ^ 0))))))
theorem Fits.vredZ32 x0 x1 x2 : Fits.Statement (.vredZ32 x0 x1 x2) := snoc_lt _ (snoc_lt _ (snoc_lt _ (snoc_lt _ (snoc_lt _ (snoc_lt _ (Nat.one_pos : 0 < 2 ^ 0))))))
theorem Fits.vredF32 x0 x1 x2 : Fits.Statement (.vredF32 x0 x1 x2) := snoc_lt _ (snoc_lt _ (snoc_lt _ (snoc_lt _ (snoc_lt _ (snoc_lt _ (Nat.one_pos : 0 < 2 ^ 0))))))
theorem Fits.vsgn x0 x1 x2 : Fits.Statement (.vsgn x0 x1 x2) := snoc_lt _ (snoc_lt _ (snoc_lt _ (snoc_lt _ (snoc_lt _ (snoc_lt _ (Nat.one_pos : 0 < 2 ^ 0))))))
theorem Fits.vget x0 x1 x2 : Fits.Statement (.vget x0 x1 x2) := snoc_lt _ (snoc_lt _ (snoc_lt _ (snoc_lt _ (snoc_lt _ (snoc_lt _ (Nat.one_pos : 0 < 2 ^ 0))))))
theorem Fits.vins x0 x1 x2 x3 : Fits.Statement (.vins x0 x1 x2 x3) := snoc_lt _ (snoc_lt _ (snoc_lt _ (snoc_lt _ (snoc_lt _ (snoc_lt _ (Nat.one_pos : 0 < 2 ^ 0))))))
theorem Fits.vlane x0 x1 : Fits.Statement (.vlane x0 x1) := snoc_lt _ (snoc_lt _ (snoc_lt _ (snoc_lt _ (snoc_lt _ (Nat.one_pos : 0 < 2 ^ 0)))))
theorem Fits.vpopc x0 x1 x2 : Fits.Statement (.vpopc x0 x1 x2) := snoc_lt _ (snoc_lt _ (snoc_lt _ (snoc_lt _ (snoc_lt _ (snoc_lt _ (Nat.one_pos : 0 < 2 ^ 0))))))
theorem Fits.vclz x0 x1 x2 : Fits.Statement (.vclz x0 x1 x2) := snoc_lt _ (snoc_lt _ (snoc_lt _ (snoc_lt _ (snoc_lt _ (snoc_lt _ (Nat.one_pos : 0 < 2 ^ 0))))))
theorem Fits.pand x0 x1 x2 : Fits.Statement (.pand x0 x1 x2) := snoc_lt _ (snoc_lt _ (snoc_lt _ (snoc_lt _ (snoc_lt _ (snoc_lt _ (Nat.one_pos : 0 < 2 ^ 0))))))
theorem Fits.por x0 x1 x2 : Fits.Statement (.por x0 x1 x2) := snoc_lt _ (snoc_lt _ (snoc_lt _ (snoc_lt _ (snoc_lt _ (snoc_lt _ (Nat.one_pos : 0 < 2 ^ 0))))))
theorem Fits.pxor x0 x1 x2 : Fits.Statement (.pxor x0 x1 x2) := snoc_lt _ (snoc_lt _ (snoc_lt _ (snoc_lt _ (snoc_lt _ (snoc_lt _ (Nat.one_pos : 0 < 2 ^ 0))))))
theorem Fits.pandn x0 x1 x2 : Fits.Statement (.pandn x0 x1 x2) := snoc_lt _ (snoc_lt _ (snoc_lt _ (snoc_lt _ (snoc_lt _ (snoc_lt _ (Nat.one_pos : 0 < 2 ^ 0))))))
theorem Fits.pnot x0 x1 : Fits.Statement (.pnot x0 x1) := snoc_lt _ (snoc_lt _ (snoc_lt _ (snoc_lt _ (snoc_lt _ (Nat.one_pos : 0 < 2 ^ 0)))))
theorem Fits.pmov x0 x1 : Fits.Statement (.pmov x0 x1) := snoc_lt _ (snoc_lt _ (snoc_lt _ (snoc_lt _ (snoc_lt _ (snoc_lt _ (Nat.one_pos : 0 < 2 ^ 0))))))
theorem Fits.prd x0 x1 : Fits.Statement (.prd x0 x1) := snoc_lt _ (snoc_lt _ (snoc_lt _ (snoc_lt _ (snoc_lt _ (snoc_lt _ (snoc_lt _ (Nat.one_pos : 0 < 2 ^ 0)))))))
theorem Fits.pact x0 : Fits.Statement (.pact x0) := snoc_lt _ (snoc_lt _ (snoc_lt _ (snoc_lt _ (snoc_lt _ (Nat.one_pos : 0 < 2 ^ 0)))))
theorem Fits.pcnt x0 x1 : Fits.Statement (.pcnt x0 x1) := snoc_lt _ (snoc_lt _ (snoc_lt _ (snoc_lt _ (snoc_lt _ (snoc_lt _ (snoc_lt _ (Nat.one_pos : 0 < 2 ^ 0)))))))
theorem Fits.pfirst x0 x1 : Fits.Statement (.pfirst x0 x1) := snoc_lt _ (snoc_lt _ (snoc_lt _ (snoc_lt _ (snoc_lt _ (snoc_lt _ (snoc_lt _ (Nat.one_pos : 0 < 2 ^ 0)))))))
theorem Fits.vsel x0 x1 x2 x3 x4 : Fits.Statement (.vsel x0 x1 x2 x3 x4) := snoc_lt _ (snoc_lt _ (snoc_lt _ (snoc_lt _ (snoc_lt _ (snoc_lt _ (snoc_lt _ (Nat.one_pos : 0 < 2 ^ 0)))))))
theorem Fits.vconf x0 x1 x2 : Fits.Statement (.vconf x0 x1 x2) := snoc_lt _ (snoc_lt _ (snoc_lt _ (snoc_lt _ (snoc_lt _ (snoc_lt _ (snoc_lt _ (Nat.one_pos : 0 < 2 ^ 0)))))))
theorem Fits.vkaddZ32 x0 x1 x2 x3 : Fits.Statement (.vkaddZ32 x0 x1 x2 x3) := snoc_lt _ (snoc_lt _ (snoc_lt _ (snoc_lt _ (snoc_lt _ (snoc_lt _ (snoc_lt _ (Nat.one_pos : 0 < 2 ^ 0)))))))
theorem Fits.vkaddF32 x0 x1 x2 x3 : Fits.Statement (.vkaddF32 x0 x1 x2 x3) := snoc_lt _ (snoc_lt _ (snoc_lt _ (snoc_lt _ (snoc_lt _ (snoc_lt _ (snoc_lt _ (Nat.one_pos : 0 < 2 ^ 0)))))))
theorem Fits.rebal x0 x1 x2 x3 : Fits.Statement (.rebal x0 x1 x2 x3) := snoc_lt _ (snoc_lt _ (snoc_lt _ (snoc_lt _ (snoc_lt _ (snoc_lt _ (snoc_lt _ (Nat.one_pos : 0 < 2 ^ 0)))))))
theorem Fits.vld x0 x1 x2 x3 x4 x5 : Fits.Statement (.vld x0 x1 x2 x3 x4 x5) := snoc_lt _ (snoc_lt _ (snoc_lt _ (snoc_lt _ (snoc_lt _ (snoc_lt _ (snoc_lt _ (Nat.one_pos : 0 < 2 ^ 0)))))))
theorem Fits.vst x0 x1 x2 x3 x4 x5 : Fits.Statement (.vst x0 x1 x2 x3 x4 x5) := snoc_lt _ (snoc_lt _ (snoc_lt _ (snoc_lt _ (snoc_lt _ (snoc_lt _ (snoc_lt _ (Nat.one_pos : 0 < 2 ^ 0)))))))
theorem Fits.vatswap x0 x1 x2 x3 x4 : Fits.Statement (.vatswap x0 x1 x2 x3 x4) := snoc_lt _ (snoc_lt _ (snoc_lt _ (snoc_lt _ (snoc_lt _ (snoc_lt _ (snoc_lt _ (Nat.one_pos : 0 < 2 ^ 0)))))))
theorem Fits.vatcas x0 x1 x2 x3 x4 : Fits.Statement (.vatcas x0 x1 x2 x3 x4) := snoc_lt _ (snoc_lt _ (snoc_lt _ (snoc_lt _ (snoc_lt _ (snoc_lt _ (snoc_lt _ (Nat.one_pos : 0 < 2 ^ 0)))))))
theorem Fits.vatadd x0 x1 x2 x3 x4 : Fits.Statement (.vatadd x0 x1 x2 x3 x4) := snoc_lt _ (snoc_lt _ (snoc_lt _ (snoc_lt _ (snoc_lt _ (snoc_lt _ (snoc_lt _ (Nat.one_pos : 0 < 2 ^ 0)))))))
theorem Fits.vatand x0 x1 x2 x3 x4 : Fits.Statement (.vatand x0 x1 x2 x3 x4) := snoc_lt _ (snoc_lt _ (snoc_lt _ (snoc_lt _ (snoc_lt _ (snoc_lt _ (snoc_lt _ (Nat.one_pos : 0 < 2 ^ 0)))))))
theorem Fits.vator x0 x1 x2 x3 x4 : Fits.Statement (.vator x0 x1 x2 x3 x4) := snoc_lt _ (snoc_lt _ (snoc_lt _ (snoc_lt _ (snoc_lt _ (snoc_lt _ (snoc_lt _ (Nat.one_pos : 0 < 2 ^ 0)))))))
theorem Fits.vatxor x0 x1 x2 x3 x4 : Fits.Statement (.vatxor x0 x1 x2 x3 x4) := snoc_lt _ (snoc_lt _ (snoc_lt _ (snoc_lt _ (snoc_lt _ (snoc_lt _ (snoc_lt _ (Nat.one_pos : 0 < 2 ^ 0)))))))
theorem Fits.vatsmin x0 x1 x2 x3 x4 : Fits.Statement (.vatsmin x0 x1 x2 x3 x4) := snoc_lt _ (snoc_lt _ (snoc_lt _ (snoc_lt _ (snoc_lt _ (snoc_lt _ (snoc_lt _ (Nat.one_pos : 0 < 2 ^ 0)))))))
theorem Fits.vatsmax x0 x1 x2 x3 x4 : Fits.Statement (.vatsmax x0 x1 x2 x3 x4) := snoc_lt _ (snoc_lt _ (snoc_lt _ (snoc_lt _ (snoc_lt _ (snoc_lt _ (snoc_lt _ (Nat.one_pos : 0 < 2 ^ 0)))))))
theorem Fits.vatumin x0 x1 x2 x3 x4 : Fits.Statement (.vatumin x0 x1 x2 x3 x4) := snoc_lt _ (snoc_lt _ (snoc_lt _ (snoc_lt _ (snoc_lt _ (snoc_lt _ (snoc_lt _ (Nat.one_pos : 0 < 2 ^ 0)))))))
theorem Fits.vatumax x0 x1 x2 x3 x4 : Fits.Statement (.vatumax x0 x1 x2 x3 x4) := snoc_lt _ (snoc_lt _ (snoc_lt _ (snoc_lt _ (snoc_lt _ (snoc_lt _ (snoc_lt _ (Nat.one_pos : 0 < 2 ^ 0)))))))
theorem Fits.vatfadd x0 x1 x2 x3 : Fits.Statement (.vatfadd x0 x1 x2 x3) := snoc_lt _ (snoc_lt _ (snoc_lt _ (snoc_lt _ (snoc_lt _ (snoc_lt _ (snoc_lt _ (Nat.one_pos : 0 < 2 ^ 0)))))))
theorem Fits.vatfxadd x0 x1 x2 x3 x4 : Fits.Statement (.vatfxadd x0 x1 x2 x3 x4) := snoc_lt _ (snoc_lt _ (snoc_lt _ (snoc_lt _ (snoc_lt _ (snoc_lt _ (snoc_lt _ (Nat.one_pos : 0 < 2 ^ 0)))))))
theorem Fits.vatfxaddS32 x0 x1 x2 x3 : Fits.Statement (.vatfxaddS32 x0 x1 x2 x3) := snoc_lt _ (snoc_lt _ (snoc_lt _ (snoc_lt _ (snoc_lt _ (snoc_lt _ (snoc_lt _ (Nat.one_pos : 0 < 2 ^ 0)))))))
theorem Fits.vatfxaddF16 x0 x1 x2 x3 : Fits.Statement (.vatfxaddF16 x0 x1 x2 x3) := snoc_lt _ (snoc_lt _ (snoc_lt _ (snoc_lt _ (snoc_lt _ (snoc_lt _ (snoc_lt _ (Nat.one_pos : 0 < 2 ^ 0)))))))
theorem Fits.vatfxaddBf16 x0 x1 x2 x3 : Fits.Statement (.vatfxaddBf16 x0 x1 x2 x3) := snoc_lt _ (snoc_lt _ (snoc_lt _ (snoc_lt _ (snoc_lt _ (snoc_lt _ (snoc_lt _ (Nat.one_pos : 0 < 2 ^ 0)))))))
theorem Fits.atswap x0 x1 x2 : Fits.Statement (.atswap x0 x1 x2) := snoc_lt _ (snoc_lt _ (snoc_lt _ (snoc_lt _ (snoc_lt _ (snoc_lt _ (snoc_lt _ (Nat.one_pos : 0 < 2 ^ 0)))))))
theorem Fits.atcas x0 x1 x2 x3 : Fits.Statement (.atcas x0 x1 x2 x3) := snoc_lt _ (snoc_lt _ (snoc_lt _ (snoc_lt _ (snoc_lt _ (snoc_lt _ (snoc_lt _ (Nat.one_pos : 0 < 2 ^ 0)))))))
theorem Fits.atadd x0 x1 x2 : Fits.Statement (.atadd x0 x1 x2) := snoc_lt _ (snoc_lt _ (snoc_lt _ (snoc_lt _ (snoc_lt _ (snoc_lt _ (snoc_lt _ (Nat.one_pos : 0 < 2 ^ 0)))))))
theorem Fits.atand x0 x1 x2 : Fits.Statement (.atand x0 x1 x2) := snoc_lt _ (snoc_lt _ (snoc_lt _ (snoc_lt _ (snoc_lt _ (snoc_lt _ (snoc_lt _ (Nat.one_pos : 0 < 2 ^ 0)))))))
theorem Fits.ator x0 x1 x2 : Fits.Statement (.ator x0 x1 x2) := snoc_lt _ (snoc_lt _ (snoc_lt _ (snoc_lt _ (snoc_lt _ (snoc_lt _ (snoc_lt _ (Nat.one_pos : 0 < 2 ^ 0)))))))
theorem Fits.atxor x0 x1 x2 : Fits.Statement (.atxor x0 x1 x2) := snoc_lt _ (snoc_lt _ (snoc_lt _ (snoc_lt _ (snoc_lt _ (snoc_lt _ (snoc_lt _ (Nat.one_pos : 0 < 2 ^ 0)))))))
theorem Fits.atsmin x0 x1 x2 : Fits.Statement (.atsmin x0 x1 x2) := snoc_lt _ (snoc_lt _ (snoc_lt _ (snoc_lt _ (snoc_lt _ (snoc_lt _ (snoc_lt _ (Nat.one_pos : 0 < 2 ^ 0)))))))
theorem Fits.atsmax x0 x1 x2 : Fits.Statement (.atsmax x0 x1 x2) := snoc_lt _ (snoc_lt _ (snoc_lt _ (snoc_lt _ (snoc_lt _ (snoc_lt _ (snoc_lt _ (Nat.one_pos : 0 < 2 ^ 0)))))))
theorem Fits.atumin x0 x1 x2 : Fits.Statement (.atumin x0 x1 x2) := snoc_lt _ (snoc_lt _ (snoc_lt _ (snoc_lt _ (snoc_lt _ (snoc_lt _ (snoc_lt _ (Nat.one_pos : 0 < 2 ^ 0)))))))
theorem Fits.atumax x0 x1 x2 : Fits.Statement (.atumax x0 x1 x2) := snoc_lt _ (snoc_lt _ (snoc_lt _ (snoc_lt _ (snoc_lt _ (snoc_lt _ (snoc_lt _ (Nat.one_pos : 0 < 2 ^ 0)))))))
theorem Fits.atfadd x0 x1 : Fits.Statement (.atfadd x0 x1) := snoc_lt _ (snoc_lt _ (snoc_lt _ (snoc_lt _ (snoc_lt _ (snoc_lt _ (Nat.one_pos : 0 < 2 ^ 0))))))
theorem Fits.atfxadd x0 x1 x2 : Fits.Statement (.atfxadd x0 x1 x2) := snoc_lt _ (snoc_lt _ (snoc_lt _ (snoc_lt _ (snoc_lt _ (snoc_lt _ (snoc_lt _ (Nat.one_pos : 0 < 2 ^ 0)))))))
theorem Fits.atfxaddS32 x0 x1 : Fits.Statement (.atfxaddS32 x0 x1) := snoc_lt _ (snoc_lt _ (snoc_lt _ (snoc_lt _ (snoc_lt _ (snoc_lt _ (Nat.one_pos : 0 < 2 ^ 0))))))
theorem Fits.atfxaddF16 x0 x1 : Fits.Statement (.atfxaddF16 x0 x1) := snoc_lt _ (snoc_lt _ (snoc_lt _ (snoc_lt _ (snoc_lt _ (snoc_lt _ (Nat.one_pos : 0 < 2 ^ 0))))))
theorem Fits.atfxaddBf16 x0 x1 : Fits.Statement (.atfxaddBf16 x0 x1) := snoc_lt _ (snoc_lt _ (snoc_lt _ (snoc_lt _ (snoc_lt _ (snoc_lt _ (Nat.one_pos : 0 < 2 ^ 0))))))
theorem Fits.fenceAcq x0 : Fits.Statement (.fenceAcq x0) := snoc_lt _ (snoc_lt _ (snoc_lt _ (snoc_lt _ (snoc_lt _ (Nat.one_pos : 0 < 2 ^ 0)))))
theorem Fits.fenceRel x0 : Fits.Statement (.fenceRel x0) := snoc_lt _ (snoc_lt _ (snoc_lt _ (snoc_lt _ (snoc_lt _ (Nat.one_pos : 0 < 2 ^ 0)))))
theorem Fits.fenceFull x0 : Fits.Statement (.fenceFull x0) := snoc_lt _ (snoc_lt _ (snoc_lt _ (snoc_lt _ (snoc_lt _ (Nat.one_pos : 0 < 2 ^ 0)))))
theorem Fits.fenceSv x0 : Fits.Statement (.fenceSv x0) := snoc_lt _ (snoc_lt _ (snoc_lt _ (snoc_lt _ (snoc_lt _ (Nat.one_pos : 0 < 2 ^ 0)))))
theorem Fits.fenceRemote x0 : Fits.Statement (.fenceRemote x0) := snoc_lt _ (snoc_lt _ (snoc_lt _ (snoc_lt _ (Nat.one_pos : 0 < 2 ^ 0))))
theorem Fits.qfence x0 : Fits.Statement (.qfence x0) := snoc_lt _ (snoc_lt _ (snoc_lt _ (snoc_lt _ (snoc_lt _ (Nat.one_pos : 0 < 2 ^ 0)))))
theorem Fits.sealPages x0 x1 : Fits.Statement (.sealPages x0 x1) := snoc_lt _ (snoc_lt _ (snoc_lt _ (snoc_lt _ (snoc_lt _ (Nat.one_pos : 0 < 2 ^ 0)))))
theorem Fits.unsealPages x0 x1 : Fits.Statement (.unsealPages x0 x1) := snoc_lt _ (snoc_lt _ (snoc_lt _ (snoc_lt _ (snoc_lt _ (Nat.one_pos : 0 < 2 ^ 0)))))
theorem Fits.drysync x0 : Fits.Statement (.drysync x0) := snoc_lt _ (snoc_lt _ (snoc_lt _ (snoc_lt _ (snoc_lt _ (Nat.one_pos : 0 < 2 ^ 0)))))
theorem Fits.pf x0 x1 : Fits.Statement (.pf x0 x1) := snoc_lt _ (snoc_lt _ (snoc_lt _ (snoc_lt _ (snoc_lt _ (Nat.one_pos : 0 < 2 ^ 0)))))
theorem Fits.vpf x0 x1 x2 : Fits.Statement (.vpf x0 x1 x2) := snoc_lt _ (snoc_lt _ (snoc_lt _ (snoc_lt _ (snoc_lt _ (snoc_lt _ (Nat.one_pos : 0 < 2 ^ 0))))))
theorem Fits.fpush x0 x1 x2 : Fits.Statement (.fpush x0 x1 x2) := snoc_lt _ (snoc_lt _ (snoc_lt _ (snoc_lt _ (snoc_lt _ (snoc_lt _ (Nat.one_pos : 0 < 2 ^ 0))))))
theorem Fits.fpop x0 x1 x2 : Fits.Statement (.fpop x0 x1 x2) := snoc_lt _ (snoc_lt _ (snoc_lt _ (snoc_lt _ (snoc_lt _ (snoc_lt _ (Nat.one_pos : 0 < 2 ^ 0))))))
theorem Fits.copy x0 x1 x2 x3 x4 x5 x6 : Fits.Statement (.copy x0 x1 x2 x3 x4 x5 x6) := snoc_lt _ (snoc_lt _ (snoc_lt _ (snoc_lt _ (snoc_lt _ (snoc_lt _ (snoc_lt _ (snoc_lt _ (snoc_lt _ (snoc_lt _ (Nat.one_pos : 0 < 2 ^ 0))))))))))
theorem Fits.copyAcc x0 x1 x2 x3 x4 x5 x6 : Fits.Statement (.copyAcc x0 x1 x2 x3 x4 x5 x6) := snoc_lt _ (snoc_lt _ (snoc_lt _ (snoc_lt _ (snoc_lt _ (snoc_lt _ (snoc_lt _ (snoc_lt _ (snoc_lt _ (snoc_lt _ (Nat.one_pos : 0 < 2 ^ 0))))))))))
theorem Fits.copyChk x0 x1 x2 x3 x4 x5 x6 : Fits.Statement (.copyChk x0 x1 x2 x3 x4 x5 x6) := snoc_lt _ (snoc_lt _ (snoc_lt _ (snoc_lt _ (snoc_lt _ (snoc_lt _ (snoc_lt _ (snoc_lt _ (snoc_lt _ (snoc_lt _ (Nat.one_pos : 0 < 2 ^ 0))))))))))
theorem Fits.copyMc x0 x1 x2 x3 x4 x5 : Fits.Statement (.copyMc x0 x1 x2 x3 x4 x5) := snoc_lt _ (snoc_lt _ (snoc_lt _ (snoc_lt _ (snoc_lt _ (snoc_lt _ (snoc_lt _ (snoc_lt _ (snoc_lt _ (Nat.one_pos : 0 < 2 ^ 0)))))))))
theorem Fits.mma x0 x1 x2 x3 x4 x5 : Fits.Statement (.mma x0 x1 x2 x3 x4 x5) := snoc_lt _ (snoc_lt _ (snoc_lt _ (snoc_lt _ (snoc_lt _ (snoc_lt _ (snoc_lt _ (snoc_lt _ (Nat.one_pos : 0 < 2 ^ 0))))))))
theorem Fits.mmaP x0 x1 x2 x3 x4 x5 : Fits.Statement (.mmaP x0 x1 x2 x3 x4 x5) := snoc_lt _ (snoc_lt _ (snoc_lt _ (snoc_lt _ (snoc_lt _ (snoc_lt _ (snoc_lt _ (snoc_lt _ (Nat.one_pos : 0 < 2 ^ 0))))))))
theorem Fits.mzero x0 : Fits.Statement (.mzero x0) := snoc_lt _ (snoc_lt _ (snoc_lt _ (snoc_lt _ (Nat.one_pos : 0 < 2 ^ 0))))
theorem Fits.mdrain x0 x1 x2 x3 : Fits.Statement (.mdrain x0 x1 x2 x3) := snoc_lt _ (snoc_lt _ (snoc_lt _ (snoc_lt _ (snoc_lt _ (snoc_lt _ (snoc_lt _ (Nat.one_pos : 0 < 2 ^ 0)))))))
theorem Fits.mdrainT x0 x1 x2 x3 x4 : Fits.Statement (.mdrainT x0 x1 x2 x3 x4) := snoc_lt _ (snoc_lt _ (snoc_lt _ (snoc_lt _ (snoc_lt _ (snoc_lt _ (snoc_lt _ (Nat.one_pos : 0 < 2 ^ 0)))))))
theorem Fits.mtake : Fits.Statement (.mtake) := snoc_lt _ (snoc_lt _ (snoc_lt _ (snoc_lt _ (Nat.one_pos : 0 < 2 ^ 0))))
theorem Fits.mtakeF : Fits.Statement (.mtakeF) := snoc_lt _ (snoc_lt _ (snoc_lt _ (snoc_lt _ (Nat.one_pos : 0 < 2 ^ 0))))
theorem Fits.mgive : Fits.Statement (.mgive) := snoc_lt _ (snoc_lt _ (snoc_lt _ (Nat.one_pos : 0 < 2 ^ 0)))
theorem Fits.zld x0 x1 x2 x3 : Fits.Statement (.zld x0 x1 x2 x3) := snoc_lt _ (snoc_lt _ (snoc_lt _ (snoc_lt _ (snoc_lt _ (snoc_lt _ (snoc_lt _ (Nat.one_pos : 0 < 2 ^ 0)))))))
theorem Fits.zst x0 x1 x2 x3 : Fits.Statement (.zst x0 x1 x2 x3) := snoc_lt _ (snoc_lt _ (snoc_lt _ (snoc_lt _ (snoc_lt _ (snoc_lt _ (snoc_lt _ (Nat.one_pos : 0 < 2 ^ 0)))))))
theorem Fits.rfam x0 x1 : Fits.Statement (.rfam x0 x1) := snoc_lt _ (snoc_lt _ (snoc_lt _ (snoc_lt _ (snoc_lt _ (Nat.one_pos : 0 < 2 ^ 0)))))
theorem Fits.rprobe x0 x1 x2 x3 : Fits.Statement (.rprobe x0 x1 x2 x3) := snoc_lt _ (snoc_lt _ (snoc_lt _ (snoc_lt _ (snoc_lt _ (snoc_lt _ (snoc_lt _ (Nat.one_pos : 0 < 2 ^ 0)))))))
theorem Fits.rins x0 x1 x2 x3 : Fits.Statement (.rins x0 x1 x2 x3) := snoc_lt _ (snoc_lt _ (snoc_lt _ (snoc_lt _ (snoc_lt _ (snoc_lt _ (snoc_lt _ (Nat.one_pos : 0 < 2 ^ 0)))))))
theorem Fits.rdel x0 x1 x2 x3 : Fits.Statement (.rdel x0 x1 x2 x3) := snoc_lt _ (snoc_lt _ (snoc_lt _ (snoc_lt _ (snoc_lt _ (snoc_lt _ (snoc_lt _ (Nat.one_pos : 0 < 2 ^ 0)))))))
theorem Fits.rmove x0 x1 x2 x3 : Fits.Statement (.rmove x0 x1 x2 x3) := snoc_lt _ (snoc_lt _ (snoc_lt _ (snoc_lt _ (snoc_lt _ (snoc_lt _ (snoc_lt _ (Nat.one_pos : 0 < 2 ^ 0)))))))
theorem Fits.rgath x0 x1 x2 : Fits.Statement (.rgath x0 x1 x2) := snoc_lt _ (snoc_lt _ (snoc_lt _ (snoc_lt _ (snoc_lt _ (snoc_lt _ (snoc_lt _ (Nat.one_pos : 0 < 2 ^ 0)))))))
theorem Fits.rstat x0 x1 x2 x3 : Fits.Statement (.rstat x0 x1 x2 x3) := snoc_lt _ (snoc_lt _ (snoc_lt _ (snoc_lt _ (snoc_lt _ (snoc_lt _ (snoc_lt _ (Nat.one_pos : 0 < 2 ^ 0)))))))
theorem Fits.watch x0 x1 : Fits.Statement (.watch x0 x1) := snoc_lt _ (snoc_lt _ (snoc_lt _ (snoc_lt _ (snoc_lt _ (Nat.one_pos : 0 < 2 ^ 0)))))
theorem Fits.unwatch x0 x1 : Fits.Statement (.unwatch x0 x1) := snoc_lt _ (snoc_lt _ (snoc_lt _ (snoc_lt _ (snoc_lt _ (Nat.one_pos : 0 < 2 ^ 0)))))
theorem Fits.wstat x0 x1 x2 : Fits.Statement (.wstat x0 x1 x2) := snoc_lt _ (snoc_lt _ (snoc_lt _ (snoc_lt _ (snoc_lt _ (snoc_lt _ (Nat.one_pos : 0 < 2 ^ 0))))))
theorem Fits.qpost x0 x1 x2 : Fits.Statement (.qpost x0 x1 x2) := snoc_lt _ (snoc_lt _ (snoc_lt _ (snoc_lt _ (snoc_lt _ (snoc_lt _ (Nat.one_pos : 0 < 2 ^ 0))))))
theorem Fits.claim x0 x1 : Fits.Statement (.claim x0 x1) := snoc_lt _ (snoc_lt _ (snoc_lt _ (snoc_lt _ (snoc_lt _ (snoc_lt _ (Nat.one_pos : 0 < 2 ^ 0))))))
theorem Fits.rinit x0 x1 : Fits.Statement (.rinit x0 x1) := snoc_lt _ (snoc_lt _ (snoc_lt _ (snoc_lt _ (snoc_lt _ (snoc_lt _ (Nat.one_pos : 0 < 2 ^ 0))))))
theorem Fits.sysrd x0 x1 : Fits.Statement (.sysrd x0 x1) := snoc_lt _ (snoc_lt _ (snoc_lt _ (snoc_lt _ (snoc_lt _ (Nat.one_pos : 0 < 2 ^ 0)))))
theorem Fits.syswr x0 x1 : Fits.Statement (.syswr x0 x1) := snoc_lt _ (snoc_lt _ (snoc_lt _ (snoc_lt _ (snoc_lt _ (Nat.one_pos : 0 < 2 ^ 0)))))
theorem Fits.tretR : Fits.Statement (.tretR) := snoc_lt _ (snoc_lt _ (snoc_lt _ (snoc_lt _ (Nat.one_pos : 0 < 2 ^ 0))))
theorem Fits.tretS : Fits.Statement (.tretS) := snoc_lt _ (snoc_lt _ (snoc_lt _ (snoc_lt _ (Nat.one_pos : 0 < 2 ^ 0))))
theorem Fits.lease x0 x1 x2 : Fits.Statement (.lease x0 x1 x2) := snoc_lt _ (snoc_lt _ (snoc_lt _ (snoc_lt _ (snoc_lt _ (snoc_lt _ (Nat.one_pos : 0 < 2 ^ 0))))))
theorem Fits.unlease x0 x1 : Fits.Statement (.unlease x0 x1) := snoc_lt _ (snoc_lt _ (snoc_lt _ (snoc_lt _ (snoc_lt _ (Nat.one_pos : 0 < 2 ^ 0)))))
theorem Fits.tlbinv x0 x1 : Fits.Statement (.tlbinv x0 x1) := snoc_lt _ (snoc_lt _ (snoc_lt _ (snoc_lt _ (snoc_lt _ (Nat.one_pos : 0 < 2 ^ 0)))))
theorem Fits.ctxkill x0 x1 : Fits.Statement (.ctxkill x0 x1) := snoc_lt _ (snoc_lt _ (snoc_lt _ (snoc_lt _ (snoc_lt _ (Nat.one_pos : 0 < 2 ^ 0)))))
theorem Fits.halt : Fits.Statement (.halt) := snoc_lt _ (snoc_lt _ (snoc_lt _ (Nat.one_pos : 0 < 2 ^ 0)))
theorem Fits.wfe x0 : Fits.Statement (.wfe x0) := snoc_lt _ (snoc_lt _ (snoc_lt _ (snoc_lt _ (Nat.one_pos : 0 < 2 ^ 0))))
theorem Fits.signal x0 x1 : Fits.Statement (.signal x0 x1) := snoc_lt _ (snoc_lt _ (snoc_lt _ (snoc_lt _ (snoc_lt _ (Nat.one_pos : 0 < 2 ^ 0)))))
theorem Fits.preempt x0 x1 : Fits.Statement (.preempt x0 x1) := snoc_lt _ (snoc_lt _ (snoc_lt _ (snoc_lt _ (snoc_lt _ (Nat.one_pos : 0 < 2 ^ 0)))))
theorem Fits.rbld x0 x1 x2 : Fits.Statement (.rbld x0 x1 x2) := snoc_lt _ (snoc_lt _ (snoc_lt _ (snoc_lt _ (snoc_lt _ (snoc_lt _ (Nat.one_pos : 0 < 2 ^ 0))))))
theorem Fits.hintImm x0 : Fits.Statement (.hintImm x0) := snoc_lt _ (snoc_lt _ (snoc_lt _ (Nat.one_pos : 0 < 2 ^ 0)))
theorem Fits.hintOrd x0 : Fits.Statement (.hintOrd x0) := snoc_lt _ (snoc_lt _ (snoc_lt _ (snoc_lt _ (Nat.one_pos : 0 < 2 ^ 0))))
theorem Fits.hintScope x0 : Fits.Statement (.hintScope x0) := snoc_lt _ (snoc_lt _ (snoc_lt _ (snoc_lt _ (Nat.one_pos : 0 < 2 ^ 0))))
theorem Fits.hintCache x0 : Fits.Statement (.hintCache x0) := snoc_lt _ (snoc_lt _ (snoc_lt _ (snoc_lt _ (Nat.one_pos : 0 < 2 ^ 0))))
theorem Fits.hintSched x0 : Fits.Statement (.hintSched x0) := snoc_lt _ (snoc_lt _ (snoc_lt _ (snoc_lt _ (Nat.one_pos : 0 < 2 ^ 0))))
theorem Fits.hintBnd x0 : Fits.Statement (.hintBnd x0) := snoc_lt _ (snoc_lt _ (snoc_lt _ (snoc_lt _ (Nat.one_pos : 0 < 2 ^ 0))))
theorem Fits.joinArrival x0 x1 : Fits.Statement (.joinArrival x0 x1) := Nat.two_pow_pos 32
theorem Fits.reconvergenceRefill x0 x1 : Fits.Statement (.reconvergenceRefill x0 x1) := Nat.two_pow_pos 32
theorem Fits.yieldExpiry x0 x1 : Fits.Statement (.yieldExpiry x0 x1) := Nat.two_pow_pos 32
theorem Fits.tableWalk x0 x1 x2 : Fits.Statement (.tableWalk x0 x1 x2) := Nat.two_pow_pos 32
theorem Fits.loadComplete x0 : Fits.Statement (.loadComplete x0) := Nat.two_pow_pos 32
theorem Fits.wcbIdleDrain x0 x1 : Fits.Statement (.wcbIdleDrain x0 x1) := Nat.two_pow_pos 32
theorem Fits.sliceWriteCommit x0 : Fits.Statement (.sliceWriteCommit x0) := Nat.two_pow_pos 32
theorem Fits.sliceRead x0 x1 x2 : Fits.Statement (.sliceRead x0 x1 x2) := Nat.two_pow_pos 32
theorem Fits.watchCacheFill x0 x1 : Fits.Statement (.watchCacheFill x0 x1) := Nat.two_pow_pos 32
theorem Fits.spillRefill x0 x1 : Fits.Statement (.spillRefill x0 x1) := Nat.two_pow_pos 32
theorem Fits.nearSwap x0 : Fits.Statement (.nearSwap x0) := Nat.two_pow_pos 32
theorem Fits.nearCas x0 : Fits.Statement (.nearCas x0) := Nat.two_pow_pos 32
theorem Fits.nearAdd x0 : Fits.Statement (.nearAdd x0) := Nat.two_pow_pos 32
theorem Fits.nearAnd x0 : Fits.Statement (.nearAnd x0) := Nat.two_pow_pos 32
theorem Fits.nearOr x0 : Fits.Statement (.nearOr x0) := Nat.two_pow_pos 32
theorem Fits.nearXor x0 : Fits.Statement (.nearXor x0) := Nat.two_pow_pos 32
theorem Fits.nearSmin x0 : Fits.Statement (.nearSmin x0) := Nat.two_pow_pos 32
theorem Fits.nearSmax x0 : Fits.Statement (.nearSmax x0) := Nat.two_pow_pos 32
theorem Fits.nearUmin x0 : Fits.Statement (.nearUmin x0) := Nat.two_pow_pos 32
theorem Fits.nearUmax x0 : Fits.Statement (.nearUmax x0) := Nat.two_pow_pos 32
theorem Fits.nearFadd x0 : Fits.Statement (.nearFadd x0) := Nat.two_pow_pos 32
theorem Fits.nearFxadd x0 : Fits.Statement (.nearFxadd x0) := Nat.two_pow_pos 32
theorem Fits.nearClaim x0 : Fits.Statement (.nearClaim x0) := Nat.two_pow_pos 32
theorem Fits.nearRinit x0 : Fits.Statement (.nearRinit x0) := Nat.two_pow_pos 32
theorem Fits.insert x0 : Fits.Statement (.insert x0) := Nat.two_pow_pos 32
theorem Fits.delete x0 : Fits.Statement (.delete x0) := Nat.two_pow_pos 32
theorem Fits.bucketRead x0 x1 : Fits.Statement (.bucketRead x0 x1) := Nat.two_pow_pos 32
theorem Fits.delta x0 : Fits.Statement (.delta x0) := Nat.two_pow_pos 32
theorem Fits.deltaAck x0 x1 : Fits.Statement (.deltaAck x0 x1) := Nat.two_pow_pos 32
theorem Fits.scrub x0 : Fits.Statement (.scrub x0) := Nat.two_pow_pos 32
theorem Fits.sweepPeriodExpiry x0 : Fits.Statement (.sweepPeriodExpiry x0) := Nat.two_pow_pos 32
theorem Fits.sliceStatusWrite x0 : Fits.Statement (.sliceStatusWrite x0) := Nat.two_pow_pos 32
theorem Fits.bankStatusWrite x0 x1 : Fits.Statement (.bankStatusWrite x0 x1) := Nat.two_pow_pos 32
theorem Fits.bankRoleChange x0 x1 : Fits.Statement (.bankRoleChange x0 x1) := Nat.two_pow_pos 32
theorem Fits.bankReencode x0 x1 : Fits.Statement (.bankReencode x0 x1) := Nat.two_pow_pos 32
theorem Fits.padFill x0 x1 : Fits.Statement (.padFill x0 x1) := Nat.two_pow_pos 32
theorem Fits.padEvacuate x0 x1 : Fits.Statement (.padEvacuate x0 x1) := Nat.two_pow_pos 32
theorem Fits.copySliceAssemble x0 : Fits.Statement (.copySliceAssemble x0) := Nat.two_pow_pos 32
theorem Fits.collectiveStart x0 x1 : Fits.Statement (.collectiveStart x0 x1) := Nat.two_pow_pos 32
theorem Fits.copyByteRead x0 : Fits.Statement (.copyByteRead x0) := Nat.two_pow_pos 32
theorem Fits.copyByteLanded x0 : Fits.Statement (.copyByteLanded x0) := Nat.two_pow_pos 32
theorem Fits.trowelPass x0 : Fits.Statement (.trowelPass x0) := Nat.two_pow_pos 32
theorem Fits.mmaStart x0 : Fits.Statement (.mmaStart x0) := Nat.two_pow_pos 32
theorem Fits.mmaRetire x0 : Fits.Statement (.mmaRetire x0) := Nat.two_pow_pos 32
theorem Fits.mdrainStart x0 : Fits.Statement (.mdrainStart x0) := Nat.two_pow_pos 32
theorem Fits.mdrainRetire x0 : Fits.Statement (.mdrainRetire x0) := Nat.two_pow_pos 32
theorem Fits.leaseEstablish x0 : Fits.Statement (.leaseEstablish x0) := Nat.two_pow_pos 32
theorem Fits.faultRecordWrite : Fits.Statement (.faultRecordWrite) := Nat.two_pow_pos 32
theorem Fits.hubConsider x0 : Fits.Statement (.hubConsider x0) := Nat.two_pow_pos 32
theorem Fits.taskAging x0 : Fits.Statement (.taskAging x0) := Nat.two_pow_pos 32
theorem Fits.coreReservation x0 : Fits.Statement (.coreReservation x0) := Nat.two_pow_pos 32
theorem Fits.hubSpillRefill x0 : Fits.Statement (.hubSpillRefill x0) := Nat.two_pow_pos 32
theorem Fits.detectorScan x0 : Fits.Statement (.detectorScan x0) := Nat.two_pow_pos 32
theorem Fits.crewRestore x0 : Fits.Statement (.crewRestore x0) := Nat.two_pow_pos 32
theorem Fits.preemptSaveDone x0 : Fits.Statement (.preemptSaveDone x0) := Nat.two_pow_pos 32
theorem Fits.forerunnerTimeout x0 : Fits.Statement (.forerunnerTimeout x0) := Nat.two_pow_pos 32
theorem Fits.skimVisit x0 : Fits.Statement (.skimVisit x0) := Nat.two_pow_pos 32
theorem Fits.skimScanDone x0 x1 : Fits.Statement (.skimScanDone x0 x1) := Nat.two_pow_pos 32
theorem Fits.rebuildStripe x0 x1 : Fits.Statement (.rebuildStripe x0 x1) := Nat.two_pow_pos 32
theorem Fits.islctl x0 x1 : Fits.Statement (.islctl x0 x1) := Nat.two_pow_pos 32
theorem Fits.operatingPointChangeDone x0 : Fits.Statement (.operatingPointChangeDone x0) := Nat.two_pow_pos 32
theorem Fits.powerStepDown : Fits.Statement (.powerStepDown) := Nat.two_pow_pos 32
theorem Fits.powerStepUp x0 : Fits.Statement (.powerStepUp x0) := Nat.two_pow_pos 32
theorem Fits.thermalStep x0 : Fits.Statement (.thermalStep x0) := Nat.two_pow_pos 32
theorem Fits.thermalRecover x0 : Fits.Statement (.thermalRecover x0) := Nat.two_pow_pos 32
theorem Fits.thermalTrip : Fits.Statement (.thermalTrip) := Nat.two_pow_pos 32
theorem Fits.wfeTimeout x0 : Fits.Statement (.wfeTimeout x0) := Nat.two_pow_pos 32
theorem Fits.hostWrite x0 x1 x2 : Fits.Statement (.hostWrite x0 x1 x2) := Nat.two_pow_pos 32
theorem Fits.hostRead x0 x1 x2 : Fits.Statement (.hostRead x0 x1 x2) := Nat.two_pow_pos 32
theorem Fits.hostSnoop x0 x1 : Fits.Statement (.hostSnoop x0 x1) := Nat.two_pow_pos 32
theorem Fits.hostAtomicCompletion x0 x1 : Fits.Statement (.hostAtomicCompletion x0 x1) := Nat.two_pow_pos 32
theorem Fits.read x0 : Fits.Statement (.read x0) := Nat.two_pow_pos 32
theorem Fits.readData x0 : Fits.Statement (.readData x0) := Nat.two_pow_pos 32
theorem Fits.write x0 : Fits.Statement (.write x0) := Nat.two_pow_pos 32
theorem Fits.writeAck x0 : Fits.Statement (.writeAck x0) := Nat.two_pow_pos 32
theorem Fits.atomic x0 : Fits.Statement (.atomic x0) := Nat.two_pow_pos 32
theorem Fits.atomicData x0 : Fits.Statement (.atomicData x0) := Nat.two_pow_pos 32
theorem Fits.leaseRecord x0 : Fits.Statement (.leaseRecord x0) := Nat.two_pow_pos 32
theorem Fits.leaseReply x0 x1 : Fits.Statement (.leaseReply x0 x1) := Nat.two_pow_pos 32
theorem Fits.rebuildQuery x0 : Fits.Statement (.rebuildQuery x0) := Nat.two_pow_pos 32
theorem Fits.rebuildAnswer x0 : Fits.Statement (.rebuildAnswer x0) := Nat.two_pow_pos 32
theorem Fits.drainToken x0 : Fits.Statement (.drainToken x0) := Nat.two_pow_pos 32
theorem Fits.tokenReturn x0 : Fits.Statement (.tokenReturn x0) := Nat.two_pow_pos 32
theorem Fits.groupExchange x0 : Fits.Statement (.groupExchange x0) := Nat.two_pow_pos 32
theorem Fits.heartbeat x0 x1 : Fits.Statement (.heartbeat x0 x1) := Nat.two_pow_pos 32
theorem Fits.reservedPacketKind x0 x1 : Fits.Statement (.reservedPacketKind x0 x1) := Nat.two_pow_pos 32
theorem Fits.heartbeatTimer : Fits.Statement (.heartbeatTimer) := Nat.two_pow_pos 32
theorem Fits.flitRetransmit x0 : Fits.Statement (.flitRetransmit x0) := Nat.two_pow_pos 32
theorem Fits.portDown x0 : Fits.Statement (.portDown x0) := Nat.two_pow_pos 32
theorem Fits.peerLostTimeout x0 : Fits.Statement (.peerLostTimeout x0) := Nat.two_pow_pos 32
theorem Fits.selfFenceTimeout : Fits.Statement (.selfFenceTimeout) := Nat.two_pow_pos 32
theorem Fits.coldStart : Fits.Statement (.coldStart) := Nat.two_pow_pos 32
theorem Fits.warmStart : Fits.Statement (.warmStart) := Nat.two_pow_pos 32
theorem Fits.attreq x0 : Fits.Statement (.attreq x0) := Nat.two_pow_pos 32
theorem Fits.registerWrite x0 x1 : Fits.Statement (.registerWrite x0 x1) := Nat.two_pow_pos 32
theorem Fits.clusterTlbHit x0 x1 x2 : Fits.Statement (.clusterTlbHit x0 x1 x2) := Nat.two_pow_pos 32
theorem Fits.mzeroRetire x0 : Fits.Statement (.mzeroRetire x0) := Nat.two_pow_pos 32
theorem Fits.tilePortRetire x0 : Fits.Statement (.tilePortRetire x0) := Nat.two_pow_pos 32
theorem Fits.hostWriteCompletion x0 : Fits.Statement (.hostWriteCompletion x0) := Nat.two_pow_pos 32
theorem Fits.cxlCacheOwnership x0 x1 : Fits.Statement (.cxlCacheOwnership x0 x1) := Nat.two_pow_pos 32
theorem Fits.hostLinkTraining x0 x1 x2 : Fits.Statement (.hostLinkTraining x0 x1 x2) := Nat.two_pow_pos 32
theorem Fits.bootWindowWrite x0 x1 : Fits.Statement (.bootWindowWrite x0 x1) := Nat.two_pow_pos 32
theorem Fits.attestationReport x0 : Fits.Statement (.attestationReport x0) := Nat.two_pow_pos 32
theorem Fits.startStepComplete x0 x1 : Fits.Statement (.startStepComplete x0 x1) := Nat.two_pow_pos 32
theorem Fits.powerLoss : Fits.Statement (.powerLoss) := Nat.two_pow_pos 32

end Sys2Proof.Laws
end

