-- ==== Sys2Proof/Laws/Slices.lean ====
section
/-! SUPPORT. Writes of the device's own at slices, and walks: an unwatched, unprotected write to clean memory sets its bytes and
does nothing else, and a walk finds the same leaf wherever the bytes below the first free megabyte are the same. -/

namespace Sys2Proof.Machine

/-! ### Reads and writes of faultless slices -/

/-- Two states differ in the lines of the slices' SRAM alone. -/
def OnlySram (s t : State) : Prop := t = { s with sram := t.sram }

theorem OnlySram.refl (s : State) : OnlySram s s := rfl
theorem OnlySram.trans {s t u : State} (h : OnlySram s t) (k : OnlySram t u) : OnlySram s u := by
  unfold OnlySram at *; rw [k, h]
theorem OnlySram.faultless {s t : State} (h : OnlySram s t) (hf : s.Faultless) : t.Faultless := by rw [h]; exact hf
theorem OnlySram.byte {s t : State} (h : OnlySram s t) (a : Nat) : t.byte a = s.byte a := by rw [h]; rfl

/-- A fold of such steps over faultless states. -/
theorem onlySram_foldl {α : Type} (f : State → α → State) (h : ∀ s x, s.Faultless → OnlySram s (f s x)) :
    ∀ (l : List α) (s : State), s.Faultless → OnlySram s (l.foldl f s)
  | [], s, _ => .refl s
  | x :: l, s, hs => (h s x hs).trans (onlySram_foldl f h l _ ((h s x hs).faultless hs))

theorem decodeHalf_faultless {s : State} (hs : s.Faultless) (h : Nat) : s.decodeHalf h = s := by
  simp [State.decodeHalf, hs.1]

theorem rewritten_faultless {s : State} (hs : s.Faultless) (h : Nat) : s.rewritten h = s := by
  unfold State.rewritten
  rw [show s.errors.filter (fun e => e.1 != h) = s.errors by rw [hs.1]; rfl]

theorem meetSectors_faultless {s : State} (hs : s.Faultless) (line : Nat) (sec : BitVec 4) : s.meetSectors line sec = s := by
  simp [State.meetSectors, hs.2.1]

theorem evictSram_faultless {s : State} (hs : s.Faultless) (x : SramLine) : OnlySram s (s.evictSram x) := by
  unfold State.evictSram
  rw [meetSectors_faultless hs]
  have e : ∀ k, (if !(x.dirtyAt (2 * k) || x.dirtyAt (2 * k + 1)) then s
      else (if x.has (2 * k) && x.has (2 * k + 1) then s else s.decodeHalf (x.line + 64 * k)).rewritten (x.line + 64 * k)) = s := fun k => by
    rw [decodeHalf_faultless hs, ite_self, rewritten_faultless hs, ite_self]
  simp only [List.foldl_cons, List.foldl_nil, e, hs.2.1, List.filter_nil]
  unfold State.leaveWalk
  rw [if_neg]
  · exact congrArg (fun f => { s with sram := s.sram.filter (fun y => y.line != x.line), sramFlaws := f }) hs.2.1.symm
  · have := hs.2.2 (sliceOf x.line)
    unfold State.slice at this ⊢
    simp [this]

theorem useLine_faultless {s : State} (hs : s.Faultless) (line : Nat) (keep : Bool) : OnlySram s (s.useLine line keep) := by
  unfold State.useLine
  split
  · rfl
  · split
    · exact (evictSram_faultless hs _).trans rfl
    · rfl

theorem fillSectors_faultless {s : State} (hs : s.Faultless) (line : Nat) (sec : BitVec 4) (a keep : Bool) :
    OnlySram s (s.fillSectors line sec a keep) := by
  unfold State.fillSectors
  have h : ∀ l : List Nat, l.foldl (fun (u : State) k => u.decodeHalf (line + 64 * k)) s = s := by
    intro l
    induction l with
    | nil => rfl
    | cons k l ih => rw [List.foldl_cons, decodeHalf_faultless hs, ih]
  simp only [h]
  split
  · rfl
  · exact (useLine_faultless hs line keep).trans rfl

theorem touchSectors_faultless {s : State} (hs : s.Faultless) (line : Nat) (sec : BitVec 4) (g : Bool) (p : Nat) :
    OnlySram s (s.touchSectors line sec g p) := by
  unfold State.touchSectors
  rw [meetSectors_faultless hs]
  exact fillSectors_faultless hs ..

/-- All that a read at faultless slices changes is what their SRAM holds. -/
theorem touchWith_faultless {s : State} (hs : s.Faultless) (a n : Nat) (w g : Bool) (p : Nat) : OnlySram s (s.touchWith a n w g p) :=
  onlySram_foldl _ (fun _ _ ht => touchSectors_faultless ht ..) _ s hs

theorem touch_faultless {s : State} (hs : s.Faultless) (a n : Nat) : OnlySram s (s.touch a n) := touchWith_faultless hs ..
theorem touchLine_faultless {s : State} (hs : s.Faultless) (a n : Nat) : OnlySram s (s.touchLine a n) := touchWith_faultless hs ..

theorem openHalf_faultless {s : State} (hs : s.Faultless) (h : Nat) (cells : List (Nat × Byte)) (g : Bool) (p : Nat) :
    OnlySram s (s.openHalf h cells g p) := by
  unfold State.openHalf
  simp only [meetSectors_faultless hs, decodeHalf_faultless hs, ite_self]
  split
  · exact touchLine_faultless hs ..
  · rfl

theorem closeHalf_faultless {s : State} (hs : s.Faultless) (h : Nat) (cells : List (Nat × Byte)) (g : Bool) (p : Nat) :
    OnlySram s (s.closeHalf h cells g p) := by
  unfold State.closeHalf
  simp only [rewritten_faultless hs]
  split
  · rfl
  · have hu := useLine_faultless hs (lineOf h) (p == 4)
    refine hu.trans ?_
    have hf := (hu.faultless hs).2.1
    unfold OnlySram State.updSram
    simp only [hf, List.filter_nil]

/-- Walks read their entries at faultless slices. -/
theorem walkReads_faultless (va : Nat) : ∀ (n level table : Nat) (s : State), s.Faultless → OnlySram s (State.walkReads va n level table s)
  | 0, _, _, s, _ => .refl s
  | n + 1, level, table, s, hs => by
    have h := touch_faultless hs (table + 8 * walkIndex level va) 8
    unfold State.walkReads
    simp only
    split
    · exact h.trans (walkReads_faultless va n _ _ _ (h.faultless hs))
    · exact h

theorem walked_faultless {s : State} (hs : s.Faultless) (ctx va : Nat) : OnlySram s (s.walked ctx va) := by
  unfold State.walked
  split
  · split
    · exact walkReads_faultless va 5 0 _ s hs
    · rfl
  · rfl

/-! ### Device writes -/

/-- Nothing stands in the way of a write: faultless slices, no poison, no group in force, no reply awaited. -/
structure Clean (s : State) : Prop where
  faultless : s.Faultless
  poison : s.poison = []
  group : ∀ a, s.groupOf a = none
  replies : s.awaitedSeqs = []

/-- Two states differ in memory, not below an address, and in the lines of the slices' SRAM. -/
structure SameBelow (n : Nat) (s u : State) : Prop where
  rest : u = { s with mem := u.mem, sram := u.sram }
  bytes : ∀ a, a < n → u.byte a = s.byte a

theorem SameBelow.refl (n : Nat) (s : State) : SameBelow n s s := ⟨rfl, fun _ _ => rfl⟩
theorem SameBelow.trans {n : Nat} {s u v : State} (h : SameBelow n s u) (k : SameBelow n u v) : SameBelow n s v :=
  ⟨by rw [k.rest, h.rest], fun a ha => (k.bytes a ha).trans (h.bytes a ha)⟩
theorem OnlySram.sameBelow {n : Nat} {s u : State} (h : OnlySram s u) : SameBelow n s u := ⟨by rw [h], fun a _ => h.byte a⟩
theorem SameBelow.poison {n : Nat} {s u : State} (h : SameBelow n s u) : u.poison = s.poison := by rw [h.rest]
theorem SameBelow.faultless {n : Nat} {s u : State} (h : SameBelow n s u) (hs : s.Faultless) : u.Faultless := by rw [h.rest]; exact hs
theorem SameBelow.mgmt {n : Nat} {s u : State} (h : SameBelow n s u) : u.mgmt = s.mgmt := by rw [h.rest]
theorem SameBelow.raises {n : Nat} {s u : State} (h : SameBelow n s u) : u.raises = s.raises := by rw [h.rest]
theorem SameBelow.replies {n : Nat} {s u : State} (h : SameBelow n s u) : u.awaitedSeqs = s.awaitedSeqs := by rw [h.rest]; rfl

/-- A number in bytes below the bound reads the same. -/
theorem SameBelow.readLe {n : Nat} {s u : State} (h : SameBelow n s u) {a k : Nat} (ha : a + k ≤ n) : u.readLe a k = s.readLe a k := by
  unfold State.readLe State.bytes
  congr 1
  refine List.map_congr_left fun j hj => h.bytes _ ?_
  have := List.mem_range.1 hj
  omega

theorem SameBelow.group {n : Nat} {s u : State} (h : SameBelow n s u) (hn : 0xA00500 ≤ n) {r : Nat} (hr : r < 16) : u.group r = s.group r := by
  have key : ∀ A, A + 64 ≤ n → u.readLe A 8 = s.readLe A 8 ∧ u.readLe (A + 16) 4 = s.readLe (A + 16) 4 ∧ u.readLe (A + 20) 1 = s.readLe (A + 20) 1 ∧
      u.readLe (A + 21) 1 = s.readLe (A + 21) 1 ∧ u.readLe (A + 56) 4 = s.readLe (A + 56) 4 ∧ u.readLe (A + 62) 2 = s.readLe (A + 62) 2 ∧
      (List.range 17).map (fun i => bits (u.readLe (A + 22 + 2 * i) 2) 0 9) = (List.range 17).map (fun i => bits (s.readLe (A + 22 + 2 * i) 2) 0 9) := by
    intro A hA
    refine ⟨h.readLe (by omega), h.readLe (by omega), h.readLe (by omega), h.readLe (by omega), h.readLe (by omega), h.readLe (by omega), ?_⟩
    exact List.map_congr_left fun i hi => by
      have := List.mem_range.1 hi
      rw [h.readLe (by omega)]
  obtain ⟨e0, e1, e2, e3, e4, e5, m⟩ := key (0xA00100 + 64 * r) (by omega)
  unfold State.group
  simp only
  rw [e0, e1, e2, e3, e4, e5, m]

theorem SameBelow.groupOf {n : Nat} {s u : State} (h : SameBelow n s u) (hn : 0xA00500 ≤ n) (a : Nat) : u.groupOf a = s.groupOf a := by
  have e : (List.range 16).map (fun r => (r, u.group r)) = (List.range 16).map (fun r => (r, s.group r)) :=
    List.map_congr_left fun r hr => by rw [h.group hn (List.mem_range.1 hr)]
  unfold State.groupOf
  rw [e]

theorem SameBelow.clean {n : Nat} {s u : State} (h : SameBelow n s u) (hn : 0xA00500 ≤ n) (hc : Clean s) : Clean u :=
  ⟨h.faultless hc.faultless, h.poison.trans hc.poison, fun a => (h.groupOf hn a).trans (hc.group a), h.replies.trans hc.replies⟩

/-- Bytes set above the bound leave those below it. -/
theorem sameBelow_setCells {n : Nat} (s : State) (cells : List (Nat × Byte)) (h : ∀ c ∈ cells, n ≤ c.1) : SameBelow n s (s.setCells cells) := by
  have e := setCells_eq cells s
  refine ⟨by rw [e], fun a ha => byte_setCells_of_not_mem cells s a fun c hc e => by have := h c hc; omega⟩

/-- A half of a clean write sets its bytes. -/
theorem half_clean {n : Nat} (hn : 0xA00500 ≤ n) (r : Commit) (w : SliceWrite) (h : Nat) (hc : Clean r.st) (hp : w.prot = false) (hh : 0xA00000 ≤ h)
    (hw : ∀ c ∈ w.cells, n ≤ c.1) (hr : r.refusals = []) : SameBelow n r.st (r.half w h).st ∧ (r.half w h).refusals = [] := by
  have h1 : ¬ (0x810000 ≤ h ∧ h < 0xA00000) := by omega
  have hf : ∀ s : State, Clean s → s.halfFate w h = .plain := fun s hs => by
    simp [State.halfFate, h1, State.parityFrame, hs.group, hp, State.poisoned, hs.poison]
  have hd : SameBelow n r.st (r.st.fillHalf w h) := (openHalf_faultless hc.faultless ..).sameBelow
  have hk := hd.clean hn hc
  unfold Commit.half
  simp only [State.refusesHalf, hf r.st hc, hf _ hk, hp, Bool.false_and, Bool.false_eq_true, if_false]
  refine ⟨hd.trans ?_, hr⟩
  have hs := sameBelow_setCells (r.st.fillHalf w h) (w.cells.filter (fun c => halfOf c.1 == h)) fun c hcc => hw c (List.mem_filter.1 hcc).1
  exact hs.trans (closeHalf_faultless (hs.faultless hk.faultless) ..).sameBelow

theorem halves_clean {n : Nat} (hn : 0xA00500 ≤ n) (w : SliceWrite) (hp : w.prot = false) (hw : ∀ c ∈ w.cells, n ≤ c.1) (hs : List Nat) :
    ∀ r : Commit, Clean r.st → r.refusals = [] → (∀ h ∈ hs, 0xA00000 ≤ h) →
      SameBelow n r.st (hs.foldl (fun q h => q.half w h) r).st ∧ (hs.foldl (fun q h => q.half w h) r).refusals = [] := by
  induction hs with
  | nil => exact fun r _ hr _ => ⟨SameBelow.refl _ _, hr⟩
  | cons h hs ih =>
    intro r hc hr hh
    obtain ⟨h1, h2⟩ := half_clean hn r w h hc hp (hh h (by simp)) hw hr
    obtain ⟨h3, h4⟩ := ih (r.half w h) (h1.clean hn hc) h2 (fun k hk => hh k (by simp [hk]))
    exact ⟨h1.trans h3, h4⟩

theorem mem_distinct_fold {α : Type} [DecidableEq α] (l : List α) : ∀ (r : List α) (x : α),
    x ∈ l.foldl (fun r x => if x ∈ r then r else r ++ [x]) r → x ∈ r ∨ x ∈ l := by
  induction l with
  | nil => exact fun r x h => .inl h
  | cons y l ih =>
    intro r x h
    rcases ih _ x h with h | h
    · simp only at h
      split at h
      · exact .inl h
      · rcases List.mem_append.1 h with h | h
        · exact .inl h
        · exact .inr (by simp_all)
    · exact .inr (by simp [h])

/-- A member of a list without repeats is one of the list. -/
theorem mem_distinct {α : Type} [DecidableEq α] {l : List α} {x : α} (h : x ∈ distinct l) : x ∈ l := by
  rcases mem_distinct_fold l [] x h with h | h
  · cases h
  · exact h

/-- Cells laid from an address on lie there. -/
theorem cells_above (a : Nat) (bs : List Byte) (c : Nat × Byte) (h : c ∈ cellsAt a bs) : a ≤ c.1 := by
  obtain ⟨k, _, rfl⟩ := List.mem_map.1 h
  exact Nat.le_add_right a k

/-- A write of the device's own to clean, unwatched, unprotected memory sets bytes and nothing else. -/
theorem commitWrite_device {n : Nat} (hn : 0xA00500 ≤ n) {s : State} {w : SliceWrite} (hc : Clean s) (ho : w.org = .device) (hp : w.prot = false)
    (hwt : w.watched = false) (hw : ∀ c ∈ w.cells, n ≤ c.1) : SameBelow n s (s.commitWrite w) := by
  have hh : ∀ h ∈ distinct (w.cells.map (fun c => halfOf c.1)), 0xA00000 ≤ h := by
    intro h hm
    obtain ⟨c, hcc, rfl⟩ := List.mem_map.1 (mem_distinct hm)
    have := hw c hcc
    unfold halfOf alignDown
    omega
  obtain ⟨h1, h2⟩ := halves_clean hn w hp hw _ { st := s, changed := [], written := [], refusals := [] } hc rfl hh
  unfold State.commitWrite State.commit
  simp only [h2, List.isEmpty_nil, if_true, hwt, Bool.false_eq_true, if_false, ho, State.passL1, State.recordsChanged, State.noteReplies]
  rw [if_pos (beq_self_eq_true _), h1.replies, hc.replies]
  exact h1

/-! ### Walks -/

theorem SameBelow.leafOk {n : Nat} {s u : State} (h : SameBelow n s u) (hn : 0xA00500 ≤ n) (size e : Nat) : leafOk u size e = leafOk s size e := by
  unfold Sys2Proof.Machine.leafOk State.parityFrame
  rw [h.groupOf hn, h.mgmt]

/-- The tables of a walk that ends at a leaf of 2 MiB lie below an address. -/
def tablesBelow (s : State) (bound va : Nat) : Nat → Nat → Nat → Bool
  | 0, _, table => table + 4096 ≤ bound && bit (s.readLe (table + 8 * bits va 21 9) 8) 1
  | n + 1, level, table => table + 4096 ≤ bound &&
    tablesBelow s bound va n (level + 1) (pointerNext (s.readLe (table + 8 * (if level = 0 then bits va 48 8 else if level = 1 then bits va 39 9 else bits va 30 9)) 8))

theorem bits_lt (x l n : Nat) : bits x l n < 2 ^ n := by unfold bits; exact Nat.mod_lt _ (by positivity)

theorem SameBelow.walk3 {n : Nat} {s u : State} (h : SameBelow n s u) (hn : 0xA00500 ≤ n) {va table : Nat}
    (ht : tablesBelow s n va 0 0 table = true) : walk3 u va table = walk3 s va table := by
  unfold tablesBelow at ht
  obtain ⟨h1, h2⟩ := Bool.and_eq_true _ _ ▸ ht
  have h1 := of_decide_eq_true h1
  have hb := bits_lt va 21 9
  unfold Sys2Proof.Machine.walk3 State.poisoned
  simp only
  rw [h.readLe (by omega), h.poison]
  simp only [h2, if_true, h.leafOk hn]

theorem SameBelow.walkUpper {n : Nat} {s u : State} (h : SameBelow n s u) (hn : 0xA00500 ≤ n) {va : Nat} : ∀ (k level table : Nat),
    tablesBelow s n va k level table = true → walkUpper u va k level table = walkUpper s va k level table
  | 0, _, table, ht => h.walk3 hn ht
  | k + 1, level, table, ht => by
    unfold tablesBelow at ht
    obtain ⟨h1, h2⟩ := Bool.and_eq_true _ _ ▸ ht
    have h1 := of_decide_eq_true h1
    have b1 := bits_lt va 48 8
    have b2 := bits_lt va 39 9
    have b3 := bits_lt va 30 9
    unfold Sys2Proof.Machine.walkUpper State.poisoned
    simp only
    rw [h.readLe (by split <;> (try split) <;> omega), h.poison, h.walkUpper hn k _ _ h2]

/-- The leaf of an address whose tables lie below the bound. -/
theorem SameBelow.deviceAddr {n : Nat} {s u : State} (h : SameBelow n s u) (hn : 0xA00500 ≤ n) {ctx va k : Nat} {root : Nat} (hctx : ctx < 2 ^ 16)
    (hr : s.rootTable ctx = some root) (ht : tablesBelow s n va 3 0 root = true) : deviceAddr u ctx va k false true = deviceAddr s ctx va k false true := by
  have e : u.rootTable ctx = s.rootTable ctx := by
    unfold State.rootTable State.rootOf State.ctxRoot
    rw [h.readLe (by omega)]
  have e2 : leafAt u ctx va = leafAt s ctx va := by
    unfold leafAt walk
    rw [e, hr]
    simp only [h.walkUpper hn 3 0 root ht]
  unfold Sys2Proof.Machine.deviceAddr
  rw [e2, h.mgmt]
  simp

theorem bits_page {va wa l n : Nat} (h : va / 2 ^ 21 = wa / 2 ^ 21) (hl : 21 ≤ l) : bits va l n = bits wa l n := by
  have e : ∀ x : Nat, x / 2 ^ l = x / 2 ^ 21 / 2 ^ (l - 21) := fun x => by
    rw [Nat.div_div_eq_div_mul, ← pow_add, Nat.add_sub_cancel' hl]
  unfold bits
  rw [Nat.shiftRight_eq_div_pow, Nat.shiftRight_eq_div_pow, e va, e wa, h]

/-- Addresses of one page of 2 MiB have one walk. -/
theorem walkUpper_page {s : State} {bound va wa : Nat} (h : va / 2 ^ 21 = wa / 2 ^ 21) : ∀ (k level table : Nat),
    tablesBelow s bound va k level table = true → walkUpper s wa k level table = walkUpper s va k level table
  | 0, _, table, ht => by
    unfold tablesBelow at ht
    have h2 := (Bool.and_eq_true _ _ ▸ ht).2
    unfold walkUpper walk3
    have ha : alignDown wa (2 ^ 21) = alignDown va (2 ^ 21) := by unfold alignDown; omega
    simp only [← bits_page h (le_refl 21), h2, if_true, ha]
  | k + 1, level, table, ht => by
    unfold tablesBelow at ht
    have h2 := (Bool.and_eq_true _ _ ▸ ht).2
    unfold walkUpper
    simp only [← bits_page h (show 21 ≤ 48 by decide), ← bits_page h (show 21 ≤ 39 by decide), ← bits_page h (show 21 ≤ 30 by decide),
      walkUpper_page h k _ _ h2]

/-- The device may write within one page of 2 MiB that its context's tables let it write. -/
theorem deviceAddr_page {s : State} {bound ctx va wa k t e root : Nat} (hr : s.rootTable ctx = some root) (ht : tablesBelow s bound va 3 0 root = true)
    (hv : va % 2 ^ 21 = 0) (hb : va + 2 ^ 21 ≤ 2 ^ 56) (h : va ≤ wa ∧ wa + k ≤ va + 2 ^ 21) (hk : 0 < k)
    (hd : walk s ctx va = .leaf va (2 ^ 21) t e) (hw : leafWr e = true ∧ leafModule e = s.mgmt.modid ∧ leafTier e ≤ 1) :
    deviceAddr s ctx wa k false true = some (leafFrame e + (wa - va), e) := by
  have hp : va / 2 ^ 21 = wa / 2 ^ 21 := by omega
  have e2 : walk s ctx wa = walk s ctx va := by
    unfold walk
    rw [hr]
    exact walkUpper_page hp 3 0 root ht
  have hlt : wa < 2 ^ 56 := by omega
  unfold deviceAddr leafAt
  rw [e2, hd, if_pos hlt]
  simp only
  rw [if_pos]
  have h2 := h.2
  simp only [Bool.not_false, Bool.true_or, Bool.not_true, Bool.false_or, Bool.false_and, Bool.and_true, hw.1, hw.2.1, beq_self_eq_true, hw.2.2, h2, decide_true]

/-- An area whose page the device can read here is read here (R451). -/
theorem areaRead_own {s t : State} {ctx va n : Nat} {d : List Byte} (h : s.deviceRead ctx va n = (t, some d)) :
    s.areaRead ctx va n = .here t d := by
  unfold State.areaRead
  rw [h]

/-- An area whose page the device can write here is written here (R451). -/
theorem areaStore_own {s t : State} {ctx va : Nat} {data : List Byte} (h : s.deviceStore ctx va data = (t, true)) :
    s.areaStore ctx va data = (t, true) := by
  unfold State.areaStore
  rw [h]

/-- Bytes that the device saves within such a page are written, and nothing below the bound changes. -/
theorem saveBytes_page {n ctx va t e root : Nat} {s : State} (hn : 0xA00500 ≤ n) (hc : Clean s) (hctx : ctx < 2 ^ 16) (hr : s.rootTable ctx = some root)
    (ht : tablesBelow s n va 3 0 root = true) (hv : va % 2 ^ 21 = 0) (hb : va + 2 ^ 21 ≤ 2 ^ 56) (hd : walk s ctx va = .leaf va (2 ^ 21) t e)
    (hw : leafWr e = true ∧ leafModule e = s.mgmt.modid ∧ leafTier e ≤ 1) (hp : leafProt e = false ∧ leafWatch e = false) (hf : n ≤ leafFrame e) :
    ∀ (m : Nat) (u : State) (wa : Nat) (data : List Byte), SameBelow n s u → va ≤ wa → wa + data.length ≤ va + 2 ^ 21 →
      SameBelow n s (State.saveBytes ctx m u wa data).1 ∧ (State.saveBytes ctx m u wa data).2 = none
  | 0, u, wa, data, hs, _, _ => ⟨hs, rfl⟩
  | m + 1, u, wa, data, hs, h1, h2 => by
    unfold State.saveBytes
    split
    · exact ⟨hs, rfl⟩
    · rename_i hne
      have hl : 0 < data.length := by
        cases data with
        | nil => simp at hne
        | cons x xs => simp
      have hk : 0 < 4096 - wa % 4096 := by omega
      have htake : (data.take (4096 - wa % 4096)).length = min (4096 - wa % 4096) data.length := List.length_take ..
      have htab : tablesBelow s n wa 3 0 root = true := by
        have hp : va / 2 ^ 21 = wa / 2 ^ 21 := by omega
        have : ∀ (k level table : Nat), tablesBelow s n wa k level table = tablesBelow s n va k level table := by
          intro k
          induction k with
          | zero => intro level table; unfold tablesBelow; rw [bits_page hp (le_refl 21)]
          | succ k ih =>
            intro level table
            unfold tablesBelow
            simp only [ih, ← bits_page hp (show 21 ≤ 48 by decide), ← bits_page hp (show 21 ≤ 39 by decide), ← bits_page hp (show 21 ≤ 30 by decide)]
        rw [this]; exact ht
      have hda := deviceAddr_page (k := (data.take (4096 - wa % 4096)).length) hr ht hv hb ⟨h1, by omega⟩ (by omega) hd hw
      rw [← hs.deviceAddr hn hctx hr htab] at hda
      have hu : SameBelow n u (u.walked ctx wa) := (walked_faultless (hs.faultless hc.faultless) ctx wa).sameBelow
      have hda2 : deviceAddr (u.walked ctx wa) ctx wa (data.take (4096 - wa % 4096)).length false true = some (leafFrame e + (wa - va), e) := by
        rw [(hs.trans hu).deviceAddr hn hctx hr htab, ← hs.deviceAddr hn hctx hr htab]; exact hda
      have hre : u.deviceReach ctx wa (data.take (4096 - wa % 4096)).length false true = (u.walked ctx wa, some (leafFrame e + (wa - va), e)) := by
        unfold State.deviceReach
        simp only [hda2, Bool.false_eq_true, if_false]
      unfold State.areaStore State.deviceStore
      simp only
      rw [hre]
      simp only
      have hst : SameBelow n (u.walked ctx wa) ((u.walked ctx wa).commitWrite (deviceWrite (leafFrame e + (wa - va)) e ctx (data.take (4096 - wa % 4096)))) := by
        refine commitWrite_device hn ((hs.trans hu).clean hn hc) rfl hp.1 hp.2 ?_
        intro c hcm
        simp only [deviceWrite, cellsAt] at hcm
        have := cells_above _ _ _ hcm
        omega
      refine saveBytes_page hn hc hctx hr ht hv hb hd hw hp hf m _ _ _ ((hs.trans hu).trans hst) (by omega) ?_
      rw [List.length_drop]
      omega

/-- Fields that the device saves within such a page raise nothing. -/
theorem saveFields_page {n ctx va t e root : Nat} {s : State} (hn : 0xA00500 ≤ n) (hc : Clean s) (hctx : ctx < 2 ^ 16) (hr : s.rootTable ctx = some root)
    (ht : tablesBelow s n va 3 0 root = true) (hv : va % 2 ^ 21 = 0) (hb : va + 2 ^ 21 ≤ 2 ^ 56) (hd : walk s ctx va = .leaf va (2 ^ 21) t e)
    (hw : leafWr e = true ∧ leafModule e = s.mgmt.modid ∧ leafTier e ≤ 1) (hp : leafProt e = false ∧ leafWatch e = false) (hf : n ≤ leafFrame e)
    (u : State) (v wa : Nat) (fs : List Field) (hs : SameBelow n s u) (h1 : va ≤ wa) (h2 : ∀ f ∈ fs, wa + f.1 + f.2.length ≤ va + 2 ^ 21) :
    SameBelow n s (u.saveFields v ctx wa fs) := by
  have key : ∀ (fs : List Field) (q : State × Option Nat), SameBelow n s q.1 → q.2 = none → (∀ f ∈ fs, wa + f.1 + f.2.length ≤ va + 2 ^ 21) →
      SameBelow n s (fs.foldl (fun (q : State × Option Nat) f => if q.2.isNone then State.saveBytes ctx (f.2.length + 1) q.1 (wa + f.1) f.2 else q) q).1 ∧
      (fs.foldl (fun (q : State × Option Nat) f => if q.2.isNone then State.saveBytes ctx (f.2.length + 1) q.1 (wa + f.1) f.2 else q) q).2 = none := by
    intro fs
    induction fs with
    | nil => exact fun q hq hb _ => ⟨hq, hb⟩
    | cons f fs ih =>
      intro q hq hb hf2
      rw [List.foldl_cons, if_pos (by rw [hb]; rfl)]
      obtain ⟨k1, k2⟩ := saveBytes_page hn hc hctx hr ht hv ‹_› hd hw hp hf (f.2.length + 1) q.1 (wa + f.1) f.2 hq (by omega) (hf2 f (by simp))
      exact ih _ k1 k2 fun g hg => hf2 g (by simp [hg])
  obtain ⟨k1, k2⟩ := key fs (u, none) hs rfl h2
  unfold State.saveFields
  split
  · rename_i t e; rw [e] at k1; exact k1
  · rename_i t a e; rw [e] at k2; cases k2

/-! ### Lengths of what is saved -/

@[simp] theorem length_leBytes (n x : Nat) : (leBytes n x).length = n := by
  induction n generalizing x with
  | zero => rfl
  | succ n ih => simp [leBytes, ih]

/-- Parts of one length, laid one after another. -/
theorem length_flatMap_const {α : Type} (n : Nat) (f : α → List Byte) : ∀ l : List α, (∀ x ∈ l, (f x).length = n) → (l.flatMap f).length = l.length * n
  | [], _ => by simp
  | x :: l, h => by
    rw [List.flatMap_cons, List.length_append, h x (by simp), length_flatMap_const n f l fun y hy => h y (by simp [hy]), List.length_cons]
    ring

theorem length_splitImage (o : Option Split) : (splitImage o).length = 64 := by
  cases o <;> simp [splitImage]

theorem length_wcbImage (e : WcbEntry) : e.image.length = 256 := by simp [WcbEntry.image]

/-- A gang block holds what is saved of a gang. -/
theorem image_fits (g : Gang) (idx : Nat) (h : ∀ c, g.copySlot = some c → c.image.length ≤ 4) : ∀ f ∈ g.image idx, f.1 + f.2.length ≤ 0x4000 := by
  have hv : ((List.range 64).flatMap (fun r => (List.range 32).flatMap (fun l => leBytes 4 (g.vlane r l).toNat))).length = 64 * 128 := by
    rw [length_flatMap_const 128, List.length_range]
    intro r _
    rw [length_flatMap_const 4 _ _ fun l _ => length_leBytes _ _, List.length_range]
  have hrc : ((List.range 64).flatMap (fun k => match g.rc.find? (fun e => e.idx == k) with | some e => e.image | none => leBytes 64 0)).length = 64 * 64 := by
    rw [length_flatMap_const 64, List.length_range]
    intro k _
    split
    · exact length_leBytes _ _
    · exact length_leBytes _ _
  have hs : ((List.range 64).flatMap (fun r => leBytes 8 (g.sreg r).toNat)).length = 64 * 8 := by
    rw [length_flatMap_const 8 _ _ fun l _ => length_leBytes _ _, List.length_range]
  have hpr : ((List.range 8).flatMap (fun r => leBytes 4 (g.preg r).toNat)).length = 8 * 4 := by
    rw [length_flatMap_const 4 _ _ fun l _ => length_leBytes _ _, List.length_range]
  have hm : ((List.range 64).flatMap (fun r => leBytes 4 (g.vmarks r).toNat)).length = 64 * 4 := by
    rw [length_flatMap_const 4 _ _ fun l _ => length_leBytes _ _, List.length_range]
  have hsp : ((List.range 4).flatMap (fun k => splitImage (g.split k))).length = 4 * 64 := by
    rw [length_flatMap_const 64 _ _ fun l _ => length_splitImage _, List.length_range]
  have hw : ((List.range 4).flatMap (fun k => match g.wcb[k]? with | some e => e.image | none => leBytes 256 0)).length = 4 * 256 := by
    rw [length_flatMap_const 256, List.length_range]
    intro k _
    split
    · exact length_wcbImage _
    · exact length_leBytes _ _
  have ha : ((List.range 16).flatMap (fun b => let a := sget { mask := 0, gen := 0, obs := false } g.arrivals b
      leBytes 4 a.mask.toNat ++ leBytes 1 a.gen ++ leBytes 1 (b2n a.obs) ++ leBytes 6 0)).length = 16 * 12 := by
    rw [length_flatMap_const 12, List.length_range]
    intro k _
    simp
  intro f hf
  simp only [Gang.image, List.mem_cons, List.not_mem_nil, or_false] at hf
  rcases hf with rfl | rfl | rfl | rfl | rfl | rfl | rfl | rfl | rfl | rfl | rfl
  · simp only [hv]; decide
  · exact Nat.le_trans (Nat.add_le_add_left (le_of_eq hrc) _) (show 0x2000 + 64 * 64 ≤ 0x4000 by decide)
  · simp only [hs]; decide
  · simp only [hpr]; decide
  · simp only [length_leBytes]; decide
  · simp only [hm]; decide
  · simp only [hsp]; decide
  · exact Nat.le_trans (Nat.add_le_add_left (le_of_eq hw) _) (show 0x3500 + 4 * 256 ≤ 0x4000 by decide)
  · simp only
    split
    · rename_i c hc
      have := h c hc
      rw [List.length_append, List.length_append, length_leBytes, length_leBytes, length_flatMap_const 8 _ _ fun l _ => length_leBytes _ _]
      omega
    · simp only [length_leBytes]; decide
  · simp only [ha]; decide
  · simp only [List.length_append, length_leBytes]; decide

/-- A crew block holds what is saved of a crew without tiles. -/
theorem tileImage_fits (c : Crew) (ha : c.accs = 0) (hz : c.zregs = 0) : ∀ f ∈ c.tileImage, f.1 + f.2.length ≤ 0x81000 := by
  intro f hf
  simp only [Crew.tileImage, ha, hz, List.range_zero, List.map_nil, List.nil_append, List.mem_singleton] at hf
  subst hf
  simp only [List.length_append, length_leBytes, length_flatMap_const 8 _ _ fun l _ => length_leBytes _ _, List.length_range]
  decide

/-- Crew control fits its 64 KiB (R393). -/
theorem control_fits (s : State) (c : Crew) : ((s.controlWords c).flatMap (leBytes 8)).length ≤ 0x10000 := by
  rw [length_flatMap_const 8 _ _ fun l _ => length_leBytes _ _]
  have : (s.controlWords c).length ≤ 8192 := List.length_take_le ..
  omega

/-- What is saved of a crew of one gang, crew control apart. -/
theorem saveGangs_one {s : State} {c : Crew} {g : Gang} (h : s.members c.val = [g]) : s.saveGangs c =
    (s.saveFields c.val c.ctx (s.gangBlock g) (g.image (s.leaseIndex g))).saveFields c.val c.ctx
      ((s.saveFields c.val c.ctx (s.gangBlock g) (g.image (s.leaseIndex g))).crewBlock c + 0x40000)
      ((((s.saveFields c.val c.ctx (s.gangBlock g) (g.image (s.leaseIndex g))).crew c.val).getD c).tileImage) := by
  unfold State.saveGangs
  rw [h, List.foldl_cons, List.foldl_nil]

end Sys2Proof.Machine
end

