-- ==== Sys2Proof/Tests/Slice0.lean ====
section
/-! SUPPORT. Tests: ill-formed words are refused, words written out from the reference's encodings decode, worked cases of
the reference come out as it says, and every statement's hypotheses can be met. -/

namespace Sys2Proof.Tests

open Sys2Proof Sys2Proof.Machine Sys2Proof.Claims

-- One theorem after another: what they evaluate is large, and side by side it would not fit in memory.
set_option Elab.async false

/-- No checkpoint is due. -/
theorem noCkpts {l : List Crew} (h : l.all (fun c => c.ckpts.isEmpty) = true) : ∀ c ∈ l, c.ckpts = [] := by
  simpa using h

/-- What holds of every entry of a store, and of the default, holds of what is read from it. -/
theorem sget_all {α : Type} {d : α} {f : α → Bool} (hd : f d = true) : ∀ {m : Store α}, m.all (fun e => f e.2) = true → ∀ k, f (sget d m k) = true
  | [], _, _ => hd
  | (j, v) :: m, h, k => by
    simp only [List.all_cons, Bool.and_eq_true] at h
    by_cases e : j = k
    · simpa [sget, e] using h.1
    · simpa [sget, e] using sget_all hd h.2 k

/-- No bank has a flaw, and none is to be encoded anew. -/
theorem noFlaws {s : State} (h : s.banks.all (fun e => e.2.flaws.isEmpty && !e.2.reenc) = true) (cl b : Nat) : Whole s cl b := by
  have := sget_all (d := BankSt.atStart b) (f := fun x : BankSt => x.flaws.isEmpty && !x.reenc) rfl h (64 * cl + b)
  simp at this
  exact this

/-- Nothing has failed. -/
theorem faultless {s : State} (h : s.errors = [] ∧ s.sramFlaws = [] ∧ s.slices.all (fun e => e.2.walk.isEmpty) = true) : s.Faultless :=
  ⟨h.1, h.2.1, fun _ => List.isEmpty_iff.1 (sget_all (f := fun x : SliceSt => x.walk.isEmpty) rfl h.2.2 _)⟩

/-- No load is under way. -/
theorem noLines {s : State} (h : s.loads = []) : NoLines s := fun l hl => by simp [h] at hl

/-! ### Ill-formed instructions (R30) -/

theorem test_guard_8_refused : (Instr.braD 8 1 1).wellFormed = false := rfl
theorem test_predicate_destination_8_refused : (Instr.vtest 8 0 0 0).wellFormed = false := rfl
theorem test_wide_atomic_of_odd_register_refused : (Instr.vatadd 3 0 0 1 0).wellFormed = false := rfl
theorem test_wide_cas_of_register_2_refused : (Instr.vatcas 2 0 0 1 0).wellFormed = false := rfl
theorem test_cas_of_odd_register_refused : (Instr.vatcas 1 0 0 0 0).wellFormed = false := rfl
theorem test_copy_of_register_2_refused : (Instr.copy 2 0 1 0 1 0 0).wellFormed = false := rfl
theorem test_copy_barrier_without_its_bit_refused : (Instr.copy 4 0 0 3 1 0 0).wellFormed = false ∧ (Instr.copy 4 0 1 3 0 1 0).wellFormed = false := ⟨rfl, rfl⟩
theorem test_fence_scope_6_refused : (Instr.fenceAcq 6).wellFormed = false := rfl
theorem test_mma_odd_pair_refused : (Instr.mma 0 1 3 0 0 0).wellFormed = false ∧ (Instr.mma 0 0 16 0 0 0).wellFormed = false ∧
    (Instr.mma 0 0 0 1 5 0).wellFormed = false := ⟨rfl, rfl, rfl⟩
theorem test_sysreg_0x00B_refused : (Instr.sysrd 0 0x00B).wellFormed = false ∧ (Instr.syswr 0 0x440).wellFormed = false := ⟨rfl, rfl⟩
theorem test_consecutive_vld_offset_register_refused : (Instr.vld 0 0 1 0 1 0).wellFormed = false ∧
    (Instr.vld 1 0 0 3 0 0).wellFormed = false := ⟨rfl, rfl⟩
theorem test_64_bit_conversion_odd_register_refused : (Instr.vcvtSF32 1 0 3 0).wellFormed = false ∧
    (Instr.vcvtF32S 0 1 3 0).wellFormed = false := ⟨rfl, rfl⟩
theorem test_zld_past_z15_refused : (Instr.zld 15 1 0 0).wellFormed = false ∧ (Instr.zst 0 0 0 1).wellFormed = false := ⟨rfl, rfl⟩
theorem test_wstat_7_refused : (Instr.wstat 0 0 7).wellFormed = false := rfl
theorem test_rstat_7_refused : (Instr.rstat 0 0 0 7).wellFormed = false := rfl
theorem test_rstat_register_without_key_refused : (Instr.rstat 1 21 16 1).wellFormed = false := rfl
theorem test_empty_qfence_refused : (Instr.qfence 0).wellFormed = false := rfl
theorem test_drain_kind_3_refused : (Instr.mdrain 0 3 0 0).wellFormed = false ∧ (Instr.mdrainT 0 1 2 3 0).wellFormed = false := ⟨rfl, rfl⟩
theorem test_rebal_odd_register_refused : (Instr.rebal 3 0 0 0).wellFormed = false := rfl
theorem test_reserved_hints_refused : (Instr.hintOrd 0).wellFormed = false ∧ (Instr.hintOrd 4).wellFormed = false ∧
    (Instr.hintScope 7).wellFormed = false ∧ (Instr.hintCache 5).wellFormed = false ∧ (Instr.hintSched 3).wellFormed = false :=
  ⟨rfl, rfl, rfl, rfl, rfl⟩

/-! ### Decoding: one word per instruction, its fields where the encoding tables of the reference place them -/

/-- Every word of a list decodes to its instruction. -/
def Decode : List (Word × Instr) → Prop
  | [] => True
  | p :: l => decodeWord p.1 = some p.2 ∧ Decode l
noncomputable def wordsScalar : List (Word × Instr) :=
  [(0x055F4A00, .add 21 61 10), (0x05AA8401, .sub 26 42 4), (0x045D6302, .and 5 53 35), (0x04762603, .or 7 24 38),
   (0x044EE104, .xor 4 59 33), (0x04E0C605, .andn 14 3 6), (0x05C6C506, .sll 28 27 5), (0x0501A407, .srl 16 6 36),
   (0x05C13508, .sra 28 4 53), (0x06523D09, .rol 37 8 61), (0x066F440A, .ror 38 61 4), (0x06599A0B, .slt 37 38 26),
   (0x044FCF0C, .sltz 4 63 15), (0x0439370D, .seq 3 36 55), (0x0494DB0E, .minS 9 19 27), (0x04A8C80F, .maxS 10 35 8),
   (0x06552410, .minZ 37 20 36), (0x075B0C11, .maxZ 53 44 12), (0x0479A512, .mul 7 38 37),
   (0x06935813, .mulhS 41 13 24), (0x04792E14, .mulhZ 7 36 46), (0x04594415, .divS 5 37 4),
   (0x0683A016, .divZ 40 14 32), (0x06C8DC17, .remS 44 35 28), (0x07255E18, .remZ 50 21 30), (0x066F0019, .clz 38 60),
   (0x05E6001A, .ctz 30 24), (0x0544001B, .popc 20 16), (0x0733001C, .brev 51 12), (0x06DC801D, .bswap 45 50),
   (0x0501801E, .sextS8 16 6), (0x0655001F, .sextS16 37 20), (0x06280020, .sextS32 34 32), (0x07958021, .zextZ32 57 22),
   (0x06F75322, .addW 47 29 19), (0x067FC523, .subW 39 63 5), (0x04885B24, .mulW 8 33 27)]

theorem test_decode_scalar : Decode wordsScalar := by
  unfold wordsScalar
  repeat refine ⟨rfl, ?_⟩
  trivial

noncomputable def wordsScalarImmediate : List (Word × Instr) :=
  [(0x08BC55E5, .addi 11 49 5605), (0x0CAF1F4C, .andi 10 60 8012), (0x11B0FD92, .ori 27 3 15762),
   (0x16B170EF, .xori 43 5 12527), (0x1A497281, .slti 36 37 12929), (0x1F9D5415, .sltiz 57 53 5141),
   (0x216B4017, .slli 22 45 23), (0x22781026, .srli 39 32 38), (0x2347A005, .srai 52 30 5), (0x2361B03D, .rori 54 6 61),
   (0x2127C817, .slliW 18 31 23), (0x22B15802, .srliW 43 5 2), (0x22FB680A, .sraiW 47 45 10),
   (0x22A97816, .roriW 42 37 22), (0x27572159, .lui 53 467289), (0x293B774F, .addpc 19 751439),
   (0x2D9E3152, .addcb 25 930130)]

theorem test_decode_scalarImmediate : Decode wordsScalarImmediate := by
  unfold wordsScalarImmediate
  repeat refine ⟨rfl, ?_⟩
  trivial

noncomputable def wordsControl : List (Word × Instr) :=
  [(0x38387F1C, .beqz 56 32540), (0x38462A97, .bnez 6 10903), (0x389D66D3, .bltz 29 26323),
   (0x38E44721, .bgez 36 18209), (0x3939230E, .bgtz 57 8974), (0x39756E37, .blez 53 28215), (0x3C078CDC, .bany 7 36060),
   (0x3C43B4D7, .ball 3 46295), (0x3C84FC8A, .bnone 4 64650), (0x3CC3AEC7, .bnall 3 44743),
   (0x43D867AA, .braD 15 780 1962), (0x44EC4A20, .jmp 15485472), (0x489A8B03, .call 10128131), (0x4C000000, .nop),
   (0x4C460000, .jr 6), (0x4C4C2A00, .jrL 12 10), (0x4C800000, .ret), (0x4CC00004, .exit 4), (0x4D00A8A4, .trap 2698 4),
   (0x4D400320, .brk 50), (0x4D800000, .yield), (0x4DE00000, .setfmt 32), (0x4E00D800, .getfmt 54),
   (0x4E65B440, .safept 154436)]

theorem test_decode_control : Decode wordsControl := by
  unfold wordsControl
  repeat refine ⟨rfl, ?_⟩
  trivial

noncomputable def wordsBarriersAndCrews : List (Word × Instr) :=
  [(0x500D14C0, .barInit 3 17 19), (0x5044A007, .barArrive 1 10 7), (0x50A58000, .barWait 9 24),
   (0x50EA5006, .barSync 10 37 6), (0x510ED000, .barGen 3 45), (0x51780000, .barObs 14), (0x51A40000, .barDrop 9),
   (0x523D0000, .cjoin 61), (0x52680000, .cleave 40), (0x52AA0000, .cmask 42), (0x52EC0000, .crank 44)]

theorem test_decode_barriersAndCrews : Decode wordsBarriersAndCrews := by
  unfold wordsBarriersAndCrews
  repeat refine ⟨rfl, ?_⟩
  trivial

noncomputable def wordsVectorFloat : List (Word × Instr) :=
  [(0x57011E87, .vfadd 48 4 30 1 7), (0x55D2C89A, .vfsub 29 11 8 1 10), (0x547F58A2, .vfmul 7 61 24 1 2),
   (0x5783A8B3, .vfdiv 56 14 40 1 3), (0x56947ECA, .vfmin 41 17 62 1 10), (0x5587C8DE, .vfmax 24 31 8 1 14),
   (0x55F500E3, .vfabs 31 20 1 3), (0x547C00FC, .vfneg 7 48 1 12), (0x5917F689, .vffma 17 31 54 1 9),
   (0x5823BD93, .vffms 2 14 61 1 3), (0x5AD8FBAD, .vfnma 45 35 59 1 13), (0x5A253FBC, .vfnms 34 20 63 1 12),
   (0x5F744009, .vfsqrt 55 17 9), (0x5D8EC013, .vfrcp 24 59 3), (0x5D7C8024, .vfrsq 23 50 4),
   (0x5E15803B, .vfexp 33 22 11), (0x5CFA004D, .vflog2 15 40 13), (0x6017FB0B, .vfcmpEq 1 31 59 11),
   (0x606D3D1C, .vfcmpNe 6 52 61 12), (0x6078B02F, .vfcmpLt 7 34 48 15), (0x601CB433, .vfcmpLe 1 50 52 3),
   (0x607E6441, .vfcmpGt 7 57 36 1), (0x605AD057, .vfcmpGe 5 43 16 7), (0x60719165, .vfcmpUn 7 6 17 5),
   (0x6064847D, .vfcmpOrd 6 18 4 13), (0x66D30007, .vfrintNe 45 12 7), (0x67D0801B, .vfrintZ 61 2 11),
   (0x646D0025, .vfrintDn 6 52 5), (0x6469C03E, .vfrintUp 6 39 14), (0x64F1514E, .vfscale 15 5 17 14),
   (0x64878051, .vfrint 8 30 1), (0x6969020F, .vcvtSF32 22 36 2 15), (0x6BD20115, .vcvtZF32 61 8 1 5),
   (0x6843012F, .vcvtF32S 4 12 1 15), (0x694A4239, .vcvtF32Z 20 41 2 9), (0x6A1B0145, .vcvtNfF32 33 44 1 5),
   (0x697D0155, .vcvtF32Nf 23 52 1 5)]

theorem test_decode_vectorFloat : Decode wordsVectorFloat := by
  unfold wordsVectorFloat
  repeat refine ⟨rfl, ?_⟩
  trivial

noncomputable def wordsVectorInteger : List (Word × Instr) :=
  [(0x6C30420C, .vadd 3 1 2 12), (0x6E193F14, .vsub 33 36 63 4), (0x6E17D02F, .vmul 33 31 16 15),
   (0x6DD1EB3E, .vmulhS32 29 7 43 14), (0x6E3DB947, .vmulhZ32 35 54 57 7), (0x6FF8545C, .vand 63 33 20 12),
   (0x6CEFCF66, .vor 14 63 15 6), (0x6CDDB97C, .vxor 13 54 57 12), (0x6EFA4987, .vsll 47 41 9 7),
   (0x6D7FC49E, .vsrl 23 63 4 14), (0x6C9045AB, .vsra 9 1 5 11), (0x6F0E51B7, .vminS32 48 57 17 7),
   (0x6F6678C9, .vmaxS32 54 25 56 9), (0x6EBFD3DA, .vminZ32 43 63 19 10), (0x6D0B53E1, .vmaxZ32 16 45 19 1),
   (0x6DE30BF5, .vaddsatS32 30 12 11 5), (0x70159902, .vcmpEqZ32 1 22 25 2), (0x7011911E, .vcmpNeZ32 1 6 17 14),
   (0x70368225, .vcmpLtS32 3 26 2 5), (0x702D6C3A, .vcmpLeS32 2 53 44 10), (0x704A424B, .vcmpGtS32 4 41 2 11),
   (0x705C3C59, .vcmpGeS32 5 48 60 9), (0x703A296B, .vcmpLtZ32 3 40 41 11), (0x707B4E7B, .vcmpLeZ32 7 45 14 11),
   (0x701F608B, .vcmpGtZ32 1 61 32 11), (0x70157196, .vcmpGeZ32 1 21 49 6), (0x705699AE, .vtest 5 26 25 14)]

theorem test_decode_vectorInteger : Decode wordsVectorInteger := by
  unfold wordsVectorInteger
  repeat refine ⟨rfl, ?_⟩
  trivial

noncomputable def wordsVectorScalar : List (Word × Instr) :=
  [(0x7661580F, .vaddScalar 38 5 24 15), (0x75CC521E, .vsubScalar 28 49 18 14), (0x74448721, .vmulScalar 4 18 7 1),
   (0x776AD33B, .vandScalar 54 43 19 11), (0x77C29045, .vorScalar 60 10 16 5), (0x75C85554, .vxorScalar 28 33 21 4),
   (0x77263367, .vsllScalar 50 24 51 7), (0x7790B47D, .vsrlScalar 57 2 52 13), (0x7696BB8F, .vsraScalar 41 26 59 15),
   (0x76F1849F, .vfaddScalar 47 6 4 15), (0x76F6DDAA, .vfmulScalar 47 27 29 10), (0x77126ABE, .vffmaScalar 49 9 42 14),
   (0x753020C1, .vmovScalar 19 32 1), (0x7453A1DF, .vcmpEqScalar 5 14 33 15), (0x744812EA, .vcmpLtS32Scalar 4 32 18 10),
   (0x74372EFD, .vcmpLtZ32Scalar 3 28 46 13), (0x7BAD1E5A, .vaddImm 58 52 485 10), (0x7E000012, .vli 32 1 2)]

theorem test_decode_vectorScalar : Decode wordsVectorScalar := by
  unfold wordsVectorScalar
  repeat refine ⟨rfl, ?_⟩
  trivial

noncomputable def wordsLanesAndPredicates : List (Word × Instr) :=
  [(0x83F7500D, .vperm 63 29 16 13), (0x8073C013, .vscanZ32 7 15 3), (0x80A8802B, .vscanF32 10 34 11),
   (0x807F403E, .vscanxZ32 7 61 14), (0x82FB404B, .vredZ32 47 45 11), (0x837C405F, .vredF32 55 49 15),
   (0x81E18069, .vsgn 30 6 9), (0x8320C170, .vget 50 3 1), (0x83324F8A, .vins 51 9 15 10), (0x83B00091, .vlane 59 1),
   (0x82AB80A5, .vpopc 42 46 5), (0x83E240BB, .vclz 62 9 11), (0x841DC000, .pand 3 5 6), (0x8466E000, .por 4 6 7),
   (0x84946000, .pxor 2 4 3), (0x84D7A000, .pandn 2 7 5), (0x852B0000, .pnot 5 3), (0x85600900, .pmov 4 18),
   (0x85831500, .prd 3 42), (0x85C01B00, .pact 54), (0x86020F80, .pcnt 2 31), (0x86450800, .pfirst 5 16),
   (0x8A44024C, .vsel 36 16 2 4 12), (0x8AA50081, .vconf 42 20 1), (0x8823609F, .vkaddZ32 2 13 32 15),
   (0x8ACA9BA2, .vkaddF32 44 42 27 2), (0x8B0DE1B2, .rebal 48 55 33 2)]

theorem test_decode_lanesAndPredicates : Decode wordsLanesAndPredicates := by
  unfold wordsLanesAndPredicates
  repeat refine ⟨rfl, ?_⟩
  trivial

noncomputable def wordsLoadsAndStores : List (Word × Instr) :=
  [(0x30ECADE9, .ld 14 50 2 1 1513), (0x3506A756, .st 16 26 2 1878), (0x90E83F6D, .vld 14 32 63 1 2 13),
   (0x96833A67, .vst 40 12 58 1 2 7), (0xA42ACF00, .pf 42 3312), (0xA4431C01, .vpf 3 7 1), (0xA4A3900E, .fpush 8 57 14),
   (0xA4FD8001, .fpop 15 24 1)]

theorem test_decode_loadsAndStores : Decode wordsLoadsAndStores := by
  unfold wordsLoadsAndStores
  repeat refine ⟨rfl, ?_⟩
  trivial

noncomputable def wordsAtomics : List (Word × Instr) :=
  [(0x99A10F0A, .vatswap 26 4 7 1 10), (0x994AF11E, .vatcas 20 43 24 1 14), (0x99859F22, .vatadd 24 22 15 1 2),
   (0x9BEC4F36, .vatand 62 49 7 1 6), (0x9B2D5542, .vator 50 53 10 1 2), (0x984BA156, .vatxor 4 46 16 1 6),
   (0x9925BF65, .vatsmin 18 22 31 1 5), (0x9B0BAF7F, .vatsmax 48 46 23 1 15), (0x9BE7BF8D, .vatumin 62 30 31 1 13),
   (0x9BC80D9D, .vatumax 60 32 6 1 13), (0x9BCC14AE, .vatfadd 60 48 10 14), (0x9B855FBD, .vatfxadd 56 21 15 1 13),
   (0x9B39C6C9, .vatfxaddS32 51 39 3 9), (0x98D6B2D3, .vatfxaddF16 13 26 25 3), (0x9906C6EB, .vatfxaddBf16 16 27 3 11),
   (0x9C37C008, .atswap 3 31 1), (0x9CBFDC18, .atcas 11 63 28 1), (0x9C544028, .atadd 5 17 1),
   (0x9CE1C038, .atand 14 7 1), (0x9E0B8048, .ator 32 46 1), (0x9CC3C058, .atxor 12 15 1),
   (0x9DB78068, .atsmin 27 30 1), (0x9F08C078, .atsmax 48 35 1), (0x9F2D8088, .atumin 50 54 1),
   (0x9D348098, .atumax 19 18 1), (0x9D8440A0, .atfadd 24 17), (0x9F0440B8, .atfxadd 48 17 1),
   (0x9DD400C0, .atfxaddS32 29 16), (0x9CC400D0, .atfxaddF16 12 16), (0x9D0280E0, .atfxaddBf16 16 10)]

theorem test_decode_atomics : Decode wordsAtomics := by
  unfold wordsAtomics
  repeat refine ⟨rfl, ?_⟩
  trivial

noncomputable def wordsFences : List (Word × Instr) :=
  [(0xA0000180, .fenceAcq 3), (0xA0400280, .fenceRel 5), (0xA0800100, .fenceFull 2), (0xA0C05400, .fenceSv 21),
   (0xA1050000, .fenceRemote 5), (0xA1400034, .qfence 13), (0xA1914000, .sealPages 17 16),
   (0xA1E18800, .unsealPages 33 34), (0xA2003C00, .drysync 15)]

theorem test_decode_fences : Decode wordsFences := by
  unfold wordsFences
  repeat refine ⟨rfl, ?_⟩
  trivial

noncomputable def wordsCopies : List (Word × Instr) :=
  [(0xA814A3F8, .copy 20 2 1 1 1 15 1), (0xA850F948, .copyAcc 16 3 1 12 1 4 1), (0xA898E7D8, .copyChk 24 3 1 3 1 13 1),
   (0xA8ECE5C0, .copyMc 44 3 1 2 1 12)]

theorem test_decode_copies : Decode wordsCopies := by
  unfold wordsCopies
  repeat refine ⟨rfl, ?_⟩
  trivial

noncomputable def wordsMatrix : List (Word × Instr) :=
  [(0xAC3CDB20, .mma 3 1 38 1 44 32), (0xAC79D98D, .mmaP 3 1 14 1 38 13), (0xACA00000, .mzero 2),
   (0xACE72018, .mdrain 2 1 50 24), (0xAD3ACCA3, .mdrainT 3 2 44 50 35), (0xAD400000, .mtake), (0xAD600000, .mtakeF),
   (0xAD800000, .mgive), (0xADC96700, .zld 2 5 1 14), (0xAE122F00, .zst 4 8 1 30)]

theorem test_decode_matrix : Decode wordsMatrix := by
  unfold wordsMatrix
  repeat refine ⟨rfl, ?_⟩
  trivial

noncomputable def wordsRetrieval : List (Word × Instr) :=
  [(0xB00EE000, .rfam 1 55), (0xB05A3BE4, .rprobe 3 17 55 50), (0xB08B550D, .rins 1 26 42 13),
   (0xB0DE7C89, .rdel 3 51 57 9), (0xB11DC40C, .rmove 3 46 4 12), (0xB14DFB40, .rgath 13 31 26),
   (0xB193A5C0, .rstat 2 29 11 4)]

theorem test_decode_retrieval : Decode wordsRetrieval := by
  unfold wordsRetrieval
  repeat refine ⟨rfl, ?_⟩
  trivial

noncomputable def wordsTriggers : List (Word × Instr) :=
  [(0xB41A3000, .watch 26 12), (0xB4495000, .unwatch 9 20), (0xB4959004, .wstat 21 36 4), (0xB4DA6340, .qpost 26 24 52),
   (0xB5341800, .claim 26 6), (0xB5408980, .rinit 34 6)]

theorem test_decode_triggers : Decode wordsTriggers := by
  unfold wordsTriggers
  repeat refine ⟨rfl, ?_⟩
  trivial

noncomputable def wordsSystem : List (Word × Instr) :=
  [(0xB8254170, .sysrd 37 1047), (0xB84F42E0, .syswr 15 1070), (0xB8800000, .tretR), (0xB8A00000, .tretS),
   (0xB8C677B0, .lease 6 29 59), (0xB923D800, .unlease 35 54), (0xB9779000, .tlbinv 55 36),
   (0xB9BC7400, .ctxkill 60 29), (0xB9C00000, .halt), (0xBA260000, .wfe 38), (0xBA548800, .signal 20 34),
   (0xBAA78C00, .preempt 39 35), (0xBAD783F0, .rbld 23 32 63)]

theorem test_decode_system : Decode wordsSystem := by
  unfold wordsSystem
  repeat refine ⟨rfl, ?_⟩
  trivial

noncomputable def wordsHints : List (Word × Instr) :=
  [(0xFC364C6A, .hintImm 3558506), (0xFC400002, .hintOrd 2), (0xFC800004, .hintScope 4), (0xFCC00001, .hintCache 1),
   (0xFD000002, .hintSched 2), (0xFD480000, .hintBnd 8)]

theorem test_decode_hints : Decode wordsHints := by
  unfold wordsHints
  repeat refine ⟨rfl, ?_⟩
  trivial

/-! ### Small states -/

/-- n bytes of a number placed at a local address. -/
def put (s : State) (a n x : Nat) : State := s.setCells (cellsAt a (leBytes n x))

/-- The state after reset, and control core 0 as it issues in it. -/
def sC : State := State.reset
def iC : Issue := { g := Gang.resident, k := 0, sp := Split.start 0x01000000 (BitVec.allOnes 32) 0, act := BitVec.allOnes 32 }

/-- The gang of control core 0 after a change, alone in the machine; how it issues. -/
def sG (g : Gang) : State := { State.reset with gangs := [{ g with id := 0 }] }
def iG (g : Gang) (sp : Split) : Issue := { g := { g with id := 0 }, k := 0, sp, act := sp.mask }

/-- Control core 0 with its split changed. -/
def gS (f : Split → Split) : Gang := { Gang.resident with splits := [some (f iC.sp), none, none, none] }
def sS (f : Split → Split) : State := sG (gS f)
def iS (f : Split → Split) : Issue := iG (gS f) (f iC.sp)

/-- A task of context 1: a crew of one gang on core 0, with two pad pages, an accumulator and four tile registers, leased to read
and write the page at 0x200_0000 and to read and write the one at 0x220_0000, which is sealed; its handler lies at cb + 0x100. -/
def uSplit : Split := Split.start 0x2000000 (BitVec.allOnes 32) 0
def uGang : Gang :=
  { Gang.start 7 0 3 0 1 1 5 32 uSplit with s := [(1, 1), (2, 0x2000040), (3, 0x2200000)], sPoison := 0x20, p := [(1, 0xFF)] }
def uCrew : Crew := { Crew.start 1 1 0 2 1 4 0 0 with padStates := [(0, .pinned), (1, .pinned)] }
def uMem : State := put (put (put (put (put State.reset 64 8 0x8000000000C00000) 72 8 0x2000000) 120 4 0x100) 0xC03080 8 0x20002BB) 0xC03088 8 0x2200AAB
def sU : State :=
  { uMem with gangs := [uGang], crews := [uCrew], cur := (7, 0), fresh := 100,
              leases := [{ task := 5, die := 0, ctx := 1, ranges := [⟨0x2000000, 0x200000, 3⟩, ⟨0x2200000, 0x200000, 3⟩], loose := [] }] }
def iU : Issue := { g := uGang, k := 0, sp := uSplit, act := BitVec.allOnes 32 }

/-- The same with its gang, split or crew changed. -/
def sUg (f : Gang → Gang) : State := { sU with gangs := [f uGang] }
def iUg (f : Gang → Gang) : Issue := { iU with g := f uGang }
def ofSplit (f : Split → Split) (g : Gang) : Gang := { g with splits := [some (f uSplit), none, none, none] }
def sUs (f : Split → Split) : State := sUg (ofSplit f)
def iUs (f : Split → Split) : Issue := { g := ofSplit f uGang, k := 0, sp := f uSplit, act := (f uSplit).mask }
def sUc (f : Crew → Crew) : State := { sU with crews := [f uCrew] }

theorem readyC : Ready sC iC := ⟨rfl, ⟨rfl, rfl, noCkpts rfl⟩, ⟨rfl, rfl, rfl, rfl, rfl⟩⟩
theorem readyU : Ready sU iU := ⟨rfl, ⟨rfl, rfl, noCkpts rfl⟩, ⟨rfl, rfl, rfl, rfl, rfl⟩⟩

/-- No group is in force where no record is valid. -/
theorem no_group {s : State} (h : ∀ r, r < 16 → (s.group r).valid = false) (a : Nat) : s.groupOf a = none := by
  unfold State.groupOf
  rw [List.find?_eq_none]
  intro x hx
  simp only [List.mem_map, List.mem_range] at hx
  obtain ⟨r, hr, rfl⟩ := hx
  simp [h r hr]

theorem unguardedU : Unguarded sU := ⟨rfl, no_group (by decide), rfl⟩
theorem unguardedC : Unguarded sC := ⟨rfl, no_group (by decide), rfl⟩

/-! ### Worked cases of the reference, and single steps with results worked out by hand from its rules -/

/-- The state that an instruction leaves. -/
noncomputable def after (i : Instr) (s : State) : State := match exec i s with | .next t => t | _ => s

/-- The gang 0, or 7 of the user task, that it leaves. -/
noncomputable def gangAfter (i : Instr) (s : State) : Gang := ((after i s).gangs[0]?).getD Gang.resident

/-- R84: the worked case of four contributions under F = 32. -/
theorem test_fx96_worked_case : [0x3FC00000, 0xBE800000, 0x2B800000, 0x2FC00000].foldl (fun w x => fxAccumulate w 0 32 x false) 0
    = 0x00000004000000000000000140000002 := by decide

/-- R80, R81: the worked case of one group. -/
theorem test_dot_product_worked_case : dotProduct 0 [.fin false 1 0, .fin true 3 (-66), .fin false 1 (-64)]
    [.fin false 1 0, .fin false 1 0, .fin false 1 0] = (0x7FE7FFFFFFFFFFFFFFF00000, 0) := by decide

/-- R82: the entry of that case drains to BF16 as 0x3F80 under RNE and as 0x3F7F under RDN, with NX. -/
theorem test_drain_worked_case : convertF bf16 0 false (decodeAcc 0x7FE7FFFFFFFFFFFFFFF00000) = (0x3F80, flagNX) ∧
    convertF bf16 2 false (decodeAcc 0x7FE7FFFFFFFFFFFFFFF00000) = (0x3F7F, flagNX) := by decide

/-- R70: the worked KBF-4 block. -/
theorem test_kbf4_worked_case : encodeKbf 4 0 false ([.fin false 3 0, .fin true 3 (-2), .fin false 5 (-4)] ++ List.replicate 13 (.fin false 0 0))
    = { codes := [6, 14, 1] ++ List.replicate 13 0, scale := 0x81, flags := flagNX } := by decide

/-- R6, R114: the worked local address lies in slice 478. -/
theorem test_slice_worked_case : Machine.sliceOf 0x1D01249ABC0 = 478 := by decide

/-- R128: weights of the worked delta. -/
theorem test_parity_weight_worked_case : gfScale 1 0x5A = 0xB4 ∧ gfScale 1 0x80 = 0x1D := by decide

/-- The gang of the worked case of leaders and key sums. -/
def sKeys : State :=
  sG { Gang.resident with
    p := [(1, 0xFF)]
    v := (List.range 8).map (fun l => (128 + l, nth 0 [3, 5, 3, 3, 5, 7, 3, 5] l))
      ++ (List.range 8).map (fun l => (192 + l, nth 0 [0x4B800000, 0x3F000000, 0x3F800000, 0x3F800000, 0x3E800000, 0x40400000, 0x40000000, 0xBF400000] l)) }

theorem test_vconf_worked_case : (List.range 8).map ((gangAfter (.vconf 9 4 1) sKeys).vlane 9) = [0, 0, 1, 5, 2, 0, 0xD, 0x12] := by decide

theorem test_vkadd_worked_case : (List.range 8).map ((gangAfter (.vkaddF32 8 4 6 1) sKeys).vlane 8) = [0x4B800001, 0, 0, 0, 0, 0x40400000, 0, 0] ∧
    (gangAfter (.vkaddF32 8 4 6 1) sKeys).fst = w32 flagNX := by decide

theorem test_leaders_worked_case : (gangAfter (.vcmpEqScalar 2 9 0 1) (after (.vconf 9 4 1) sKeys)).preg 2 = 0x23 := by decide

/-- R273: the worked case of rebal. -/
def sRows : State :=
  sS (fun sp => { sp with mask := 0xFF }) |> fun s => { s with gangs := s.gangs.map (fun g => { g with
    v := ((List.range 8).map (fun l => (64 + l, nth 0 [3, 0, 5, 1, 0, 4, 0, 0] l))).filter (·.2 != 0) ++ (List.range 8).map (fun l => (96 + l, w32 (8 + l))) }) }

theorem test_rebal_worked_case : (List.range 8).map ((gangAfter (.rebal 10 2 3 0) sRows).vlane 10) = [3, 5, 5, 5, 5, 32, 32, 32] ∧
    (List.range 8).map ((gangAfter (.rebal 10 2 3 0) sRows).vlane 11) = [0, 0, 1, 2, 3, 0, 1, 2] := by decide

/-- Scalars 1 to 4 of control core 0 for the tests of scalar instructions. -/
def sR : State := sG { Gang.resident with s := [(1, 0x8000000000000000), (2, 0xFFFFFFFFFFFFFFFF), (3, 7), (4, 0xFFFFFFFFFFFFFFFE)] }

theorem test_add_wraps : (gangAfter (.add 5 1 1) sR).sreg 5 = 0 := by decide
theorem test_div_min_by_minus_one : (gangAfter (.divS 5 1 2) sR).sreg 5 = 0x8000000000000000 ∧ (gangAfter (.remS 5 1 2) sR).sreg 5 = 0 := by decide
theorem test_div_by_zero : (gangAfter (.divZ 5 3 6) sR).sreg 5 = 0xFFFFFFFFFFFFFFFF ∧ (gangAfter (.remS 5 3 6) sR).sreg 5 = 7 := by decide
theorem test_rem_has_dividend_sign : (gangAfter (.remS 5 2 3) sR).sreg 5 = 0xFFFFFFFFFFFFFFFF ∧ (gangAfter (.divS 5 2 3) sR).sreg 5 = 0 := by decide
theorem test_mulh_signed_and_unsigned : (gangAfter (.mulhS 5 2 4) sR).sreg 5 = 0 ∧
    (gangAfter (.mulhZ 5 2 4) sR).sreg 5 = 0xFFFFFFFFFFFFFFFD := by decide
theorem test_shift_amount_modulo_64 : (gangAfter (.sll 5 3 1) sR).sreg 5 = 7 ∧ (gangAfter (.sra 5 1 4) sR).sreg 5 = 0xFFFFFFFFFFFFFFFE := by decide
theorem test_addi_minus_four : (gangAfter (.addi 3 3 0x3FFC) sR).sreg 3 = 3 := by decide
theorem test_slt_against_sltz : (gangAfter (.slt 5 1 3) sR).sreg 5 = 1 ∧ (gangAfter (.sltz 5 1 3) sR).sreg 5 = 0 := by decide

/-- The pc that the first split of the gang stands at. -/
noncomputable def pcAfter (i : Instr) (s : State) : Option DWord := ((gangAfter i s).split 0).map (·.pc)

theorem test_bnez_forward_12 : pcAfter (.bnez 3 12) sR = some 0x1000030 ∧ pcAfter (.bnez 6 12) sR = some 0x1000004 := by decide
theorem test_bltz_and_bgez : pcAfter (.bltz 1 0xFFFF) sR = some 0xFFFFFC ∧ pcAfter (.bgez 1 0xFFFF) sR = some 0x1000004 := by decide
theorem test_jmp_minus_21 : pcAfter (.jmp 67108843) sR = some 0xFFFFAC := by decide
theorem test_call_links : pcAfter (.call 16) sR = some 0x1000040 ∧ (gangAfter (.call 16) sR).sreg 63 = 0x1000004 := by decide

/-- R204: two splits after a divergent branch, the lanes of p1 at the target. -/
theorem test_bra_d_splits : ((gangAfter (.braD 1 5 9) sU).split 0).map (·.mask) = some 0xFFFFFF00 ∧
    ((gangAfter (.braD 1 5 9) sU).split 1).map (fun q => (q.mask, q.pc)) = some (0xFF, 0x2000014) ∧
    (gangAfter (.braD 1 5 9) sU).rc.map (fun e => (e.join, e.mask)) = [(0x2000024, 0xFFFFFFFF)] := by decide

/-- R381: a trap of the user task. -/
theorem test_trap_enters_handler : ((gangAfter (.trap 0x25 0) sU).split 0).map (fun q => (q.pc, q.hm, q.cause, q.trapPc, q.trapAddr))
    = some (0x2000100, true, 0x10, 0x2000000, 0x25) := by decide

/-- R30, R392: an instruction of the resident's ends the crew of a user task. -/
theorem test_halt_of_a_user_ends_its_crew : (after .halt sU).gangs = [] ∧ (after .halt sU).crews = [] ∧ (after .halt sU).mgmt.halted = false := by decide

/-- R385: an access outside the lease ends the crew; a store to a sealed page traps (R342). -/
theorem test_access_outside_the_lease : (after (.ld 4 1 3 0 0) sU).gangs = [] := by decide
theorem test_store_to_a_sealed_page : ((gangAfter (.st 1 3 3 0) sU).split 0).map (·.cause) = some 0x08 := by decide

/-- R218, R219: what a store writes a load reads, sign-extended when asked. -/
theorem test_load_after_store : (gangAfter (.ld 4 2 0 1 1) (after (.st 9 2 2 0) (sUg (fun g => { g with s := g.s ++ [(9, 0xFFEE8001)] })))).sreg 4
    = 0xFFFFFFFFFFFFFF80 := by decide

/-- R132: an atomic adds and answers the old value. -/
theorem test_atadd : (gangAfter (.atadd 1 2 0) (put sU 0x2000040 4 0xFFFFFFFF)).sreg 1 = 0xFFFFFFFF ∧
    (after (.atadd 1 2 0) (put sU 0x2000040 4 0xFFFFFFFF)).readLe 0x2000040 4 = 0 := by decide

/-- R181, R183, R185: a barrier of 32 lanes is initialised, arrived at, and its phase completes. -/
theorem test_barrier_phase : let s := after (.barInit 3 9 10) (sUg (fun g => { g with s := g.s ++ [(9, 0x40), (10, 32)] }))
    (s.bar 1 0x40).pend = 32 ∧ ((after (.barArrive 3 11 0) s).bar 1 0x40).gen = 1 ∧ ((after (.barArrive 3 11 0) s).bar 1 0x40).pend = 32 := by decide

/-- R62, R254: one and a half plus a half ulp; the sum of 1 and −1 under RDN. -/
theorem test_float_addition : addF fp32 0 false 0x3F800000 0x33800000 = (0x3F800000, flagNX) ∧
    addF fp32 3 false 0x3F800000 0x33800000 = (0x3F800001, flagNX) ∧ addF fp32 2 false 0x3F800000 0xBF800000 = (0x80000000, 0) := by decide

/-- R256: the square root of 2, to nearest and up; 1/3. -/
theorem test_float_functions : packF fp32 0 false (sqrtV (.fin false 2 0)).1 = (0x3FB504F3, flagNX) ∧
    packF fp32 3 false (sqrtV (.fin false 2 0)).1 = (0x3FB504F4, flagNX) ∧ divF fp32 0 false 0x3F800000 0x40400000 = (0x3EAAAAAB, flagNX) := by decide +kernel

/-- R424: sysrd of MODID and of a register that is not the user's (R383). -/
theorem test_sysrd_crew : (gangAfter (.sysrd 4 7) (sUs (fun sp => { sp with hm := true }))).sreg 4 = 1 := by decide

/-- R25, R424: the word of ori s9, s0, 0x40, placed where the first step fetches, is what that step runs. -/
theorem test_step_runs_a_placed_word : (match step (State.reset.withFetchWord 32 0x10900040) with
    | .next t => t.gangs.map (fun g => g.sreg 9) | _ => []) = [0x40] := by decide +kernel

/-! ### The hypotheses of the statements are met -/

def hImm (l : List (BitVec 22)) : Hints := { Hints.none with words := l.length, first := 0x1000000, imms := l }
def sImm (l : List (BitVec 22)) : State := sS (fun sp => { sp with hints := hImm l })
def iImm (l : List (BitVec 22)) : Issue := iS (fun sp => { sp with hints := hImm l })

theorem test_witness_scalar_registers : Ready sC iC ∧ Ready sU iU ∧ iU.g.smark 5 = true := ⟨readyC, readyU, by decide⟩
theorem test_witness_divisions : Ready sC iC ∧ iC.g.sreg 0 = 0 ∧ iC.g.sreg 1 ≠ 0 := ⟨readyC, by decide⟩
theorem test_witness_immediates : (sImm [1, 2]).issuer = some (iImm [1, 2]) ∧ (sImm [1, 2]).Quiet ∧ PlainImm 2 (iImm [1, 2]).sp.hints :=
  ⟨rfl, ⟨rfl, rfl, noCkpts rfl⟩, by decide, rfl, rfl, rfl, rfl⟩
theorem test_witness_branches : (Ready sU iU ∧ iU.g.smark 0 = false ∧ iU.g.smark 5 = true) ∧
    (sImm [1]).issuer = some (iImm [1]) ∧ ¬ Plain (iImm [1]).sp.hints :=
  ⟨⟨readyU, by decide⟩, rfl, fun h => absurd h.1 (by decide)⟩
theorem test_witness_jumps : Ready sU iU ∧ iU.g.smark 2 = false ∧ (iU.g.sreg 2).toNat % 4 = 0 ∧ iU.g.smark 1 = false ∧
    (iU.g.sreg 1).toNat % 4 ≠ 0 ∧ iU.g.smark 63 = false ∧ (iU.g.sreg 63).toNat % 4 = 0 := ⟨readyU, by decide⟩

def sHandler : State := sUs (fun sp => { sp with hm := true })
def iHandler : Issue := iUs (fun sp => { sp with hm := true })

theorem test_witness_causes : (sC.issuer = some iC ∧ sC.ctxTvec iC.g.ctx = 0) ∧
    (sU.issuer = some iU ∧ sU.ctxTvec iU.g.ctx ≠ 0 ∧ iU.sp.hm = false ∧ iU.g.onControl = false) ∧
    (sHandler.issuer = some iHandler ∧ sHandler.ctxTvec iHandler.g.ctx ≠ 0 ∧ iHandler.sp.hm = true) ∧
    splitCause 0x10 = true ∧ splitCause 0x07 = false :=
  ⟨⟨rfl, by decide⟩, ⟨rfl, by decide⟩, ⟨rfl, by decide⟩, by decide⟩
theorem test_witness_traps : Ready sU iU ∧ sU.ctxTvec iU.g.ctx ≠ 0 ∧ iU.sp.hm = false ∧ iU.act &&& iU.g.guard 3 = 0 ∧
    iU.act &&& iU.g.guard 1 ≠ 0 := ⟨readyU, by decide⟩

def anEntry (n : Nat) : RcEntry :=
  { idx := n, order := n, join := 0x2000100, ppc := 0, mask := 0xFFFFFFFF, arr := 0, pmask := 0, fmt := 0, link := none, pv := false,
    pusher := uSplit, spilled := false }
def full (n : Nat) (g : Gang) : Gang := { g with rc := (List.range n).map anEntry }
def four (g : Gang) : Gang := { g with splits := List.replicate 4 (some uSplit) }

theorem test_witness_divergence : (Ready sU iU ∧ iU.act &&& iU.g.guard 3 = 0 ∧ iU.act &&& iU.g.guard 0 ≠ 0 ∧
      iU.act &&& ~~~ (iU.act &&& iU.g.guard 0) = 0 ∧ iU.act &&& iU.g.guard 1 ≠ 0 ∧ iU.act &&& ~~~ (iU.act &&& iU.g.guard 1) ≠ 0 ∧
      iU.g.rc.length < 16 ∧ iU.g.freeSplit = some 1) ∧
    (Ready (sUg (full 64)) (iUg (full 64)) ∧ 64 ≤ (iUg (full 64)).g.rc.length) ∧
    Ready (sUg four) (iUg four) ∧ (iUg four).g.freeSplit = none :=
  ⟨⟨readyU, by decide⟩, ⟨⟨rfl, ⟨rfl, rfl, noCkpts rfl⟩, ⟨rfl, rfl, rfl, rfl, rfl⟩⟩, by decide⟩, ⟨rfl, ⟨rfl, rfl, noCkpts rfl⟩, ⟨rfl, rfl, rfl, rfl, rfl⟩⟩, by decide⟩
theorem test_witness_exit : Ready sU iU ∧ iU.g.wcb = [] ∧
    (sU.begin iU).releaseBusy (iU.g.setSplit iU.k (some (iU.sp.issued sU.fresh))) = false ∧ iU.g.nextDeferred = none ∧ iU.g.rc = [] ∧
    iU.g.splits.length = 4 ∧ (∀ c ∈ sU.crews, c.val = iU.g.crew → c.bind = []) ∧ (∀ k, k ≠ iU.k → iU.g.split k = none) ∧
    iU.sp.mask &&& ~~~ (iU.act &&& iU.g.guard 1) ≠ 0 ∧ iU.sp.mask &&& ~~~ (iU.act &&& iU.g.guard 0) = 0 := by
  refine ⟨readyU, rfl, rfl, rfl, rfl, rfl, by decide, ?_, by decide⟩
  intro k hk
  rcases k with _ | _ | _ | _ | k
  · exact absurd rfl hk
  all_goals rfl

def withFore (f : Crew → Crew) (s : State) : State :=
  { s with images := [{ ctx := 1, entry := 0, deffmt := 0, forerunner := true, templates := [] }], crews := [f uCrew] }

theorem test_witness_safepoints : (Ready sU iU ∧ sU.forerunner iU.g.ctx = false) ∧
    (∃ c, Ready (withFore id sU) iU ∧ (withFore id sU).forerunner 1 = true ∧ (withFore id sU).crew 1 = some c ∧ c.preempting = false) ∧
    (∃ c, Ready (withFore (fun c => { c with preempting := true }) sU) iU ∧
      (withFore (fun c => { c with preempting := true }) sU).crew 1 = some c ∧ c.preempting = true) ∧
    (iImm [1, 2]).sp.hints.words < 7 ∧ decide (2 ≤ (iImm [1, 2]).sp.hints.imms.length) = true ∧ 7 ≤ (hImm (List.replicate 7 0)).words :=
  ⟨⟨readyU, by decide⟩, ⟨_, ⟨rfl, ⟨rfl, rfl, noCkpts rfl⟩, ⟨rfl, rfl, rfl, rfl, rfl⟩⟩, by decide, rfl, rfl⟩,
    ⟨_, ⟨rfl, ⟨rfl, rfl, noCkpts rfl⟩, ⟨rfl, rfl, rfl, rfl, rfl⟩⟩, rfl, rfl⟩, by decide⟩
theorem test_witness_predicates : Ready sU iU ∧ iU.g.smark 0 = false ∧ iU.g.smark 5 = true := ⟨readyU, by decide⟩
theorem test_witness_lane_moves : Ready sU iU ∧ Exist iU [31, 0, 1] := ⟨readyU, by unfold Exist; decide⟩
theorem test_witness_vector_integers : (Ready sU iU ∧ Exist iU [31, 0, 1] ∧ ¬ Exist iU [32, 0, 1] ∧ ¬ Exist iU [32, 0]) ∧
    (sImm [1]).issuer = some (iImm [1]) ∧ (sImm [1]).Quiet ∧ PlainImm 1 (iImm [1]).sp.hints ∧ Exist (iImm [1]) [63, 0] :=
  ⟨⟨readyU, by unfold Exist; decide, by unfold Exist; decide, by unfold Exist; decide⟩, rfl, ⟨rfl, rfl, noCkpts rfl⟩, ⟨by decide, rfl, rfl, rfl, rfl⟩, by unfold Exist; decide⟩

def marked (g : Gang) : Gang := { g with vPoison := [(4, 1)] }
theorem test_witness_comparisons : (Ready sU iU ∧ Exist iU [4, 31] ∧ ∀ l, l < 32 → (activeOf iU 0).getLsbD l = true → markOf iU 4 l = false) ∧
    Ready (sUg marked) (iUg marked) ∧ (activeOf (iUg marked) 0).getLsbD 0 = true ∧ markOf (iUg marked) 4 0 = true :=
  ⟨⟨readyU, by unfold Exist; decide, by decide⟩, ⟨rfl, ⟨rfl, rfl, noCkpts rfl⟩, ⟨rfl, rfl, rfl, rfl, rfl⟩⟩, by decide⟩
theorem test_witness_scans : Ready sU iU ∧ Exist iU [31, 0] ∧ Exist iU [31, 0, 4] := ⟨readyU, by unfold Exist; decide, by unfold Exist; decide⟩
theorem test_witness_rebal : Ready sU iU ∧ Exist iU [30, 2, 3] ∧ (30 : BitVec 6).toNat + 1 < iU.g.nregs := ⟨readyU, by unfold Exist; decide, by decide⟩

def sNarrow : State := sUs (fun sp => { sp with fmt := 0x000F0000 })
theorem test_witness_float_arithmetic : (Ready sU iU ∧ Exist iU [31, 0, 1] ∧ FormatOk iU 0 ∧ FormatOk iU 1) ∧
    ∃ f : Word, Ready (sUs (fun sp => { sp with fmt := f })) (iUs (fun sp => { sp with fmt := f })) ∧
      ¬ FormatOk (iUs (fun sp => { sp with fmt := f })) 1 :=
  ⟨⟨readyU, by unfold Exist; decide, by unfold FormatOk; decide, by unfold FormatOk; decide⟩, 0x0F1FFFFF,
    ⟨rfl, ⟨rfl, rfl, noCkpts rfl⟩, ⟨rfl, rfl, rfl, rfl, rfl⟩⟩, by unfold FormatOk; decide⟩
theorem test_witness_float_functions : Ready sU iU ∧ Exist iU [31, 0] ∧ Exist iU [31, 0, 1] := ⟨readyU, by unfold Exist; decide, by unfold Exist; decide⟩
theorem test_witness_conversions : Ready sU iU ∧ Exist iU [30, 0] ∧ (30 : BitVec 6).toNat + 1 < iU.g.nregs ∧ fmtNF iU.sp.fmt ≤ 3 ∧
    (1 : BitVec 2).toNat < 32 / (fmtOf (fmtNF iU.sp.fmt)).width ∧ 32 / (fmtOf (fmtNF iU.sp.fmt)).width ≤ (2 : BitVec 2).toNat :=
  ⟨readyU, by unfold Exist; decide, by decide⟩
theorem test_witness_rounding : fp32 ∈ arithmeticFormats ∧ ∃ top, valueOf fp32 fp32.largest = some top ∧ (3 : ℚ) * (2 : ℚ) ^ (-1 : ℤ) ≤ top :=
  by
  have h : decodeF fp32 fp32.largest = .fin false 0xFFFFFF 104 := by decide
  refine ⟨by simp [arithmeticFormats], (16777215 : ℚ) * 2 ^ 104, ?_, by norm_num⟩
  simp only [valueOf, h]; norm_num
theorem test_witness_overflow : e4m3 ∈ arithmeticFormats ∧ fp32 ∈ arithmeticFormats ∧
    (2 : ℚ) ^ (2 ^ (fp32.ebits - 1) + (if fp32.hasInf then 0 else 1) : Nat) ≤ (1 : ℚ) * (2 : ℚ) ^ (200 : ℤ) ∧
    (decodeF fp32 0x7FC00000).isNan = true ∧ decodeF fp32 0x7F800000 = .inf false ∧ decodeF fp32 0xFF800000 = .inf true ∧
    (decodeF fp32 0x80000000).isZero = true ∧ valueOf fp32 0x3F800000 = some 1 ∧ valueOf fp32 0xBF800000 = some (-1) := by
  refine ⟨by simp [arithmeticFormats], by simp [arithmeticFormats], ?_, by decide, by decide, by decide, by decide, ?_, ?_⟩
  · simp [fp32]
    norm_num
  · have h : decodeF fp32 0x3F800000 = .fin false 0x800000 (-23) := by decide
    simp only [valueOf, h]; norm_num
  · have h : decodeF fp32 0xBF800000 = .fin true 0x800000 (-23) := by decide
    simp only [valueOf, h]; norm_num

theorem acceptedU (a : Accepts) (h : a.ok Hints.none = true) : Accepted sU iU a := ⟨rfl, ⟨rfl, rfl, noCkpts rfl⟩, h⟩
theorem soundU : Sound sU := ⟨faultless ⟨rfl, rfl, rfl⟩, noFlaws rfl⟩
theorem undisturbedU : Undisturbed sU iU := ⟨soundU, rfl, noLines rfl, rfl, rfl, by decide⟩
theorem freeU : Free sU iU := ⟨by decide, rfl⟩
theorem clearU : Clear sU iU := ⟨rfl, freeU, rfl, noLines rfl⟩

/-- Parts lie in ordinary memory, as one decidable proposition. -/
def Plains (s : State) (ls : List Located) : Prop :=
  ∀ p ∈ ls, (dpaModule p.phys = s.mgmt.modid ∧ isDram (dpaLocal p.phys) = true ∧ dpaLocal p.phys % 128 + p.part.len ≤ 128) ∧
    0xC00000 ≤ dpaLocal p.phys ∧ leafWatch p.leaf = false ∧ leafProt p.leaf = false

theorem Plains.ordinary {s : State} {ls : List Located} (h : Plains s ls) : ∀ p ∈ ls, Ordinary s p :=
  fun p hp => ⟨(h p hp).1, (h p hp).2.1, (h p hp).2.2.1, (h p hp).2.2.2⟩
theorem Plains.own {s : State} {ls : List Located} (h : Plains s ls) : ∀ p ∈ ls, Own s p := fun p hp => (h p hp).1

/-- The request collector of the core is full. -/
def sFull : State :=
  { sU with loads := [blankLoad 7 1 0 9 ((List.range 128).map (fun k => { tag := 200 + k, lane := k, first := 0, count := 1, skip := 0, base := 0, line := none }))] }
theorem noLinesFull : NoLines sFull := by
  intro l hl w hw
  simp only [sFull, List.mem_singleton] at hl
  subst hl
  simp only [blankLoad, List.mem_map] at hw
  obtain ⟨k, -, rfl⟩ := hw
  rfl
theorem test_witness_full_collector : (Undisturbed sFull iU ∧ Accepted sFull iU { ord := 1, cache := true, bnd := true }) ∧
    ∃ u es ls, (sFull.begin iU).check iU (vectorRequest iU 2 0 3 1 0 needRead) noHost (addressMark iU 1 2 0) = .go u es ls [] ∧ ¬ Room sFull iU ls :=
  ⟨⟨⟨⟨faultless ⟨rfl, rfl, rfl⟩, noFlaws rfl⟩, rfl, noLinesFull, rfl, rfl, by decide⟩, rfl, ⟨rfl, rfl, noCkpts rfl⟩, rfl⟩,
    _, _, _, rfl, by unfold Room; decide +kernel⟩
theorem test_witness_loads : Undisturbed sU iU ∧
    (∃ u es ls, Room sU iU ls ∧ (∀ p ∈ ls, Own sU p) ∧ Accepted sU iU { imm := 2, ord := 1, cache := true } ∧
      (sU.begin iU).check iU (scalarRequest iU 2 2 0 needRead) noHost (fun _ => iU.g.smark 2) = .go u es ls []) ∧
    (∃ u es ls, Room sU iU ls ∧ (∀ p ∈ ls, Own sU p) ∧ Accepted sU iU { ord := 1, cache := true, bnd := true } ∧ AccessRegs iU 4 0 3 1 ∧
      (sU.begin iU).check iU (vectorRequest iU 2 0 3 1 0 needRead) noHost (addressMark iU 1 2 0) = .go u es ls []) ∧
    (Accepted sU iU { cache := true } ∧ sU.Faultless) :=
  ⟨undisturbedU, ⟨_, _, _, by unfold Room; decide, Plains.own (by unfold Plains; decide), acceptedU _ rfl, rfl⟩,
    ⟨_, _, _, by unfold Room; decide +kernel, Plains.own (by unfold Plains; decide +kernel), acceptedU _ rfl, by unfold AccessRegs; decide, rfl⟩, acceptedU _ rfl, soundU.1⟩
theorem test_witness_stores : Undisturbed sU iU ∧ Free sU iU ∧ Unguarded sU ∧
    (∃ u es ls, (∀ p ∈ ls, Ordinary sU p) ∧ Accepted sU iU { imm := 2, ord := 2, cache := true } ∧
      (sU.begin iU).check iU (scalarRequest iU 2 2 0 needWrite) noHost (fun _ => iU.g.smark 2 || iU.g.smark 1) = .go u es ls []) ∧
    ∃ u es ls, (∀ p ∈ ls, Ordinary sU p) ∧ Accepted sU iU { ord := 2, cache := true, bnd := true } ∧ AccessRegs iU 4 0 2 0 ∧
      (sU.begin iU).check iU (vectorRequest iU 2 0 2 0 0 needWrite) noHost (fun l => addressMark iU 0 2 0 l || storedMark iU 4 2 l) = .go u es ls [] :=
  ⟨undisturbedU, freeU, unguardedU, ⟨_, _, _, Plains.ordinary (by unfold Plains; decide), acceptedU _ rfl, rfl⟩,
    ⟨_, _, _, Plains.ordinary (by unfold Plains; decide +kernel), acceptedU _ rfl, by unfold AccessRegs; decide, rfl⟩⟩

theorem test_witness_pad_accesses : sU.crew iU.g.crew = some uCrew ∧ uCrew.shadow = none ∧ sU.padHolds iU.g = false ∧ AccessRegs iU 4 0 2 3 ∧
    (∀ x ∈ iU.elems (activeOf iU 0) 3 0 0 4, ∀ k, k < 4 → uCrew.padState ((x.addr + k) / 4096) = .pinned) ∧
    (∃ u es ls, (sU.begin iU).check iU (vectorRequest iU 0 0 2 3 0 needRead) noHost (addressMark iU 3 0 0) = .go u es ls []) ∧
    ∃ u es ls, (sU.begin iU).check iU (vectorRequest iU 0 0 2 3 0 needWrite) noHost (fun l => addressMark iU 3 0 0 l || storedMark iU 4 2 l) = .go u es ls [] :=
  ⟨rfl, rfl, by decide, by unfold AccessRegs; decide, by decide, ⟨_, _, _, rfl⟩, _, _, _, rfl⟩

def aBank (fifo : List FifoEntry) : BankSt :=
  { cur := 2, ctx := 1, fnum := 4, change := none, next := none, err := false, ecc := 0, reenc := false, sue := 0, sce := 0, fifo, head := 0, waiting := [], code := 0, codes := [], flaws := [] }
def sFifo (fifo : List FifoEntry) : State := { sU with banks := [(9, aBank fifo)] }
theorem test_witness_fifos : (Ready sU iU ∧ sU.fifoBank 0 1 4 = none) ∧
    (Ready (sFifo []) iU ∧ (sFifo []).fifoBank 0 1 4 = some 9 ∧ iU.g.vmarks 4 &&& activeOf iU 0 = 0 ∧ ((sFifo []).bank 0 9).fifo.length < 1024 ∧
      ((sFifo []).bank 0 9).busy = false ∧ Free (sFifo []) iU) ∧
    ∃ ls rest, (sFifo [.void, .filled [1, 2]]).fifoBank 0 1 4 = some 9 ∧
      ((sFifo [.void, .filled [1, 2]]).bank 0 9).fifo.dropWhile (fun e => e == .void) = .filled ls :: rest :=
  ⟨⟨readyU, by decide⟩, ⟨⟨rfl, ⟨rfl, rfl, noCkpts rfl⟩, ⟨rfl, rfl, rfl, rfl, rfl⟩⟩, by decide, by decide, by decide, by decide, by decide, rfl⟩, _, _, by decide, rfl⟩

/-- An accumulation region of context 1 with F = 32 over the user page (R135). -/
def sFx : State := put sU 0x400000 16 (0x2000000 + 0x200 * 2 ^ 64 + 2 ^ 96 + 32 * 2 ^ 105 + 2 ^ 112)
theorem test_witness_scalar_atomics : Accepted sU iU { ord := 3 } ∧ Undisturbed sU iU ∧ Free sU iU ∧ Unguarded sU ∧
    (∃ u es p, Ordinary sU p ∧ (sU.begin iU).check iU (atomicRequest iU (scalarElem (iU.g.sreg 2).toNat) 8 true) noHost
      (fun _ => iU.g.smark 2 || iU.g.smark 1 || false) = .go u es [p] []) ∧
    (∃ u es p, Ordinary sU p ∧ (sU.begin iU).check iU (atomicRequest iU (scalarElem (iU.g.sreg 2).toNat) 4 true) noHost
      (fun _ => iU.g.smark 2 || iU.g.smark 1 || false) = .go u es [p] []) ∧
    ∃ u es p, dpaLocal p.phys = 0x2000040 ∧ sFx.region 0x2000040 = some (32, 1) ∧ (sFx.begin iU).check iU (atomicRequest iU (scalarElem (iU.g.sreg 2).toNat) 16 true) noHost
      (fun _ => iU.g.smark 2 || iU.g.smark 1 || false) = .go u es [p] [] :=
  ⟨acceptedU _ rfl, undisturbedU, freeU, unguardedU,
    ⟨_, _, _, Plains.ordinary (ls := [_]) (by unfold Plains; decide) _ (List.mem_singleton.2 rfl), rfl⟩,
    ⟨_, _, _, Plains.ordinary (ls := [_]) (by unfold Plains; decide) _ (List.mem_singleton.2 rfl), rfl⟩, _, _, _, by decide, by decide +kernel, rfl⟩
theorem test_witness_vector_atomics : Accepted sU iU { ord := 3, bnd := true } ∧
    ∃ u es ls, (∀ p ∈ ls, Ordinary sU p) ∧ (∀ p ∈ ls, (fun _ => 0x2000040) p.part.lane = dpaLocal p.phys ∧ dpaLocal p.phys % 8 = 0) ∧
      (0 : BitVec 5).toNat < iU.g.nregs ∧ (4 : BitVec 6).toNat + 2 * 2 ≤ iU.g.nregs ∧
      (sU.begin iU).check iU (atomicRequest iU (iU.elems (activeOf iU 0) 0 2 0 8) 8 false) noHost
        (fun l => addressMark iU 0 2 0 l || operandMark iU 4 4 l) = .go u es ls [] :=
  ⟨acceptedU _ rfl, _, _, _, Plains.ordinary (by unfold Plains; decide +kernel), by decide +kernel, by decide, by decide, rfl⟩
theorem test_witness_accumulation : decodeF fp32 (0x3FC00000 % 2 ^ 32) = .fin false 0xC00000 (-23) ∧ (0 : Int) ≤ -23 + (32 : Nat) := by decide

def sBase : State := sUg (fun g => { g with s := g.s ++ [(5, 0x2000040)] })
def iBase : Issue := iUg (fun g => { g with s := g.s ++ [(5, 0x2000040)] })
/-- Lanes 0 to 3 with offsets 0, 16, 32 and 40 under a limit of 32: lanes 2 and 3 pass it. The page is an accumulation region. -/
def limitedSplit : Split := { uSplit with mask := 0xF, hints := { Hints.none with words := 1, first := 0x1FFFFFC, bnd := some 9 } }
def limited (g : Gang) : Gang :=
  { g with splits := [some limitedSplit, none, none, none], s := g.s ++ [(9, 32)], v := [(33, 16), (34, 32), (35, 40)] }
def sLim : State := { sFx with gangs := [limited uGang] }
def iLim : Issue := { g := limited uGang, k := 0, sp := limitedSplit, act := 0xF }
theorem undisturbedLim : Undisturbed sLim iLim := ⟨⟨faultless ⟨rfl, rfl, rfl⟩, noFlaws rfl⟩, rfl, noLines rfl, rfl, rfl, by decide⟩
theorem acceptedLim (a : Accepts) (h : a.ok limitedSplit.hints = true) : Accepted sLim iLim a := ⟨rfl, ⟨rfl, rfl, noCkpts rfl⟩, h⟩
theorem stopsLim (mode size : Nat) (poison : Nat → Bool) (al : Bool) (ls : List Located)
    (h1 : (pastLimit iLim 0xF 1 mode size 32).getLsbD 2 = true ∧ ∀ k, k < 2 → (pastLimit iLim 0xF 1 mode size 32).getLsbD k = false)
    (h2 : ∀ p ∈ ls, (pastLimit iLim 0xF 1 mode size 32).getLsbD p.part.lane = false → p.isSealed = false)
    (h3 : ∀ k ∈ lanesBelow 0xF 32, (pastLimit iLim 0xF 1 mode size 32).getLsbD k = false → poison k = false ∧
      (al = true → (((iLim.g.sreg 2).toNat + offsetOf iLim 1 mode size k) % 2 ^ 64) % size = 0)) :
    StopsAt iLim 0xF 2 1 mode size 9 ls 2 poison al := ⟨⟨rfl, rfl⟩, h1, h2, h3⟩
theorem test_witness_lanes_past_the_limit : Undisturbed sLim iLim ∧ Free sLim iLim ∧ Unguarded sLim ∧ activeOf iLim 0 = 0xF ∧
    (∃ u ls, Accepted sLim iLim { ord := 1, cache := true, bnd := true } ∧ AccessRegs iLim 4 1 2 0 ∧
      (sLim.begin iLim).reach iLim (vectorRequest iLim 2 1 2 0 0 needRead) = (u, none, ls) ∧
      StopsAt iLim 0xF 2 1 0 4 9 ls 2 (addressMark iLim 0 2 1) false ∧
      Room sLim iLim (ls.filter (fun p => (0xF &&& ~~~ pastLimit iLim 0xF 1 0 4 32).getLsbD p.part.lane)) ∧
      (∀ p ∈ ls.filter (fun p => (0xF &&& ~~~ pastLimit iLim 0xF 1 0 4 32).getLsbD p.part.lane), Own sLim p) ∧
      (ls.filter (fun p => (0xF &&& ~~~ pastLimit iLim 0xF 1 0 4 32).getLsbD p.part.lane)).length = 2) ∧
    (∃ u ls, Accepted sLim iLim { ord := 2, cache := true, bnd := true } ∧
      (sLim.begin iLim).reach iLim (vectorRequest iLim 2 1 2 0 0 needWrite) = (u, none, ls) ∧
      StopsAt iLim 0xF 2 1 0 4 9 ls 2 (fun k => addressMark iLim 0 2 1 k || storedMark iLim 4 2 k) false ∧
      ∀ p ∈ ls.filter (fun p => (0xF &&& ~~~ pastLimit iLim 0xF 1 0 4 32).getLsbD p.part.lane), Ordinary sLim p) :=
  ⟨undisturbedLim, ⟨by decide, rfl⟩, ⟨rfl, no_group (by decide), rfl⟩, by decide,
    ⟨_, _, acceptedLim _ rfl, by unfold AccessRegs; decide, rfl, stopsLim _ _ _ _ _ (by decide) (by decide) (by decide), by unfold Room; decide,
      Plains.own (by unfold Plains; decide), by decide⟩,
    _, _, acceptedLim _ rfl, rfl, stopsLim _ _ _ _ _ (by decide) (by decide) (by decide), Plains.ordinary (by unfold Plains; decide)⟩
def limSlot (l : Nat) : Nat := 0x2000040 + 16 * l
theorem test_witness_atomics_past_the_limit : Accepted sLim iLim { ord := 3, bnd := true } ∧
    ∀ p ∈ [(4, 1), (8, 2), (16, 1), (16, 2)], (4 : BitVec 6).toNat + 2 * p.2 ≤ iLim.g.nregs ∧
      ∃ u ls, (sLim.begin iLim).reach iLim (atomicRequest iLim (iLim.elems (activeOf iLim 0) 0 2 1 p.1) p.1 false) = (u, none, ls) ∧
      StopsAt iLim 0xF 2 1 0 p.1 9 ls 2 (fun k => addressMark iLim 0 2 1 k || operandMark iLim 4 p.2 k) true ∧
      (∀ q ∈ ls.filter (fun q => (0xF &&& ~~~ pastLimit iLim 0xF 1 0 p.1 32).getLsbD q.part.lane), Ordinary sLim q) ∧
      (∀ q ∈ ls.filter (fun q => (0xF &&& ~~~ pastLimit iLim 0xF 1 0 p.1 32).getLsbD q.part.lane),
        limSlot q.part.lane = dpaLocal q.phys ∧ dpaLocal q.phys % p.1 = 0) ∧
      ∀ l, l < 32 → (0xF &&& ~~~ pastLimit iLim 0xF 1 0 p.1 32).getLsbD l = true → sLim.region (limSlot l) = some (32, 1) := by
  refine ⟨acceptedLim _ rfl, ?_⟩
  intro p hp
  fin_cases hp <;> exact ⟨by decide, _, _, rfl, stopsLim _ _ _ _ _ (by decide) (by decide) (by decide),
    Plains.ordinary (by unfold Plains; decide), by decide, by decide +kernel⟩
theorem test_witness_stops : (Accepted sU iU { imm := 2, ord := 1, cache := true } ∧ iU.g.onControl = false ∧
      leased (sU.leaseOf iU.g) needRead (iU.g.sreg 1 + widened 11 iU.sp.hints.imms 0).toNat 8 = false) ∧
    (∃ u es ls f, (sBase.begin iBase).check iBase (scalarRequest iBase 5 2 0 needRead) noHost (fun _ => false) = .go u es ls f ∧ es ≠ [] ∧
      iBase.g.smark 5 = true) ∧
    (∃ u p, (sU.begin iU).reach iU (scalarRequest iU 3 2 0 needWrite) = (u, none, [p]) ∧ p.part.lane = 0 ∧ p.isSealed = true) ∧
    ∃ x c, sU.crew iU.g.crew = some c ∧
      (iU.elems (activeOf iU 0) 3 2 0 4).find? (fun e => decide (4096 * c.pads < e.addr + 4)) = some x :=
  ⟨⟨acceptedU _ rfl, by decide⟩, ⟨_, _, _, _, rfl, by decide, by decide⟩, ⟨_, _, rfl, by decide⟩,
    _, _, rfl, rfl⟩

def deferred (g : Gang) : Gang := { g with d13 := some 0x40 }
def owing (g : Gang) : Gang := { g with pendingAcks := 1 }
theorem test_witness_fences : (Ready sU iU ∧ Clear sU iU) ∧
    (Ready (sUg deferred) (iUg deferred) ∧ Free (sUg deferred) (iUg deferred) ∧ (iUg deferred).g.nextDeferred = some (0x13, 0x40)) ∧
    (Ready (sUg owing) (iUg owing) ∧ (iUg owing).g.wcb = [] ∧ (iUg owing).g.pendingAcks ≠ 0) ∧
    iU.sp.blocked = none ∧ 575 < (iU.g.sreg 2).toNat ∧ (iU.g.sreg 1).toNat ≤ 575 ∧
    ∀ g ∈ sU.gangs, g.ctx = iU.g.ctx → clusterOf g.core = 1 → g.id ≠ iU.g.id → ∃ h, sU.gang g.id = some h ∧ h.wcb = [] ∧ sU.inFlight h = [] := by
  refine ⟨⟨readyU, clearU⟩, ⟨⟨rfl, ⟨rfl, rfl, noCkpts rfl⟩, ⟨rfl, rfl, rfl, rfl, rfl⟩⟩, ⟨by decide, rfl⟩, rfl⟩,
    ⟨⟨rfl, ⟨rfl, rfl, noCkpts rfl⟩, ⟨rfl, rfl, rfl, rfl, rfl⟩⟩, rfl, by decide⟩, rfl, by decide, by decide, ?_⟩
  intro g hg
  simp only [sU, List.mem_singleton] at hg
  subst hg
  decide

/-- The resident in the state of the user task's pages, with the page 0x200_0000, or the sealed one, in s1 and s2. -/
def sSeal (base : DWord) : State :=
  { uMem with gangs := [{ Gang.resident with s := [(1, base), (2, 0x200000)] }] }
def iSeal (base : DWord) : Issue := { iC with g := { Gang.resident with s := [(1, base), (2, 0x200000)] } }
theorem test_witness_seal : (Ready sU iU ∧ iU.g.ctx ≠ 0) ∧ (Ready (sSeal 0x2000001) (iSeal 0x2000001) ∧ (iSeal 0x2000001).g.ctx = 0 ∧
      ((iSeal 0x2000001).g.sreg 1).toNat % 4096 ≠ 0) ∧
    (∃ at_ e, Ready (sSeal 0x2000000) (iSeal 0x2000000) ∧ Clear (sSeal 0x2000000) (iSeal 0x2000000) ∧ Unguarded (sSeal 0x2000000) ∧
      (sSeal 0x2000000).rangeBusy 0 0x2000000 0x200000 = false ∧ walk (sSeal 0x2000000) 0 0x2000000 = .leaf 0x2000000 0x200000 at_ e ∧
      (sSeal 0x2000000).rootOf 0 ≠ none ∧ 0xC00000 ≤ at_ ∧ leafSeal e = false) ∧
    ∃ at_ e, walk (sSeal 0x2200000) 0 0x2200000 = .leaf 0x2200000 0x200000 at_ e ∧ leafSeal e = true :=
  ⟨⟨readyU, by decide⟩, ⟨⟨rfl, ⟨rfl, rfl, noCkpts rfl⟩, ⟨rfl, rfl, rfl, rfl, rfl⟩⟩, by decide⟩,
    ⟨_, _, ⟨rfl, ⟨rfl, rfl, noCkpts rfl⟩, ⟨rfl, rfl, rfl, rfl, rfl⟩⟩, ⟨rfl, ⟨by decide, rfl⟩, rfl, noLines rfl⟩, ⟨rfl, no_group (by decide), rfl⟩, by decide, rfl, by decide, by decide, by decide⟩,
    _, _, rfl, by decide⟩

/-- Every compute island is gated: no core is left to be scanned. -/
def sGated : State := { sC with islands := (List.range 64).map (fun n => (n, { IslSt.zero with cur := 6 })) }
def skimming (sp : Split) : Split := { sp with blocked := some (.skim [3] false) }
def skimmed (sp : Split) : Split := { sp with blocked := some (.skim [] true) }
theorem test_witness_drysync : (Ready sC iC ∧ iC.sp.blocked = none ∧ sC.skimCores ≠ []) ∧ (Ready sGated iC ∧ sGated.skimCores = []) ∧
    (Ready (sUs skimming) (iUs skimming) ∧ (iUs skimming).sp.blocked = some (.skim [3] false)) ∧
    Ready (sUs skimmed) (iUs skimmed) ∧ (iUs skimmed).sp.blocked = some (.skim [] true) :=
  ⟨⟨readyC, rfl, by decide +kernel⟩, ⟨⟨rfl, ⟨rfl, rfl, noCkpts rfl⟩, ⟨rfl, rfl, rfl, rfl, rfl⟩⟩, by decide +kernel⟩,
    ⟨⟨rfl, ⟨rfl, rfl, noCkpts rfl⟩, ⟨rfl, rfl, rfl, rfl, rfl⟩⟩, rfl⟩, ⟨rfl, ⟨rfl, rfl, noCkpts rfl⟩, ⟨rfl, rfl, rfl, rfl, rfl⟩⟩, rfl⟩

/-- Registers for bar.init: offset 0x40, 0x42 and 0x2000; 32 arrivals, and bits that are reserved. -/
def barRegs (g : Gang) : Gang := { g with s := g.s ++ [(9, 0x40), (10, 32), (11, 0x2000), (12, 0x4020)] }
theorem test_witness_barrier_binding : Ready (sUg barRegs) (iUg barRegs) ∧ (sUg barRegs).crew 1 = some uCrew ∧
    4096 * uCrew.pads ≤ ((iUg barRegs).g.sreg 11).toNat ∧ ((iUg barRegs).g.sreg 9).toNat < 4096 * uCrew.pads ∧
    2 ^ 14 ≤ ((iUg barRegs).g.sreg 12).toNat ∧ ((iUg barRegs).g.sreg 9).toNat % 16 = 0 ∧ ((iUg barRegs).g.sreg 10).toNat % 2 ^ 12 ≤ 1024 ∧
    ((sUg barRegs).begin (iUg barRegs)).barBusy uCrew 0x40 = false ∧ uCrew.padState 0 = .pinned ∧ uCrew.bound 3 = none :=
  ⟨⟨rfl, ⟨rfl, rfl, noCkpts rfl⟩, ⟨rfl, rfl, rfl, rfl, rfl⟩⟩, rfl, by decide⟩

/-- The user crew with name 3 bound to an object that expects 64 or 32 lanes, and a gang with an arrival or an observer's bit. -/
def aBar (n : Nat) (hold : Bool) : Bar :=
  { gen := 5, exp := n, pend := n, ckpt := false, mtrk := false, hold, ovr := false, inb := 0, outb := 0, chrem := 0, ogen := 0 }
def sBar (n : Nat) (hold : Bool) (f : Gang → Gang) : State := ({ sUg f with crews := [{ uCrew with bind := [(3, 0x40)] }] }).setBar 1 0x40 (aBar n hold)
theorem atBarrier (n : Nat) (hold : Bool) (f : Gang → Gang) (c : Crew) (h : (sBar n hold f).crew (iUg f).g.crew = some c)
    (h1 : c.val = (iUg f).g.crew ∧ c.bound 3 = some 0x40 ∧ c.padState 0 = .pinned ∧ c.shadow = none ∧ c.deferred.contains 0x40 = false)
    (h2 : ((sBar n hold f).begin (iUg f)).slotsTaken (iUg f).g.core (iUg f).g.crew 0x40 = false)
    (h3 : (sBar n hold f).banks.all (fun e => e.2.flaws.isEmpty && !e.2.reenc) = true) :
    AtBarrier (sBar n hold f) (iUg f) 3 c 0x40 := ⟨h, h1.1, h1.2.1, h1.2.2.1, rfl, h1.2.2.2.1, noFlaws h3, h1.2.2.2.2, h2⟩
def observing (g : Gang) : Gang := { g with arrivals := [(3, { mask := 0, gen := 0, obs := true })] }
theorem test_witness_arrivals : (∃ c, Ready (sBar 64 false id) (iUg id) ∧ AtBarrier (sBar 64 false id) (iUg id) 3 c 0x40 ∧
      Clear (sBar 64 false id) (iUg id) ∧ ((iUg id).g.arrival 3).obs = false ∧ (iUg id).g.onControl = false ∧
      (iUg id).g.arrivedAt (c.namesOf 0x40) 5 = 0 ∧ (sBar 64 false id).bar 1 0x40 = aBar 64 false ∧ 0 < arriving (iUg id) 0 ∧ arriving (iUg id) 0 < 64) ∧
    (∃ c, AtBarrier (sBar 32 false id) (iUg id) 3 c 0x40 ∧ Clear (sBar 32 false id) (iUg id) ∧ arriving (iUg id) 0 = ((sBar 32 false id).bar 1 0x40).pend ∧
      (sBar 32 false id).bar 1 0x40 = aBar 32 false) ∧
    ((sBar 64 false id).bar 1 0x40).gen ≠ ((iUg id).g.sreg 2).toNat % 16 :=
  ⟨⟨_, ⟨rfl, ⟨rfl, rfl, noCkpts rfl⟩, ⟨rfl, rfl, rfl, rfl, rfl⟩⟩, atBarrier _ _ _ _ rfl (by decide) (by decide) (by decide), ⟨rfl, ⟨by decide, rfl⟩, rfl, noLines rfl⟩, rfl, rfl, rfl, rfl, by decide, by decide⟩,
    ⟨_, atBarrier _ _ _ _ rfl (by decide) (by decide) (by decide), ⟨rfl, ⟨by decide, rfl⟩, rfl, noLines rfl⟩, by decide, rfl⟩, by decide⟩
theorem test_witness_observers : (∃ c, AtBarrier (sBar 64 true id) (iUg id) 3 c 0x40 ∧ ((sBar 64 true id).bar 1 0x40).hold = true) ∧
    (∃ c, AtBarrier (sBar 64 false id) (iUg id) 3 c 0x40 ∧ ((sBar 64 false id).bar 1 0x40).hold = false ∧ ((iUg id).g.arrival 3).obs = false) ∧
    ∃ c, Ready (sBar 64 true observing) (iUg observing) ∧ AtBarrier (sBar 64 true observing) (iUg observing) 3 c 0x40 ∧
      ((iUg observing).g.arrival 3).obs = true ∧ Clear (sBar 64 true observing) (iUg observing) :=
  ⟨⟨_, atBarrier _ _ _ _ rfl (by decide) (by decide) (by decide), by decide⟩, ⟨_, atBarrier _ _ _ _ rfl (by decide) (by decide) (by decide), by decide, by decide⟩,
    _, ⟨rfl, ⟨rfl, rfl, noCkpts rfl⟩, ⟨rfl, rfl, rfl, rfl, rfl⟩⟩, atBarrier _ _ _ _ rfl (by decide) (by decide) (by decide), rfl, ⟨rfl, ⟨by decide, rfl⟩, rfl, noLines rfl⟩⟩

/-- Eight gangs of two other crews on the user's core, whose splits wait at 32 objects. -/
def waiting (j : Nat) : Gang :=
  { uGang with id := 20 + j, slot := 20 + j, crew := 2 + j / 4,
               splits := (List.range 4).map (fun k => some { uSplit with blocked := some (.gen (4 * (j % 4) + k) 0 none) }) }
def sixteenNames : Store Nat := (List.range 16).map (fun n => (n, 16 * n))
def sSlots : State :=
  { sU with gangs := uGang :: (List.range 8).map waiting,
            crews := [{ uCrew with bind := [(3, 0x40)] }, { uCrew with val := 2, bind := sixteenNames }, { uCrew with val := 3, bind := sixteenNames }] }
theorem test_witness_slots : ∃ c, Ready sSlots iU ∧ sSlots.crew iU.g.crew = some c ∧ c.bound 3 = some 0x40 ∧ iU.sp.blocked = none ∧
    (sSlots.begin iU).slotsTaken iU.g.core iU.g.crew 0x40 = true :=
  ⟨_, ⟨rfl, ⟨rfl, rfl, noCkpts rfl⟩, ⟨rfl, rfl, rfl, rfl, rfl⟩⟩, rfl, rfl, rfl, by decide⟩

/-- A second gang in the user's crew, and a second crew on its core. -/
def sTwo : State :=
  { sU with gangs := [uGang, { uGang with id := 8, slot := 4 }, { uGang with id := 9, slot := 5, crew := 2 }], crews := [uCrew, { Crew.start 2 1 0 0 0 0 0 1 with val := 2 }] }
def named (g : Gang) : Gang := { g with s := [(4, 2), (6, 0x100000000), (7, 1)] }
theorem test_witness_crews : (Ready sU iU ∧ (sU.begin iU).boundToCrew iU.g = false) ∧
    (Ready (sUg four) (iUg four) ∧ ((sUg four).begin (iUg four)).boundToCrew (iUg four).g = true) ∧
    2 ^ 32 ≤ ((iUg named).g.sreg 6).toNat ∧ ((iUg named).g.sreg 7).toNat = (iUg named).g.crew ∧ ((iUg named).g.sreg 4).toNat = 2 ∧
    (∃ c, Ready sTwo iU ∧ sTwo.crew 2 = some c ∧ c.ctx = iU.g.ctx ∧ c.core = iU.g.core ∧ c.preempted = false ∧ Free sTwo iU ∧ sTwo.colls = [] ∧
      (∀ k ∈ sTwo.crews, k.bind = []) ∧ (sTwo.gangs.filter (fun g => g.crew == 2 && !g.onControl)).length < 32) ∧
    ∃ k, 1 < (sTwo.gangs.filter (fun g => g.crew == 1 && !g.onControl)).length ∧ sTwo.freeCrewNum 0 = some k ∧
      ∀ c ∈ sTwo.crews, c.val ≠ sTwo.newCrewVal 0 k :=
  ⟨⟨readyU, by decide⟩, ⟨⟨rfl, ⟨rfl, rfl, noCkpts rfl⟩, ⟨rfl, rfl, rfl, rfl, rfl⟩⟩, by decide⟩, by decide, by decide, by decide,
    ⟨_, ⟨rfl, ⟨rfl, rfl, noCkpts rfl⟩, ⟨rfl, rfl, rfl, rfl, rfl⟩⟩, rfl, rfl, rfl, rfl, ⟨by decide, rfl⟩, rfl, by decide, by decide⟩, 0, by decide⟩

/-- Crew 2 has 32 members; and a core on which 64 crews leave no number free. -/
def sFullCrew : State :=
  { sU with gangs := uGang :: (List.range 32).map (fun j => { uGang with id := 20 + j, slot := 8 + j, crew := 2 }), crews := [uCrew, { uCrew with val := 2 }] }
def sNoNumber : State :=
  { sU with gangs := [uGang, { uGang with id := 8, slot := 4 }], crews := (List.range 64).map (fun n => { uCrew with val := crewValue 0 0 n }) }
theorem test_witness_refused_crews : (sU.crew 2 = none ∧ (iU.g.sreg 1).toNat = 1 ∧ ((iUg named).g.sreg 4).toNat ≠ (iUg named).g.crew) ∧
    (Ready { sFullCrew with gangs := named uGang :: sFullCrew.gangs.tail } (iUg named) ∧ sFullCrew.crew 2 = some { uCrew with val := 2 } ∧
      32 ≤ (sFullCrew.gangs.filter (fun g => g.crew == 2 && !g.onControl)).length) ∧
    Ready sNoNumber iU ∧ 1 < (sNoNumber.gangs.filter (fun g => g.crew == iU.g.crew && !g.onControl)).length ∧ sNoNumber.freeCrewNum iU.g.core = none ∧
    (sNoNumber.begin iU).boundToCrew iU.g = false :=
  ⟨⟨rfl, by decide, by decide⟩, ⟨⟨rfl, ⟨rfl, rfl, noCkpts rfl⟩, ⟨rfl, rfl, rfl, rfl, rfl⟩⟩, by decide, by decide⟩,
    ⟨rfl, ⟨rfl, rfl, noCkpts rfl⟩, ⟨rfl, rfl, rfl, rfl, rfl⟩⟩, by decide, by decide, by decide⟩

/-- Registers s8 to s11: one row of 16 bytes from 0x200_0000 to the pad at 0x100; a wrong one has a reserved bit. -/
def copyRegs (bad : Nat) (g : Gang) : Gang :=
  { g with s := g.s ++ [(8, 0x100), (9, 0x2000000), (10, BitVec.ofNat 64 (2 ^ 48 + 2 ^ 44 + bad * 2 ^ 24 + 16))] }
def inSlot (g : Gang) : Gang := { g with copySlot := some { sliceOf iU 0 8 1 none none false with rows := 1 } }
def isCopy : CopyWord := { op := 0, a := 8, q := 1, dbe := true, db := 3, sbe := false, sb := 0, sv := false }
def slice8 (bad : Nat) : CopySlice := { sliceOf (iUg (copyRegs bad)) 0 8 1 (some 3) none false with word := isCopy.toWord }
def sCopy (bad : Nat) : State := { sBar 64 false (copyRegs bad) with crews := [{ uCrew with bind := [(3, 0x40)] }] }

theorem test_witness_copies : Accepted sU iU { cache := true } ∧ sU.crew iU.g.crew = some uCrew ∧ uCrew.bound 3 = none ∧
    (sUg inSlot).crew 1 = some uCrew ∧ (iUg inSlot).g.copySlot ≠ none ∧
    ∃ k, Accepted (sCopy 0) (iUg (copyRegs 0)) { cache := true } ∧ (sCopy 0).crew 1 = some k ∧ k.bound 3 = some 0x40 ∧
      (iUg (copyRegs 0)).g.copySlot = none ∧ Clear (sCopy 0) (iUg (copyRegs 0)) :=
  ⟨acceptedU _ rfl, rfl, rfl, rfl, by decide, _, ⟨rfl, ⟨rfl, rfl, noCkpts rfl⟩, rfl⟩, rfl, rfl, rfl, rfl, ⟨by decide, rfl⟩, rfl, noLines rfl⟩

theorem adds_nothing (k : Crew) (c : CopySlice) (v off : Nat) (hd : c.dests = []) (h : ¬ (v = c.crew ∧ c.dbar.bind k.bound = some off))
    (h2 : ¬ (v = c.crew ∧ c.sbar.bind k.bound = some off)) : addsIn k c v off + addsOut k c v off = 0 := by
  simp [addsIn, addsOut, hd, h, h2]
theorem test_witness_copy_slice : ∃ u ls ss ds k, ((sCopy 0).begin (iUg (copyRegs 0))).copyReach (iUg (copyRegs 0)) (slice8 0) = (u, .ok ls, ss, ds) ∧
    ((sCopy 0).begin (iUg (copyRegs 0))).copyOverrun (iUg (copyRegs 0)).g (slice8 0) 0 = none ∧
    u.copyRegsOk (iUg (copyRegs 0)).g (slice8 0) 0 0 = true ∧ u.sliceFits (slice8 0) = true ∧ (slice8 0).empty = false ∧
    (sCopy 0).crew 1 = some k ∧ CountsInFrames (sCopy 0) k { slice8 0 with xl := pagesOf ls, dests := [] } ∧ (∀ x ∈ ds, x.isSealed = false) ∧
    (∀ j, j < 4 → (iUg (copyRegs 0)).g.smark (8 + j) = false) := by
  refine ⟨_, _, _, _, _, rfl, rfl, rfl, by decide +kernel, rfl, rfl, ?_, by decide, by decide⟩
  intro v off h
  by_cases hv : v = 1 ∧ off = 0x40
  · obtain ⟨rfl, rfl⟩ := hv
    exact ⟨by decide, _, rfl, by decide, by decide⟩
  · exfalso
    have h1 : ¬ (v = 1 ∧ (some 0x40 : Option Nat) = some off) := fun e => hv ⟨e.1, by simpa using e.2.symm⟩
    have h2 : ¬ (v = 1 ∧ (none : Option Nat) = some off) := fun e => by simp at e
    exact absurd h (by rw [adds_nothing _ _ v off rfl h1 h2]; decide)
theorem test_witness_copy_rules : ∃ u ls ss ds, ((sCopy 1).begin (iUg (copyRegs 1))).copyReach (iUg (copyRegs 1)) (slice8 1) = (u, .ok ls, ss, ds) ∧
    ((sCopy 1).begin (iUg (copyRegs 1))).copyOverrun (iUg (copyRegs 1)).g (slice8 1) 0 = none ∧ field ((iUg (copyRegs 1)).g.sreg 10) 24 8 = 1 ∧
    u.copyRegsOk (iUg (copyRegs 1)).g (slice8 1) 1 0 = false := ⟨_, _, _, _, rfl, rfl, by decide, rfl⟩
theorem test_witness_qfence : Ready sU iU ∧ iU.act = BitVec.allOnes 32 ∧ iU.g.copySlot = none ∧ Clear sU iU ∧
    (∀ c ∈ sU.colls, c.crew = iU.g.crew → c.complete = true) ∧ ∀ g ∈ sU.gangs, g.copySlot = none :=
  ⟨readyU, rfl, rfl, clearU, by decide, by decide⟩

/-- The user gang holds its core's trowel, or a follower's gang of a second crew holds that of core 1 opened. -/
def holding (own : Option (Nat × Bool)) (two : Option (Nat × Bool)) : State :=
  { sU with gangs := [uGang, { uGang with id := 8, core := 1, crew := 2 }],
            crews := [uCrew, { uCrew with val := 2, core := 1 }],
            cores := [(0, { CoreSt.zero with trowel := own }), (1, { CoreSt.zero with trowel := two })] }
theorem readyH (a b : Option (Nat × Bool)) : Ready (holding a b) iU := ⟨rfl, ⟨rfl, rfl, noCkpts rfl⟩, ⟨rfl, rfl, rfl, rfl, rfl⟩⟩
def someLanes (sp : Split) : Split := { sp with mask := 1 }
theorem test_witness_matrix : (Ready sU iU ∧ mmaLegal 3 false false 0 0 64 iU (sU.begin iU) = false) ∧
    (Ready (sUs someLanes) (iUs someLanes) ∧ mmaLegal 0 false false 0 1 64 (iUs someLanes) ((sUs someLanes).begin (iUs someLanes)) = true ∧
      (iUs someLanes).act ≠ BitVec.allOnes 32) ∧
    (∀ o ∈ [none, some (7, false)], mmaLegal 0 false false 0 1 64 iU ((holding o none).begin iU) = true ∧
      ((holding o none).begin iU).mmaBreach iU (iU.mmaJob 0 0 false false 0 1 5 64 iU.g.crew) = none) ∧
    ((holding none none).core 0).trowel.map (·.1) ≠ some 7 ∧ ((holding (some (7, false)) none).core 0).trowel.map (·.1) = some 7 ∧
    (((holding (some (7, false)) none).core 0).jobs.filter (fun j => j.op ≤ 1 && !j.started)).length < 2 ∧ iU.g.smark 4 = false :=
  ⟨⟨readyU, by decide⟩, ⟨⟨rfl, ⟨rfl, rfl, noCkpts rfl⟩, ⟨rfl, rfl, rfl, rfl, rfl⟩⟩, by decide, by decide⟩, by decide, by decide⟩
theorem test_witness_matrix_pairs : mmaLegal 0 true true 8 10 128 iU ((holding (some (7, false)) (some (8, true))).begin iU) = true ∧
    ((holding (some (7, false)) (some (8, true))).begin iU).mmaBreach iU (iU.mmaJob 1 0 true true 8 10 4 128 iU.g.crew) = none ∧
    ((holding (some (7, false)) none).core 1).trowel.map (·.2) ≠ some true ∧
    ∃ h k, ((holding (some (7, false)) (some (8, true))).core 0).trowel = some (7, false) ∧
      ((holding (some (7, false)) (some (8, true))).core (0 ^^^ 1)).trowel = some (h.id, true) ∧ h.id ≠ iU.g.id ∧
      (holding (some (7, false)) (some (8, true))).gang h.id = some h ∧ h.ctx = iU.g.ctx ∧
      (holding (some (7, false)) (some (8, true))).crew h.crew = some k ∧ 0 < k.accs :=
  ⟨by decide, by decide, by decide, { uGang with id := 8, core := 1, crew := 2 }, { uCrew with val := 2, core := 1 }, rfl, rfl, by decide, rfl, rfl, rfl, by decide⟩
theorem test_witness_drains : drainLegal 0 0 1 none iU (sU.begin iU) = true ∧ Reaches sU iU 0 needWrite (drainRanges (iU.drainTo 0 1 0 128 64) 0 0 64 64 128) (sU.begin iU) [] ∧
    drainLegal 0 1 8 (some 10) iU (sU.begin iU) = true ∧
    (∃ u ls, Reaches sU iU 2 needWrite (drainRanges (iU.drainTo 2 2 0 128 64) 0 0 64 0 0 ++ drainRanges (iU.drainTo 2 2 0 64 128) 0 0 128 0 0) u ls) ∧
    uCrew.accs ≤ 1 ∧ 0 < uCrew.accs ∧ uCrew.zregs ≤ 3 + 1 ∧ 2 + 1 < uCrew.zregs ∧
    ∃ u ls, Reaches sU iU 2 needRead ((moveRuns { iU.drainTo 2 2 0 128 64 with base := 0x2000040, pitch := 0, scale := 0 } 8192).map (fun x => (x.1, x.2.1))) u ls :=
  ⟨by decide, .inl ⟨rfl, rfl, rfl⟩, by decide, ⟨_, _, .inr (.inr ⟨rfl, soundU.1, fun _ => ⟨rfl, freeU⟩, rfl, by decide⟩)⟩, by decide, by decide, by decide, by decide, _, _, .inr (.inr ⟨rfl, soundU.1, fun _ => ⟨rfl, freeU⟩, rfl, by decide⟩)⟩

def sWaiter : State :=
  { holding (some (7, false)) none with
    gangs := [uGang, { uGang with id := 8, slot := 5, splits := [some { uSplit with blocked := some (.trowel false) }, none, none, none] }] }
theorem test_witness_trowel : Ready (holding none none) iU ∧ ((holding none none).core 0).trowel = none ∧ ((holding none none).core 0).passing = none ∧
    (∃ h o, ((holding (some (8, false)) none).core 0).trowel = some (h, o) ∧ h ≠ iU.g.id) ∧
    (((holding (some (7, false)) none).core 0).trowel.map (·.1) = some iU.g.id ∧ iU.g.retake = none ∧
      (∀ g ∈ (holding (some (7, false)) none).gangs, g.id = iU.g.id → g = iU.g) ∧
      (∀ k q f, iU.g.split k = some q → q.blocked ≠ some (.trowel f)) ∧
      ∀ g ∈ (holding (some (7, false)) none).gangs, g.core = iU.g.core → g.id ≠ iU.g.id → g.waitsTrowel = false) ∧
    ∃ w, Ready sWaiter iU ∧ sWaiter.nextWaiter 0 (((sWaiter.crew 1).map (·.ring)).getD 0, 3) = some w ∧ w.id ≠ iU.g.id := by
  refine ⟨readyH _ _, rfl, rfl, ⟨_, _, rfl, by decide⟩, ⟨rfl, rfl, by decide, ?_, by decide⟩, _, ⟨rfl, ⟨rfl, rfl, noCkpts rfl⟩, ⟨rfl, rfl, rfl, rfl, rfl⟩⟩, rfl, by decide⟩
  intro k q f h
  have h0 : iU.g.split k = if k = 0 then some uSplit else none := by
    match k with
    | 0 | 1 | 2 | 3 => rfl
    | _ + 4 => rfl
  rw [h0] at h
  split at h
  · cases h
    exact fun e => by cases e
  · cases h

/-- A table of one projection with 16 buckets at 0x200_1000, POLICY 1, its descriptor at 0x200_0040 (R293), in slot 0. -/
def tableConfig : List DWord := [0, 0x2001000, 0, BitVec.ofNat 64 (2 ^ 32 + 4 * 2 ^ 40 + 2 ^ 48 + 2 ^ 52 + 2 ^ 56), 0, 0, 0, 0]
def tabRegs (g : Gang) : Gang := { g with s := g.s ++ [(4, 0x400000100), (6, 0x2000000), (7, 0x1000000040), (8, 0x10000000200)] }
def tabCrew : Crew := { uCrew with pad := [(0x100, 1)] }
def sTab (slot : Bool) : State :=
  { put (put (sUg tabRegs) 0x2000048 8 0x2001000) 0x2000058 8 (2 ^ 32 + 4 * 2 ^ 40 + 2 ^ 48 + 2 ^ 52 + 2 ^ 56) with
    crews := [tabCrew]
    hashes := if slot then [{ ctx := 1, h := 0, gang := 7, stamp := 1, released := none, descVa := 0x2000040, desc := 0x2000040, config := tableConfig, empty := false }] else [] }
def iTab : Issue := iUg tabRegs
theorem readyT (b : Bool) : Ready (sTab b) iTab := ⟨rfl, ⟨rfl, rfl, noCkpts rfl⟩, ⟨rfl, rfl, rfl, rfl, rfl⟩⟩

theorem test_witness_retrieval : (Ready (sTab false) iTab ∧ Sound (sTab false) ∧ NoLines (sTab false) ∧ (sTab false).poison = [] ∧ iTab.g.wcb = [] ∧
      (sTab false).hashSlot iTab.g 0 = none ∧ iTab.g.sreg 9 = 0) ∧
    (∃ u p, iTab.g.smark 2 = false ∧ (iTab.g.sreg 2).toNat % 64 = 0 ∧ iTab.g.sreg 2 ≠ 0 ∧
      Names (sTab false) iTab needRead [{ va := (iTab.g.sreg 2).toNat, len := 64, lane := none }] u [p] ∧
      cfgOk ((List.range 8).map (fun k => BitVec.ofNat 64 ((sTab false).readLe (dpaLocal p.phys + 8 * k) 8))) = true) ∧
    ∃ u p, Names (sTab false) iTab needRead [{ va := (iTab.g.sreg 6).toNat, len := 64, lane := none }] u [p] ∧
      cfgOk ((List.range 8).map (fun k => BitVec.ofNat 64 ((sTab false).readLe (dpaLocal p.phys + 8 * k) 8))) = false :=
  ⟨⟨readyT _, ⟨faultless ⟨rfl, rfl, rfl⟩, noFlaws rfl⟩, noLines rfl, rfl, rfl, rfl, rfl⟩, ⟨_, _, rfl, by decide, by decide, ⟨rfl, by decide +kernel⟩, by decide +kernel⟩,
    _, _, ⟨rfl, by decide +kernel⟩, by decide +kernel⟩

def slot0 : HashSlot := { ctx := 1, h := 0, gang := 7, stamp := 1, released := none, descVa := 0x2000040, desc := 0x2000040, config := tableConfig, empty := false }
theorem test_witness_probe : Ready (sTab true) iTab ∧ Sound (sTab true) ∧ NoLines (sTab true) ∧ (∀ y ∈ (sTab true).hashes, y.stamp < (sTab true).fresh) ∧ (sTab true).hashSlot iTab.g 0 = some slot0 ∧
    0 < field (iTab.g.sreg 4) 32 8 ∧ field (iTab.g.sreg 4) 32 8 ≤ 128 ∧ field (iTab.g.sreg 4) 0 32 % 16 = 0 ∧
    field (iTab.g.sreg 4) 0 32 + 16 + 5 * field (iTab.g.sreg 4) 32 8 ≤ ((sTab true).begin iTab).padSize iTab.g.crew ∧
    (∀ l ∈ laneList iTab.act, keyOf slot0 (laneOf iTab 0 l)) ∧
    (∃ u ls, Names (sTab true) iTab needRead ((laneList iTab.act).map (fun l => { va := keyBucket slot0 (laneOf iTab 0 l), len := 64, lane := some l }) ++ poolOf slot0) u ls) ∧
    (∀ l, iTab.act.getLsbD l = true → markOf iTab 0 l = false) ∧ (sTab true).matrixHolds iTab.g = false :=
  ⟨readyT _, ⟨faultless ⟨rfl, rfl, rfl⟩, noFlaws rfl⟩, noLines rfl, by decide, rfl, by decide, by decide, by decide, by decide, by unfold keyOf; decide, ⟨_, _, rfl, by decide +kernel⟩, by intro l _; show (0#32).getLsbD l = false; simp, rfl⟩
theorem test_witness_table_operations : (∀ l ∈ laneList (activeOf iTab 0), keyOf slot0 (laneOf iTab 0 l) ∧ laneOf iTab 0 l ≠ 0xFFFFFFFF ∧ markOf iTab 0 l = false) ∧
    (∃ u ls, Names (sTab true) iTab needBoth ((laneList (activeOf iTab 0)).map (fun l => { va := keyBucket slot0 (laneOf iTab 0 l), len := 64, lane := some l })
      ++ poolOf slot0 ++ [{ va := slot0.descVa, len := 64, lane := none }]) u ls) ∧
    (∃ u ls, Names (sTab true) iTab needBoth ((laneList (activeOf iTab 0)).flatMap (fun l => [{ va := keyBucket slot0 (iTab.g.vlane 0 l), len := 64, lane := some l },
      { va := keyBucket slot0 (iTab.g.vlane 1 l), len := 64, lane := some l }]) ++ poolOf slot0 ++ [{ va := slot0.descVa, len := 64, lane := none }]) u ls) ∧
    (∃ u p, (sTab true).retrievalBusy iTab.g = false ∧ Names (sTab true) iTab needRead [{ va := slot0.descVa, len := 64, lane := none }] u [p] ∧ slot0.descVa % 64 = 0) ∧
    ∃ u ls, keyOf slot0 ((iTab.g.sreg 9).truncate 32) ∧ Names (sTab true) iTab needRead
      [{ va := slot0.descVa, len := 64, lane := none }, { va := keyBucket slot0 ((iTab.g.sreg 9).truncate 32), len := 64, lane := none }] u ls :=
  ⟨by unfold keyOf; decide +kernel, ⟨_, _, rfl, by decide +kernel⟩, ⟨_, _, rfl, by decide +kernel⟩, ⟨_, _, rfl, ⟨rfl, by decide +kernel⟩, by decide⟩,
    _, _, by unfold keyOf; decide, rfl, by decide +kernel⟩
/-- rgath s4, f = 3 (s6, s7), e = 4 (s8): one row of 16 bytes at 0x200_0000 to the pad at 0x200. -/
theorem test_witness_rows : ∃ u ls, (sTab true).crew iTab.g.crew = some tabCrew ∧ tabCrew.shadow = none ∧ (sTab true).l1 = [] ∧
    field (iTab.g.sreg 4) 0 32 = 0x100 ∧ (tabCrew.padByte 0x100).toNat = 1 ∧ field (iTab.g.sreg 8) 4 28 * 16 = 0x200 ∧ field (iTab.g.sreg 7) 32 16 = 16 ∧
    (∀ k, k < 20 → tabCrew.padState ((0x100 + k) / 4096) = .pinned ∧ tabCrew.padPoison.contains (0x100 + k) = false) ∧
    ((sTab true).begin iTab).coalesce iTab.g needRead ((List.range 1).flatMap (fun j => rangeParts j (16 / 128 + 2) 0
      (((iTab.g.sreg 6).toNat + 0 * field (iTab.g.sreg 7) 0 32) % 2 ^ 64) 16)) = (u, .ok ls) ∧ ∀ p ∈ ls, Own (sTab true) p :=
  ⟨_, _, rfl, rfl, rfl, by decide, by decide, by decide, by decide, by decide, rfl, by unfold Own; decide⟩
theorem test_witness_row_count : ∃ c, (sUc fun c => { c with pad := [(0x101, 1)] }).crew 1 = some c ∧ 128 < 256 * (c.padByte 0x101).toNat := ⟨_, rfl, by decide⟩

/-- Buckets at 0x200_1000 in a machine that only waits: one of two rows, and full ones without and with an overflow bucket. -/
def aRequest (row : Word) (policy : Nat) : BucketReq :=
  { bucket := 0x2001000, row, desc := 0x2000040, policy, pool := 0x2003000, pooln := 2, xl := [(0x2000000, 0x200000, 0x2000000, 0x20002BB)],
    prot := false, descProt := false, ctx := 1, org := .gang 7, cluster := 0 }
def bucketJob (q : BucketReq) (ins : Bool) : RetrJob := { id := 1, gang := 7, ctx := 1, ins, req := q, batch := 1, after := none, probes := [], held := false }
def twoRows : State := put (put State.reset 0x2001000 4 0x22) 0x2001004 8 0x900000007
def fullRows (link : Nat) : State := put State.reset 0x2001000 4 (0xFF + 0x10000 * link)
def linkedRows : State := put (put (fullRows 1) 0x2003000 4 0x11) 0x2003004 4 6
def linkedFull : State := put (fullRows 1) 0x2003000 4 0xFF
def asks (s : State) (j : RetrJob) : State := { s with retr := [j] }
theorem no_replies : State.reset.awaitedSeqs = [] := by decide
theorem sentIn {s : State} (hq : s.Quiet) (hp : s.probes = []) (hf : s.Faultless ∧ s.poison = []) (hg : Unguarded s) (r : Word) (p : Nat) (i : Bool) :
    Sent (asks s (bucketJob (aRequest r p) i)) (bucketJob (aRequest r p) i) :=
  ⟨hq, rfl, ⟨rfl, rfl, rfl, fun q h => by have h : q ∈ s.probes := h; rw [hp] at h; cases h⟩, hf, ⟨hg.poison, hg.group, hg.replies⟩, (by decide : 0xC00000 ≤ 0x2001000 ∧ 0xC00000 ≤ 0x2000040),
    (by decide : 0x2001000 % 64 = 0 ∧ 0x2000040 % 64 = 0 ∧ 0x2001000 ≠ 0x2000040), rfl, rfl⟩
theorem test_witness_sent : ∀ s ∈ [twoRows, fullRows 0, fullRows 1, linkedRows, linkedFull], ∀ (r : Word) (p : Nat) (i : Bool), Sent (asks s (bucketJob (aRequest r p) i)) (bucketJob (aRequest r p) i) := by
  intro s h
  have hs : s.Quiet ∧ s.probes = [] ∧ (s.Faultless ∧ s.poison = []) ∧ Unguarded s := by
    fin_cases h <;> exact ⟨⟨rfl, rfl, noCkpts rfl⟩, rfl, ⟨faultless ⟨rfl, rfl, rfl⟩, rfl⟩, rfl, no_group (by decide), rfl⟩
  exact sentIn hs.1 hs.2.1 hs.2.2.1 hs.2.2.2
theorem test_witness_pool : InPool (aRequest 5 3) 0 0x2003000 ∧ InPool (aRequest 5 3) 1 0x2003040 :=
  ⟨⟨0x2003000, 0x20002BB, by decide⟩, 0x2003040, 0x20002BB, by decide⟩
def sevenNine : List Nat := [7, 9, 0, 0, 0, 0, 0, 0, 0, 0, 0, 0, 0, 0, 0]
theorem bucketTwo : IsBucket twoRows 0x2001000 2 2 0 sevenNine := ⟨by decide, by decide, rfl, by decide⟩
theorem test_witness_buckets : IsBucket (asks twoRows (bucketJob (aRequest 7 1) true)) 0x2001000 2 2 0 sevenNine ∧ 7 ∈ sevenNine.take 2 ∧
    5 ∉ sevenNine.take 2 ∧ IsBucket (asks (fullRows 0) (bucketJob (aRequest 5 2) true)) 0x2001000 15 15 0 (List.replicate 15 0) ∧ 5 ∉ List.replicate 15 0 :=
  ⟨⟨by decide, by decide, rfl, by decide⟩, by decide, by decide, ⟨by decide, by decide, rfl, by decide⟩, by decide⟩
theorem linkedTwo : IsBucket linkedRows 0x2003000 1 1 0 (6 :: List.replicate 14 0) := ⟨by decide, by decide, rfl, by decide⟩
theorem linkedFifteen : IsBucket linkedFull 0x2003000 15 15 0 (List.replicate 15 0) := ⟨by decide, by decide, rfl, by decide⟩
/-- Overflow buckets: none taken yet, one of the two of the pool to take, one of a single row, a full one. -/
theorem test_witness_overflow_buckets : (fullRows 0).readLe (0x2000040 + 40) 4 = 0 ∧ IsBucket (fullRows 1) 0x2001000 15 15 1 (List.replicate 15 0) ∧
    IsBucket linkedRows 0x2001000 15 15 1 (List.replicate 15 0) ∧ IsBucket linkedRows 0x2003000 1 1 0 (6 :: List.replicate 14 0) ∧
    IsBucket linkedFull 0x2001000 15 15 1 (List.replicate 15 0) ∧ IsBucket linkedFull 0x2003000 15 15 0 (List.replicate 15 0) ∧
    (put (fullRows 0) (0x2000040 + 40) 4 2).readLe (0x2000040 + 40) 4 = 2 :=
  ⟨by decide, ⟨by decide, by decide, rfl, by decide⟩, ⟨by decide, by decide, rfl, by decide⟩, linkedTwo,
    ⟨by decide, by decide, rfl, by decide⟩, linkedFifteen, by decide⟩
theorem test_witness_unasked : State.reset.Quiet ∧ State.reset.retr = [] := ⟨by unfold State.Quiet; decide, rfl⟩

/-- The user's gang waits for a probe of that bucket. -/
def aProbe (todo : List (Nat × Nat)) : Probe :=
  { tag := 50, gang := 7, split := 0, ctx := 1, core := 0, policy := 1, pool := 0, pooln := 0, xl := [], dest := 9, list := 0x100, cap := 4,
    lanes := [(0, 0x2001000)], todo, begun := false, held := false, rows := [], first := 0x2000000, active := 1 }
def sProbe (todo : List (Nat × Nat)) : State :=
  { put (put (sUs (fun sp => { sp with blocked := some (.reply 50) })) 0x2001000 4 0x22) 0x2001004 8 0x900000007 with probes := [aProbe todo] }
theorem test_witness_bucket_reads : (∃ p, (sProbe [(0x2001000, 0x2001000), (0x2001040, 0x2001040)]).probes.find? (fun q => q.tag == 50) = some p ∧
      (0x2001000, 0x2001000) ∈ p.todo ∧ p.todo.Nodup ∧ p.todo ≠ [(0x2001000, 0x2001000)] ∧ ∀ e ∈ p.todo, e.1 = e.2) ∧
    ∃ p g c sp, (sProbe [(0x2001000, 0x2001000)]).Quiet ∧ (sProbe [(0x2001000, 0x2001000)]).probes.find? (fun q => q.tag == 50) = some p ∧
      p.todo = [(0x2001000, 0x2001000)] ∧ IsBucket (sProbe [(0x2001000, 0x2001000)]) 0x2001000 2 2 0 sevenNine ∧
      (sProbe [(0x2001000, 0x2001000)]).gang p.gang = some g ∧ g.split p.split = some sp ∧ (sProbe [(0x2001000, 0x2001000)]).crew g.crew = some c ∧
      c.shadow = none ∧ p.policy = 1 ∧ (sProbe [(0x2001000, 0x2001000)]).probeReady p (0x2001000, 0x2001000) = true ∧
      { sProbe [(0x2001000, 0x2001000)] with retr := [bucketJob (aRequest 7 1) true] }.probeReady p (0x2001000, 0x2001000) = false ∧
      ∀ k, k < 16 + 5 * p.cap → c.padState ((p.list + k) / 4096) = .pinned :=
  ⟨⟨_, rfl, by decide, by decide, by decide, by decide⟩, _, _, _, _, by unfold State.Quiet; decide, rfl, rfl, ⟨by decide, by decide, rfl, by decide⟩, rfl, rfl, rfl, rfl, rfl, by decide, by decide, by decide⟩

/-- The located part of a range within the first user page. -/
def partAt (va n : Nat) : Located := { part := { lane := 0, first := 0, va, len := n }, phys := va, leaf := 0x20002BB, isSealed := false }
theorem described_at {s : State} {i : Issue} {va n need : Nat}
    (h : ((s.begin i).coalesce i.g need (rangeParts 0 3 0 va n)).2 = .ok [partAt va n]) (ho : Own s (partAt va n))
    (hc : Sound s ∧ s.poison = [] ∧ s.l1 = [] ∧ NoLines s ∧ i.g.wcb = []) : ∃ u, Described s i va n u (partAt va n) need :=
  ⟨_, ⟨Prod.ext rfl h, rfl, rfl⟩, ho, hc⟩

/-- A watch descriptor at 0x200_0040 over one granule of the watched page 0x240_0000, or over an unwatched one. -/
def sWatch (base : Nat) : State :=
  put (put (put (put sU 0xC03090 8 0x20000000024002BB) 0x2000040 8 base) 0x2000048 8 0x40) 0x2000068 8 (1 + 2 ^ 29 + 6 * 2 ^ 36 + 2 ^ 41)
theorem readyW (b : Nat) : Ready (sWatch b) iU := ⟨rfl, ⟨rfl, rfl, noCkpts rfl⟩, ⟨rfl, rfl, rfl, rfl, rfl⟩⟩
def page2 : List (Nat × Nat × Nat) := [(0x2400000, 0x200000, 0x2400000)]
theorem test_witness_watch : (∃ u, Described (sWatch 0x2400000) iU 0x2000040 64 u (partAt 0x2000040 64) needBoth) ∧ Ready (sWatch 0x2400000) iU ∧
    (sWatch 0x2400000).watchPages 1 0x2000040 ((sWatch 0x2400000).readLe 0x2000040 64) = .inl page2 ∧
    (∀ w ∈ (sWatch 0x2400000).watches, ¬ (w.ctx = iU.g.ctx ∧ w.id = 0)) ∧ 1 ≤ Config.watchIndex ∧
    deviceAddr (sWatch 0x2400000) 1 0x2000040 64 true true = some (0x2000040, 0x20002BB) ∧
    deviceAddr (sWatch 0x2400000) 1 0x2000040 64 false true = some (0x2000040, 0x20002BB) ∧
    ¬ formed sU 0x2000040 ∧ (sWatch 0x2000000).watchPages 1 0x2000040 ((sWatch 0x2000000).readLe 0x2000040 64) = .inr 2 ∧
    ∃ u, Described sU { iU with g := { uGang with s := [(2, 0x2000008)] } } 0x2000008 64 u (partAt 0x2000008 64) needBoth :=
  ⟨described_at (by decide +kernel) (by unfold Own; decide) ⟨⟨faultless ⟨rfl, rfl, rfl⟩, noFlaws rfl⟩, rfl, rfl, noLines rfl, rfl⟩, readyW _, by decide +kernel, by decide, by decide, by decide +kernel, by decide +kernel,
    by unfold formed; decide +kernel, by decide +kernel, described_at (by decide +kernel) (by unfold Own; decide) ⟨⟨faultless ⟨rfl, rfl, rfl⟩, noFlaws rfl⟩, rfl, rfl, noLines rfl, rfl⟩⟩
def aWatch : Watch := watchOf 1 0 0x2000040 0x2000040 (0x2400000 + 0x40 * 2 ^ 64 + 0x26020000001 * 2 ^ 160 * 2 ^ 160) page2
def sWatched : State := { sWatch 0x2400000 with watches := [aWatch] }
theorem test_witness_watched : Ready sWatched iU ∧ iU.g.sreg 9 = 0 ∧ sWatched.watches.find? (fun v => v.ctx == iU.g.ctx && v.id == (iU.g.sreg 9).toNat) = some aWatch ∧
    (∀ k ∈ sWatched.tasks, ∀ k' ∈ sWatched.tasks, k.id = k'.id → k = k') ∧ aWatch.shead < 2 ^ 16 ∧
    deviceAddr sWatched 1 0x2000040 64 false true = some (0x2000040, 0x20002BB) ∧
    ∀ w ∈ sWatched.watches, ¬ (w.ctx = iU.g.ctx ∧ w.id = (iU.g.sreg 1).toNat) :=
  ⟨⟨rfl, ⟨rfl, rfl, noCkpts rfl⟩, ⟨rfl, rfl, rfl, rfl, rfl⟩⟩, rfl, by decide +kernel, by decide +kernel, by decide +kernel, by decide +kernel, by decide +kernel⟩
def manyWatches (n : Nat) : List Watch := (List.range n).map (fun k => { aWatch with id := k })
theorem test_witness_full_watches (n : Nat) : ∀ k, k < n → ∃ w ∈ manyWatches n, w.ctx = 1 ∧ w.id = k := by
  intro k h
  exact ⟨{ aWatch with id := k }, List.mem_map.2 ⟨k, List.mem_range.2 h, rfl⟩, rfl, rfl⟩

def taskRegs (g : Gang) : Gang := { g with s := [(2, 0x2000080)] }
def sTask (shape : Nat) : State := put (sUg taskRegs) 0x20000CC 4 shape
theorem test_witness_tasks : ((∃ u, Described (sTask 1) (iUg taskRegs) 0x2000080 128 u (partAt 0x2000080 128) needRead) ∧ Ready (sTask 1) (iUg taskRegs) ∧ (iUg taskRegs).g.smark 2 = false ∧ Clear (sTask 1) (iUg taskRegs)) ∧
    (sTask 1).rootOf 1 ≠ none ∧ (sTask 1).readLe 0x20000C8 4 % 4 = 0 ∧ shapeOk ((sTask 1).readLe 0x20000CC 4) = true ∧ (sTask 1).readLe 0x20000D0 48 = 0 ∧
    shapeOk ((sTask 0).readLe 0x20000CC 4) = false ∧ (sTask 1).onChip 0 < 1024 ∧ (sTask 1).spilledOf 0 1 = [] :=
  ⟨⟨described_at (by decide +kernel) (by unfold Own; decide) ⟨⟨faultless ⟨rfl, rfl, rfl⟩, noFlaws rfl⟩, rfl, rfl, noLines rfl, rfl⟩, ⟨rfl, ⟨rfl, rfl, noCkpts rfl⟩, ⟨rfl, rfl, rfl, rfl, rfl⟩⟩, rfl, rfl, ⟨by decide, rfl⟩, rfl, noLines rfl⟩,
    by decide, by decide +kernel⟩

/-- A range counter at 0x200_0040: next 8, end 108, min 4, div 10; its chunk is 10. -/
def sCount : State := put (put (put (put sU 0x2000040 8 8) 0x2000048 8 108) 0x2000050 8 4) 0x2000058 8 10
def partsGo (s : State) (i : Issue) (r : Request) (host : List Located → Bool) (mark : Nat → Bool) (p : Located) : Bool :=
  match (s.begin i).check i r host mark with
  | .go _ _ ls f => ls == [p] && f == []
  | _ => false
theorem goes {s : State} {i : Issue} {r : Request} {host : List Located → Bool} {mark : Nat → Bool} {p : Located} (h : partsGo s i r host mark p = true) :
    ∃ u es, (s.begin i).check i r host mark = .go u es [p] [] := by
  unfold partsGo at h
  split at h
  · rename_i u es ls f e
    obtain ⟨h1, h2⟩ := Bool.and_eq_true _ _ ▸ h
    exact ⟨u, es, by rw [e, eq_of_beq h1, eq_of_beq h2]⟩
  · cases h
theorem test_witness_counters : (∃ u es, (sCount.begin iU).check iU (atomicRequest iU (scalarElem (iU.g.sreg 2).toNat) 32 true)
      (fun ls => ls.any (fun q => dpaModule q.phys == sCount.mgmt.modid && isHost (dpaLocal q.phys))) (fun _ => iU.g.smark 2) = .go u es [partAt 0x2000040 32] []) ∧
    Ready sCount iU ∧ Undisturbed sCount iU ∧ Free sCount iU ∧ Unguarded sCount ∧ Ordinary sCount (partAt 0x2000040 32) ∧ sCount.poison = [] ∧
    IsCounter sCount 0x2000040 8 108 4 10 ∧ IsLen 8 108 4 10 10 :=
  ⟨goes (by decide +kernel), ⟨rfl, ⟨rfl, rfl, noCkpts rfl⟩, ⟨rfl, rfl, rfl, rfl, rfl⟩⟩, ⟨⟨faultless ⟨rfl, rfl, rfl⟩, noFlaws rfl⟩, rfl, noLines rfl, rfl, rfl, by decide⟩, ⟨by decide, rfl⟩, ⟨rfl, no_group (by decide +kernel), rfl⟩,
    Plains.ordinary (ls := [_]) (by unfold Plains; decide) _ (List.mem_singleton.2 rfl), rfl, ⟨by decide +kernel, by decide +kernel, by decide +kernel, by decide +kernel⟩,
    ⟨10, by decide, by decide, by decide⟩⟩
theorem test_witness_counter_operands : initMark iU 2 0 = false ∧ dpaLocal (partAt 0x2000040 32).phys % 32 = 0 := by decide
/-- The page 0x200_0000 in the host window. -/
def sHostCount : State := put (put sU 0xC03080 8 0xC05001) 0xC05000 8 0xC0001000000002BB
/-- Where claim and rinit stop: s3 names the sealed page, s2 a misaligned address, and a host window. -/
def sAddr (g : Gang) : Gang := { g with s := [(2, 0x2000048), (3, 0x2200000)] }
def sReached (s : State) (i : Issue) (a : BitVec 6) (f : Located → Bool) : Bool :=
  match (s.begin i).reach i (counterRequest i a) with
  | (_, none, ls) => ls.all (fun p => f p && p.part.lane == 0) && !ls.isEmpty
  | _ => false
theorem test_witness_counters_stop : sReached sU iU 3 (fun p => p.isSealed) = true ∧
    (sReached (sUg sAddr) (iUg sAddr) 2 (fun p => !p.isSealed) = true ∧ ((iUg sAddr).g.sreg 2).toNat % 32 ≠ 0 ∧ Ready (sUg sAddr) (iUg sAddr)) ∧
    (sReached sHostCount iU 2 (fun p => !p.isSealed && dpaModule p.phys == sHostCount.mgmt.modid && isHost (dpaLocal p.phys)) = true ∧
      Ready sHostCount iU ∧ (iU.g.sreg 2).toNat % 32 = 0) ∧
    Ready (sUg owing) (iUg owing) ∧ (sUg owing).matrixHolds (iUg owing).g = false ∧ (iUg owing).g.wcb = [] ∧ (iUg owing).g.pendingAcks ≠ 0 ∧
      partsGo (sUg owing) (iUg owing) (counterRequest (iUg owing) 2)
        (fun ls => ls.any (fun q => dpaModule q.phys == (sUg owing).mgmt.modid && isHost (dpaLocal q.phys))) (fun _ => initMark (iUg owing) 2 0) (partAt 0x2000040 32) = true :=
  ⟨by decide +kernel, ⟨by decide +kernel, by decide, ⟨rfl, ⟨rfl, rfl, noCkpts rfl⟩, ⟨rfl, rfl, rfl, rfl, rfl⟩⟩⟩,
    ⟨by decide +kernel, ⟨rfl, ⟨rfl, rfl, noCkpts rfl⟩, ⟨rfl, rfl, rfl, rfl, rfl⟩⟩, by decide⟩,
    ⟨rfl, ⟨rfl, rfl, noCkpts rfl⟩, ⟨rfl, rfl, rfl, rfl, rfl⟩⟩, rfl, rfl, by decide, by decide +kernel⟩

theorem calmU : Calm sU := ⟨by unfold State.Quiet; decide, soundU.1, no_group (by decide), rfl⟩
def aWrite (n : Nat) : SliceWrite :=
  { cells := (List.range n).map (fun k => (0x2000040 + k, 7)), watched := false, prot := false, depth := 0, skind := 0, ctx := 1, org := .gang 7, policy := 0 }
def aNear (wide : Bool) : NearReq :=
  { tag := 60, addr := 0x2000040, wide, elem := 1, poison := false, x := 5, y := 0, z := 0, w := 0, watched := false, prot := false, depth := 0,
    skind := 0, ctx := 1, org := .gang 7 }
def sPoisoned : State := { sU with poison := [0x2000040] }
theorem requestsU (w : Bool) (n : Nat) (h : 0x2000040 % n = 0) : Requests sU (aNear w) n := ⟨(by decide : isDram 0x2000040 = true ∧ 0xC00000 ≤ 0x2000040), h, ⟨rfl, rfl⟩, rfl⟩
theorem test_witness_slices : Calm sU ∧ (isDram 0x2000040 = true ∧ 0x2000040 % 64 + 8 ≤ 64) ∧
    ((∀ c ∈ (aWrite 8).cells, isDram c.1 = true ∧ 0xC00000 ≤ c.1) ∧ sU.poison = []) ∧
    (Calm sPoisoned ∧ sPoisoned.poison = [0x2000040] ∧ (∀ c ∈ (aWrite 8).cells, c.1 / 64 * 64 = 0x2000040) ∧
      (∃ k, k < 64 ∧ ∀ c ∈ (aWrite 8).cells, c.1 ≠ 0x2000040 + k)) ∧ (∀ k, k < 64 → ∃ c ∈ (aWrite 64).cells, c.1 = 0x2000040 + k) ∧
    Requests sU (aNear true) 8 ∧ Requests sU (aNear false) 4 :=
  ⟨calmU, by decide, by decide, ⟨⟨by unfold State.Quiet; decide, faultless ⟨rfl, rfl, rfl⟩, no_group (by decide), rfl⟩, rfl, by decide, 63, by decide, by decide⟩, by decide +kernel,
    requestsU _ _ (by decide), requestsU _ _ (by decide)⟩
theorem test_witness_slice_accumulation : Calm sFx ∧ Requests sFx (aNear true) 16 ∧ sFx.region 0x2000040 = some (32, 1) :=
  ⟨⟨by unfold State.Quiet; decide, faultless ⟨rfl, rfl, rfl⟩, no_group (by decide +kernel), rfl⟩, ⟨(by decide : isDram 0x2000040 = true ∧ 0xC00000 ≤ 0x2000040), by decide, ⟨rfl, rfl⟩, rfl⟩, by decide +kernel⟩
theorem test_witness_slice_counters : Calm sCount ∧ Requests sCount (aNear true) 32 ∧ IsCounter sCount 0x2000040 8 108 4 10 ∧ IsLen 8 108 4 10 10 :=
  ⟨⟨by unfold State.Quiet; decide, faultless ⟨rfl, rfl, rfl⟩, no_group (by decide +kernel), rfl⟩, ⟨(by decide : isDram 0x2000040 = true ∧ 0xC00000 ≤ 0x2000040), by decide, ⟨rfl, rfl⟩, rfl⟩,
    ⟨by decide +kernel, by decide +kernel, by decide +kernel, by decide +kernel⟩, 10, by decide, by decide, by decide⟩

/-- A parity group over 0x4000_0000 of modules 0 to 3, in record 0, VALID and FORMED; which stripes this module keeps P or Q of. -/
def sGroup (flags : Nat) : State :=
  put (put (put (put sC 0xA00100 8 0x40000000) 0xA00110 4 64) 0xA00114 2 (flags + 0x400)) 0xA00116 8 (0 + 1 * 2 ^ 16 + 2 * 2 ^ 32 + 3 * 2 ^ 48)
def aDelta (stripe : Nat) : DeltaMsg :=
  { target := 0x40000000 + 2 ^ 21 * stripe, stripe, pos := 1, tag := 9, src := 1, bytes := [(3, 0x80)] }
theorem test_witness_deltas : ((sGroup 9).Quiet ∧ (sGroup 9).Faultless ∧ (sGroup 9).lost.contains 1 = false) ∧
    (∃ r g, (sGroup 9).groupOf (aDelta 0).target = some (r, g) ∧ g.stripe (aDelta 0).target = 0 ∧ g.pMember 0 = (sGroup 9).mgmt.modid) ∧
    (∃ r g, (sGroup 11).groupOf (aDelta 3).target = some (r, g) ∧ g.stripe (aDelta 3).target = 3 ∧ g.pMember 3 ≠ (sGroup 11).mgmt.modid ∧ g.hasQ = true ∧
      g.qMember 3 = (sGroup 11).mgmt.modid) ∧
    (aDelta 0).bytes.Pairwise (fun x y => x.1 < y.1) ∧ (∀ b ∈ (aDelta 0).bytes, isDram ((aDelta 0).target + b.1) = true) ∧
    sC.groupOf (aDelta 0).target = none ∧ sC.logArea 0 = none :=
  ⟨⟨by unfold State.Quiet; decide, faultless ⟨rfl, rfl, rfl⟩, by decide⟩, ⟨0, (sGroup 9).group 0, by decide +kernel, by decide +kernel, by decide +kernel⟩,
    ⟨0, (sGroup 11).group 0, by decide +kernel, by decide +kernel, by decide +kernel, by decide +kernel, by decide +kernel⟩, by decide +kernel, by decide +kernel,
    no_group (by decide) _, by decide +kernel⟩
def aPend : PendDelta := { tag := 9, ctx := 0, org := .gang 0, dest := 1, parity := 0, msg := { aDelta 0 with src := 0 }, held := false, covered := false }
def sPend : State := { sC with deltas := [aPend] }
/-- The last line of the LP-DRAM of die 0, and its slice where a sweep has come to it. -/
def endLine : Nat := 0x40000000000 + 2 ^ 39 - 128
def sSweep : State := { sC with slices := [(sliceOf endLine, { SliceSt.zero with swept := endLine })] }
theorem test_witness_scrubbing : (∃ g, sPend.Quiet ∧ sPend.deltas.find? (fun y => y.tag == 9) = some aPend ∧ aPend.org = .gang 0 ∧ sPend.gang 0 = some g ∧
      sPend.lost.contains 1 = false ∧ { sPend with lost := [1] }.lost.contains 1 = true ∧ { sPend with lost := [1] }.Quiet) ∧
    (sC.Quiet ∧ sC.Faultless ∧ isDram 0 = true ∧ (sC.slice (sliceOf 0)).dscrub ≠ 0xFF ∧
      nextLine (sliceOf 0) (sC.slice (sliceOf 0)).swept = some (0 / 128 * 128) ∧ (nextLine (sliceOf 0) (0 + 128)).isSome = true) ∧
    (sSweep.Quiet ∧ sSweep.Faultless ∧ isDram endLine = true ∧ (sSweep.slice (sliceOf endLine)).dscrub ≠ 0xFF ∧
      nextLine (sliceOf endLine) (sSweep.slice (sliceOf endLine)).swept = some (endLine / 128 * 128) ∧ nextLine (sliceOf endLine) (endLine + 128) = none) ∧
    nextLine (sliceOf 0) (sC.slice (sliceOf 0)).swept ≠ some (256 / 128 * 128) ∧ Unguarded sC :=
  ⟨⟨_, by unfold State.Quiet; decide, rfl, rfl, rfl, rfl, rfl, by unfold State.Quiet; decide⟩, ⟨by unfold State.Quiet; decide, faultless ⟨rfl, rfl, rfl⟩, by decide, by decide, by decide +kernel, by decide +kernel⟩,
    ⟨by unfold State.Quiet; decide, faultless ⟨rfl, rfl, rfl⟩, by decide, by decide +kernel, by decide +kernel, by decide +kernel⟩, by decide +kernel, unguardedC⟩

/-- A queue in which one request of each class waits, after one of class 2 entered. -/
def aQueue : SliceQueue := { queue := [], waiting := (List.range 4).map (fun k => (k + 1, .scrub k)), last := 2 }
theorem test_witness_admission : aQueue.queue.length ≤ 32 ∧ aQueue.waiting.find? (fun x => x.1 == 1) = some (1, .scrub 0) ∧
    aQueue.last ≤ 4 ∧ aQueue.waits 2 = true ∧ aQueue.room false 2 = true ∧ aQueue.next false = some 3 ∧
    ({ aQueue with waiting := [(5, .scrub 0)] } : SliceQueue).next false = some 5 := by decide

/-- An entry of the user's gang, whose split 0 stands at its join with lanes 15:0; with other lanes to come or none. -/
def joinEntry (mask : Mask) (spilled : Bool) : RcEntry :=
  { idx := 5, order := 1, join := 0x2000100, ppc := 0, mask, arr := 0, pmask := 0, fmt := 0, link := none, pv := false, pusher := uSplit, spilled }
def atJoin (mask : Mask) (spilled : Bool) (g : Gang) : Gang :=
  { g with rc := [joinEntry mask spilled], splits := [some { uSplit with pc := 0x2000100, mask := 0xFFFF, top := some 5 }, none, none, none] }
def sJoin (mask : Mask) (spilled : Bool) : State := put (sUg (atJoin mask spilled)) 0xC03200 8 0x80002BB
theorem test_witness_joins : (∀ mask ∈ [(0xFFFF : Mask), BitVec.allOnes 32], ∃ g sp, AtJoin (sJoin mask false) 7 0 g sp (joinEntry mask false) ∧ (∀ x ∈ g.rc, x.pv = false) ∧ sp.mask = 0xFFFF) ∧
    (0xFFFF : Mask) &&& ~~~ ((0 : Mask) ||| 0xFFFF) = 0 ∧ BitVec.allOnes 32 &&& ~~~ ((0 : Mask) ||| 0xFFFF) ≠ 0 := by
  refine ⟨fun mask h => ?_, by decide, by decide⟩
  exact ⟨_, _, ⟨(by unfold State.Quiet; exact ⟨rfl, rfl, noCkpts rfl⟩), rfl, rfl, rfl, ⟨rfl, by decide⟩, rfl, rfl, ⟨rfl, rfl, rfl⟩, rfl⟩, by simp [atJoin, joinEntry], rfl⟩
/-- A pair whose second part is known. -/
theorem pair_of {α β : Type} {p : α × β} {b : β} (h : p.2 = b) : p = (p.1, b) := by rw [← h]
theorem test_witness_refills : ∀ spilled : Bool, ∃ g sp, (sJoin 0xFFFF spilled).Quiet ∧ (sJoin 0xFFFF spilled).refilling 7 0 = false ∧ (sJoin 0xFFFF spilled).gang 7 = some g ∧ g.split 0 = some sp ∧
    sp.top = some 5 ∧ g.entry 5 = some (joinEntry 0xFFFF spilled) ∧ ∃ u d, (sJoin 0xFFFF true).deviceRead g.ctx (((sJoin 0xFFFF true).gangBlock g) + 0x2000 + 64 * 5) 64 = (u, some d) := by
  intro spilled
  have h : ((sJoin 0xFFFF true).deviceRead 1 ((sJoin 0xFFFF true).gangBlock (atJoin 0xFFFF true uGang) + 0x2000 + 64 * 5) 64).2.isSome = true := by
    decide +kernel
  obtain ⟨d, hd⟩ := Option.isSome_iff_exists.1 h
  have k : ∃ u d, (sJoin 0xFFFF true).deviceRead 1 ((sJoin 0xFFFF true).gangBlock (atJoin 0xFFFF true uGang) + 0x2000 + 64 * 5) 64 = (u, some d) :=
    ⟨_, d, pair_of hd⟩
  exact ⟨_, _, ⟨rfl, rfl, noCkpts rfl⟩, rfl, rfl, rfl, rfl, rfl, k⟩
def yields (sp : Split) : Split := { sp with yielded := true }
theorem test_witness_yields : ∃ g sp, (sUs yields).Quiet ∧ (sUs yields).gang 7 = some g ∧ g.split 0 = some sp ∧ sp.yielded = true := ⟨_, _, ⟨rfl, rfl, noCkpts rfl⟩, rfl, rfl, rfl⟩

def aTlb : TlbEntry := { inCore := false, unit := 0, ctx := 1, va := 0x2000000, size := 0x200000, leaf := 0x20002BB }
theorem test_witness_translations : leafAt sU 1 0x2000040 = some (0x2000000, 0x200000, 0x20002BB) ∧ sU.tlbFind false 0 1 0x2000040 = none ∧
    ({ sU with tlb := [aTlb] } : State).tlbFind true 0 1 0x2000040 = none ∧ ({ sU with tlb := [aTlb] } : State).tlbFind false (clusterOf 0) 1 0x2000040 = some aTlb :=
  ⟨by decide, by decide, by decide, by decide⟩
def aLoad : PendLoad :=
  { tag := 30, gang := 7, split := 0, kind := 0, reg := 9, size := 2, signed := true, lanes := 0, got := [(1, 0x80)], poison := 0, await := [], faults := [],
    acquire := none, lines := (0, 0, 0, 0), rest := [], near := none, operands := [], ord := 0, scope := 0 }
def sLoad : State := { sUs (fun sp => { sp with blocked := some (.reply 30) }) with loads := [aLoad] }
theorem test_witness_load_completion : ∃ g sp, sLoad.Quiet ∧ sLoad.loads.find? (fun x => x.tag == 30 && x.await.isEmpty) = some aLoad ∧ sLoad.gang aLoad.gang = some g ∧
    g.split aLoad.split = some sp ∧ aLoad.size ∈ [1, 2, 4, 8] := ⟨_, _, ⟨rfl, rfl, noCkpts rfl⟩, rfl, rfl, rfl, by decide⟩
def aLine : WcbEntry := { line := 0x2000080, cells := [(0x2000084, 7)], watched := false, prot := false, policy := 0 }
def sLine : State := sUg (fun g => { g with wcb := [aLine] })
theorem test_witness_buffered_lines : ∃ g, sLine.Quiet ∧ Unguarded sLine ∧ sLine.gang 7 = some g ∧ g.wcb.find? (fun x => x.line == aLine.line) = some aLine ∧
    dpaModule aLine.line = sLine.mgmt.modid ∧ ∀ c ∈ aLine.cells, lineOf c.1 = aLine.line ∧ isDram (dpaLocal c.1) = true ∧ 0xC00000 ≤ dpaLocal c.1 :=
  ⟨_, ⟨rfl, rfl, noCkpts rfl⟩, ⟨rfl, no_group (by decide), rfl⟩, rfl, rfl, by decide, by decide⟩

/-- Bank 0 of cluster 0, the others in a role; page 0 of the user's crew in frame 0. -/
def sBank (b : BankSt) (others : Nat) : State :=
  { sU with banks := (0, b) :: (List.range 47).map (fun k => (k + 1, { aBank [] with cur := others }))
            crews := [{ uCrew with frames := [{ page := 0, frame := 0, used := 0 }] }] }
def busyBank (cur : Nat) (fifo : List FifoEntry) : BankSt := { aBank fifo with cur, change := some { role := 0, ctx := 0, fnum := 0 } }
theorem test_witness_banks : (sU.Quiet ∧ sU.Faultless ∧ Unguarded sU ∧ BankFits (sU.bank 0 0)) ∧
    (((sBank (busyBank 2 [.filled []]) 0).bank 0 0).busy = true ∧ ((sBank (busyBank 2 [.filled []]) 0).bank 0 0).cur = 2 ∧
      ∃ e ∈ ((sBank (busyBank 2 [.filled []]) 0).bank 0 0).fifo, e ≠ .void) ∧
    (((sBank (busyBank 1 []) 0).bank 0 0).cur = 1 ∧ (sBank (busyBank 1 []) 0).padFrames 0 < (sBank (busyBank 1 []) 0).padsReserved 0) ∧
    (((sBank (busyBank 1 []) 1).bank 0 0).busy = true ∧ (sBank (busyBank 1 []) 1).padsReserved 0 ≤ (sBank (busyBank 1 []) 1).padFrames 0 ∧
      (sBank (busyBank 1 []) 1).bankPages 0 0 = [(1, 0)] ∧ (sBank (busyBank 1 []) 1).pageState (1, 0) = .pinned) ∧
    (sU.bank 0 0).flaws = [] ∧ ((sBank (busyBank 2 [.void]) 0).bank 0 0).change = some { role := 0, ctx := 0, fnum := 0 } ∧ ∀ e ∈ ((sBank (busyBank 2 [.void]) 0).bank 0 0).fifo, e = .void :=
  ⟨⟨⟨rfl, rfl, noCkpts rfl⟩, soundU.1, unguardedU, by unfold BankFits; decide⟩, by decide, by decide, by decide +kernel, by decide⟩
def inState (p : PadState) : State := sUc (fun c => { c with padStates := [(0, p), (1, .pinned)] })
theorem test_witness_pages : ∀ p ∈ [PadState.pinned, .unpinned, .initial, .backed, .evacuating], ∃ c, (inState p).Quiet ∧ (inState p).crew 1 = some c ∧ 0 < c.pads ∧
    c.preempted = false ∧ c.padState 0 = p ∧ (∀ j, j < 4096 → c.padByte (4096 * 0 + j) = 0) ∧ ∀ d ∈ c.padDirty, d / 32 ≠ 0 := by
  intro p _
  exact ⟨_, ⟨rfl, rfl, noCkpts rfl⟩, rfl, (by decide : 0 < 2), rfl, rfl, fun j _ => rfl, by simp [uCrew, Crew.start]⟩
/-- The user's page 0 is unpinned, and no bank has the pad role. -/
def sCold : State :=
  { sBank (aBank []) 0 with crews := [{ uCrew with frames := [{ page := 0, frame := 0, used := 0 }], padStates := [(0, .unpinned), (1, .pinned)] }] }
/-- One more page, in its initial state, has no frame to take but that one. -/
def sColdFill : State := { sCold with crews := [{ uCrew with frames := [{ page := 0, frame := 0, used := 0 }], padStates := [(0, .unpinned), (1, .initial)] }] }
theorem test_witness_evacuations : (∃ c, sColdFill.Quiet ∧ sColdFill.crew 1 = some c ∧ 1 < c.pads ∧ c.preempted = false ∧ c.padState 1 = .initial ∧
      sColdFill.freeFrame (clusterOf c.core) = none ∧ sColdFill.coldest (clusterOf c.core) = some (1, 0) ∧ ∀ d ∈ c.padDirty, d / 32 ≠ 0) ∧
    ((inState .initial).freeFrame 0).isSome = true ∧ (inState .evacuating).mayEvacuate 1 0 = true ∧ (inState .pinned).mayEvacuate 1 0 = false :=
  ⟨⟨_, ⟨rfl, rfl, noCkpts rfl⟩, rfl, by decide, rfl, by decide, by decide +kernel, by decide +kernel, by decide⟩, by decide +kernel⟩
/-- Islands whose clocks are stopped, and a split that waits to push at the bank that leaves its FIFO role. -/
theorem test_witness_unclocked : ∃ g, ({ sU with islands := [(islandOf 0, { IslSt.zero with cur := 6 })] } : State).Quiet ∧
    ({ sU with islands := [(islandOf 0, { IslSt.zero with cur := 6 })] } : State).gang 7 = some g ∧
    ({ sU with islands := [(islandOf 0, { IslSt.zero with cur := 6 })] } : State).clocked g = false ∧ sU.clocked g = true :=
  ⟨_, ⟨rfl, rfl, noCkpts rfl⟩, rfl, by decide, by decide⟩
def sPusher : State :=
  { sBank { busyBank 2 [.void] with fnum := 3, ctx := 1, waiting := [(7, 0)] } 0 with gangs := [ofSplit (fun sp => { sp with blocked := some (.fifoPush 3) }) uGang] }
theorem test_witness_waiting_push : ∃ q g, sPusher.Quiet ∧ (sPusher.bank 0 0).change = some q ∧ (sPusher.bank 0 0).cur = 2 ∧
    (∀ e ∈ (sPusher.bank 0 0).fifo, e = .void) ∧ sPusher.fifoQueue 0 0 true = [(7, 0)] ∧ sPusher.gang 7 = some g ∧ g.onControl = false :=
  ⟨_, _, ⟨rfl, rfl, noCkpts rfl⟩, rfl, rfl, by decide, by decide +kernel, rfl, rfl⟩

/-- A slice of one row of 16 bytes from the pad at 0x100 to the pad at 0x200, or to memory; it lies in its gang's slot. -/
def aSlice (dk : Nat) : CopySlice :=
  { gang := 7, crew := 1, ctx := 1, op := 0, queues := [1], dbar := none, sbar := none, sv := false, dst := if dk = 1 then 0x200 else 0x2000080, src := 0x100,
    rows := 1, dk, sk := 1, code := 0, len := 16, dpitch := 0, spitch := 0, depth := 0, policy := 0, empty := false, dests := [], dobj := none, sobj := none, void := false,
    xl := [(0x2000000, 0x200000, 0x2000000, 0x20002BB)], word := 0, image := [] }
def aColl (started : Bool) (awaited : List Nat) (slices : List CopySlice) (inflight : List Xfer) (read : Nat) : Collective :=
  { id := 20, crew := 1, ctx := 1, op := 0, queues := [1], slices, awaited, complete := awaited.isEmpty, started, read, ahead := [], inflight, done := false,
    armed := 0, early := [], before := [], ended := none }
def sColl (cs : List Collective) : State := { sUg (fun g => { g with copySlot := some (aSlice 1) }) with colls := cs }
theorem ownIds_one (c : Collective) (h : c.id < 100) : OwnIds (sColl [c]) := by
  refine ⟨fun d hd => ?_, fun d hd e he _ => ?_⟩
  · simp only [sColl, List.mem_singleton] at hd; subst hd; exact h
  · simp only [sColl, List.mem_singleton] at hd he; rw [hd, he]
theorem ownIds_none : OwnIds (sColl []) := ⟨by simp [sColl], by simp [sColl]⟩
theorem test_witness_slice_entry : (∃ g, Pends (sColl []) 7 g (aSlice 1) ∧ (aSlice 1).queues = [1] ∧ ∀ k ∈ (sColl []).colls, k.crew = 1 → k.complete = true) ∧
    (∃ g k, Pends (sColl [aColl false [8] [aSlice 1] [] 0]) 7 g (aSlice 1) ∧ (sColl [aColl false [8] [aSlice 1] [] 0]).openColl 1 1 = some k ∧
      k.awaited.contains 7 = false) ∧
    ∃ g k x, Pends (sColl [aColl false [7, 8] [aSlice 1] [] 0]) 7 g (aSlice 1) ∧
      (sColl [aColl false [7, 8] [aSlice 1] [] 0]).openColl 1 1 = some k ∧ 7 ∈ k.awaited ∧ k.queues = [1] ∧ k.slices.head? = some x ∧ x.op = (aSlice 1).op :=
  ⟨⟨_, ⟨⟨rfl, rfl, noCkpts rfl⟩, rfl, rfl, ⟨rfl, rfl⟩, ownIds_none⟩, rfl, by simp [sColl]⟩, ⟨_, _, ⟨⟨rfl, rfl, noCkpts rfl⟩, rfl, rfl, ⟨rfl, rfl⟩, ownIds_one _ (by decide)⟩, rfl, by decide⟩,
    _, _, _, ⟨⟨rfl, rfl, noCkpts rfl⟩, rfl, rfl, ⟨rfl, rfl⟩, ownIds_one _ (by decide)⟩, rfl, by decide, rfl, rfl, rfl⟩
theorem test_witness_collective_start : (∃ c, (sColl [aColl false [] [aSlice 1] [] 0]).Quiet ∧ OwnIds (sColl [aColl false [] [aSlice 1] [] 0]) ∧
      (sColl [aColl false [] [aSlice 1] [] 0]).nextColl 1 1 = some c ∧ c.op ≠ 2 ∧ c.total ≠ 0) ∧
    (∃ c, (sColl [aColl false [] [{ aSlice 1 with rows := 0 }] [] 0]).nextColl 1 1 = some c ∧ c.total = 0 ∧ c.inflight = []) ∧ (sColl []).nextColl 1 1 = none :=
  ⟨⟨_, ⟨rfl, rfl, noCkpts rfl⟩, ownIds_one _ (by decide), rfl, by decide, by decide⟩, ⟨_, rfl, by decide, rfl⟩, rfl⟩
def anXfer : Xfer :=
  { segs := [{ slice := 0, pos := 0, len := 16 }], await := [], bytes := List.replicate 16 7, poison := none, wrote := false, acks := [] }
theorem runs1 (dk read : Nat) (xs : List Xfer) : Runs1 (sColl [aColl true [] [aSlice dk] xs read]) 20 (aColl true [] [aSlice dk] xs read) (aSlice dk) uCrew :=
  ⟨⟨rfl, rfl, noCkpts rfl⟩, rfl, ⟨rfl, rfl, rfl, rfl, rfl, rfl, rfl, (by decide : 0 < 16), rfl, rfl⟩, rfl, rfl, faultless ⟨rfl, rfl, rfl⟩, noFlaws rfl⟩
theorem oldTags (cs : List Collective) : OldTags (sColl cs) := ⟨fun _ h => (List.not_mem_nil h).elim, fun _ h => (List.not_mem_nil h).elim⟩
theorem test_witness_transfers : Runs1 (sColl [aColl true [] [aSlice 1] [] 0]) 20 (aColl true [] [aSlice 1] [] 0) (aSlice 1) uCrew ∧
    (aColl true [] [aSlice 1] [] 0).read < (aSlice 1).rows * (aSlice 1).len ∧ transferLen (aSlice 1) 0 = 16 ∧
    (sColl [aColl true [] [aSlice 1] [] 0]).inflight (clusterOf (crewCnum uCrew.val)) < 64 ∧
    (∀ j, j < 16 → uCrew.padState ((0x100 + j) / 4096) = .pinned ∧ uCrew.padPoison.contains (0x100 + j) = false ∧
      (aColl true [] [aSlice 1] [] 0).writes (uCrew.val + 1, 0x100 + j) = none) ∧ (aSlice 1).sobj = none :=
  ⟨runs1 _ _ _, by decide, by decide, by decide, by decide, rfl⟩
theorem test_witness_landings : (∀ dk ∈ [0, 1], ∀ p : Option Nat, Runs1 (sColl [aColl true [] [aSlice dk] [{ anXfer with poison := p }] 16]) 20
      (aColl true [] [aSlice dk] [{ anXfer with poison := p }] 16) (aSlice dk) uCrew) ∧
    anXfer.bytes.length = 16 ∧ (∀ cs, OldTags (sColl cs)) ∧ uCrew.padState (0x200 / 4096) = .pinned ∧ 0x200 / 4096 = (0x200 + 16 - 1) / 4096 ∧
    (aSlice 1).dobj = none ∧ (aSlice 1).rows * (aSlice 1).len ≤ 16 ∧
    Unguarded (sColl [aColl true [] [aSlice 0] [anXfer] 16]) ∧ xlAt (aSlice 0).xl (0x2000080 % 2 ^ 64) = some (0x2000080, 0x20002BB) ∧
    dpaModule 0x2000080 = (sColl []).mgmt.modid ∧ isDram (dpaLocal 0x2000080) = true ∧ 0xC00000 ≤ dpaLocal 0x2000080 ∧
    leafWatch 0x20002BB = false ∧ leafProt 0x20002BB = false ∧ ∃ h, (sColl []).gang (aSlice 1).gang = some h ∧ h.core < Config.cores :=
  ⟨fun _ _ _ => runs1 _ _ _, rfl, oldTags, rfl, by decide, rfl, by decide, ⟨rfl, no_group (by decide), rfl⟩, by decide, by decide, by decide, by decide, by decide, by decide,
    _, rfl, by decide⟩

/-- A slice whose runs are counted at the barrier object at pad offset 0x40: 32 bytes to come and to go. -/
def countedSlice (dk : Nat) : CopySlice := { aSlice dk with sobj := if dk = 1 then some 0x40 else none, dobj := if dk = 1 then none else some 0x40 }
def sCounted (dk : Nat) (xs : List Xfer) (read : Nat) : State :=
  (sColl [aColl true [] [countedSlice dk] xs read]).setBar 1 0x40 { aBar 1 false with inb := 32, outb := 32 }
def countedCrew (s : State) : Crew := (s.crew 1).getD uCrew
theorem countedRuns (dk : Nat) (xs : List Xfer) (read : Nat)
    (h : (sCounted dk xs read).crew (countedCrew (sCounted dk xs read)).val = some (countedCrew (sCounted dk xs read)) ∧ (countedCrew (sCounted dk xs read)).shadow = none ∧
      1 = (countedCrew (sCounted dk xs read)).val ∧ ∀ c ∈ (sCounted dk xs read).crews, c.ckpts = [])
    (hs : (sCounted dk xs read).banks.all (fun e => e.2.flaws.isEmpty && !e.2.reenc) = true) :
    Runs1 (sCounted dk xs read) 20 (aColl true [] [countedSlice dk] xs read) (countedSlice dk) (countedCrew (sCounted dk xs read)) :=
  ⟨⟨rfl, rfl, h.2.2.2⟩, rfl, ⟨rfl, rfl, rfl, rfl, rfl, rfl, rfl, (by decide : 0 < 16), h.2.2.1, h.2.2.1⟩, h.1, h.2.1, faultless ⟨rfl, rfl, rfl⟩, noFlaws hs⟩
theorem test_witness_counted_copies : Runs1 (sCounted 1 [] 0) 20 (aColl true [] [countedSlice 1] [] 0) (countedSlice 1) (countedCrew (sCounted 1 [] 0)) ∧
    Runs1 (sCounted 0 [anXfer] 16) 20 (aColl true [] [countedSlice 0] [anXfer] 16) (countedSlice 0) (countedCrew (sCounted 0 [anXfer] 16)) ∧
    ((countedSlice 1).sobj = some 0x40 ∧ uCrew.padState (0x40 / 4096) = .pinned ∧ transferLen (countedSlice 1) 0 < ((sCounted 1 [] 0).bar 1 0x40).outb) ∧
    ((countedSlice 0).dobj = some 0x40 ∧ 16 < ((sCounted 0 [anXfer] 16).bar 1 0x40).inb) ∧
    ∃ c, (sColl [aColl false [] [aSlice 1] [] 0]).Quiet ∧ (sColl [aColl false [] [aSlice 1] [] 0]).coll 20 = some c ∧ (sColl [aColl false [] [aSlice 1] [] 0]).canRead c = false :=
  ⟨countedRuns _ _ _ (by decide +kernel) (by decide), countedRuns _ _ _ (by decide +kernel) (by decide), by decide, by decide, _, ⟨rfl, rfl, noCkpts rfl⟩, rfl, by decide⟩

/-- Jobs of core 0's matrix units: on tiles of the user's crew, with a move from the pad. -/
def anOperand (kind : Nat) (base : Nat) : Operand := { kind, base, pitch := 256, scale := 0 }
def aJob (op : Nat) (started : Bool) : MatJob :=
  { id := 40, gang := 7, crew := 1, op, acc := 0, a := anOperand (if 5 ≤ op then 1 else 0) 0, b := anOperand 0 8192, z := 1, cnt := 1, me := 2, ne := 2, ke := 1,
    fmt := 0xF00, first := 0x2000000, lanes := BitVec.allOnes 32, xl := [], started, acks := none, policy := 0, crew2 := 1, tiles := [] }
def sJob (op : Nat) (started : Bool) : State := { sU with cores := [(0, { CoreSt.zero with jobs := [aJob op started] })] }
theorem test_witness_matrix_units : sU.Quiet ∧ (sJob 0 false).nextMma 0 = some (aJob 0 false) ∧ sU.nextMma 0 = none ∧ (sJob 3 false).nextDrain 0 = some (aJob 3 false) ∧
    sU.nextDrain 0 = none ∧ ((sJob 0 true).runningMma 0 = some (aJob 0 true) ∧ (aJob 0 true).a.kind = 0 ∧ uCrew.acc.length = 4 ∧ uCrew.zPoison = []) ∧
    ((sJob 3 true).runningDrain 0 = some (aJob 3 true) ∧ fmtDF (aJob 3 true).fmt = 15) ∧ (sJob 2 false).nextReady 0 (· == 2) = some (aJob 2 false) ∧
    ∀ op ∈ [5, 6], (sJob op false).nextMove 0 = some (aJob op false) ∧ (aJob op false).a.kind = 1 ∧ (aJob op false).a.base + 8192 ≤ 2 ^ 32 :=
  ⟨⟨rfl, rfl, noCkpts rfl⟩, by decide, by decide, by decide, by decide, by decide, by decide, by decide, by decide⟩
theorem test_witness_tile_pages : ∀ b, b < 8192 * 1 → uCrew.padState ((0 + b) / 4096) = .pinned ∧ uCrew.padPoison.contains (0 + b) = false := by
  intro b h
  have : (0 + b) / 4096 < 2 := by omega
  refine ⟨?_, rfl⟩
  generalize (0 + b) / 4096 = n at this
  interval_cases n <;> rfl
def passing (g : Gang) : State := { sU with gangs := [g], cores := [(0, { CoreSt.zero with passing := some 7 })] }
theorem test_witness_passing : (∃ g, ((passing { uGang with retake := some true }).core 0).passing = some 7 ∧ (passing { uGang with retake := some true }).gang 7 = some g ∧
      g.core = 0 ∧ g.splits.length = 4 ∧ g.retake = some true) ∧
    ∃ g q, (passing (ofSplit (fun sp => { sp with blocked := some (.trowel false) }) uGang)).gang 7 = some g ∧ g.retake = none ∧ g.split 0 = some q ∧
      q.blocked = some (.trowel false) := ⟨⟨_, rfl, rfl, rfl, rfl, rfl⟩, _, _, rfl, rfl, rfl, rfl⟩

/-- Two records wait in a spill ring at 0x200_0200 of two: one names granule 0, one none. -/
def ringWatch (quota : Nat) : Watch := { aWatch with spill := 0x2000200, spilln := 2, stail := 2, shead := 0, quota }
def sRing (record quota : Nat) : State := { put (sWatch 0x2400000) 0x2000200 8 record with watches := [ringWatch quota] }
theorem test_witness_trigger_units : sWatched.Quiet ∧ (∀ w ∈ sWatched.watches, ∀ p ∈ w.pages, p.2.2 ≠ 0x2000000) ∧
    (∃ w ∈ sWatched.watches, ∃ p ∈ w.pages, p.2.2 = 0x2400000) ∧ ((2, 0x2400000) ∉ sWatched.watchCache) ∧ aWatch.stail = aWatch.shead ∧
    (∀ r ∈ [(0, 1), (1, 1), (0, 0)], (sRing r.1 r.2).watches.find? (fun v => v.ctx == 1 && v.id == 0) = some (ringWatch r.2) ∧
      (ringWatch r.2).stail ≠ (ringWatch r.2).shead) ∧
    ((sRing 0 1).deviceRead 1 0x2000200 8).2 = some (leBytes 8 0) ∧ ((sRing 1 1).deviceRead 1 0x2000200 8).2 = some (leBytes 8 1) ∧
    deviceAddr (sRing 0 1) 1 0x2000040 64 false true = some (0x2000040, 0x20002BB) ∧ aWatch.len ≤ 1 * 2 ^ aWatch.glog ∧ 0 < aWatch.len ∧ (sRing 0 1).pending = [] :=
  ⟨⟨rfl, rfl, noCkpts rfl⟩, by decide +kernel, by decide +kernel, by decide, rfl, by decide +kernel, by decide +kernel, by decide +kernel, by decide +kernel,
    by decide, by decide, rfl⟩
/-- A slice all of whose 64 entries are taken by another watch. -/
def sFullSlice : State :=
  { sRing 0 1 with pending := (List.range 64).map (fun n => { slice := sliceOf ((ringWatch 1).granuleAddr 0), ctx := 1, watch := 5, gidx := n, depth := 0, kind := 0, offered := true }) }
theorem test_witness_full_slice : sFullSlice.Quiet ∧ sFullSlice.watches.find? (fun v => v.ctx == 1 && v.id == 0) = some (ringWatch 1) ∧
    64 ≤ (sFullSlice.pending.filter (fun p => p.slice == sliceOf ((ringWatch 1).granuleAddr 0))).length ∧
    (sFullSlice.deviceRead 1 0x2000200 8).2 = some (leBytes 8 0) ∧ deviceAddr sFullSlice 1 0x2000040 64 false true = some (0x2000040, 0x20002BB) ∧
    (∀ p ∈ sFullSlice.pending, ¬ (p.ctx = 1 ∧ p.watch = 0)) ∧ sFullSlice.Faultless :=
  ⟨⟨rfl, rfl, noCkpts rfl⟩, by decide +kernel, by decide +kernel, by decide +kernel, by decide +kernel, by decide +kernel, faultless ⟨rfl, rfl, rfl⟩⟩
def sGatedUser : State := { sU with islands := [(islandOf 0, { IslSt.zero with cur := 6 })] }
theorem test_witness_gated_core : sGatedUser.Quiet ∧ sGatedUser.gated 0 = true ∧ sU.gated 0 = false := ⟨⟨rfl, rfl, noCkpts rfl⟩, by decide, by decide⟩

def handling (sp : Split) : Split := { sp with hm := true, cause := 5, trapPc := 0x2000040, trapLanes := 3 }
def handlingAway (sp : Split) : Split := { handling sp with trapPc := 0x10000000 }
theorem test_witness_system_registers : (Ready sU iU ∧ ¬ Granted iU) ∧ (Ready sC iC ∧ Granted iC ∧ readable sC iC 0x400 ≠ none ∧ iC.g.onControl = true ∧ iC.sp.hm = false) ∧
    (Ready (sUs handling) (iUs handling) ∧ Granted (iUs handling) ∧ (iUs handling).g.ctx ≠ 0 ∧ (iUs handling).sp.hm = true ∧ (iUs handling).g.onControl = false ∧
      (iUs handling).g.smark 5 = true ∧ (iUs handling).g.smark 1 = false ∧
      ∃ w, (sUs handling).textWord 1 0x2000040 = some w ∧ w / 2 ^ 26 % 2 ^ 6 ≠ 0x3F) ∧
    Ready (sUs handlingAway) (iUs handlingAway) ∧ leafAt (sUs handlingAway) 1 0x10000000 = none :=
  ⟨⟨readyU, by unfold Granted; decide⟩, ⟨readyC, .inl rfl, by decide, rfl, rfl⟩,
    ⟨⟨rfl, ⟨rfl, rfl, noCkpts rfl⟩, ⟨rfl, rfl, rfl, rfl, rfl⟩⟩, .inr rfl, by decide, rfl, rfl, by decide, by decide, 0, by decide, by decide⟩,
    ⟨rfl, ⟨rfl, rfl, noCkpts rfl⟩, ⟨rfl, rfl, rfl, rfl, rfl⟩⟩, by decide⟩

/-- sysrd s5 of the reserved number 0xFFF. -/
theorem test_witness_reserved_number : (0xB805FFF0 : Word).toNat / 2 ^ 22 = 0x2E0 ∧ numReserved ((0xB805FFF0 : Word).toNat / 2 ^ 4 % 2 ^ 12) ∧
    decodeWord 0xB805FFF0 = none ∧ sC.issuer = some iC := ⟨by decide, by unfold numReserved; decide, rfl, rfl⟩
/-- Text of a handler's group on module 3. -/
def sAwayText : State := put (put (sUs handling) 0xC03080 8 (0x20002BB + 3 * 2 ^ 51)) 0xC03088 8 0
theorem test_witness_remote_text : ∃ base size e, leafAt sAwayText 1 0x2000040 = some (base, size, e) ∧ leafGrants e 4 1 = true ∧ leafModule e ≠ sAwayText.mgmt.modid ∧
    Ready sAwayText (iUs handling) ∧ (0x2000040 : Nat) % 4096 ≤ 4060 :=
  ⟨0x2000000, 0x200000, 0x20002BB + 3 * 2 ^ 51, by decide +kernel, by decide, by decide, ⟨rfl, ⟨rfl, rfl, noCkpts rfl⟩, ⟨rfl, rfl, rfl, rfl, rfl⟩⟩, by decide⟩
/-- The resident's own writes of ISLCTL: its s2 names a point, or one that an island refuses, or GATED. -/
theorem test_witness_island_registers : Ready sC iC ∧ iC.g.ctx = 0 ∧ (0x400 ≤ (0x403 : BitVec 12).toNat ∧ (0x403 : BitVec 12).toNat < 0x440) ∧ iC.g.smark 2 = false ∧
    (field (7 : DWord) 0 4 = 7 ∧ field (4 : DWord) 0 4 = 4 ∧ field (6 : DWord) 0 4 = 6) ∧ (sC.island 3).busy = false ∧
    islGoal { sC.island 0 with err := false, req := 2 } ≠ (sC.island 0).cur ∧ islGoal { sC.island 0 with err := false, req := 0 } = (sC.island 0).cur :=
  ⟨readyC, rfl, by decide, by decide, by decide, rfl, by decide, by decide⟩

/-- The resident with registers s1 to s4, with the user's task in the machine. -/
def gCmd (x y z w : DWord) : Gang := { Gang.resident with s := [(1, x), (2, y), (3, z), (4, w)] }
def sCmd (x y z w : DWord) : State := { sU with gangs := [gCmd x y z w, uGang], cur := (0, 0) }
def iCmd (x y z w : DWord) : Issue := { iC with g := gCmd x y z w }
theorem readyCmd (x y z w : DWord) : Ready (sCmd x y z w) (iCmd x y z w) := ⟨rfl, ⟨rfl, rfl, noCkpts rfl⟩, ⟨rfl, rfl, rfl, rfl, rfl⟩⟩
theorem commandsCmd (x y z w : DWord) (rs : List (BitVec 6)) : Commands (sCmd x y z w) (iCmd x y z w) rs :=
  ⟨readyCmd x y z w, ⟨rfl, rfl⟩, fun r _ => by show (0 : BitVec 64).getLsbD _ = false; simp, rfl⟩
theorem test_witness_commands : (Ready sU iU ∧ ¬ Resident iU) ∧
    (Commands (sCmd 1 0 0x2000000 (2 ^ 48 + 0x1000)) (iCmd 1 0 0x2000000 (2 ^ 48 + 0x1000)) [1, 2] ∧ ((iCmd 1 0 0x2000000 (2 ^ 48 + 0x1000)).g.sreg 1).toNat % 4096 ≠ 0 ∧
      ((iCmd 1 0 0x2000000 (2 ^ 48 + 0x1000)).g.sreg 3).toNat % 4096 = 0 ∧ field ((iCmd 1 0 0x2000000 (2 ^ 48 + 0x1000)).g.sreg 4) 0 48 % 4096 = 0) ∧
    ({ sCmd 0 0 0 0 with crews := [{ uCrew with preempted := true }] } : State).tasks = [] :=
  ⟨⟨readyU, by unfold Resident; decide⟩, ⟨commandsCmd _ _ _ _ _, by decide, by decide, by decide⟩, rfl⟩
/-- Lease sets of one range at 0x200_0100 and, over a hole, 0x200_0200. -/
def sSet : State := put (put (put (put (put (put (sCmd 0x2000100 1 0x2000200 8) 0x2000100 8 1) 0x2000110 8 0x2000000) 0x2000118 8 (0x1000 + 3 * 2 ^ 56)) 0x2000200 8 1) 0x2000210 8 0x3000000)
  0x2000218 8 (0x1000 + 3 * 2 ^ 56)
def aRange (base : Nat) : LeaseRange := ⟨base, 0x1000, 3⟩
/-- Both lease sets as the walk of R97 reads them: the count of one range, and the range itself 16 bytes on. -/
theorem test_witness_lease_sets : ∀ x ∈ [(0x2000100, 0x2000000), (0x2000200, 0x3000000)], setUnit sSet 1 x.1 = some (.here x.1) ∧ sSet.readLe x.1 16 = 1 ∧
    setUnit sSet 1 (x.1 + 16) = some (.here (x.1 + 16)) ∧
    aRange x.2 = { base := sSet.readLe (x.1 + 16) 8, len := sSet.readLe (x.1 + 24) 7, rights := (sSet.byte (x.1 + 31)).toNat } := by decide +kernel
theorem test_witness_lease : Commands sSet (iCmd 0x2000100 1 0x2000200 8) [1, 2] ∧ leaseFaults sSet 1 [aRange 0x2000000] = [] ∧
    sSet.pinsNeeded 0 1 [aRange 0x2000000] ≤ sSet.pinsFree 0 ∧ leaseFaults sSet 1 [aRange 0x3000000] ≠ [] ∧ (8 : Nat) % 16 ≠ 0 :=
  ⟨⟨⟨rfl, ⟨rfl, rfl, noCkpts rfl⟩, ⟨rfl, rfl, rfl, rfl, rfl⟩⟩, ⟨rfl, rfl⟩, fun r _ => by show (0 : BitVec 64).getLsbD _ = false; simp, rfl⟩,
    by decide +kernel, by decide +kernel, by decide +kernel, by decide⟩
def rung : State := { sCmd 0 1 2 600 with eventFlags := [0] }
theorem test_witness_contexts_and_waits : Commands (sCmd 0 1 9 600) (iCmd 0 1 9 600) [1] ∧ ((sCmd 0 1 9 600).ctxRoot 1).testBit 63 = true ∧ ((sCmd 0 1 9 600).ctxRoot 9).testBit 63 = false ∧
    (sCmd 0 1 9 600).out = [] ∧ (iCmd 0 1 9 600).g.onControl = true ∧ (∀ c ∈ (sCmd 0 1 9 600).crews, c.val ≠ (iCmd 0 1 9 600).g.crew) ∧ (∀ g ∈ (sCmd 0 1 9 600).gangs, g.ctx = 1 → g.unacked = 0 ∧ g.wcb = []) ∧
    rung.eventFlags.contains (clusterOf (iCmd 0 1 2 600).g.core) = true ∧ (sCmd 0 1 9 600).eventFlags.contains (clusterOf 2304) = false ∧ (sCmd 0 1 9 600).clock < 600 ∧
    (sCmd 0 1 9 600).crew 9 = none ∧ (sCmd 0 1 9 600).crew 1 = some uCrew ∧ uCrew.preempting = false ∧ (sCmd 0 1 9 600).forerunner 1 = false ∧ uCrew.preempted = false ∧
    ({ sCmd 0 1 9 600 with crews := [{ uCrew with preempted := true }] } : State).crew 1 = some { uCrew with preempted := true } :=
  ⟨commandsCmd _ _ _ _ _, by decide, by decide, rfl, rfl, by decide, by decide, by decide, by decide, by decide, by decide, rfl, rfl, by decide, rfl, rfl⟩
theorem test_witness_halt : Commands sC iC [] ∧ sC.crews = [] ∧ sC.tasks = [] ∧ sC.watches = [] ∧ sC.colls = [] ∧ sC.retr = [] ∧ sC.tokens = [] ∧
    (∀ p ∈ sC.out, p.ctx = 0) ∧ ∀ h ∈ sC.hostAtomics, h.ctx = 0 :=
  ⟨⟨readyC, ⟨rfl, rfl⟩, by simp, rfl⟩, rfl, rfl, rfl, rfl, rfl, rfl, by decide, by decide⟩
theorem test_witness_signals : Commands (sCmd 7 0 1 3) (iCmd 7 0 1 3) [1, 2] ∧ Clear (sCmd 7 0 1 3) (iCmd 7 0 1 3) ∧ (∀ c ∈ (sCmd 7 0 1 3).crews, c.val ≠ (iCmd 7 0 1 3).g.crew) ∧
    field ((iCmd 7 0 1 3).g.sreg 2) 0 2 = 0 ∧ field ((iCmd 7 0 1 3).g.sreg 3) 0 2 = 1 ∧ 2 ≤ field ((iCmd 7 0 1 3).g.sreg 4) 0 2 ∧ (sCmd 7 0 1 3).started.contains 7 = false ∧
    ({ sCmd 7 0 1 3 with started := [7] } : State).started.contains 7 = true ∧ ∀ g ∈ (sCmd 7 0 1 3).gangs, g.id < (sCmd 7 0 1 3).fresh :=
  ⟨commandsCmd _ _ _ _ _, ⟨rfl, ⟨by decide, rfl⟩, rfl, noLines rfl⟩, by decide, by decide, by decide, by decide, by decide, by decide, by decide⟩
/-- Member 1 of the group is lost and module 2 replaces it. -/
def sLostMember : State := put (put { sGroup 9 with gangs := [gCmd 1 2 0 0] } 0xA00138 4 2) 0xA0013E 2 0x8002
theorem test_witness_rebuild : Commands sLostMember (iCmd 1 2 0 0) [1, 2] ∧ (sLostMember.group 0).rebuilds 1 2 = true ∧ (∀ q, q < 16 → q ≠ 0 → (sLostMember.group q).rebuilds 1 2 = false) ∧
    sLostMember.shareOf (sLostMember.group 0) ≠ [] ∧ sLostMember.rebuilds = [] ∧ ∀ r, r < 16 → (sC.group r).rebuilds 1 2 = false :=
  ⟨⟨⟨rfl, ⟨rfl, rfl, noCkpts rfl⟩, ⟨rfl, rfl, rfl, rfl, rfl⟩⟩, ⟨rfl, rfl⟩, fun r _ => by show (0 : BitVec 64).getLsbD _ = false; simp, rfl⟩, by decide +kernel, by decide +kernel, by decide +kernel, rfl, by decide +kernel⟩
theorem test_witness_hint_words : iU.sp.hints.words < 7 ∧ Hints.none.ord.isSome = false ∧ ({ Hints.none with ord := some 1 } : Hints).ord.isSome = true := by decide

/-- A task of one gang at die 0's hub; states with tasks, and with every core of the die reserved for another. -/
def aTask (lease : LeaseState) : HubTask :=
  { id := 70, die := 0, ctx := 1, source := .post, entry := 64, args := List.replicate 8 5, shape := 1, leaseVa := 0, tdepth := 0, cls := 1, arrival := 0, since := 0,
    lease, poster := 1, spilled := none, unwritten := false }
def sHub (k : HubTask) : State := { sU with tasks := [k] }
def crowded (k : HubTask) : State := { sHub k with cores := (List.range 144).map (fun n => (n, { CoreSt.zero with reserved := some 99 })) }
theorem quietHub (k : HubTask) : (sHub k).Quiet := ⟨rfl, rfl, noCkpts rfl⟩
theorem test_witness_hub_choice : (sHub (aTask .none)).orphan 0 = none ∧ (∀ k ∈ (sHub (aTask .none)).tasks, k.die = 0 → (sHub (aTask .none)).placeable 0 k = false) ∧
    (sHub (aTask (.ready []))).orphan 0 = none ∧ ((sHub (aTask (.ready []))).hubChoice 0).map (·.1) = some (aTask (.ready [])) ∧
    (aTask (.ready [])).ready = some [] ∧ (sHub (aTask (.ready []))).coreFor 0 (aTask (.ready [])) = some 1 :=
  ⟨by decide +kernel, by decide +kernel, by decide +kernel, by decide +kernel, rfl, by decide +kernel⟩
theorem test_witness_hub_taker : (crowded (aTask (.ready []))).orphan 0 = none ∧ ((crowded (aTask (.ready []))).hubChoice 0).map (·.1) = some (aTask (.ready [])) ∧
    (crowded (aTask (.ready []))).coreFor 0 (aTask (.ready [])) = none ∧ (crowded (aTask (.ready []))).takerOf 0 (aTask (.ready [])) = some 1 :=
  ⟨by decide +kernel, by decide +kernel, by decide +kernel, by decide +kernel⟩
def aRestore (lease : LeaseState) : HubTask := { aTask lease with source := .restore 1 }
def savedCrew : Crew := { uCrew with preempted := true, saved := [uGang] }
def sSaved (lease : LeaseState) : State := { sHub (aRestore lease) with gangs := [], crews := [savedCrew] }
theorem test_witness_hub_restores : (sSaved (.ready [])).orphan 0 = none ∧ ((sSaved (.ready [])).hubChoice 0).map (·.1) = some (aRestore (.ready [])) ∧
    (aRestore (.ready [])).source = .restore 1 ∧ (sHub { aTask .none with ctx := 9 }).orphan 0 = some { aTask .none with ctx := 9 } :=
  ⟨by decide +kernel, by decide +kernel, rfl, by decide +kernel⟩
def late (k : HubTask) : State := { sHub k with clock := 256000 }
theorem test_witness_hub_waiting : (late (aTask .none)).task 70 = some (aTask .none) ∧ (aTask .none).cls < 3 ∧ (aTask .none).since + 64000 ≤ (late (aTask .none)).clock ∧
    (sHub (aTask .none)).clock < (aTask .none).since + 64000 ∧ (aTask .none).shape % 64 < 16 ∧
    (let k : HubTask := { aTask .none with shape := 16 }
     (late k).task 70 = some k ∧ 16 ≤ k.shape % 64 ∧ k.arrival + 256000 ≤ (late k).clock ∧ (late k).reservations 0 < 4 ∧
       ∃ x, x / 144 = 0 ∧ ((late k).core x).reserved = none ∧ (late k).coreOpen x = true) :=
  ⟨rfl, by decide, by decide, by decide, by decide, rfl, by decide, by decide, by decide +kernel, 0, by decide⟩
/-- A spilled descriptor in a context whose hub spill region lies at 0 of its save area. -/
def spilledTask : HubTask := { aTask .none with spilled := some 0 }
def sSpilled : State := put (sHub spilledTask) 96 8 0x2000000
theorem test_witness_hub_spill : sSpilled.onChip 0 < 1024 ∧ sSpilled.fetching 17 0 = false ∧ sSpilled.firstSpilled 0 = some spilledTask ∧ sSpilled.task 70 = some spilledTask ∧
    (sSpilled.deviceRead 1 (sSpilled.hubSpillVa 1 0 0) 128).2 ≠ none ∧ ∀ k ∈ (sHub (aTask .none)).tasks, k.die = 0 → k.spilled = none :=
  ⟨by decide, rfl, by decide +kernel, by decide +kernel, by decide +kernel, by decide⟩
/-- The descriptor there is all zeros, and asks for no gang; with a shape of one gang it is a good one. -/
def sSpilledGood : State := put sSpilled 0x200004C 4 1
def ReadsDescriptor (s : State) (bad : Bool) : Prop := ∃ u b, s.deviceRead 1 (s.hubSpillVa 1 0 0) 128 = (u, some b) ∧ descriptorBad b = bad
theorem reads_descriptor {s : State} {bad : Bool} (k : (s.deviceRead 1 (s.hubSpillVa 1 0 0) 128).2.map descriptorBad = some bad) : ReadsDescriptor s bad := by
  obtain ⟨b, hb, hx⟩ := Option.map_eq_some_iff.1 k
  exact ⟨_, b, pair_of hb, hx⟩
theorem bad_descriptor : (sSpilled.deviceRead 1 (sSpilled.hubSpillVa 1 0 0) 128).2.map descriptorBad = some true := by decide +kernel
theorem good_descriptor : (sSpilledGood.deviceRead 1 (sSpilledGood.hubSpillVa 1 0 0) 128).2.map descriptorBad = some false := by decide +kernel
theorem test_witness_spilled_descriptors : ReadsDescriptor sSpilled true ∧ ReadsDescriptor sSpilledGood false :=
  ⟨reads_descriptor bad_descriptor, reads_descriptor good_descriptor⟩
/-- Tasks whose lease set at 0x200_0100 names one range; one is over a hole; one is malformed. -/
def leasing (base rights : Nat) (k : HubTask) : State :=
  put (put (put (sHub k) 0x2000100 8 1) 0x2000110 8 base) 0x2000118 8 (0x1000 + rights * 2 ^ 56)
def setTask : HubTask := { aTask .none with leaseVa := 0x2000100 }
theorem oneRange (base rights : Nat) (hr : (leasing base rights setTask).rootOf 1 ≠ none) (h1 : setUnit (leasing base rights setTask) 1 0x2000100 = some (.here 0x2000100))
    (h2 : (leasing base rights setTask).readLe 0x2000100 16 = 1) (h3 : setUnit (leasing base rights setTask) 1 0x2000110 = some (.here 0x2000110))
    (h4 : base = (leasing base rights setTask).readLe 0x2000110 8 ∧ 0x1000 = (leasing base rights setTask).readLe 0x2000118 7 ∧
      rights = ((leasing base rights setTask).byte 0x200011F).toNat) : OneRange (leasing base rights setTask) setTask ⟨base, 0x1000, rights⟩ :=
  ⟨faultless ⟨rfl, rfl, rfl⟩, ⟨rfl, .inl rfl, rfl, (by decide : (0 : Nat) < 256), hr, rfl⟩, by decide, ⟨_, h1, h2⟩, ⟨_, h3, h4.1, h4.2.1, h4.2.2⟩⟩
theorem test_witness_hub_leases : OneRange (leasing 0x2000000 3 setTask) setTask ⟨0x2000000, 0x1000, 3⟩ ∧ RangeOk ⟨0x2000000, 0x1000, 3⟩ ∧
    leaseFaults (leasing 0x2000000 3 setTask) 1 [⟨0x2000000, 0x1000, 3⟩] = [] ∧
    (leasing 0x2000000 3 setTask).pinsNeeded 0 1 [⟨0x2000000, 0x1000, 3⟩] ≤ (leasing 0x2000000 3 setTask).pinsFree 0 ∧
    OneRange (leasing 0x2000000 8 setTask) setTask ⟨0x2000000, 0x1000, 8⟩ ∧ ¬ RangeOk ⟨0x2000000, 0x1000, 8⟩ ∧
    OneRange (leasing 0x100000000 3 setTask) setTask ⟨0x100000000, 0x1000, 3⟩ ∧ (leasing 0x100000000 3 setTask).hasPin 0 1 ⟨0x100000000, 0x1000, 3⟩ = false ∧
    (leaseFaults (leasing 0x100000000 3 setTask) 1 [⟨0x100000000, 0x1000, 3⟩]).length = 1 ∧
    (∀ f ∈ leaseFaults (leasing 0x100000000 3 setTask) 1 [⟨0x100000000, 0x1000, 3⟩], homeModule (leasing 0x100000000 3 setTask) 1 f.va = 0) :=
  ⟨oneRange _ _ (by decide +kernel) (by decide +kernel) (by decide +kernel) (by decide +kernel) (by decide +kernel), by unfold RangeOk; decide, by decide +kernel, by decide +kernel,
    oneRange _ _ (by decide +kernel) (by decide +kernel) (by decide +kernel) (by decide +kernel) (by decide +kernel), by unfold RangeOk; decide,
    oneRange _ _ (by decide +kernel) (by decide +kernel) (by decide +kernel) (by decide +kernel) (by decide +kernel), by decide +kernel, by decide +kernel, by decide +kernel⟩
/-- The pinned-range table is full of ranges of another context. -/
def fullPins : State := { leasing 0x2000000 3 setTask with pinned := (List.range Config.pinnedTable).map (fun n => { die := 0, ctx := 2, range := ⟨n, 1, 1⟩, pins := 1 }) }
theorem test_witness_full_pins : fullPins.pinsFree 0 < fullPins.pinsNeeded 0 1 [⟨0x2000000, 0x1000, 3⟩] := by decide +kernel
def waitingTask (rs : List LeaseRange) (va kind : Nat) : HubTask := { aTask (.waiting rs [(8, va, kind)]) with leaseVa := 0x2000100 }
theorem test_witness_lease_replies : (∀ k ∈ (sHub (aTask .none)).tasks, ∀ rs ss, k.lease = .waiting rs ss → ∀ x ∈ ss, x.1 ≠ 8) ∧
    (sHub (waitingTask [aRange 0x2000000] 0x2000000 1)).task 70 = some (waitingTask [aRange 0x2000000] 0x2000000 1) ∧
    (pageCheck (sHub (waitingTask [aRange 0x2000000] 0x2000000 1)) 1 [aRange 0x2000000] 0x2000000).1 = none ∧
    leaseFaults (sHub (waitingTask [aRange 0x2000000] 0x2000000 1)) 1 [aRange 0x2000000] = [] ∧ (sHub (waitingTask [aRange 0x2000000] 0x2000000 1)).lost = [] ∧
    (pageCheck (sHub (waitingTask [aRange 0x100000000] 0x100000000 1)) 1 [aRange 0x100000000] 0x100000000).1 ≠ none :=
  ⟨by simp [sHub, aTask], rfl, by decide +kernel, by decide +kernel, rfl, by decide +kernel⟩
/-- A fault record, and a fault queue of 64 entries at 0x200_0000. -/
def aFault : FaultRec := { seq := 8, task := 0, va := 0x100000000, ctx := 1, rights := 3, kind := 1, level := 2, reqmod := 0, reqdie := 0, reply := 0x1000 }
def sFaults : State := put { sU with faultRecs := [aFault] } 24 8 (0x2000000 + 6 * 2 ^ 59)
/-- The module that is to resolve a lease is lost. -/
def sLostHome : State := { sHub (waitingTask [aRange 0x2000000] 0x2000000 1) with lost := [0] }
theorem test_witness_lost_home : sLostHome.Quiet ∧ sLostHome.lost.contains (homeModule sLostHome 1 0x2000000) = true ∧
    (sHub (waitingTask [aRange 0x2000000] 0x2000000 1)).lost.contains (homeModule sLostHome 1 0x2000000) = false :=
  ⟨⟨rfl, rfl, noCkpts rfl⟩, by decide +kernel, by decide +kernel⟩
theorem test_witness_fault_records : sU.lost.contains 3 = false ∧ ({ sU with lost := [3] } : State).lost.contains 3 = true ∧ sFaults.faultRecs = [aFault] ∧
    sFaults.faultSlot = some 0x2000000 ∧ (∀ a, sFaults.groupOf a = none) ∧ (sFaults.hostAttr 0x2000000).2 = false ∧ ({ sU with faultRecs := [aFault] } : State).faultSlot = none :=
  ⟨by decide, by decide, rfl, by decide +kernel, no_group (by decide +kernel), by decide +kernel, by decide +kernel⟩

/-- A crew of the user's gang alone, without tiles and pages, asked to leave; its save area's blocks lie in pages that its context
maps. -/
def leaving : Crew := { uCrew with accs := 0, zregs := 0, pads := 0, padStates := [], preempting := true }
def sLeave : State := { put (put (put sU 0xC03200 8 0x80002BB) 0xC02020 8 0xC03001) 0xC03010 8 0x26002BB with crews := [leaving] }
theorem clean_leave : Clean sLeave := ⟨faultless ⟨rfl, rfl, rfl⟩, rfl, no_group (by decide +kernel), rfl⟩
theorem leave_gang (u : State) (h : SameBelow 0xD00000 sLeave u) (fs : List Field) (hf : ∀ f ∈ fs, f.1 + f.2.length ≤ 0x4000) :
    SameBelow 0xD00000 sLeave (u.saveFields 1 1 0x800C000 fs) := by
  refine saveFields_page (va := 0x8000000) (t := 0xC03200) (e := 0x80002BB) (root := 0xC00000) (by decide) clean_leave (by decide) (by decide +kernel) (by decide +kernel)
    (by decide) (by decide) (by decide +kernel) (by decide) (by decide) (by decide) u _ _ fs h (by decide) fun f k => ?_
  have := hf f k
  omega
theorem leave_crew (u : State) (h : SameBelow 0xD00000 sLeave u) (o : Nat) (fs : List Field) (hf : ∀ f ∈ fs, o + f.1 + f.2.length ≤ 0x200000) :
    SameBelow 0xD00000 sLeave (u.saveFields 1 1 (0x100400000 + o) fs) := by
  refine saveFields_page (va := 0x100400000) (t := 0xC03010) (e := 0x26002BB) (root := 0xC00000) (by decide) clean_leave (by decide) (by decide +kernel) (by decide +kernel)
    (by decide) (by decide) (by decide +kernel) (by decide) (by decide) (by decide) u _ _ fs h (by omega) fun f k => ?_
  have := hf f k
  omega
theorem leave_block (u : State) (h : SameBelow 0xD00000 sLeave u) : u.crewBlock leaving = 0x100400000 ∧ u.crew leaving.val = some leaving := by
  have hb : sLeave.readLe (64 * 1 + 32) 8 = 0 := by decide +kernel
  refine ⟨?_, by rw [h.rest]; rfl⟩
  unfold State.crewBlock State.ctxSave
  rw [show leaving.ctx = 1 from rfl, show leaving.val = 1 from rfl, h.readLe (by decide), hb]
  decide
theorem tiles_saved (u : State) (h : SameBelow 0xD00000 sLeave u) :
    SameBelow 0xD00000 sLeave (u.saveFields leaving.val leaving.ctx (u.crewBlock leaving + 0x40000) (((u.crew leaving.val).getD leaving).tileImage)) := by
  rw [(leave_block u h).1, (leave_block u h).2]
  refine leave_crew u h 0x40000 _ fun f hf => ?_
  have := tileImage_fits leaving rfl rfl f hf
  omega
theorem control_saved (u : State) (h : SameBelow 0xD00000 sLeave u) :
    SameBelow 0xD00000 sLeave (u.saveFields leaving.val leaving.ctx (u.crewBlock leaving + 0xC1000) [(0, (u.controlWords ((u.crew leaving.val).getD leaving)).flatMap (leBytes 8))]) := by
  rw [(leave_block u h).1]
  refine leave_crew u h 0xC1000 _ fun f hf => ?_
  rw [List.mem_singleton.1 hf]
  have := control_fits u ((u.crew leaving.val).getD leaving)
  simp only
  omega
theorem gang_saved (fs : List Field) (hf : ∀ f ∈ fs, f.1 + f.2.length ≤ 0x4000) :
    SameBelow 0xD00000 sLeave (sLeave.saveFields leaving.val leaving.ctx (sLeave.gangBlock uGang) fs) := by
  rw [show sLeave.gangBlock uGang = 0x800C000 by decide +kernel]
  exact leave_gang sLeave (SameBelow.refl _ _) fs hf
theorem leave_members : sLeave.members leaving.val = [uGang] := rfl
def leaveFields : List Field := uGang.image (sLeave.leaseIndex uGang)
theorem leaveFields_fit : ∀ f ∈ leaveFields, f.1 + f.2.length ≤ 0x4000 := image_fits uGang (sLeave.leaseIndex uGang) fun c h => by cases h
theorem leave_raises_nothing : (sLeave.saveArea leaving).raises = [] := by
  have h := tiles_saved _ (gang_saved leaveFields leaveFields_fit)
  have e : sLeave.saveGangs leaving = _ := saveGangs_one leave_members
  have k := control_saved (sLeave.saveGangs leaving) (by rw [e]; exact h)
  exact k.raises
theorem test_witness_save : Savable sLeave leaving ∧ (sU.Quiet ∧ sU.crew 9 = none) ∧ (sU.crew 1 = some uCrew ∧ uCrew.preempting = false) ∧
    ∃ g ∈ (sUs (fun sp => { sp with hints := { Hints.none with words := 1 } })).members 1, ∃ p ∈ g.live, p.2.hints.words ≠ 0 ∧ p.2.blocked = none :=
  ⟨⟨⟨rfl, rfl, noCkpts rfl⟩, rfl, rfl, by decide, by decide +kernel, by decide +kernel, by decide, rfl, ⟨fun n => ⟨rfl, rfl, rfl⟩, rfl, rfl⟩, leave_raises_nothing⟩, ⟨⟨rfl, rfl, noCkpts rfl⟩, rfl⟩, ⟨rfl, rfl⟩, by decide⟩

/-- The device reads pages that it can reach, and where nothing has failed it only fills the slices' SRAM. -/
theorem reads_pages {s : State} (hs : s.Faultless) (ctx : Nat) : ∀ (l : List Nat) (u : State), OnlySram s u → (∀ va ∈ l, (deviceAddr s ctx va 4096 true false).isSome = true) →
    ∃ v, OnlySram s v ∧ l.foldl (fun (q : State × Option Nat) va =>
      if q.2.isSome then q
      else match q.1.deviceRead ctx va 4096 with
        | (t, none) => if (areaAway t ctx va 4096 true false).isSome then (t, none)
            else (t.machineCheck 11 (t.firstUnread ctx va 4096) ctx, some (t.firstUnread ctx va 4096))
        | (t, some _) => (t, none)) (u, none) = (v, none)
  | [], u, hu, _ => ⟨u, hu, rfl⟩
  | va :: l, u, hu, h => by
    have h1 := hu.trans (walked_faultless (hu.faultless hs) ctx va)
    have h2 : OnlySram s (u.deviceReach ctx va 4096 true false).1 := by
      unfold State.deviceReach
      simp only [if_true]
      split
      · exact h1.trans (touch_faultless (h1.faultless hs) _ _)
      · exact h1
    have h3 : (u.deviceReach ctx va 4096 true false).2 = deviceAddr s ctx va 4096 true false := by
      have e : (u.deviceReach ctx va 4096 true false).2 = deviceAddr (u.deviceReach ctx va 4096 true false).1 ctx va 4096 true false := rfl
      rw [e, h2]
      rfl
    obtain ⟨x, hx⟩ := Option.isSome_iff_exists.1 (h va (by simp))
    have h4 : u.deviceRead ctx va 4096 = ((u.deviceReach ctx va 4096 true false).1, some ((u.deviceReach ctx va 4096 true false).1.bytes x.1 4096)) := by
      unfold State.deviceRead
      simp only [h3, hx]
      rfl
    simp only [List.foldl_cons, h4, Option.isSome_none, Bool.false_eq_true, if_false]
    exact reads_pages hs ctx l _ h2 fun w hw => h w (by simp [hw])
/-- The same crew, saved, where its task is ready. -/
def back : Crew := { leaving with preempting := false, preempted := true, saved := [uGang] }
def sBack : State := { sLeave with gangs := [], crews := [back], tasks := [aRestore (.ready [])] }
theorem away_same {s v : State} (h : OnlySram s v) (ctx : Nat) (c : Crew) : v.awayLines ctx (v.savedRanges c) = s.awayLines ctx (s.savedRanges c) := by
  rw [h]
  rfl
theorem back_reads : ∃ u, sBack.readPages back.ctx (sBack.savedRanges back) = (u, none) ∧ u.awayLines back.ctx (u.savedRanges back) = [] := by
  have r : ∃ v, OnlySram sBack v ∧ sBack.readPages back.ctx (sBack.savedRanges back) = (v, none) :=
    reads_pages (faultless ⟨rfl, rfl, rfl⟩) _ _ _ (.refl _) (by decide +kernel)
  obtain ⟨v, h, k⟩ := r
  exact ⟨v, k, (away_same h back.ctx back).trans (by decide +kernel)⟩
theorem test_witness_restores : sBack.Quiet ∧ sBack.crew 1 = some back ∧ sBack.restoreTask 1 = some (aRestore (.ready [])) ∧
    sBack.restorable back = true ∧ sBack.Faultless ∧ back.saved ≠ [] ∧ (∀ g ∈ back.saved, g.retake = none ∧ g.core = back.core) ∧ sBack.retr = [] ∧ sBack.probes = [] ∧
    sBack.restoring 1 = false ∧
    (∃ u, sBack.readPages back.ctx (sBack.savedRanges back) = (u, none) ∧ u.awayLines back.ctx (u.savedRanges back) = []) ∧ (sSaved .none).restoreTask 1 = some (aRestore .none) ∧
    (∀ rs, (aRestore .none).lease ≠ .ready rs) ∧ sU.restoreTask 1 = none :=
  ⟨⟨rfl, rfl, noCkpts rfl⟩, rfl, rfl, by decide +kernel, faultless ⟨rfl, rfl, rfl⟩, by decide, by decide, rfl, rfl,
    rfl, back_reads, rfl, by simp [aRestore, aTask], rfl⟩
def sAsked : State := { sUc (fun c => { c with preempting := true, asked := 5 }) with clock := 10000005 }
theorem test_witness_forerunner : (∃ g c, sAsked.gang 7 = some g ∧ sAsked.crew g.crew = some c ∧ c.preempting = true ∧ c.asked + 10000000 ≤ sAsked.clock ∧ g.taken = none) ∧
    ∃ g c, sU.gang 7 = some g ∧ sU.crew g.crew = some c ∧ c.preempting = false := ⟨⟨_, _, rfl, rfl, rfl, by decide, rfl⟩, _, _, rfl, rfl, rfl⟩
theorem test_witness_skim_visits : (∃ c, c / 144 = 0 ∧ (({ sU with cores := [(0, { CoreSt.zero with closed := true })] } : State).core c).closed = true) ∧
    (∀ c, c / 144 = 0 → (sU.core c).closed = false) ∧ NextVisited sU 0 0 ∧ ∃ c ∈ sU.crews, c.core = 0 ∧ c.preempted = false ∧ c.preempting = false ∧ sU.crew c.val = some c :=
  ⟨⟨0, by decide, by decide⟩, fun c _ => rfl, ⟨0, by decide, by decide, by decide, by omega⟩, uCrew, by decide, by decide⟩
/-- Core 0 is closed; a split of the resident waits for its pass. -/
def sClosed (crews : List Crew) : State :=
  { sU with crews, gangs := [gS skimming], cores := [(0, { CoreSt.zero with closed := true, passStart := 9 })] }
theorem test_witness_skim_scans : (∃ c ∈ (sClosed [uCrew]).crews, c.core = 0 ∧ c.preempted = false) ∧ (sU.core 0).closed = false ∧
    (((sClosed [savedCrew]).core 0).closed = true ∧ (∀ c ∈ (sClosed [savedCrew]).crews, c.core = 0 → c.preempted = true ∧ c.asked < ((sClosed [savedCrew]).core 0).passStart)) ∧
    ∃ g sp cs bad, (sClosed [savedCrew]).gang 0 = some g ∧ g.split 0 = some sp ∧ sp.blocked = some (.skim cs bad) :=
  ⟨⟨uCrew, by decide, by decide⟩, rfl, ⟨by decide, by decide⟩, _, _, _, _, rfl, rfl, rfl⟩
def lostCrew : Crew := { savedCrew with asked := 9 }
def sLast : State := { sClosed [lostCrew] with gangs := [], tasks := [] }
theorem test_witness_skim_loss : ∃ c g, sLast.crews = [c] ∧ c.core = 0 ∧ (sLast.core 0).passStart ≤ c.asked ∧ c.saved = [g] ∧ g.crew = c.val ∧ g.onControl = false ∧ sLast.tasks = [] ∧
    sLast.gangs = [] ∧ (sLast.core 0).closed = true ∧ c.preempted = true := ⟨_, _, rfl, rfl, by decide, rfl, rfl, rfl, rfl, rfl, rfl, rfl⟩
def sStuck (found : Bool) : State := { sUs (fun sp => { sp with blocked := some (.name 3) }) with suspects := if found then [(0, 7, [0])] else [] }
theorem test_witness_detector : sU.blockedOn 0 = [] ∧ (∀ f : Bool, ∃ g sp, (sStuck f).blockedOn 0 = [g] ∧ g.live = [(0, sp)] ∧ sp.blocked = some (.name 3) ∧
      (sStuck f).waitsOn g (.name 3) = some [] ∧ sp.stamp = 0) ∧ (0, 7, [0]) ∉ (sStuck false).suspects ∧ (0, 7, [0]) ∈ (sStuck true).suspects := by
  refine ⟨rfl, fun f => ?_, by decide, by decide⟩
  cases f <;> exact ⟨_, _, rfl, rfl, rfl, rfl, rfl⟩

/-- Islands: 0 changes to 2, 1 rests at 0; the power controller has stepped, and all but island 3 of each die are at 5. -/
def sIsles : State := { sC with islands := [(0, { IslSt.zero with req := 2, busy := true, goal := 2 })], power := { next := 0, next3 := 0, rise := 0, active := true, capped := false } }
def sLow : State := { sIsles with islands := ((List.range 64).filter (fun n => n % 4 != 3)).map (fun n => (n, { IslSt.zero with cur := 5 })) }
theorem test_witness_islands : sIsles.Quiet ∧ field (0x8 : BitVec 64) 0 4 = 8 ∧ (sIsles.island 0).busy = true ∧ (sIsles.island 0).due = [] ∧ (sIsles.island 0).goal = 2 ∧
    (sIsles.island 1).busy = false ∧ (sIsles.island 1).cur = 0 ∧ ({ sIsles with islands := [(0, { IslSt.zero with req := 3, busy := true, goal := 2 })] } : State).island 0 ≠ sIsles.island 0 :=
  ⟨⟨rfl, rfl, noCkpts rfl⟩, by decide, rfl, rfl, rfl, rfl, rfl, by decide⟩
/-- All are at their lowest points; the power rule holds die 0's at one point. -/
def sBottom : State := { sIsles with islands := (List.range 64).map (fun n => (n, { IslSt.zero with cur := if n % 4 = 3 then 3 else 5 })), power := { sIsles.power with capped := true } }
def sHeld : State := { sIsles with islands := [(0, { IslSt.zero with power := 1 })] }
theorem test_witness_power_ends : (∀ n, n < 64 → (if n % 4 = 3 then 3 else 5) ≤ (sBottom.island n).cur) ∧ sBottom.power.capped = true ∧ sBottom.power.active = true ∧
    (∀ n, n < 64 → (sIsles.island n).power = 0) ∧ (∃ k, k < 4 ∧ (sHeld.island (4 * ((sHeld.power.rise + 0) % 16) + k)).power ≠ 0) :=
  ⟨by decide +kernel, rfl, rfl, by decide +kernel, 0, by decide, by decide⟩
theorem test_witness_power : sIsles.power.active = true ∧ (∃ k, k < 3 ∧ (sIsles.island (4 * 0 + k)).cur < 5) ∧ (∀ n, n < 64 → n % 4 ≠ 3 → 5 ≤ (sLow.island n).cur) ∧
    (sLow.island (4 * 0 + 3)).cur < 3 ∧ sLow.power.next3 = 0 ∧ ({ sIsles with islands := [(0, { IslSt.zero with cur := 5 }), (1, { IslSt.zero with cur := 5 }), (2, { IslSt.zero with cur := 5 })] } : State).power.next = 0 :=
  ⟨rfl, ⟨0, by decide⟩, by decide +kernel, by decide +kernel, rfl, rfl⟩

/-- The link agent performs one access of a load or store of the user's gang. -/
def anAwait : Await := { tag := 61, lane := 0, first := 0, count := 8, skip := 0, base := 0x100000000000, line := none }
def hostLoad : PendLoad := { aLoad with tag := 60, size := 8, got := [], await := [anAwait] }
def anAccess (job : HostJob) (phase attempts : Nat) : HostAtomic :=
  { tag := 61, ctx := 1, org := .gang 7, lane := 0, addr := 0x100000000000, job, old := 5, phase, attempts }
def sHost (job : HostJob) (phase attempts : Nat) : State := { sLoad with loads := [hostLoad], hostAtomics := [anAccess job phase attempts] }
theorem performs (j : HostJob) (p a : Nat) : Performs (sHost j p a) 61 (anAccess j p a) := ⟨rfl, rfl, rfl, rfl, noCkpts rfl⟩
theorem awaiting (j : HostJob) (p a : Nat) : Awaiting (sHost j p a) 61 hostLoad anAwait := ⟨⟨rfl, rfl, noCkpts rfl⟩, rfl, rfl, by decide⟩
theorem test_witness_host_port : (∀ b, ¬ HostAt 2 0 b) ∧ HostAt 0 0x1000 0x1000 ∧ HostAt 1 0x40 0x40000000040 ∧ (HostAt 0 0x2000040 0x2000040 ∧ 0x2000040 % 64 = 0 ∧ (sU.hostAttr 0x2000040).2 = false) ∧
    (∀ h ∈ sU.hostAtomics, h.tag ≠ 61) ∧ sU.agentLine 0x100000000000 = none ∧ sU.agentCache.length < 16384 :=
  ⟨by simp [HostAt], .inl ⟨rfl, by decide, rfl⟩, .inr ⟨rfl, by decide, rfl⟩, ⟨.inl ⟨rfl, by decide, rfl⟩, by decide, by decide +kernel⟩, by decide, by decide, by decide⟩
theorem test_witness_host_accesses : (∃ s h l w, Performs s 61 h ∧ Awaiting s 61 l w ∧ h.job = .load 8 ∧ h.phase = 1) ∧
    (∀ p ∈ [1, 2, 3], ∃ s h l w, Performs s 61 h ∧ Awaiting s 61 l w ∧ h.job = .atomic 1 true 3 0 ∧ h.phase = p ∧ h.old.toNat = ofBytes ((leBytes 8 5).take 8) ∧ h.attempts < 64) ∧
    (∃ s h l w, Performs s 61 h ∧ Awaiting s 61 l w ∧ h.job = .atomic 1 true 3 0 ∧ h.phase = 3 ∧ ofBytes ((leBytes 8 6).take 8) ≠ h.old.toNat ∧ 64 ≤ h.attempts) ∧
    (∀ p ∈ [0, 1], ∃ s h g, Performs s 61 h ∧ h.org = .gang 7 ∧ s.gang 7 = some g ∧ h.job = .store [(0x100000000000, 1)] ∧ h.phase = p ∧ s.agentLine h.addr = none ∧
      (∀ c ∈ [(0x100000000000, (1 : Byte))], c.1 / 64 * 64 = h.addr / 64 * 64)) ∧
    ∃ s h l w, Performs s 61 h ∧ Awaiting s 61 l w ∧ h.job = .load 8 ∧ h.phase = 0 :=
  ⟨⟨_, _, _, _, performs (.load 8) 1 0, awaiting _ _ _, rfl, rfl⟩,
    fun p _ => ⟨_, _, _, _, performs (.atomic 1 true 3 0) p 0, awaiting _ _ _, rfl, rfl, (by decide : (5 : DWord).toNat = ofBytes ((leBytes 8 5).take 8)), (by decide : 0 < 64)⟩,
    ⟨_, _, _, _, performs (.atomic 1 true 3 0) 3 64, awaiting _ _ _, rfl, rfl, by decide, (by decide : 64 ≤ 64)⟩,
    fun p _ => ⟨_, _, _, performs (.store [(0x100000000000, 1)]) p 0, rfl, rfl, rfl, rfl, rfl, (by decide : ∀ c ∈ [(0x100000000000, (1 : Byte))], c.1 / 64 * 64 = 0x100000000000 / 64 * 64)⟩,
    ⟨_, _, _, _, performs (.load 8) 0 0, awaiting _ _ _, rfl, rfl⟩⟩

/-- A packet from module 3 about a local address; the state in which it was heard. -/
def aPacket (addr op : Nat) : Packet := { blankPacket 3 0 0 9 with addr, op, len := 8, data := leBytes 8 5 }
def heardIn (s : State) : State := { s with heard := sput 0 s.heard 3 s.clock }
theorem route_none {s : State} (h : s.ports = []) (d a : Nat) : s.route d a = none := by
  unfold State.route State.port
  rw [h, List.find?_eq_none]
  intro n _
  exact Bool.false_ne_true
theorem comes {s : State} {p : Packet} (hq : s.Quiet) (hl : s.lost = []) (hp : s.ports = []) (hs : p.src = 3) : Comes s p (heardIn s) :=
  ⟨hq, by rw [hl]; rfl, fun n h => (by rw [route_none hp] at h; cases h), by rw [hs]; rfl⟩
def lostThree : State := { sU with lost := [3] }
def nearOf (wide : Bool) : Packet := { aPacket 0x2000040 1 with near := [{ aNear wide with addr := 0x2000040 }] }
theorem test_witness_packets : (lostThree.Quiet ∧ lostThree.lost.contains (aPacket 0 0).src = true) ∧ (∃ u, Comes sU (aPacket 0x100000000000 0) u ∧ isDram 0x100000000000 = false) ∧
    (∃ u, Comes sU (aPacket 0x2000040 0) u ∧ isDram (aPacket 0x2000040 0).addr = true ∧ Unwatched sU (aPacket 0x2000040 0) ∧ (aPacket 0x2000040 0).op = 0) ∧
    (∀ w : Bool, ∃ u x, Comes sU (nearOf w) u ∧ Unwatched sU (nearOf w) ∧ (nearOf w).near = [x] ∧ (nearOf w).op ≤ 0xA ∧ (nearOf w).addr % 8 = 0) ∧
    ∃ m f, atomApply 1 64 (sU.readLe 0x2000040 8) 5 0 = (some m, f) :=
  ⟨⟨⟨rfl, rfl, noCkpts rfl⟩, by decide⟩, ⟨_, comes ⟨rfl, rfl, noCkpts rfl⟩ rfl rfl rfl, by decide⟩,
    ⟨_, comes ⟨rfl, rfl, noCkpts rfl⟩ rfl rfl rfl, by decide, ⟨soundU.1, unguardedU, ⟨rfl, rfl⟩, by decide⟩, rfl⟩,
    fun w => ⟨_, _, comes ⟨rfl, rfl, noCkpts rfl⟩ rfl rfl rfl, ⟨soundU.1, unguardedU, ⟨rfl, rfl⟩, (by decide : 0xE00000 ≤ 0x2000040 ∧ isDram 0x2000040 = true)⟩, rfl, (by decide : 1 ≤ 0xA), (by decide : 0x2000040 % 8 = 0)⟩,
    _, _, rfl⟩
def answer61 : Packet := { aPacket 0 0 with tag := 61, len := 0 }
def sOwing : State := { sUg owing with peerPending := [{ tag := 9, org := .gang 7, dest := 3, prot := false, cluster := none, cells := [], slot := none }] }
def aHeldDelta : PendDelta := { aPend with org := .peer 3 4 }
theorem test_witness_answers : (∃ u l w g, Comes (sHost (.load 8) 1 0) answer61 u ∧ Awaiting (sHost (.load 8) 1 0) answer61.tag l w ∧ answer61.status = 0 ∧
      (sHost (.load 8) 1 0).pendingAt answer61.tag = none ∧ (sHost (.load 8) 1 0).gang l.gang = some g ∧ answer61.len = 0 ∧ answer61.refusals = []) ∧
    (∃ u e g, Comes sOwing (aPacket 0 0) u ∧ sOwing.pendingAt (aPacket 0 0).tag = some e ∧ e.org = .gang 7 ∧ sOwing.gang 7 = some g ∧ g.strong = [] ∧ (aPacket 0 0).refusals = []) ∧
    (∃ u, Comes sU (aPacket 0 0) u ∧ (∀ d ∈ sU.deltas, ∀ m n, d.org = .peer m n → m ≠ 3) ∧ ∀ r ∈ sU.relays, r.1 ≠ 9) ∧
    (∃ u, Comes { sU with deltas := [aHeldDelta] } (aPacket 0 0) u ∧ aHeldDelta.held = false ∧ aHeldDelta.org = .peer 3 4) ∧
    ∃ u, Comes { sU with relays := [(9, 4, 5)] } (aPacket 0 0) u ∧ ({ sU with relays := [(9, 4, 5)] } : State).relays = [((aPacket 0 0).tag, 4, 5)] :=
  ⟨⟨_, _, _, _, comes ⟨rfl, rfl, noCkpts rfl⟩ rfl rfl rfl, awaiting _ _ _, rfl, rfl, rfl, rfl, rfl⟩, ⟨_, _, _, comes ⟨rfl, rfl, noCkpts rfl⟩ rfl rfl rfl, rfl, rfl, rfl, rfl, rfl⟩,
    ⟨_, comes ⟨rfl, rfl, noCkpts rfl⟩ rfl rfl rfl, fun d h => (by cases h), by decide⟩, ⟨_, comes ⟨rfl, rfl, noCkpts rfl⟩ rfl rfl rfl, rfl, rfl⟩, _, comes ⟨rfl, rfl, noCkpts rfl⟩ rfl rfl rfl, rfl⟩

/-- A record that agrees, and one that does not; a module before its formation. -/
def sForming (flags : Nat) : State := { sGroup flags with agreed := [(0, 1), (0, 2)] }
def exchange (data : List Byte) : Packet := { aPacket 0 1 with data, len := 64 }
def starting : State := { sU with mgmt := { sU.mgmt with state := 1, step := 6 } }
theorem test_witness_exchanges : (∃ u, Comes sU (aPacket 16 0) u ∧ 16 ≤ (aPacket 16 0).addr) ∧ (∃ u, Comes starting (aPacket 0 0) u ∧ starting.beforeFormation = true) ∧
    (∃ u, Comes sU (aPacket 0 0) u ∧ sU.beforeFormation = false ∧ recordFields (sU.bytes 0xA00100 64) = none) ∧
    (sForming 1).beforeFormation = false ∧ (sForming 1).logArea 0 = none ∧ (∃ mine, recordFields ((sForming 1).bytes 0xA00100 64) = some mine) ∧
    recordFields (exchange []).data = none ∧ recordFields (exchange ((sForming 1).bytes 0xA00100 64)).data = recordFields ((sForming 1).bytes 0xA00100 64) ∧
    ((sForming 1).group 0).valid = false ∧ ∀ x ∈ ((sForming 1).group 0).members.take ((sForming 1).group 0).n, x = (sForming 1).mgmt.modid ∨ x = 3 ∨ (0, x) ∈ (sForming 1).agreed :=
  ⟨⟨_, comes ⟨rfl, rfl, noCkpts rfl⟩ rfl rfl rfl, by decide⟩, ⟨_, comes ⟨rfl, rfl, noCkpts rfl⟩ rfl rfl rfl, by decide⟩, ⟨_, comes ⟨rfl, rfl, noCkpts rfl⟩ rfl rfl rfl, by decide, by decide +kernel⟩,
    by decide, by decide +kernel, ⟨[0x40000000, 64, 0, 4, 0, 1, 2, 3], by decide +kernel⟩, by decide +kernel, rfl, by decide +kernel, by decide +kernel⟩
def aRebuild (wait : List (Nat × Nat)) : Rebuild := { record := 0, lost := 1, repl := 2, stripes := [1], done := 0, stripe := none, half := 0, got := [], wait }
def sRebuild (wait : List (Nat × Nat)) : State := { sLostMember with rebuilds := [aRebuild wait] }
theorem test_witness_rebuilding : (∃ u, Comes sU (aPacket 0x2000040 2) u ∧ isDram (aPacket 0x2000040 2).addr = true ∧ sU.Faultless ∧ (aPacket 0x2000040 2).src ≠ sU.mgmt.modid ∧
      sU.deltasOut 0x2000040 = false ∧ ({ sU with deltas := [{ aPend with msg := { aDelta 0 with target := 0x2000040, src := 0 } }] } : State).deltasOut 0x2000040 = true) ∧
    (∃ u, Comes sU (aPacket 0 0) u ∧ sU.rebuildWaiting 9 = none) ∧
    (∃ u, Comes (sRebuild [(9, 2), (10, 3)]) (aPacket 0 0) u ∧ (aRebuild [(9, 2), (10, 3)]).wait.find? (fun w => w.1 == 9) = some (9, 2) ∧
      ∃ w ∈ (aRebuild [(9, 2), (10, 3)]).wait, w.1 ≠ 9) ∧
    ((aRebuild []).stripe = none ∧ 1 ∈ (aRebuild []).stripes ∧ (sRebuild []).dataToRead (aRebuild []) 1 ≠ []) ∧ ∀ b ∈ sU.rebuilds, b.record ≠ 0 :=
  ⟨⟨_, comes ⟨rfl, rfl, noCkpts rfl⟩ rfl rfl rfl, by decide, soundU.1, by decide, by decide, by decide⟩, ⟨_, comes ⟨rfl, rfl, noCkpts rfl⟩ rfl rfl rfl, rfl⟩,
    ⟨_, comes ⟨rfl, rfl, noCkpts rfl⟩ rfl rfl rfl, rfl, by decide⟩, ⟨rfl, by decide, by decide +kernel⟩, by decide⟩
/-- A load over two lines of host memory, of which the agent has neither. -/
theorem test_witness_two_lines : ∃ s h, Performs s 61 h ∧ h.job = .load 128 ∧ h.phase = 0 ∧ 64 < h.addr % 64 + 128 ∧ h.addr % 64 + 128 ≤ 128 ∧ s.agentLine h.addr = none ∧
    s.agentLine (h.addr / 64 * 64 + 64) = none ∧ s.agentCache.length < 16384 :=
  ⟨_, _, performs (.load 128) 0 0, rfl, rfl, (by decide : 64 < 0x100000000000 % 64 + 128), (by decide : 0x100000000000 % 64 + 128 ≤ 128), rfl, rfl, (by decide : 0 < 16384)⟩
/-- Another member says that the record failed. -/
theorem test_witness_failed_record : ∃ u, Comes (sForming 1) { aPacket 0 2 with len := 64 } u ∧ (sForming 1).beforeFormation = false ∧ (sForming 1).logArea 0 = none ∧
    recordFields ((sForming 1).bytes 0xA00100 64) ≠ none := ⟨_, comes ⟨rfl, rfl, noCkpts rfl⟩ rfl rfl rfl, by decide, by decide +kernel, by decide +kernel⟩

theorem test_witness_ports : (∃ p : Packet, sU.Quiet ∧ sU.lost.contains p.src = false ∧ (sU.port 4).peer ≠ p.src ∧ (sU.port 4).retry < 2 ^ 16) ∧
    (sU.port 4).peer = (blankPacket 0 0 0 0).src ∧ sU.lost.contains 0 = false :=
  ⟨⟨aPacket 0 0, ⟨rfl, rfl, noCkpts rfl⟩, by decide, by decide, by decide⟩, rfl, by decide⟩
/-- Module 1 shares the group and has been silent for 1 ms. -/
def sSilent : State := { sGroup 9 with clock := 1000000, gangs := [], heard := [] }
theorem test_witness_silence : sSilent.Quiet ∧ sSilent.lost.contains 1 = false ∧ 1 ≠ sSilent.mgmt.modid ∧ sSilent.sharedGroups 1 ≠ [] ∧ sSilent.heardAt 1 + 1000000 ≤ sSilent.clock ∧
    sSilent.logArea 0 = none ∧ sSilent.deaf = true ∧ sC.deaf = false ∧ sC.sharedGroups 1 = [] ∧ sSilent.liveCtxs = [] :=
  ⟨⟨rfl, rfl, noCkpts rfl⟩, by decide, by decide, by decide +kernel, by decide, by decide +kernel, by decide, by decide, by decide +kernel, by decide +kernel⟩
def sLosing : State :=
  { sUg owing with peerPending := [{ tag := 9, org := .gang 7, dest := 1, prot := true, cluster := none, cells := [], slot := none }] }
theorem test_witness_lost_store : ∃ g e, sLosing.gang 7 = some g ∧ sLosing.peerPending = [e] ∧ e.org = .gang 7 ∧ e.dest = 1 ∧ g.strong = [] ∧
    sLosing.out = [] ∧ sLosing.deltas = [] ∧ sLosing.tokens = [] ∧ sLosing.relays = [] := ⟨_, _, rfl, rfl, rfl, rfl, rfl, rfl, rfl, rfl, rfl⟩

/-- A record that module 1 is named in is being formed, and that module has been silent for 1 ms; with no record so, nothing happens. -/
def sUnformed : State := { sGroup 1 with clock := 1000000, heard := [] }
theorem test_witness_unformed : sUnformed.Quiet ∧ sUnformed.mgmt.state = 2 ∧ sUnformed.heardAt 1 + 1000000 ≤ sUnformed.clock ∧ sUnformed.logArea 0 = none ∧
    sUnformed.sharedGroups 1 = [] ∧ Unformed sUnformed 0 1 ∧ (∀ q, Unformed sUnformed q 1 → q = 0) ∧ ∀ r, ¬ Unformed sC r 1 := by
  refine ⟨⟨rfl, rfl, noCkpts rfl⟩, rfl, by decide, by decide +kernel, by decide +kernel, by unfold Unformed; decide +kernel, fun q h => ?_, fun r h => ?_⟩
  · have k : ∀ q, q < 16 → (sUnformed.byte (groupFlags q)).getLsbD 0 = true → q = 0 := by decide +kernel
    exact k q h.1 h.2.1
  · have k : ∀ q, q < 16 → (sC.byte (groupFlags q)).getLsbD 0 = false := by decide +kernel
    exact absurd h.2.1 (by rw [k r h.1]; decide)

/-- Modules at a step of a start of a kind; their boot window holds an image of one section of text and one entry, or none. -/
def bootBytes : Store Byte :=
  [(0, 0x4D), (1, 0x49), (2, 0x4F), (3, 0x54), (4, 0x02), (8, 0x01), (10, 0x40), (16, 0x40), (24, 0x60), (32, 0x01), (40, 0x80), (56, 0x80), (64, 0x01), (65, 0x02), (92, 0x40), (99, 0x10), (100, 0x01), (120, 0xFF), (121, 0xFF), (122, 0xFF), (123, 0xFF)]
def sStart (step kind : Nat) (image : Bool) : State :=
  { sC with mgmt := { Mgmt.reset with state := 1, step, kind, bootWindow := if image then bootBytes else [] } }
theorem test_witness_starts : sC.Quiet ∧ sC.mgmt.ttrip = false ∧ ({ sC with mgmt := { Mgmt.reset with ttrip := true } } : State).mgmt.ttrip = true ∧ sC.mgmt.state ≠ 1 ∧
    (∀ kind image, (sStart 1 kind image).Quiet ∧ (sStart 1 kind image).mgmt.state = 1 ∧ (sStart 1 kind image).mgmt.step ≤ 5 ∧ (sStart 1 kind image).mgmt.fail = 0) ∧
    (sStart 2 1 false).bootImageOk = false ∧ (sStart 2 1 true).bootImageOk = true ∧ ((sStart 2 2 true).mgmt.kind = 2 ∧ (sStart 2 2 true).mgmt.rsrc = false) ∧
    ({ sStart 4 2 true with mgmt := { (sStart 4 2 true).mgmt with retain := true } } : State).mgmt.retain = true ∧ (sStart 6 1 true).logArea 0 = none ∧
    ((sStart 7 1 true).rebuilds = [] ∧ (sStart 7 1 true).bootImageOk = true ∧
      ∀ r, r < 16 → ((sStart 7 1 true).byte (groupFlags r)).toNat % 2 = 0 ∨ ((sStart 7 1 true).group r).valid = true) :=
  ⟨⟨rfl, rfl, noCkpts rfl⟩, rfl, rfl, by decide, fun _ _ => ⟨⟨rfl, rfl, noCkpts rfl⟩, rfl, (by decide : 1 ≤ 5), rfl⟩, by decide +kernel, by decide +kernel, ⟨rfl, rfl⟩, rfl, by decide +kernel, rfl, by decide +kernel, by decide +kernel⟩
/-- Warm starts at step 4: one from a retained resident that is not there, one that retains memory, one that does not. -/
def sWarm4 (rsrc retain : Bool) : State := { sStart 4 2 true with mgmt := { (sStart 4 2 true).mgmt with rsrc, retain } }
theorem test_witness_warm_starts : ((sWarm4 true false).mgmt.rsrc = true ∧ (sWarm4 true false).mgmt.retain = false) ∧ ((sWarm4 true true).mgmt.retain = true ∧ ∀ i ∈ (sWarm4 true true).images, i.ctx ≠ 0) ∧
    (∀ b : Bool, (sWarm4 false b).mgmt.rsrc = false ∧ (sWarm4 false b).mgmt.kind = 2 ∧ (sWarm4 false b).mgmt.step = 4 ∧ (sWarm4 false b).mgmt.state = 1) :=
  ⟨by decide, by decide, fun b => by cases b <;> decide⟩
theorem test_witness_management : (∀ f ∈ [1, 2, 0, 3], field (BitVec.ofNat 64 (0x5A170000 + f)) 16 16 = 0x5A17 ∧ field (BitVec.ofNat 64 (0x5A170000 + f)) 0 2 = f) ∧
    field (0x5A180001 : BitVec 64) 16 16 ≠ 0x5A17 ∧ ({ sC with mgmt := { Mgmt.reset with state := 3 } } : State).mgmt.state = 3 ∧ ¬ (sC.mgmt.state = 0 ∨ sC.mgmt.state = 3) ∧
    sC.mgmt.attreq = false ∧ sC.mgmt.nonce.length = 64 ∧ ({ sC with mgmt := { Mgmt.reset with attreq := true } } : State).mgmt.attreq = true := by decide

theorem test_witness_words : (Instr.add 5 6 7).wellFormed = true ∧ encodeNat (Instr.add 5 6 7) ≠ 0 ∧ decodeWord 0x04518700 = some (Instr.add 5 6 7) ∧
    (∃ i, sC.issuer = some i) ∧ decodeWord 0 = none := ⟨rfl, by decide, rfl, ⟨_, rfl⟩, rfl⟩
theorem chosen {α β : Type} {o : Option (α × β)} (h : o.isSome = true) : ∃ c t, o = some (c, t) := by
  obtain ⟨⟨c, t⟩, h⟩ := Option.isSome_iff_exists.1 h
  exact ⟨c, t, h⟩
/-- A machine whose next turn is the resident's, at a word of the first page. -/
def sTurn (e : Turn) : State := { put State.reset 0x1000000 4 0x04518700 with turns := [e] }
theorem test_witness_steps : (sTurn (.issue 9216 [])).turns = [.issue 9216 []] ∧ (sTurn (.issue 9216 [])).stoppedClocks = false ∧ (sTurn (.issue 9216 [])).crowded = false ∧
    (∃ c t, State.issuable { sTurn (.issue 9216 []) with turns := [] } 9216 [] = some (c, t)) ∧
    ((sTurn (.event (.hubConsider 0))).stoppedClocks = false ∧ (sTurn (.event (.hubConsider 0))).crowded = false ∧
      State.mayEnter { sTurn (.event (.hubConsider 0)) with turns := [] } (.hubConsider 0) = true) ∧
    ∃ p, FetchesHere { sTurn (.issue 9216 []) with cur := (0, 0) } iC p ∧ decodeWord (wordHere (sTurn (.issue 9216 [])) (dpaLocal p.phys)) = some (.add 5 6 7) :=
  ⟨rfl, by decide, by decide, chosen (by decide), by decide, ({ part := { lane := 0, first := 0, va := 0x1000000, len := 4 }, phys := 0x1000000, leaf := 0x10002FB, isSealed := false } : Located),
    ⟨rfl, rfl, by decide, by decide +kernel, by decide, rfl, faultless ⟨rfl, rfl, rfl⟩⟩, by decide +kernel⟩
/-- The half-line 0x200_0040 is under a rebuild's cut, and the next turn writes it. -/
def sCut : State := { sC with cuts := [(0x2000040, 9)], turns := [.event (.sliceWriteCommit (aWrite 8))] }
def outState (o : Host.Outcome State Fault Refusal) : State := match o with | .next s => s | _ => State.reset
theorem test_witness_cut : ∃ t r, sCut.act = .event (.sliceWriteCommit (aWrite 8)) t ∧ exec (Event.sliceWriteCommit (aWrite 8)).toInstr t = .next r ∧ WritesCut t r := by
  refine ⟨{ sCut with turns := [] }, outState (exec (Event.sliceWriteCommit (aWrite 8)).toInstr { sCut with turns := [] }), rfl, rfl, (0x2000040, 9), by decide, by decide +kernel,
    .inl ⟨0x2000040, by decide, by decide, by decide +kernel⟩⟩
theorem test_witness_invariant : State.reset.Inv := by unfold State.Inv; decide

end Sys2Proof.Tests
end

section
/-! SUPPORT. The memory invariant `State.Inv` under every operation of the model: what the proof of it rests on.

The byte store changes through `State.setByte` (`wf_setByte`), and in a start that filters or clears it (`wf_filter`); everything
else composes operations. So there is one rule per operation, in the order of the model's files: `State.Inv.f` says that `s.f`
keeps the invariant, so that a composition `(s.f a).g b` is proved by `(h.f ..).g ..`; `f_inv` says it of an operation that
answers a `Res` or an `Outcome`. A rule goes through the rules of what its operation calls; an operation that leaves memory as
it is has the rule `h.of_mem`. -/

namespace Sys2Proof.Machine

/-- The state that an issue's answer carries. -/
def Res.state : Res → State
  | .done s | .goto s _ | .as s | .wait s _ | .trap s .. => s

/-- The state that a fetch carries. -/
def Fetch.state : Fetch → State
  | .word s _ | .none s => s

/-- The state in which a step does what it does. -/
def Act.state : Act → State
  | .idle s | .event _ s | .issue _ _ s => s

/-- The state that a read of an area leaves. -/
def AreaRead.state : AreaRead → State
  | .here s _ | .coming s _ | .failed s => s

/-- The state that the checks of an access leave. -/
def Checked.state : Checked → State
  | .stop r => r.state
  | .go s .. => s

/-- Where an outcome goes on, memory is in its canonical form. -/
def Keeps : Outcome → Prop
  | .next t => t.Inv
  | .fault _ | .refused _ => True

/-- What is said of the state in a result is said of the state in an equal result. -/
theorem State.Inv.of_eq {α : Type} {a b : α} (f : α → State) (h : (f a).Inv) (e : a = b) : (f b).Inv := e ▸ h

/-- Whatever changes no byte of memory keeps the invariant. -/
theorem State.Inv.of_mem {s t : State} (h : s.Inv) (e : t.mem = s.mem := by rfl) : t.Inv :=
  (congrArg (Memory.wf · = true) e).mpr h

theorem State.Inv.ite {s t : State} {c : Prop} [Decidable c] (h : s.Inv) (k : t.Inv) : (if c then s else t).Inv := by
  split
  · exact h
  · exact k

theorem Res.inv_ite {a b : Res} {c : Prop} [Decidable c] (h : a.state.Inv) (k : b.state.Inv) :
    (if c then a else b).state.Inv := by
  split
  · exact h
  · exact k

/-- A fold of steps that keep the invariant of the state that a result carries. -/
theorem foldl_inv {α β : Type} (p : β → State) {f : β → α → β} {b : β} (h : (p b).Inv)
    (hf : ∀ c, (p c).Inv → ∀ x, (p (f c x)).Inv) (l : List α) : (p (l.foldl f b)).Inv := by
  induction l generalizing b with
  | nil => exact h
  | cons x l ih => exact ih (hf b h x)

theorem State.Inv.foldl {α : Type} {s : State} (h : s.Inv) {f : State → α → State} (hf : ∀ t, t.Inv → ∀ x, (f t x).Inv)
    (l : List α) : (l.foldl f s).Inv :=
  foldl_inv id h hf l

theorem State.Inv.setByte {s : State} (h : s.Inv) (a : Nat) (v : Byte) : (s.setByte a v).Inv := wf_setByte h a v
theorem State.Inv.setCells {s : State} (h : s.Inv) (cells : List (Nat × Byte)) : (s.setCells cells).Inv := wf_setCells cells h

end Sys2Proof.Machine
end

section
/-! SUPPORT. One rule per operation: it keeps the memory invariant. -/

namespace Sys2Proof.Machine

-- One theorem after another: each rule waits for the rules it cites, and too many of them waiting at once do not fit in memory.
set_option Elab.async false

/-! ### The state after reset -/

theorem State.Inv.reset : (State.reset).Inv := by
  unfold State.Inv
  decide

/-! ### Poison, slice state and records -/

theorem State.Inv.addPoison {s : State} (h : s.Inv) (a : Nat) : (s.addPoison a).Inv := h.ite h.of_mem
theorem State.Inv.clearPoison {s : State} (h : s.Inv) (a : Nat) : (s.clearPoison a).Inv := h.of_mem
theorem State.Inv.setSlice {s : State} (h : s.Inv) (k : Nat) (f : SliceSt → SliceSt) : (s.setSlice k f).Inv := h.of_mem
theorem State.Inv.post {s : State} (h : s.Inv) (r : LogRec) : (s.post r).Inv := h.of_mem
theorem State.Inv.raise {s : State} (h : s.Inv) (r : Raise) : (s.raise r).Inv := h.of_mem
theorem State.Inv.raiseCrew {s : State} (h : s.Inv) (v addr : Nat) : (s.raiseCrew v addr).Inv := h.of_mem
theorem State.Inv.machineCheck {s : State} (h : s.Inv) (sub addr aux : Nat) : (s.machineCheck sub addr aux).Inv := h.of_mem
theorem State.Inv.poisonHalf {s : State} (h : s.Inv) (a : Nat) : (s.poisonHalf a).Inv := (h.setCells ..).addPoison ..
theorem State.Inv.sliceError {s : State} (h : s.Inv) (a : Nat) : (s.sliceError a).Inv := h.of_mem

/-! ### DRAM codes and the SRAM lines of a slice -/

theorem State.Inv.rewritten {s : State} (h : s.Inv) (a : Nat) : (s.rewritten a).Inv := h.of_mem
theorem State.Inv.countPoison {s : State} (h : s.Inv) (a : Nat) : (s.countPoison a).Inv := (h.poisonHalf ..).setSlice ..

theorem State.Inv.readsPoison {s : State} (h : s.Inv) (a : Nat) (pins : List Byte) : (s.readsPoison a pins).Inv :=
  h.ite (((h.rewritten ..).poisonHalf ..).ite (((h.rewritten ..).poisonHalf ..).of_mem))

theorem State.Inv.decodeHalf {s : State} (h : s.Inv) (a : Nat) : (s.decodeHalf a).Inv := by
  unfold State.decodeHalf
  split
  · exact h
  · split
    · exact h.readsPoison ..
    · exact (h.rewritten ..).setSlice ..
    · exact ((h.rewritten ..).setCells ..).setSlice ..
    · exact (((h.rewritten ..).sliceError ..).countPoison ..).setSlice ..

theorem State.Inv.updSram {s : State} (h : s.Inv) (line : Nat) (f : SramLine → SramLine) : (s.updSram line f).Inv := h.of_mem
theorem State.Inv.failLine {s : State} (h : s.Inv) (a : Nat) : (s.failLine a).Inv := (h.countPoison ..).setSlice ..

theorem State.Inv.verifyLine {s : State} (h : s.Inv) (before : State) (a : Nat) : (before.verifyLine s a).Inv :=
  h.ite (h.failLine ..)

theorem State.Inv.meetSram {s : State} (h : s.Inv) (line n : Nat) : (s.meetSram line n).Inv := by
  unfold State.meetSram
  split
  · dsimp only
    split
    · exact h
    · split
      · exact h.of_mem
      · exact h.of_mem
      · exact ((h.of_mem.sliceError ..).setSlice ..).countPoison ..
      · exact (h.of_mem.setCells ..).verifyLine ..
  · dsimp only
    split
    · exact h
    · split
      · exact h.of_mem
      · exact h.of_mem
      · exact h.of_mem
      · exact (h.of_mem.setCells ..).verifyLine ..

theorem State.Inv.meetSectors {s : State} (h : s.Inv) (line : Nat) (sec : BitVec 4) : (s.meetSectors line sec).Inv :=
  h.ite (h.foldl (fun _ ht _ => ht.meetSram ..) _)

theorem State.Inv.leaveWalk {s : State} (h : s.Inv) (line : Nat) : (s.leaveWalk line).Inv := (h.setSlice ..).ite h

theorem State.Inv.evictSram {s : State} (h : s.Inv) (x : SramLine) : (s.evictSram x).Inv :=
  (((h.meetSectors ..).foldl (fun t ht _ => ht.ite ((ht.ite (ht.decodeHalf ..)).rewritten ..)) _).of_mem).leaveWalk ..

theorem State.Inv.useLine {s : State} (h : s.Inv) (line : Nat) (keep : Bool) : (s.useLine line keep).Inv := by
  unfold State.useLine
  split
  · exact h.of_mem
  · cases s.sramVictim line with
    | none => exact h.of_mem
    | some v => exact (h.evictSram v).of_mem

theorem State.Inv.fillSectors {s : State} (h : s.Inv) (line : Nat) (sec : BitVec 4) (allocate keep : Bool) :
    (s.fillSectors line sec allocate keep).Inv :=
  (h.foldl (fun _ ht _ => ht.decodeHalf ..) _).ite (((h.foldl (fun _ ht _ => ht.decodeHalf ..) _).useLine ..).updSram ..)

theorem State.Inv.touchSectors {s : State} (h : s.Inv) (line : Nat) (sec : BitVec 4) (guarded : Bool) (policy : Nat) :
    (s.touchSectors line sec guarded policy).Inv :=
  (h.meetSectors ..).fillSectors ..

theorem State.Inv.touchWith {s : State} (h : s.Inv) (a n : Nat) (whole guarded : Bool) (policy : Nat) :
    (s.touchWith a n whole guarded policy).Inv :=
  h.foldl (fun _ ht _ => ht.touchSectors ..) _

theorem State.Inv.touch {s : State} (h : s.Inv) (a n : Nat) : (s.touch a n).Inv := h.touchWith ..
theorem State.Inv.touchLine {s : State} (h : s.Inv) (a n : Nat) : (s.touchLine a n).Inv := h.touchWith ..

theorem State.Inv.openHalf {s : State} (h : s.Inv) (a : Nat) (cells : List (Nat × Byte)) (guarded : Bool) (policy : Nat) :
    (s.openHalf a cells guarded policy).Inv :=
  (h.touchLine ..).ite ((h.meetSectors ..).ite ((h.meetSectors ..).decodeHalf ..))

theorem State.Inv.closeHalf {s : State} (h : s.Inv) (a : Nat) (cells : List (Nat × Byte)) (guarded : Bool) (policy : Nat) :
    (s.closeHalf a cells guarded policy).Inv :=
  (h.rewritten a).ite (State.Inv.of_mem (h.useLine (lineOf a) (policy == 4)) rfl)

theorem State.Inv.putCells {s : State} (h : s.Inv) (cells : List (Nat × Byte)) : (s.putCells cells).Inv :=
  h.foldl (fun _ ht _ => ((ht.openHalf ..).setCells ..).closeHalf ..) _

/-! ### Walks of the page tables -/

theorem State.Inv.walkReads {s : State} (h : s.Inv) (va n level table : Nat) : (State.walkReads va n level table s).Inv := by
  induction n generalizing s level table with
  | zero => exact h
  | succ n ih => exact (ih (h.touch ..) ..).ite (h.touch ..)

theorem State.Inv.walked {s : State} (h : s.Inv) (ctx va : Nat) : (s.walked ctx va).Inv := by
  unfold State.walked
  split
  · split
    · exact h.walkReads ..
    · exact h
  · exact h

theorem State.Inv.deviceReach {s : State} (h : s.Inv) (ctx va n : Nat) (rd wr : Bool) : (s.deviceReach ctx va n rd wr).1.Inv := by
  unfold State.deviceReach
  split
  · dsimp only
    split
    · exact (h.walked ..).touch ..
    · exact h.walked ..
  · dsimp only
    split <;> exact h.walked ..

/-! ### Writes that commit at a slice -/

theorem State.Inv.postEvent {s : State} (h : s.Inv) (e : Event) : (s.postEvent e).Inv := h.of_mem
theorem State.Inv.postOnce {s : State} (h : s.Inv) (e : Event) : (s.postOnce e).Inv := h.ite (h.postEvent ..)
theorem State.Inv.updGang {s : State} (h : s.Inv) (id : Nat) (f : Gang → Gang) : (s.updGang id f).Inv := h.of_mem
theorem State.Inv.updHeld {s : State} (h : s.Inv) (id : Nat) (f : Gang → Gang) : (s.updHeld id f).Inv := h.of_mem

theorem State.Inv.deferTo {s : State} (h : s.Inv) (id ctx c addr : Nat) : (s.deferTo id ctx c addr).Inv := by
  unfold State.deferTo
  split
  · exact h.of_mem
  · exact h.ite (h.updHeld ..)

theorem State.Inv.tellOrigin {s : State} (h : s.Inv) (o : Origin) (ctx c addr : Nat) : (s.tellOrigin o ctx c addr).Inv := by
  unfold State.tellOrigin
  split
  · exact h.deferTo ..
  · split
    · exact h.foldl (fun t ht _ => ht.deferTo ..) _
    · exact h
  · exact h
  · exact h
  · exact h
  · exact h

theorem State.Inv.setWatch {s : State} (h : s.Inv) (w : Watch) : (s.setWatch w).Inv := h.of_mem

theorem State.Inv.writeDFields {s : State} (h : s.Inv) (w : Watch) : (s.writeDFields w).Inv := by
  unfold State.writeDFields
  split
  next e => exact ((h.deviceReach ..).of_eq Prod.fst e).of_mem
  next e => exact (((h.deviceReach ..).of_eq Prod.fst e).setWatch ..).putCells ..

theorem State.Inv.loseTrigger {s : State} (h : s.Inv) (w : Watch) : (s.loseTrigger w).Inv := h.writeDFields ..

theorem State.Inv.spill {s : State} (h : s.Inv) (w : Watch) (gidx depth kind : Nat) : (s.spill w gidx depth kind).Inv := by
  unfold State.spill
  split
  · exact h.loseTrigger ..
  · dsimp only
    split
    next e => exact (((h.deviceReach ..).of_eq Prod.fst e).machineCheck ..).loseTrigger ..
    next e => exact ((((h.deviceReach ..).of_eq Prod.fst e).putCells ..).writeDFields ..).of_mem

theorem State.Inv.takeEntry {s : State} (h : s.Inv) (w : Watch) (slice gidx depth kind : Nat) :
    (s.takeEntry w slice gidx depth kind).Inv :=
  h.of_mem

theorem State.Inv.enterTrigger {s : State} (h : s.Inv) (w : Watch) (gidx depth kind : Nat) :
    (s.enterTrigger w gidx depth kind).Inv :=
  h.of_mem.ite ((h.takeEntry ..).ite (h.spill ..))

theorem State.Inv.trigger {s : State} (h : s.Inv) (w : Watch) (gidx depth kind ctx : Nat) (o : Origin) :
    (s.trigger w gidx depth kind ctx o).1.Inv := by
  unfold State.trigger
  split
  · exact h.tellOrigin ..
  · exact h.enterTrigger ..

theorem State.Inv.triggers {s : State} (h : s.Inv) (changed : List Nat) (depth kind ctx : Nat) (o : Origin) :
    (s.triggers changed depth kind ctx o).1.Inv := by
  unfold State.triggers
  refine foldl_inv Prod.fst h (fun q hq _ => ?_) _
  split
  · exact hq
  · exact hq.trigger ..

theorem State.Inv.sendDelta {s : State} (h : s.Inv) (dest parity ctx : Nat) (m : DeltaMsg) (o : Origin) :
    (s.sendDelta dest parity ctx m o).Inv := by
  unfold State.sendDelta
  split <;> exact h.of_mem

theorem State.Inv.sendDeltas {s : State} (h : s.Inv) (a : Nat) (bytes : List (Nat × Byte)) (ctx : Nat) (o : Origin) :
    (s.sendDeltas a bytes ctx o).Inv := by
  unfold State.sendDeltas
  split
  · exact h
  · exact ((h.sendDelta ..).sendDelta ..).ite (h.sendDelta ..)

theorem State.Inv.refuseHalf {s : State} (h : s.Inv) (w : SliceWrite) (a c : Nat) : (s.refuseHalf w a c).Inv :=
  ((h.tellOrigin ..).machineCheck ..).ite (h.tellOrigin ..)

theorem State.Inv.fillHalf {s : State} (h : s.Inv) (w : SliceWrite) (a : Nat) : (s.fillHalf w a).Inv := h.openHalf ..

theorem State.Inv.putHalf {s : State} (h : s.Inv) (w : SliceWrite) (a : Nat) (cells : List (Nat × Byte)) :
    (s.putHalf w a cells).Inv :=
  (h.setCells ..).closeHalf ..

theorem State.Inv.commitHalf {r : Commit} (h : r.st.Inv) (w : SliceWrite) (a : Nat) : (r.half w a).st.Inv := by
  unfold Commit.half
  extract_lets cells s
  have hs : s.Inv := h.ite (h.fillHalf ..)
  split
  · exact hs.of_mem
  · exact hs.refuseHalf ..
  · exact (hs.putHalf ..).of_mem
  · exact hs.putHalf ..
  · exact ((hs.putHalf ..).sendDeltas ..).ite (hs.putHalf ..)

theorem State.Inv.passL1 {s : State} (h : s.Inv) (o : Origin) (m : Nat) (cells : List (Nat × Byte)) :
    (s.passL1 o m cells).Inv := by
  unfold State.passL1
  split
  · split
    · exact h
    · exact h.of_mem
  · exact h

theorem State.Inv.applySliceControl {s : State} (h : s.Inv) (k : Nat) : (s.applySliceControl k).Inv := h.ite (h.setSlice ..)
theorem State.Inv.setBank {s : State} (h : s.Inv) (c b : Nat) (x : BankSt) : (s.setBank c b x).Inv := h.of_mem
theorem State.Inv.dropWay {s : State} (h : s.Inv) (c b : Nat) : (s.dropWay c b).Inv := h.of_mem.ite h

theorem State.Inv.applyBankControl {s : State} (h : s.Inv) (c b : Nat) : (s.applyBankControl c b).Inv := by
  unfold State.applyBankControl
  extract_lets r k q k1 s1
  have h1 : s1.Inv := (h.postEvent _).ite h
  refine h.ite (h1.of_mem.ite ?_)
  split
  · exact h1.setBank ..
  · exact (h1.setBank ..).ite (((h1.dropWay ..).setBank ..).postEvent _)

theorem State.Inv.sendRecord {s : State} (h : s.Inv) (r m op : Nat) : (s.sendRecord r m op).Inv := h.of_mem

theorem State.Inv.failGroup {s : State} (h : s.Inv) (r : Nat) : (s.failGroup r).Inv :=
  ((h.foldl (fun t ht _ => ht.sendRecord ..) _).setByte ..).of_mem

theorem State.Inv.formGroup {s : State} (h : s.Inv) (r : Nat) : (s.formGroup r).Inv :=
  (h.failGroup ..).ite (h.of_mem.foldl (fun t ht _ => ht.sendRecord ..) _)

theorem State.Inv.resendDelta {s : State} (h : s.Inv) (g : Group) (d : PendDelta) : (s.resendDelta g d).Inv := h.ite h.of_mem

theorem State.Inv.applyGroupRecord {s : State} (h : s.Inv) (before : State) (r : Nat) : (before.applyGroupRecord s r).Inv :=
  ((h.setByte ..).foldl (fun _ ht _ => ht.resendDelta ..) _).ite (((h.setByte ..).formGroup ..).ite (h.setByte ..))

theorem State.Inv.createContext {s : State} (h : s.Inv) (before : State) (c : Nat) : (before.createContext s c).Inv :=
  h.of_mem.ite h

theorem State.Inv.recordsChanged {s : State} (h : s.Inv) (before : State) (w : SliceWrite) : (before.recordsChanged s w).Inv := by
  unfold State.recordsChanged
  extract_lets touched s0 s1 s2
  have h0 : s0.Inv := h.foldl (fun t ht _ => ht.createContext ..) _
  have h1 : s1.Inv := h0.foldl (fun t ht _ => ht.applySliceControl ..) _
  have h2 : s2.Inv := h1.foldl (fun t ht _ => (ht.applyBankControl ..).ite ht) _
  exact h.ite (h2.foldl (fun t ht _ => ht.applyGroupRecord ..) _)

theorem State.Inv.noteReplies {s : State} (h : s.Inv) (w : SliceWrite) : (s.noteReplies w).Inv :=
  h.foldl (fun _ ht _ => (ht.postEvent ..).ite ht) _

theorem State.Inv.commit {s : State} (h : s.Inv) (w : SliceWrite) : (s.commit w).st.Inv := by
  unfold State.commit
  extract_lets r0 r k s1 s2 t
  have hr : r.st.Inv := foldl_inv Commit.st h (fun q hq _ => hq.commitHalf ..) _
  have h1 : s1.Inv := hr.ite ((hr.setSlice ..).postEvent _)
  have h2 : s2.Inv := h1.passL1 ..
  have ht : t.1.Inv := by
    unfold t
    split
    · exact h2.triggers ..
    · exact h2
  exact (ht.recordsChanged ..).noteReplies _

theorem State.Inv.commitWrite {s : State} (h : s.Inv) (w : SliceWrite) : (s.commitWrite w).Inv := h.commit ..
theorem State.Inv.loseRecord {s : State} (h : s.Inv) (c : Nat) : (s.loseRecord c).Inv := h.putCells ..

/-! ### Translation and the lease check -/

theorem State.Inv.tlbAdd {s : State} (h : s.Inv) (t : TlbEntry) : (s.tlbAdd t).Inv := h.of_mem

theorem State.Inv.keepPtrs {s : State} (h : s.Inv) (cl ctx va n level table : Nat) :
    (State.keepPtrs cl ctx va n level table s).Inv := by
  induction n generalizing s level table with
  | zero => exact h
  | succ n ih =>
    unfold State.keepPtrs
    dsimp only
    split
    · exact ih h.of_mem ..
    · exact h

theorem State.Inv.walkFor {s : State} (h : s.Inv) (cl ctx va : Nat) : (s.walkFor cl ctx va).1.Inv := by
  unfold State.walkFor
  split
  · exact h
  · exact (h.walkReads ..).keepPtrs ..

theorem State.Inv.translate {s : State} (h : s.Inv) (core ctx va : Nat) : (s.translate core ctx va).1.Inv := by
  unfold State.translate
  split
  · exact h
  · split
    · exact h.of_mem
    · split
      next e => exact (h.walkFor ..).of_eq Prod.fst e
      next e1 => exact ((h.walkFor ..).of_eq Prod.fst e1).of_mem

theorem State.Inv.locate {s : State} (h : s.Inv) (core ctx need : Nat) (p : Part) : (s.locate core ctx need p).1.Inv := by
  unfold State.locate
  split
  · dsimp only
    split
    · exact h.translate ..
    · split <;> exact h.translate ..
  · exact h

theorem State.Inv.locateAll {s : State} (h : s.Inv) (core ctx need : Nat) (ps : List Part) :
    (s.locateAll core ctx need ps).1.Inv := by
  induction ps generalizing s with
  | nil => exact h
  | cons p ps ih =>
    have hr := h.locate core ctx need p
    unfold State.locateAll
    dsimp only
    split
    · exact hr
    · split <;> exact ih hr

theorem State.Inv.coalesce {s : State} (h : s.Inv) (g : Gang) (need : Nat) (ps : List Part) : (s.coalesce g need ps).1.Inv := by
  unfold State.coalesce
  split
  · dsimp only
    split <;> exact h.locateAll ..
  · dsimp only
    split
    · exact h
    · split <;> exact h.locateAll ..

/-! ### Accesses, packets to peers, the L1, pads and the fault logs -/

theorem State.Inv.agentWrite {s : State} (h : s.Inv) (cells : List (Nat × Byte)) : (s.agentWrite cells).Inv := h.of_mem

theorem State.Inv.hostBegin {s : State} (h : s.Inv) (org : Origin) (lane a : Nat) (job : HostJob) (phase : Nat)
    (tx : Nat → List HostTx) : (s.hostBegin org lane a job phase tx).Inv :=
  h.of_mem

theorem State.Inv.countAck {s : State} (h : s.Inv) (o : Origin) : (s.countAck o).Inv := by
  unfold State.countAck
  split
  · exact h.of_mem
  · exact h

theorem State.Inv.hostStoreHalf {s : State} (h : s.Inv) (org : Origin) (cells : List (Nat × Byte)) :
    (s.hostStoreHalf org cells).Inv := by
  unfold State.hostStoreHalf
  dsimp only
  split
  · exact h.of_mem
  · exact (h.hostBegin ..).countAck ..

theorem State.Inv.hostStore {s : State} (h : s.Inv) (org : Origin) (cells : List (Nat × Byte)) : (s.hostStore org cells).Inv :=
  (h.foldl (fun _ ht _ => ht.hostStoreHalf ..) _).ite ((h.hostBegin ..).countAck ..)

theorem State.Inv.sendStore {s : State} (h : s.Inv) (e : PeerStore) (p : Packet) : (s.sendStore e p).Inv := h.of_mem

theorem State.Inv.performWrite {s : State} (h : s.Inv) (x : Writer) (cells : List (Nat × Byte)) (w p : Bool) :
    (s.performWrite x cells w p).Inv := by
  unfold State.performWrite
  split
  · exact h
  · exact ((h.hostStore ..).ite (h.commitWrite ..)).ite ((h.sendStore ..).countAck ..)

theorem State.Inv.strongLines {s : State} (h : s.Inv) (n id : Nat) : (State.strongLines n id s).Inv := by
  induction n generalizing s with
  | zero => exact h
  | succ n ih =>
    unfold State.strongLines
    split
    · exact h
    · split
      · exact h
      · exact h.ite (ih ((h.updGang ..).performWrite ..))

theorem State.Inv.nextStrong {s : State} (h : s.Inv) (id : Nat) : (s.nextStrong id).Inv := h.strongLines ..

theorem State.Inv.flushStrong {s : State} (h : s.Inv) (id : Nat) : (s.flushStrong id).Inv := by
  unfold State.flushStrong
  split
  · exact h
  · exact (h.updGang ..).foldl (fun t ht _ => ht.performWrite ..) _

theorem State.Inv.drainLine {s : State} (h : s.Inv) (id line : Nat) : (s.drainLine id line).Inv := by
  unfold State.drainLine
  split
  · exact h
  · split
    · exact h
    · exact (h.updGang ..).performWrite ..

theorem State.Inv.drainAll {s : State} (h : s.Inv) (id : Nat) : (s.drainAll id).Inv := by
  unfold State.drainAll
  split
  · exact h
  · exact h.foldl (fun t ht _ => ht.drainLine ..) _

theorem State.Inv.wcbStore {s : State} (h : s.Inv) (id : Nat) (cells : List (Nat × Byte)) (w p : Bool) (policy : Nat) :
    (s.wcbStore id cells w p policy).Inv := by
  unfold State.wcbStore
  split
  · exact (h.updGang ..).ite ((h.ite (h.drainLine ..)).updGang ..)
  · exact h

theorem State.Inv.meetSector {s : State} (h : s.Inv) (cl b sector : Nat) : (s.meetSector cl b sector).1.Inv := by
  unfold State.meetSector
  dsimp only
  split
  · exact h
  · split <;> exact h.of_mem

theorem State.Inv.renewSectors {s : State} (h : s.Inv) (cl b : Nat) (f : Nat → Bool) : (s.renewSectors cl b f).Inv :=
  h.ite (h.setBank ..)

theorem State.Inv.l1Put {s : State} (h : s.Inv) (cl line : Nat) (sectors : BitVec 4) (data : List Byte) (grain : Nat)
    (isSealed : Bool) (policy : Nat) : (s.l1Put cl line sectors data grain isSealed policy).Inv := by
  unfold State.l1Put
  split
  · exact h
  · exact h.of_mem.renewSectors ..

theorem State.Inv.l1Touch {s : State} (h : s.Inv) (x : L1Line) : (s.l1Touch x).Inv := h.of_mem

theorem State.Inv.meetLine {s : State} (h : s.Inv) (x : L1Line) (n : Nat) : (s.meetLine x n).Inv := by
  unfold State.meetLine
  dsimp only
  split
  · exact (h.meetSector ..).of_mem
  · exact (h.meetSector ..).of_mem
  · exact h.meetSector ..

theorem State.Inv.l1Meet {s : State} (h : s.Inv) (cl line : Nat) (sec : BitVec 4) : (s.l1Meet cl line sec).Inv := by
  unfold State.l1Meet
  split
  · exact h
  · exact h.foldl (fun t ht _ => ht.meetLine ..) _

theorem State.Inv.sliceBytesWith {s : State} (h : s.Inv) (a n : Nat) (guarded : Bool) (policy : Nat) :
    (s.sliceBytesWith a n guarded policy).1.Inv :=
  h.touchWith ..

theorem State.Inv.sliceBytes {s : State} (h : s.Inv) (a n : Nat) : (s.sliceBytes a n).1.Inv := h.sliceBytesWith ..

theorem State.Inv.l1FillLine {s : State} (h : s.Inv) (cl line : Nat) (sec : BitVec 4) (leaf policy : Nat) :
    (s.l1FillLine cl line sec leaf policy).Inv :=
  (h.ite (h.touchSectors ..)).ite ((h.ite (h.touchSectors ..)).l1Put ..)

theorem State.Inv.l1Fill {s : State} (h : s.Inv) (cl line : Nat) (sec : BitVec 4) (leaf policy : Nat) :
    (s.l1Fill cl line sec leaf policy).Inv :=
  (h.l1FillLine ..).ite ((h.l1FillLine ..).ite (h.foldl (fun _ ht _ => ht.l1FillLine ..) _))

theorem State.Inv.l1Load {s0 : State} (h : s0.Inv) (cl line : Nat) (sec : BitVec 4) (leaf policy : Nat) :
    (s0.l1Load cl line sec leaf policy).1.Inv := by
  unfold State.l1Load
  split
  · dsimp only
    split
    · exact (h.l1Meet ..).of_mem
    · exact (h.l1Meet ..).touchSectors ..
  · dsimp only
    split
    · exact (h.l1Meet ..).of_mem
    · exact ((h.l1Meet ..).touchSectors ..).l1Fill ..

theorem State.Inv.cancelWhere {s : State} (h : s.Inv) (f : LineRead → Nat → Bool) : (s.cancelWhere f).Inv := h.of_mem

theorem State.Inv.cancelFills {s : State} (h : s.Inv) (cl : Nat) (f : LineRead → Nat → Bool) : (s.cancelFills cl f).Inv :=
  h.of_mem

theorem State.Inv.l1Invalidate {s : State} (h : s.Inv) (cl : Nat) : (s.l1Invalidate cl).Inv := h.of_mem
theorem State.Inv.acquire {s : State} (h : s.Inv) (core scope : Nat) : (s.acquire core scope).Inv := h.ite (h.l1Invalidate ..)

theorem State.Inv.acquireBy {s : State} (h : s.Inv) (g : Gang) (scope : Nat) : (s.acquireBy g scope).Inv :=
  (h.updGang ..).acquire ..

theorem State.Inv.l1DropUnit {s : State} (h : s.Inv) (cl phys : Nat) : (s.l1DropUnit cl phys).Inv := h.of_mem

theorem State.Inv.l1Refresh {s : State} (h : s.Inv) (cl : Nat) (cells : List (Nat × Byte)) : (s.l1Refresh cl cells).Inv :=
  h.of_mem

theorem State.Inv.peerCommitted {s : State} (h : s.Inv) (e : PeerStore) : (s.peerCommitted e).Inv := by
  unfold State.peerCommitted
  split
  · exact h
  · split <;> exact h.of_mem

theorem State.Inv.updCrew {s : State} (h : s.Inv) (v : Nat) (f : Crew → Crew) : (s.updCrew v f).Inv := h.of_mem
theorem State.Inv.deviceRead {s : State} (h : s.Inv) (ctx va n : Nat) : (s.deviceRead ctx va n).1.Inv := h.deviceReach ..

theorem State.Inv.deviceStore {s : State} (h : s.Inv) (ctx va : Nat) (data : List Byte) : (s.deviceStore ctx va data).1.Inv := by
  unfold State.deviceStore
  split
  next e => exact ((h.deviceReach ..).of_eq Prod.fst e).commitWrite ..
  next e => exact (h.deviceReach ..).of_eq Prod.fst e

theorem State.Inv.awayStore {s : State} (h : s.Inv) (ctx phys leaf : Nat) (data : List Byte) :
    (s.awayStore ctx phys leaf data).Inv :=
  h.foldl (fun _ ht _ => ht.performWrite ..) _

theorem State.Inv.areaStore {s : State} (h : s.Inv) (ctx va : Nat) (data : List Byte) : (s.areaStore ctx va data).1.Inv := by
  unfold State.areaStore
  split
  next e => exact (h.deviceStore ..).of_eq Prod.fst e
  next e =>
    split
    · exact (h.deviceStore ..).of_eq Prod.fst e
    · exact ((h.deviceStore ..).of_eq Prod.fst e).awayStore ..

theorem State.Inv.devicePoison {s : State} (h : s.Inv) (ctx va : Nat) : (s.devicePoison ctx va).Inv := by
  unfold State.devicePoison
  split
  · exact h
  · exact h.countPoison ..

theorem State.Inv.meetPad {s : State} (h : s.Inv) (c : Crew) (f : Frame) (n : Nat) : (s.meetPad c f n).Inv := by
  unfold State.meetPad
  dsimp only
  split
  · exact (h.meetSector ..).of_mem
  · exact (h.meetSector ..).of_mem
  · exact h.meetSector ..

theorem State.Inv.readBacking {s : State} (h : s.Inv) (c : Crew) (a n : Nat) : (s.readBacking c a n).Inv :=
  h.foldl (fun _ ht _ => ht.deviceRead ..) _

theorem State.Inv.padMeet {s : State} (h : s.Inv) (v a n : Nat) : (s.padMeet v a n).Inv := by
  unfold State.padMeet
  split
  · exact h
  · exact (h.foldl (fun t ht _ => ht.foldl (fun u hu _ => hu.meetPad ..) _) _).readBacking ..

theorem State.Inv.evacuatePart {r : State × Option Nat} (h : r.1.Inv) (v d : Nat) : (State.evacuatePart r v d).1.Inv := by
  unfold State.evacuatePart
  split
  · exact h
  · dsimp only
    split
    next e => exact ((h.deviceStore ..).of_eq Prod.fst e).foldl (fun u hu _ => hu.devicePoison ..) _
    next e => exact ((h.deviceStore ..).of_eq Prod.fst e).of_mem

theorem State.Inv.padEvacuate {s : State} (h : s.Inv) (v page : Nat) : (s.padEvacuate v page).1.Inv := by
  unfold State.padEvacuate
  split
  · exact h
  · extract_lets ds t
    have ht : t.1.Inv :=
      foldl_inv Prod.fst (h.foldl (fun _ hu _ => hu.padMeet ..) _) (fun _ hq _ => hq.evacuatePart ..) _
    split
    · exact ht.of_mem
    · exact ht.of_mem
    · exact ht.of_mem
    · exact h

theorem State.Inv.evacuate {s : State} (h : s.Inv) (v page : Nat) : (s.evacuate v page).Inv := by
  unfold State.evacuate
  split
  next e => exact (h.padEvacuate ..).of_eq Prod.fst e
  next e => exact ((h.padEvacuate ..).of_eq Prod.fst e).of_mem

theorem State.Inv.takeFrame {s : State} (h : s.Inv) (cl : Nat) : (s.takeFrame cl).1.Inv := by
  unfold State.takeFrame
  split
  · exact h
  · split
    · exact h
    · exact h.evacuate ..

theorem State.Inv.frameWith {s : State} (h : s.Inv) (c : Crew) (page : Nat) (data : List Byte) (dirty : List Nat) :
    (s.frameWith c page data dirty).Inv :=
  ((h.takeFrame ..).renewSectors ..).updCrew ..

theorem State.Inv.fillBacked {s : State} (h : s.Inv) (c : Crew) (page : Nat) : (s.fillBacked c page).1.Inv := by
  unfold State.fillBacked
  dsimp only
  split
  next e => exact ((h.deviceRead ..).of_eq Prod.fst e).of_mem
  next e => exact ((h.deviceRead ..).of_eq Prod.fst e).frameWith ..

theorem State.Inv.padTake {s : State} (h : s.Inv) (v page : Nat) : (s.padTake v page).1.Inv := by
  unfold State.padTake
  split
  · exact h
  · split
    · exact h.of_mem
    · exact h.of_mem
    · exact h.frameWith ..
    · exact h.fillBacked ..
    · split
      next e => exact ((h.padEvacuate ..).of_eq Prod.fst e).fillBacked ..
      · exact h.padEvacuate ..

theorem State.Inv.padTakePages {s : State} (h : s.Inv) (v : Nat) (pages : List Nat) : (s.padTakePages v pages).1.Inv := by
  unfold State.padTakePages
  refine foldl_inv Prod.fst h (fun q hq _ => ?_) _
  split
  · exact hq.padTake ..
  · exact hq

theorem State.Inv.padTakeRange {s : State} (h : s.Inv) (v a n : Nat) : (s.padTakeRange v a n).1.Inv :=
  (h.padTakePages ..).padMeet ..

/-- `State.saveShadowPage` is put in through an equation of its own: after `unfold` the kernel would evaluate `State.areaStore`. -/
theorem State.Inv.saveShadowPage {s : State} (h : s.Inv) (c : Crew) (page : Nat) (d : List Byte) :
    (s.saveShadowPage c page d).Inv := by
  obtain ⟨f, hf⟩ : ∃ f, f = State.saveShadowPage := ⟨_, rfl⟩
  rw [← hf]
  delta State.saveShadowPage at hf
  rw [hf]
  dsimp only
  split
  next e => exact (h.areaStore ..).of_eq Prod.fst e
  next e => exact (((h.areaStore ..).of_eq Prod.fst e).machineCheck ..).raiseCrew ..

theorem State.Inv.shadowPage {s : State} (h : s.Inv) (v page : Nat) : (s.shadowPage v page).Inv := by
  unfold State.shadowPage
  split
  · exact h
  · split
    · exact h
    · split
      · exact h
      · dsimp only
        split
        · exact (h.padMeet ..).of_mem
        · exact ((h.padMeet ..).updCrew ..).saveShadowPage ..

theorem State.Inv.shadowPages {s : State} (h : s.Inv) (v : Nat) (addrs : List Nat) : (s.shadowPages v addrs).Inv :=
  h.foldl (fun _ ht _ => ht.shadowPage ..) _

theorem State.Inv.padStore {s : State} (h : s.Inv) (v : Nat) (cells : List (Nat × Byte)) : (s.padStore v cells).Inv := by
  unfold State.padStore
  refine (State.Inv.shadowPages ?_ ..).of_mem
  split
  · exact h.foldl (fun t ht _ => ht.ite (ht.padMeet ..)) _
  · exact (h.foldl (fun t ht _ => ht.ite (ht.padMeet ..)) _).foldl (fun t ht _ => ht.renewSectors ..) _

theorem State.Inv.padWrite {s : State} (h : s.Inv) (v : Nat) (cells : List (Nat × Byte)) : (s.padWrite v cells).Inv := by
  unfold State.padWrite
  split
  next e => exact ((h.padTakePages ..).of_eq Prod.fst e).padStore ..
  next e => exact ((h.padTakePages ..).of_eq Prod.fst e).of_mem

theorem State.Inv.landBacking {s : State} (h : s.Inv) (c : Crew) (a : Nat) (data : List Byte) :
    (s.landBacking c a data).1.Inv := by
  unfold State.landBacking
  dsimp only
  split
  next e => exact (((h.shadowPages ..).deviceStore ..).of_eq Prod.fst e).of_mem
  next e => exact (((h.shadowPages ..).deviceStore ..).of_eq Prod.fst e).of_mem

theorem State.Inv.padLand {s : State} (h : s.Inv) (v a : Nat) (data : List Byte) : (s.padLand v a data).1.Inv := by
  unfold State.padLand
  split
  · exact h
  · split
    · exact (h.updCrew ..).padStore ..
    · exact (h.updCrew ..).padStore ..
    · exact h.landBacking ..
    · exact h.landBacking ..
    · split
      next e => exact ((h.padEvacuate ..).of_eq Prod.fst e).landBacking ..
      · exact h.padEvacuate ..

theorem State.Inv.gatherStart {s : State} (h : s.Inv) : (Gather.start s).st.Inv := h
theorem State.Inv.gatherTake {r : Gather} (h : r.st.Inv) (x : Located) (b : List Byte) (bad : Bool) : (r.take x b bad).st.Inv := h

theorem State.Inv.gatherPeerLine {r : Gather} (h : r.st.Inv) (g : Gang) (ps : List Located) (q : Ask) (fills : Bool) :
    (r.peerLine g ps q fills).st.Inv := by
  unfold Gather.peerLine
  split
  · exact h
  · exact foldl_inv Gather.st h.of_mem (fun p hp _ => hp.of_mem) _

theorem State.Inv.gatherHostParts {r : Gather} (h : r.st.Inv) (g : Gang) (ps : List Located) : (r.hostParts g ps).st.Inv := by
  unfold Gather.hostParts
  split
  · exact h
  · dsimp only
    split
    · split
      · exact foldl_inv Gather.st h (fun q hq _ => hq.gatherTake ..) _
      · exact h.of_mem
    · exact h.of_mem

theorem State.Inv.gatherHostLine {r : Gather} (h : r.st.Inv) (g : Gang) (ps : List Located) : (r.hostLine g ps).st.Inv := by
  unfold Gather.hostLine
  split
  · exact h
  · split
    · exact foldl_inv Gather.st h (fun q hq _ => hq.gatherHostParts ..) _
    · exact h.gatherHostParts ..

theorem State.Inv.gatherOwnLine {r : Gather} (h : r.st.Inv) (g : Gang) (ps : List Located) (past : Bool) (policy : Nat) :
    (r.ownLine g ps past policy).st.Inv := by
  unfold Gather.ownLine
  split
  · exact h
  · extract_lets line q
    have hq : q.1.Inv := by
      unfold q
      split
      · exact h.touchSectors ..
      · exact h.l1Load ..
    clear_value q
    refine foldl_inv Gather.st hq (fun u hu _ => ?_) _
    split
    · exact hu.gatherTake ..
    · dsimp only
      split
      · exact (hu.gatherTake ..).of_mem
      · exact hu.gatherTake ..

theorem State.Inv.gatherBeyond {r : Gather} (h : r.st.Inv) (g : Gang) (ps : List Located) (q : Ask) :
    (r.beyond g ps q).st.Inv := by
  unfold Gather.beyond
  split
  · exact h
  · split
    · split
      · exact h.gatherHostLine ..
      · exact h.gatherOwnLine ..
    · dsimp only
      split
      · exact foldl_inv Gather.st (((h.l1Meet ..).ite h).l1Touch ..) (fun p hp _ => hp.gatherTake ..) _
      · exact ((h.l1Meet ..).ite h).gatherPeerLine ..

theorem State.Inv.gatherLine {r : Gather} (h : r.st.Inv) (id : Nat) (ps : List Located) (q : Ask) : (r.line id ps q).st.Inv := by
  unfold Gather.line
  split
  · refine State.Inv.gatherBeyond ?_ ..
    split
    · exact (foldl_inv Gather.st h (fun p hp _ => hp.gatherTake ..) _).drainLine ..
    · exact foldl_inv Gather.st h (fun p hp _ => hp.gatherTake ..) _
  · exact foldl_inv Gather.st h (fun p hp _ => hp.gatherTake ..) _

theorem State.Inv.gatherStrongLines {r : Gather} (h : r.st.Inv) (id : Nat) (ps : List Located) (q : Ask) :
    (r.strongLines id ps q).st.Inv := by
  unfold Gather.strongLines
  refine foldl_inv Gather.st h (fun p hp _ => ?_) _
  split
  · exact hp.gatherLine ..
  · exact hp

theorem State.Inv.fetchAll {s : State} (h : s.Inv) (id : Nat) (xs : List Located) (q : Ask) : (s.fetchAll id xs q).st.Inv :=
  foldl_inv Gather.st (h.gatherStart.gatherStrongLines ..) (fun _ hr _ => hr.gatherLine ..) _

theorem State.Inv.fetchPast {s : State} (h : s.Inv) (g : Gang) (x : Located) : (s.fetchPast g x).st.Inv :=
  h.gatherStart.gatherBeyond ..

theorem State.Inv.piecesLine {m : Pieces} (h : m.st.Inv) (id : Nat) (ps : List Located) : (m.line id ps).st.Inv :=
  h.gatherStart.gatherLine ..

theorem State.Inv.piecesStrongLines {m : Pieces} (h : m.st.Inv) (id : Nat) (ps : List Located) :
    (m.strongLines id ps).st.Inv := by
  unfold Pieces.strongLines
  refine foldl_inv Pieces.st h (fun q hq _ => ?_) _
  split
  · exact hq.piecesLine ..
  · exact hq

theorem State.Inv.fetchPieces {s : State} (h : s.Inv) (id : Nat) (xs : List Located) : (s.fetchPieces id xs).st.Inv :=
  foldl_inv Pieces.st (h.piecesStrongLines ..) (fun _ hq _ => hq.piecesLine ..) _

theorem State.Inv.addLoad {s : State} (h : s.Inv) (l : PendLoad) : (s.addLoad l).Inv := h.of_mem

theorem State.Inv.areaRead {s : State} (h : s.Inv) (ctx va n : Nat) : (s.areaRead ctx va n).state.Inv := by
  unfold State.areaRead
  split
  next e => exact (h.deviceRead ..).of_eq Prod.fst e
  next e =>
    split
    · exact (h.deviceRead ..).of_eq Prod.fst e
    · dsimp only
      split
      · exact ((h.deviceRead ..).of_eq Prod.fst e).fetchPast ..
      · split <;> exact ((h.deviceRead ..).of_eq Prod.fst e).fetchPast ..

theorem State.Inv.recordFails {s : State} (h : s.Inv) (r : LogRec) (va : Nat) : (s.recordFails r va).Inv :=
  (h.loseRecord ..).ite ((h.loseRecord ..).machineCheck ..)

theorem State.Inv.recordTakes {s : State} (h : s.Inv) (r : LogRec) {write : State → State} (hwrite : ∀ t, t.Inv → (write t).Inv) :
    (s.recordTakes r write).Inv := by
  have hu := hwrite _ (h.putCells (cellsAt (64 * r.ctx + 48) (leBytes 4 (bits (s.ctxLogw r.ctx) 0 32 + 1))))
  exact State.Inv.ite (State.Inv.of_mem hu rfl) hu

theorem State.Inv.writeRecord {s : State} (h : s.Inv) (r : LogRec) : (s.writeRecord r).Inv := by
  unfold State.writeRecord
  split
  · exact h.loseRecord ..
  · refine State.Inv.ite h.of_mem ?_
    split
    next e =>
      exact (((h.deviceReach ..).of_eq Prod.fst e).loseRecord ..).ite
        (((h.deviceReach ..).of_eq Prod.fst e).recordTakes r fun _ ht => ht.commitWrite _)
    next q e =>
      have hq := (h.deviceReach ..).of_eq Prod.fst e
      split
      next e' =>
        obtain ⟨_, _, hr⟩ := Option.map_eq_some_iff.1 e'
        exact State.Inv.of_mem ((hq.areaRead ..).of_eq AreaRead.state hr) rfl
      next e' =>
        obtain ⟨_, _, hr⟩ := Option.map_eq_some_iff.1 e'
        have ht := (hq.areaRead ..).of_eq AreaRead.state hr
        exact (ht.loseRecord ..).ite (ht.recordTakes r fun _ hu => hu.areaStore ..)
      next e' =>
        obtain ⟨_, _, hr⟩ := Option.map_eq_some_iff.1 e'
        exact ((hq.areaRead ..).of_eq AreaRead.state hr).recordFails ..
      · exact hq.recordFails ..

theorem State.Inv.flushLog {s : State} (h : s.Inv) : (s.flushLog).Inv := h.of_mem.foldl (fun t ht _ => ht.writeRecord ..) _

theorem State.Inv.slotRead {s : State} (h : s.Inv) (ctx va : Nat) (l : PendLoad) : (s.slotRead ctx va l).Inv := by
  unfold State.slotRead
  split
  · exact h
  · exact (h.of_mem.recordFails ..).ite ((h.of_mem.loseRecord ..).ite (h.of_mem.recordTakes _ (fun t ht => ht.areaStore ..)))

/-! ### Register files and splits -/

theorem State.Inv.updCore {s : State} (h : s.Inv) (n : Nat) (f : CoreSt → CoreSt) : (s.updCore n f).Inv := h.of_mem
theorem State.Inv.useCrewNum {s : State} (h : s.Inv) (core num : Nat) : (s.useCrewNum core num).Inv := h.of_mem

/-! ### The matrix queue at work -/

theorem State.Inv.takeOperand {s : State} (h : s.Inv) (v : Nat) (o : Operand) (rs : List (Nat × Nat)) :
    (s.takeOperand v o rs).1.Inv := by
  unfold State.takeOperand
  split
  · refine foldl_inv Prod.fst h (fun q hq _ => ?_) _
    split
    · exact hq.padTakeRange ..
    · exact hq
  · exact h

theorem State.Inv.runMma {s : State} (h : s.Inv) (j : MatJob) : (s.runMma j).Inv := by
  unfold State.runMma
  extract_lets n af bf t u
  have ht : t.1.Inv := h.takeOperand ..
  have hu : u.1.Inv := by
    unfold u
    split
    · exact ht.takeOperand ..
    · exact ht
  refine (hu.raiseCrew ..).ite ?_
  split
  · exact h
  · split
    · exact hu.raise _
    · refine hu.ite ?_
      extract_lets rows cols r s1 c2 q s2
      have h1 : s1.Inv := hu.updCrew ..
      have h2 : s2.Inv := (h1.updCrew ..).ite h1
      exact h2.updGang ..

theorem State.Inv.writeVa {s : State} (h : s.Inv) (g : Gang) (xl : List (Nat × Nat × Nat × Nat)) (policy : Nat)
    (cells : List (Nat × Byte)) : (s.writeVa g xl policy cells).Inv :=
  h.foldl (fun _ ht _ => ((ht.updGang ..).nextStrong ..).ite (ht.performWrite ..)) _

theorem State.Inv.drainVa {s : State} (h : s.Inv) (id : Nat) (xl : List (Nat × Nat × Nat × Nat)) (vas : List Nat) :
    (s.drainVa id xl vas).Inv :=
  h.foldl (fun _ ht _ => ht.drainLine ..) _

theorem State.Inv.putOperand {s : State} (h : s.Inv) (j : MatJob) (o : Operand) (cells : List (Nat × Byte)) :
    (s.putOperand j o cells).Inv := by
  unfold State.putOperand
  split
  · exact h.of_mem
  · split
    · exact h.padWrite ..
    · split
      · exact h
      · exact (h.drainVa ..).writeVa ..

theorem State.Inv.runDrain {s : State} (h : s.Inv) (j : MatJob) : (s.runDrain j).Inv := by
  unfold State.runDrain
  split
  · exact h
  · exact ((h.putOperand ..).putOperand ..).of_mem

theorem State.Inv.runZst {s : State} (h : s.Inv) (j : MatJob) : (s.runZst j).Inv := by
  unfold State.runZst
  split
  · exact h
  · exact (h.raise ..).ite (h.putOperand ..)

theorem State.Inv.tileArrive {s : State} (h : s.Inv) (v z off : Nat) (data : List Byte) (poison : Bool) :
    (s.tileArrive v z off data poison).Inv :=
  h.of_mem

theorem State.Inv.runZldPad {s : State} (h : s.Inv) (j : MatJob) : (s.runZldPad j).Inv := by
  unfold State.runZldPad
  dsimp only
  split <;> exact (h.takeOperand ..).of_mem

theorem State.Inv.tileParts {s : State} (h : s.Inv) (j : MatJob) (ps : List (Located × List Byte × Bool)) :
    (s.tileParts j ps).Inv :=
  h.foldl (fun _ ht _ => ht.tileArrive ..) _

theorem State.Inv.runZldMem {s : State} (h : s.Inv) (j : MatJob) : (s.runZldMem j).st.Inv :=
  ((h.updCrew ..).fetchPieces ..).tileParts ..

theorem State.Inv.setJob {s : State} (h : s.Inv) (core : Nat) (j : MatJob) : (s.setJob core j).Inv := h.of_mem
theorem State.Inv.dropJob {s : State} (h : s.Inv) (core id : Nat) : (s.dropJob core id).Inv := h.of_mem

theorem State.Inv.runWriter {s : State} (h : s.Inv) (core : Nat) (j : MatJob) : (s.runWriter core j).Inv := by
  unfold State.runWriter
  split
  · exact (h.dropJob ..).ite h
  · exact (((h.runZst ..).ite (h.runDrain ..)).dropJob ..).ite (((h.runZst ..).ite (h.runDrain ..)).setJob ..)

theorem State.Inv.runJob {s : State} (h : s.Inv) (core : Nat) (j : MatJob) : (s.runJob core j).Inv := by
  unfold State.runJob
  split
  · exact (h.runMma _).dropJob ..
  · exact (h.runMma _).dropJob ..
  · exact (h.updCrew ..).dropJob ..
  · refine ((h.runZldPad _).dropJob ..).ite ?_
    extract_lets r
    have hr : r.st.Inv := h.runZldMem j
    refine State.Inv.ite (State.Inv.dropJob ?_ ..) ((hr.setJob ..).addLoad _)
    split
    · exact hr.acquireBy ..
    · exact hr
  · exact h.runWriter ..

/-! ### Retrieval tables at work -/

theorem State.Inv.dropFor {s : State} (h : s.Inv) (q : BucketReq) (a : Nat) : (s.dropFor q a).Inv := h.of_mem

theorem State.Inv.unitCommit {s : State} (h : s.Inv) (q : BucketReq) (a : Nat) (prot : Bool) (data : List Byte) :
    (s.unitCommit q a prot data).Inv :=
  (h.commitWrite ..).of_mem

theorem State.Inv.dropRow {s : State} (h : s.Inv) (q : BucketReq) : (s.dropRow q).Inv := h.unitCommit ..

theorem State.Inv.takePool {s : State} (h : s.Inv) (q : BucketReq) : (s.takePool q).1.Inv := by
  unfold State.takePool
  dsimp only
  split
  · exact h.unitCommit ..
  · exact h

theorem State.Inv.bucketPoison {s : State} (h : s.Inv) (q : BucketReq) (a : Nat) : (s.bucketPoison q a).Inv := h.tellOrigin ..
theorem State.Inv.unitRead {s : State} (h : s.Inv) (q : BucketReq) (a : Nat) : (s.unitRead q a).Inv := (h.touchLine ..).of_mem

theorem State.Inv.withDescriptor {s : State} (h : s.Inv) (q : BucketReq) {go : State → State} (hgo : ∀ t, t.Inv → (go t).Inv) :
    (s.withDescriptor q go).Inv :=
  ((h.unitRead ..).bucketPoison ..).ite (hgo _ (h.unitRead ..))

theorem State.Inv.insertOverflow {s : State} (h : s.Inv) (q : BucketReq) (a : Nat) (prot : Bool) :
    (s.insertOverflow q a prot).Inv :=
  h.ite ((h.unitCommit ..).ite (h.withDescriptor _ (fun _ hu => (hu.unitCommit ..).dropRow ..)))

theorem State.Inv.insertChain {s : State} (h : s.Inv) (q : BucketReq) (b : Bucket) : (s.insertChain q b).Inv := by
  unfold State.insertChain
  dsimp only
  split
  · exact ((h.takePool ..).unitCommit ..).dropRow ..
  · split
    · exact (h.takePool ..).unitCommit ..
    · exact ((h.takePool ..).unitCommit ..).unitCommit ..

theorem State.Inv.insertRow {s0 : State} (h : s0.Inv) (q : BucketReq) : (s0.insertRow q).Inv := by
  unfold State.insertRow
  extract_lets s b x put
  have hs : s.Inv := h.unitRead ..
  have hput {t : State} (ht : t.Inv) (c : Bucket) : (put t c).Inv := ht.unitCommit ..
  refine (hs.bucketPoison ..).ite (hs.ite ((hput hs _).ite (State.Inv.ite ?_ (State.Inv.ite ?_ ?_))))
  · exact hs.withDescriptor _ fun _ ht => (hput ht _).dropRow _
  · split
    · exact hput hs _
    · exact ((hput (hs.unitRead ..) _).bucketPoison ..).ite ((hput (hs.unitRead ..) _).insertOverflow ..)
  · exact hs.withDescriptor _ fun _ ht => ht.insertChain ..

theorem State.Inv.deleteFrom {s0 : State} (h : s0.Inv) (q : BucketReq) (a : Nat) (prot : Bool) : (s0.deleteFrom q a prot).Inv :=
  ((h.unitRead ..).bucketPoison ..).ite (((h.unitRead ..).unitCommit ..).ite (h.unitRead ..))

theorem State.Inv.deleteRow {s : State} (h : s.Inv) (q : BucketReq) : (s.deleteRow q).Inv := by
  unfold State.deleteRow
  dsimp only
  split
  · split
    · exact h.deleteFrom ..
    · exact (h.deleteFrom ..).deleteFrom ..
  · exact h.deleteFrom ..

theorem State.Inv.retireRetr {s : State} (h : s.Inv) (j : RetrJob) : (s.retireRetr j).Inv := h.of_mem

theorem State.Inv.performBucket {s : State} (h : s.Inv) (ins : Bool) (q : BucketReq) : (s.performBucket ins q).Inv := by
  unfold State.performBucket
  split
  · split
    · exact h
    · exact h.ite (h.foldl (fun t ht _ => (ht.insertRow ..).retireRetr ..) _)
  · split
    · exact h
    · exact h.ite (h.foldl (fun t ht _ => (ht.deleteRow ..).retireRetr ..) _)

theorem State.Inv.setProbe {s : State} (h : s.Inv) (p : Probe) : (s.setProbe p).Inv := h.of_mem
theorem State.Inv.dropProbe {s : State} (h : s.Inv) (tag : Nat) : (s.dropProbe tag).Inv := h.of_mem

theorem State.Inv.probeRead {s0 : State} (h : s0.Inv) (p : Probe) (b a : Nat) : (s0.probeRead p b a).Inv := by
  unfold State.probeRead
  dsimp only
  split
  · split <;> exact (h.touchLine ..).of_mem
  · exact (((h.touchLine ..).l1DropUnit ..).setProbe ..).foldl (fun t ht _ => ht.postEvent ..) _

theorem State.Inv.finishProbe {s : State} (h : s.Inv) (p : Probe) : (s.finishProbe p).Inv := by
  unfold State.finishProbe
  split
  · exact h.dropProbe ..
  · exact ((h.padWrite ..).updGang ..).dropProbe ..

theorem State.Inv.holdRetrieval {s : State} (h : s.Inv) (ids : List Nat) : (s.holdRetrieval ids).Inv := h.of_mem
theorem State.Inv.dropRetrieval {s : State} (h : s.Inv) (id : Nat) : (s.dropRetrieval id).Inv := h.of_mem

theorem State.Inv.resendJob {s : State} (h : s.Inv) (g : Gang) (j : RetrJob) : (s.resendJob g j).Inv := by
  unfold State.resendJob
  dsimp only
  split <;> exact (h.locateAll ..).of_mem

theorem State.Inv.resumeProbe {s : State} (h : s.Inv) (g : Gang) (p : Probe) : (s.resumeProbe g p).Inv := by
  unfold State.resumeProbe
  split
  · dsimp only
    split
    · exact (h.locateAll ..).of_mem
    · exact ((h.locateAll ..).setProbe ..).foldl (fun t ht _ => ht.postEvent ..) _
  · dsimp only
    split
    · exact (h.locateAll ..).of_mem
    · exact ((h.locateAll ..).setProbe ..).foldl (fun t ht _ => ht.postEvent ..) _

theorem State.Inv.resendRetrieval {s : State} (h : s.Inv) (g : Gang) : (s.resendRetrieval g).Inv :=
  (h.foldl (fun _ ht _ => ht.resendJob ..) _).foldl (fun _ ht _ => ht.resumeProbe ..) _

/-! ### The context save area -/

theorem State.Inv.saveBytes {s : State} (h : s.Inv) (ctx n va : Nat) (data : List Byte) :
    (State.saveBytes ctx n s va data).1.Inv := by
  induction n generalizing s va data with
  | zero => exact h
  | succ n ih =>
    unfold State.saveBytes
    split
    · exact h
    · dsimp only
      split
      next e => exact ((h.areaStore ..).of_eq Prod.fst e).machineCheck ..
      next e => exact ih ((h.areaStore ..).of_eq Prod.fst e) ..

theorem State.Inv.saveFields {s : State} (h : s.Inv) (v ctx va : Nat) (fs : List Field) : (s.saveFields v ctx va fs).Inv := by
  have hf (q : State × Option Nat) (hq : q.1.Inv) (f : Field) :
      (if q.2.isNone then State.saveBytes ctx (f.2.length + 1) q.1 (va + f.1) f.2 else q).1.Inv := by
    split
    · exact hq.saveBytes ..
    · exact hq
  unfold State.saveFields
  split
  next e => exact (foldl_inv Prod.fst h hf _).of_eq Prod.fst e
  next e => exact ((foldl_inv Prod.fst h hf _).of_eq Prod.fst e).raiseCrew ..

/-! ### Barrier objects -/

theorem State.Inv.setBar {s : State} (h : s.Inv) (v off : Nat) (b : Bar) : (s.setBar v off b).Inv := by
  unfold State.setBar
  split
  next e => exact (h.padLand ..).of_eq Prod.fst e
  next e => exact ((h.padLand ..).of_eq Prod.fst e).of_mem

theorem State.Inv.setColl {s : State} (h : s.Inv) (c : Collective) : (s.setColl c).Inv := h.of_mem
theorem State.Inv.retireColl {s : State} (h : s.Inv) (id : Nat) : (s.retireColl id).Inv := h.of_mem

theorem State.Inv.armChunk {s : State} (h : s.Inv) (v off : Nat) : (s.armChunk v off).1.Inv := by
  unfold State.armChunk
  split
  · exact h
  · dsimp only
    split
    · exact h
    · exact ((h.setColl ..).setBar ..).of_mem

theorem State.Inv.releaseWaiters {s : State} (h : s.Inv) (v off gen now : Nat) : (s.releaseWaiters v off gen now).Inv := by
  unfold State.releaseWaiters
  split
  · exact h
  · exact h.of_mem

theorem State.Inv.evalBar {s : State} (h : s.Inv) (n v off : Nat) : (State.evalBar n s v off).Inv := by
  induction n generalizing s with
  | zero => exact h
  | succ n ih =>
    have hu := ((h.setBar v off (s.bar v off).nextPhase).armChunk v off).releaseWaiters v off (s.bar v off).gen
      (s.bar v off).nextPhase.gen
    unfold State.evalBar
    exact h.ite ((h.updCrew ..).ite ((h.updCrew ..).ite ((ih hu).ite hu)))

theorem State.Inv.barEvent {s : State} (h : s.Inv) (v off : Nat) (f : Bar → Bar) : (s.barEvent v off f).Inv :=
  ((h.padMeet ..).setBar ..).evalBar ..

theorem State.Inv.undefer {s : State} (h : s.Inv) (v off : Nat) : (s.undefer v off).Inv := by
  unfold State.undefer
  split
  · exact h
  · exact ((h.updCrew ..).evalBar ..).ite h

theorem State.Inv.takeShadow {s : State} (h : s.Inv) (v off gen now : Nat) : (s.takeShadow v off gen now).1.Inv := by
  unfold State.takeShadow
  split
  · exact h
  · refine (h.saveFields ..).foldl (fun t ht _ => ?_) _
    split
    · exact ht
    · exact ht.saveFields ..

theorem State.Inv.checkpoint {s : State} (h : s.Inv) (v off : Nat) : (s.checkpoint v off).Inv := by
  unfold State.checkpoint
  extract_lets b r t u w
  have hr : r.1.Inv := ((h.padMeet ..).updCrew ..).takeShadow ..
  have hw : w.Inv := (((hr.setBar ..).updCrew ..).armChunk ..).releaseWaiters ..
  exact (hw.evalBar ..).ite hw

theorem State.Inv.takeCheckpoints {s : State} (h : s.Inv) (c : Crew) : (s.takeCheckpoints c).Inv :=
  ((h.foldl (fun _ ht _ => ht.drainAll ..) _).foldl (fun _ ht _ => ht.checkpoint ..) _).ite
    (h.foldl (fun _ ht _ => ht.drainAll ..) _)

theorem State.Inv.arriveBar {s : State} (h : s.Inv) (g : Gang) (name off : Nat) (lanes : Mask) :
    (s.arriveBar g name off lanes).Inv :=
  (h.setBar ..).ite (((h.updGang ..).setBar ..).ite ((h.updGang ..).barEvent ..))

theorem State.Inv.leaveBars {s : State} (h : s.Inv) (g : Gang) (lanes : Mask) : (s.leaveBars g lanes).Inv := by
  unfold State.leaveBars
  split
  · exact h
  · exact h.ite (h.foldl (fun t ht _ => ht.barEvent ..) _)

theorem State.Inv.joinBars {s : State} (h : s.Inv) (v : Nat) (lanes : Mask) : (s.joinBars v lanes).Inv := by
  unfold State.joinBars
  split
  · exact h
  · exact h.foldl (fun t ht _ => (ht.barEvent ..).ite ht) _

theorem State.Inv.dropObservers {s : State} (h : s.Inv) (g : Gang) : (s.dropObservers g).Inv := by
  unfold State.dropObservers
  split
  · exact h
  · exact h.foldl (fun t ht _ => (((ht.setBar ..).updGang ..).undefer ..).ite ht) _

/-! ### Operations that many instructions share -/

theorem State.Inv.leaveFifos {s : State} (h : s.Inv) (gone : Nat × Nat → Bool) : (s.leaveFifos gone).Inv := h.of_mem

theorem State.Inv.writeEntries {s : State} (h : s.Inv) (g : Gang) (es : List RcEntry) : (s.writeEntries g es).Inv := by
  unfold State.writeEntries
  refine h.foldl (fun t ht _ => ?_) _
  split
  next e => exact ((ht.areaStore ..).of_eq Prod.fst e).of_mem
  next e => exact ((ht.areaStore ..).of_eq Prod.fst e).of_mem

theorem State.Inv.spillEntries {s : State} (h : s.Inv) (id : Nat) : (s.spillEntries id).Inv := by
  unfold State.spillEntries
  split
  · exact h
  · exact h.writeEntries ..

theorem State.Inv.respillEntries {s : State} (h : s.Inv) (id : Nat) : (s.respillEntries id).Inv := by
  unfold State.respillEntries
  split
  · exact h
  · exact h.writeEntries ..

theorem State.Inv.passTrowel {s : State} (h : s.Inv) (core : Nat) (place : Nat × Nat) : (s.passTrowel core place).Inv := by
  unfold State.passTrowel
  split <;> exact h.of_mem

theorem State.Inv.giveTrowel {s : State} (h : s.Inv) (g : Gang) (place : Nat × Nat) : (s.giveTrowel g place).Inv :=
  (h.passTrowel ..).ite (((h.updGang ..).passTrowel ..).ite h)

theorem State.Inv.wakeSlices {s : State} (h : s.Inv) (v : Nat) : (s.wakeSlices v).Inv := h.foldl (fun _ ht _ => ht.postEvent ..) _

theorem State.Inv.completeColl {s : State} (h : s.Inv) (c : Collective) : (s.completeColl c).Inv :=
  (((h.setColl ..).postEvent ..).wakeSlices ..).ite h

theorem State.Inv.unawait {s : State} (h : s.Inv) (g : Gang) : (s.unawait g).Inv :=
  h.foldl (fun _ ht _ => (ht.setColl ..).completeColl ..) _

theorem State.Inv.releaseLease {s : State} (h : s.Inv) (task : Nat) : (s.releaseLease task).Inv := by
  unfold State.releaseLease
  split
  · exact h
  · split
    · exact h
    · exact h.of_mem

theorem State.Inv.voidFifo {s : State} (h : s.Inv) (id : Nat) : (s.voidFifo id).Inv := h.of_mem

theorem State.Inv.logDeferred {s : State} (h : s.Inv) (g : Gang) : (s.logDeferred g).Inv := by
  unfold State.logDeferred
  extract_lets put
  have hput {t : State} (ht : t.Inv) (c : Nat) (a : Option DWord) : (put t c a).Inv := by
    unfold put
    split
    · exact ht.post _
    · exact ht
  exact hput (hput (hput h ..) ..) ..

theorem State.Inv.remember {s : State} (h : s.Inv) (g : Gang) : (s.remember g).Inv := h.of_mem.ite h

theorem State.Inv.dropGang {s : State} (h : s.Inv) (g : Gang) (place : Nat × Nat) : (s.dropGang g place).Inv :=
  (((((((h.remember ..).logDeferred ..).voidFifo ..).giveTrowel ..).of_mem).dropRetrieval ..).releaseLease ..).postEvent ..

theorem State.Inv.dropJobs {s : State} (h : s.Inv) (core v : Nat) : (s.dropJobs core v).Inv := h.of_mem

theorem State.Inv.endColls {s : State} (h : s.Inv) (c : Crew) : (s.endColls c).Inv :=
  h.of_mem.foldl (fun t ht _ => ht.retireColl ..) _

theorem State.Inv.dissolve {s : State} (h : s.Inv) (v : Nat) : (s.dissolve v).Inv := by
  unfold State.dissolve
  split
  · exact h
  next c _ => exact State.Inv.endColls (h.dropJobs c.core v).of_mem _

theorem State.Inv.endGang {s : State} (h : s.Inv) (g : Gang) : (s.endGang g).Inv :=
  ((((h.dropObservers ..).unawait ..).dropGang ..).dissolve ..).ite (((h.dropObservers ..).unawait ..).dropGang ..)

theorem State.Inv.endCrew {s : State} (h : s.Inv) (v : Nat) (kill : Bool) : (s.endCrew v kill).Inv := by
  unfold State.endCrew
  extract_lets ms saved t w
  have ht : t.Inv := h.foldl (fun u hu _ => hu.ite ((hu.drainAll _).flushStrong _)) _
  have hw : w.Inv := (ht.dissolve v).foldl (fun u hu _ => hu.dropGang ..) _
  exact hw.foldl (fun u hu _ => (((hu.remember _).logDeferred _).dropRetrieval _).releaseLease _) _

theorem State.Inv.faultCrew {s : State} (h : s.Inv) (g : Gang) (c : Nat) (hm : Bool) (lanes pc addr : Nat) :
    (s.faultCrew g c hm lanes pc addr).Inv :=
  ((((h.post ..).drainAll ..).flushStrong ..).dropGang ..).ite ((h.post ..).endCrew ..)

theorem State.Inv.rollBack {s : State} (h : s.Inv) (v : Nat) (sh : Shadow) : (s.rollBack v sh).Inv := by
  unfold State.rollBack
  refine ((State.Inv.padTakePages ?_ ..).foldl (fun t ht _ => ht.respillEntries ..) _).of_mem
  split <;> exact h.of_mem

theorem State.Inv.consume {s : State} (h : s.Inv) (g : Gang) (hm : Bool) (lanes pc addr : Nat) :
    (s.consume g hm lanes pc addr).Inv := by
  unfold State.consume
  split
  · exact h.faultCrew ..
  · split
    · exact ((h.post ..).rollBack ..).ite (h.faultCrew ..)
    · exact h.faultCrew ..

theorem State.Inv.unreplayable {s : State} (h : s.Inv) (v : Nat) : (s.unreplayable v).Inv := h.of_mem

theorem State.Inv.takeCause {s : State} (h : s.Inv) (id k c : Nat) (lanes : Mask) (addr : Nat) :
    (s.takeCause id k c lanes addr).Inv := by
  unfold State.takeCause
  split
  · exact h
  · split
    · exact h
    · exact ((h.faultCrew ..).ite (h.updGang ..)).ite ((h.consume ..).ite (h.faultCrew ..))

theorem State.Inv.takeRaise {s : State} (h : s.Inv) (r : Raise) : (s.takeRaise r).Inv := by
  unfold State.takeRaise
  split
  · dsimp only
    split
    · exact h
    · exact h.consume ..
  · dsimp only
    split
    · exact h
    · exact h.faultCrew ..

theorem State.Inv.takeRaises {s : State} (h : s.Inv) (n : Nat) : (State.takeRaises n s).Inv := by
  induction n generalizing s with
  | zero => exact h
  | succ n ih =>
    unfold State.takeRaises
    split
    · exact h
    · exact ih (State.Inv.takeRaise h.of_mem _)

theorem State.Inv.settle {s : State} (h : s.Inv) : (s.settle).Inv := by
  unfold State.settle
  extract_lets r t
  have hr : r.Inv := h.foldl (fun t ht _ => ht.takeCheckpoints _) _
  have ht : t.Inv := hr.ite (hr.takeRaises _)
  exact ht.ite ht.flushLog

theorem State.Inv.releaseSlots {s : State} (h : s.Inv) (id : Nat) : (s.releaseSlots id).Inv := h.of_mem

theorem State.Inv.release {s : State} (h : s.Inv) (id scope : Nat) : (s.release id scope).1.Inv := by
  unfold State.release
  dsimp only
  split
  · exact h.drainAll ..
  · split
    · exact h.drainAll ..
    · split
      · exact h.drainAll ..
      · exact (h.drainAll ..).of_mem

theorem State.Inv.begin {s : State} (h : s.Inv) (i : Issue) : (s.begin i).Inv := h.of_mem
theorem State.Inv.goOn {s : State} (h : s.Inv) (id k : Nat) (pc : DWord) : (s.goOn id k pc).Inv := h.of_mem
theorem State.Inv.block {s : State} (h : s.Inv) (id k : Nat) (w : Wait) : (s.block id k w).Inv := h.of_mem

theorem State.Inv.issueFinish {r : Res} (h : r.state.Inv) (i : Issue) : (i.finish r).Inv := by
  unfold Issue.finish
  split
  · exact (h.goOn ..).settle
  · exact (h.goOn ..).settle
  · exact h.settle
  · exact (h.block ..).settle
  · exact (h.takeCause ..).settle

theorem issue_inv {s : State} (h : s.Inv) (a : Accepts) (legal : Issue → Bool) {body : Issue → State → Res}
    (hbody : ∀ i t, t.Inv → (body i t).state.Inv) : Keeps (issue a legal body s) := by
  unfold issue
  split
  · trivial
  · split
    · exact State.Inv.issueFinish (hbody _ _ (h.begin ..)) _
    · exact State.Inv.issueFinish (r := .trap ..) h _

theorem happen_inv {s : State} (h : s.Inv) : Keeps (happen s) := h.settle

/-! ### Control instructions -/

theorem branchScalar_inv {s : State} (h : s.Inv) (cond : DWord → Bool) (r : BitVec 6) (o : BitVec 16) :
    Keeps (branchScalar cond r o s) := by
  unfold branchScalar
  refine issue_inv h _ _ (fun _ u hu => ?_)
  split
  · exact hu
  · split <;> exact hu

theorem branchPred_inv {s : State} (h : s.Inv) (cond : Mask → Mask → Bool) (p : BitVec 3) (o : BitVec 16) :
    Keeps (branchPred cond p o s) := by
  unfold branchPred
  refine issue_inv h _ _ (fun _ u hu => ?_)
  split <;> exact hu

theorem execJmp_inv {s : State} (h : s.Inv) (o : BitVec 26) : Keeps (execJmp o s) := issue_inv h _ _ (fun _ _ hu => hu)

theorem execCall_inv {s : State} (h : s.Inv) (o : BitVec 26) : Keeps (execCall o s) :=
  issue_inv h _ _ (fun _ _ hu => hu.updGang ..)

theorem jumpReg_inv {s : State} (h : s.Inv) (a : Nat) (link : Option Nat) : Keeps (jumpReg a link s) := by
  unfold jumpReg
  refine issue_inv h _ _ (fun _ u hu => ?_)
  split
  · exact hu
  · split
    · dsimp only
      split
      · exact hu
      · exact hu.of_mem
    · dsimp only
      split <;> exact hu

theorem execBraD_inv {s : State} (h : s.Inv) (g : BitVec 4) (t j : BitVec 11) : Keeps (execBraD g t j s) := by
  unfold execBraD
  refine issue_inv h _ _ (fun _ v hv => ?_)
  split
  · dsimp only
    split
    · exact hv
    · split <;> exact hv
  · dsimp only
    split
    · exact hv
    · split
      · exact hv
      · exact (hv.updGang ..).spillEntries ..

theorem execNop_inv {s : State} (h : s.Inv) : Keeps (execNop s) := issue_inv h _ _ (fun _ _ hu => hu)

theorem State.Inv.exitLanes {s : State} (h : s.Inv) (i : Issue) (x : Mask) : (s.exitLanes i x).Inv := by
  unfold State.exitLanes
  extract_lets t u
  have hu : u.Inv := ((((h.goOn ..).unreplayable _).updGang ..).spillEntries _).leaveBars ..
  split
  · exact hu
  · exact (hu.endGang _).ite hu

theorem releaseThen_inv {t : State} (h : t.Inv) (i : Issue) (scope : Nat) {go : State → Res}
    (hgo : ∀ t, t.Inv → (go t).state.Inv) : (releaseThen i scope t go).state.Inv := by
  unfold releaseThen
  split
  next e => exact (h.release ..).of_eq Prod.fst e
  next e =>
    split
    · exact ((h.release ..).of_eq Prod.fst e).of_mem
    · exact hgo _ ((h.release ..).of_eq Prod.fst e)

theorem execExit_inv {s : State} (h : s.Inv) (g : BitVec 4) : Keeps (execExit g s) := by
  unfold execExit
  refine issue_inv h _ _ (fun _ u hu => ?_)
  dsimp only
  split
  · exact hu
  · exact releaseThen_inv hu _ _ (fun t ht => ht.exitLanes ..)

theorem execTrap_inv {s : State} (h : s.Inv) (c : BitVec 12) (g : BitVec 4) : Keeps (execTrap c g s) := by
  unfold execTrap
  refine issue_inv h _ _ (fun _ u hu => ?_)
  dsimp only
  split <;> exact hu

theorem execBrk_inv {s : State} (h : s.Inv) (c : BitVec 12) : Keeps (execBrk c s) := issue_inv h _ _ (fun _ _ hu => hu)

theorem execYield_inv {s : State} (h : s.Inv) : Keeps (execYield s) :=
  issue_inv h _ _ (fun _ _ hu => (hu.updGang ..).postEvent ..)

theorem execSetfmt_inv {s : State} (h : s.Inv) (a : BitVec 6) : Keeps (execSetfmt a s) := by
  unfold execSetfmt
  refine issue_inv h _ _ (fun _ u hu => ?_)
  split
  · exact hu
  · exact hu.of_mem

theorem execGetfmt_inv {s : State} (h : s.Inv) (d : BitVec 6) : Keeps (execGetfmt d s) :=
  issue_inv h _ _ (fun _ _ hu => hu.updGang ..)

theorem State.Inv.readMap {s : State} (h : s.Inv) (g : Gang) (va : Nat) : (s.readMap g va).st.Inv := by
  unfold State.readMap
  dsimp only
  split
  · exact (h.foldl (fun t ht _ => ht.walked ..) _).gatherStart
  · exact foldl_inv Gather.st ((h.foldl (fun t ht _ => ht.walked ..) _).gatherStart) (fun q hq _ => hq.gatherBeyond ..) _

theorem State.Inv.takeAt {s : State} (h : s.Inv) (id : Nat) (got : Store Byte) (bad : Bool) : (s.takeAt id got bad).Inv :=
  h.of_mem

theorem execSafept_inv {s : State} (h : s.Inv) (o : BitVec 18) : Keeps (execSafept o s) := by
  unfold execSafept
  refine issue_inv h _ _ (fun _ u hu => ?_)
  split
  · dsimp only
    split
    · exact (hu.readMap ..).takeAt ..
    · exact (hu.readMap ..).addLoad ..
  · exact hu

/-! ### Operations that a slice performs -/

theorem State.Inv.commitFor {s : State} (h : s.Inv) (w : SliceWrite) : (s.commitFor w).1.Inv := h.commit ..

theorem State.Inv.commitSilent {s : State} (h : s.Inv) (w : SliceWrite) : (s.commitSilent w).1.Inv := by
  unfold State.commitSilent
  split
  · exact h.commitFor ..
  · exact h

theorem State.Inv.nearAtomic {s : State} (h : s.Inv) (op : Nat) (q : NearReq) : (s.nearAtomic op q).st.Inv := by
  unfold State.nearAtomic
  dsimp only
  split
  · exact (h.touchLine ..).commitFor ..
  · exact (h.touchLine ..).commitSilent ..

theorem State.Inv.nearFxWith {s : State} (h : s.Inv) (policy : Nat) (q : NearReq) : (s.nearFxWith policy q).st.Inv := by
  unfold State.nearFxWith
  dsimp only
  split
  · exact ((h.touchWith ..).setSlice ..).tellOrigin ..
  · split
    · exact ((h.touchWith ..).setSlice ..).tellOrigin ..
    · exact (h.touchWith ..).commitFor ..

theorem State.Inv.nearFx {s : State} (h : s.Inv) (q : NearReq) : (s.nearFx q).st.Inv := h.nearFxWith ..

theorem State.Inv.nearClaim {s : State} (h : s.Inv) (q : NearReq) : (s.nearClaim q).st.Inv := by
  unfold State.nearClaim
  dsimp only
  split
  · exact (h.touchLine ..).commitSilent ..
  · exact (h.touchLine ..).commitFor ..

theorem State.Inv.nearInit {s : State} (h : s.Inv) (q : NearReq) : (s.nearInit q).st.Inv := (h.touchLine ..).commitFor ..

theorem State.Inv.nearOp {s : State} (h : s.Inv) (op : Nat) (q : NearReq) : (s.nearOp op q).st.Inv := by
  unfold State.nearOp
  split
  · exact h.nearFx ..
  · split
    · exact h.nearClaim ..
    · split
      · exact h.nearInit ..
      · exact h.nearAtomic ..

/-! ### The checks of a memory instruction -/

theorem State.Inv.reach {s : State} (h : s.Inv) (i : Issue) (q : Request) : (s.reach i q).1.Inv := by
  unfold State.reach
  split
  · split <;> exact h
  · dsimp only
    split <;> exact h.coalesce ..

/-- Where the checks stop an access, its answer carries a state that keeps the invariant. -/
theorem State.Inv.reach_stop {s : State} (h : s.Inv) (i : Issue) (q : Request) {x : Res} (e : (s.reach i q).2.1 = some x) :
    x.state.Inv := by
  revert e
  unfold State.reach
  split
  · split
    · rintro ⟨⟩
      exact h
    · exact nofun
  · dsimp only
    split
    · exact nofun
    · rintro ⟨⟩
      exact h.coalesce ..
    · rintro ⟨⟩
      exact (h.coalesce ..).machineCheck ..

theorem State.Inv.check {s : State} (h : s.Inv) (i : Issue) (q : Request) (host : List Located → Bool) (poison : Nat → Bool) :
    (s.check i q host poison).state.Inv := by
  unfold State.check
  dsimp only
  split
  next e => exact State.Inv.reach_stop h i q e
  · split
    · exact h.reach i q
    · exact h.reach i q

theorem State.Inv.issueEnded {s : State} (h : s.Inv) (i : Issue) (scalar : Bool) (faults : List LaneFault) :
    (i.ended scalar faults s).state.Inv := by
  unfold Issue.ended
  split <;> exact h

theorem releaseAtThen_inv {s : State} (h : s.Inv) (i : Issue) (at? : Option Nat) {go : State → Res}
    (hgo : ∀ t, t.Inv → (go t).state.Inv) : (releaseAtThen i at? s go).state.Inv := by
  unfold releaseAtThen
  split
  · exact hgo _ h
  · split
    next e => exact (h.release ..).of_eq Prod.fst e
    next e => exact hgo _ ((h.release ..).of_eq Prod.fst e)

theorem State.Inv.storeLine {s : State} (h : s.Inv) (id : Nat) (q : Ask) (bs : List StoreByte) : (s.storeLine id q bs).Inv := by
  unfold State.storeLine
  split
  · exact (((h.drainLine ..).updGang ..).nextStrong ..).ite (((h.drainLine ..).performWrite ..).ite (h.wcbStore ..))
  · exact h

theorem State.Inv.storeAll {s : State} (h : s.Inv) (id : Nat) (q : Ask) (bs : List StoreByte) : (s.storeAll id q bs).Inv :=
  h.foldl (fun _ ht _ => ht.storeLine ..) _

theorem State.Inv.landLoad {s : State} (h : s.Inv) (l : PendLoad) : (s.landLoad l).Inv := by
  unfold State.landLoad
  split
  · exact (h.updGang ..).acquireBy ..
  · exact h.of_mem

theorem State.Inv.issueEndLoad {s : State} (h : s.Inv) (i : Issue) (scalar : Bool) (l : PendLoad) :
    (i.endLoad scalar s l).state.Inv := by
  unfold Issue.endLoad
  split
  · exact (h.landLoad ..).issueEnded ..
  · exact h.of_mem

theorem State.Inv.padTakeElems {s : State} (h : s.Inv) (v : Nat) (es : List Elem) (size : Nat) :
    (s.padTakeElems v es size).1.Inv := by
  unfold State.padTakeElems
  refine foldl_inv Prod.fst h (fun q hq _ => ?_) _
  split
  · exact hq.padTakeRange ..
  · exact hq

/-! ### Loads, stores and FIFO words -/

theorem loadGlobal_inv {s : State} (h : s.Inv) (i : Issue) (kind reg size : Nat) (signed : Bool) (es : List Elem)
    (ls : List Located) (faults : List LaneFault) : (loadGlobal i s kind reg size signed es ls faults).state.Inv := by
  unfold loadGlobal
  refine Res.inv_ite h (Res.inv_ite h ?_)
  extract_lets t q
  have ht : t.Inv := (h.drainAll _).ite h
  have hq : q.st.Inv := ht.fetchAll ..
  exact Res.inv_ite ht (hq.issueEndLoad ..)

theorem loadPad_inv {s : State} (h : s.Inv) (i : Issue) (reg size : Nat) (es : List Elem) (faults : List LaneFault) :
    (loadPad i s reg size es faults).state.Inv := by
  unfold loadPad
  refine Res.inv_ite h ?_
  extract_lets r
  have hr : r.1.Inv := State.Inv.padTakeElems ((h.drainAll _).ite h) ..
  split
  · exact hr.raiseCrew ..
  · exact hr.issueEnded ..
  · exact hr.issueEndLoad ..

theorem storeGlobal_inv {s : State} (h : s.Inv) (i : Issue) (scalar : Bool) (ls : List Located) (data : Nat → List Byte)
    (faults : List LaneFault) : (storeGlobal i s scalar ls data faults).state.Inv := by
  unfold storeGlobal
  split
  · exact h
  · exact releaseAtThen_inv h _ _ (fun u hu => (hu.storeAll ..).issueEnded ..)

theorem storePad_inv {s : State} (h : s.Inv) (i : Issue) (size : Nat) (es : List Elem) (data : Nat → List Byte)
    (faults : List LaneFault) : (storePad i s size es data faults).state.Inv := by
  unfold storePad
  split
  · exact h
  · exact releaseAtThen_inv h _ _ (fun u hu => (hu.padWrite ..).issueEnded ..)

theorem execLd_inv {s : State} (h : s.Inv) (d a : BitVec 6) (z : BitVec 2) (x : BitVec 1) (o : BitVec 11) :
    Keeps (execLd d a z x o s) := by
  unfold execLd
  refine issue_inv h _ _ (fun _ u hu => ?_)
  dsimp only
  split
  next e => exact (hu.check ..).of_eq Checked.state e
  next e => exact loadGlobal_inv ((hu.check ..).of_eq Checked.state e) ..

theorem execSt_inv {s : State} (h : s.Inv) (d a : BitVec 6) (z : BitVec 2) (o : BitVec 11) : Keeps (execSt d a z o s) := by
  unfold execSt
  refine issue_inv h _ _ (fun _ u hu => ?_)
  dsimp only
  split
  next e => exact (hu.check ..).of_eq Checked.state e
  next e => exact storeGlobal_inv ((hu.check ..).of_eq Checked.state e) ..

theorem execVld_inv {s : State} (h : s.Inv) (d a b : BitVec 6) (z m : BitVec 2) (g : BitVec 4) :
    Keeps (execVld d a b z m g s) := by
  unfold execVld
  refine issue_inv h _ _ (fun _ u hu => ?_)
  split
  · dsimp only
    split
    next e => exact (hu.check ..).of_eq Checked.state e
    next e => exact loadPad_inv ((hu.check ..).of_eq Checked.state e) ..
  · dsimp only
    split
    next e => exact (hu.check ..).of_eq Checked.state e
    next e => exact loadGlobal_inv ((hu.check ..).of_eq Checked.state e) ..

theorem execVst_inv {s : State} (h : s.Inv) (d a b : BitVec 6) (z m : BitVec 2) (g : BitVec 4) :
    Keeps (execVst d a b z m g s) := by
  unfold execVst
  refine issue_inv h _ _ (fun _ u hu => ?_)
  split
  · dsimp only
    split
    next e => exact (hu.check ..).of_eq Checked.state e
    next e => exact storePad_inv ((hu.check ..).of_eq Checked.state e) ..
  · dsimp only
    split
    next e => exact (hu.check ..).of_eq Checked.state e
    next e => exact storeGlobal_inv ((hu.check ..).of_eq Checked.state e) ..

theorem State.Inv.prefetch {s : State} (h : s.Inv) (i : Issue) (va : Nat) : (s.prefetch i va).Inv := by
  unfold State.prefetch
  extract_lets line p r policy
  have hr : r.1.Inv := h.locate ..
  refine h.ite ?_
  split
  · exact hr
  · extract_lets a q t
    have hq : q.st.Inv := State.Inv.gatherPeerLine hr.gatherStart ..
    have ht : t.Inv := hr.touchWith ..
    exact hr.ite ((hr.ite (hq.addLoad _)).ite (hr.ite (hr.ite (ht.ite (ht.l1Fill ..)))))

theorem execPf_inv {s : State} (h : s.Inv) (a : BitVec 6) (o : BitVec 12) : Keeps (execPf a o s) := by
  unfold execPf
  refine issue_inv h _ _ (fun _ u hu => ?_)
  split
  · exact hu
  · exact hu.prefetch ..

theorem execVpf_inv {s : State} (h : s.Inv) (a b : BitVec 6) (g : BitVec 4) : Keeps (execVpf a b g s) :=
  issue_inv h _ _ (fun _ _ hu => hu.foldl (fun _ hv _ => hv.ite (hv.prefetch ..)) _)

theorem State.Inv.meetSlot {s : State} (h : s.Inv) (cl b n : Nat) : (s.meetSlot cl b n).1.Inv :=
  foldl_inv Prod.fst (b := (s, [])) h (fun _ hq _ => hq.meetSector ..) _

theorem State.Inv.pushEntry {s : State} (h : s.Inv) (cl b : Nat) (e : FifoEntry) : (s.pushEntry cl b e).Inv :=
  (h.setBank ..).renewSectors ..

theorem State.Inv.popEntry {s : State} (h : s.Inv) (cl b : Nat) : (s.popEntry cl b).1.Inv := by
  unfold State.popEntry
  dsimp only
  split
  · exact (h.meetSlot ..).of_mem
  · exact h.of_mem

theorem execFpush_inv {s : State} (h : s.Inv) (f : BitVec 4) (v : BitVec 6) (g : BitVec 4) : Keeps (execFpush f v g s) := by
  unfold execFpush
  refine issue_inv h _ _ (fun _ u hu => ?_)
  dsimp only
  split
  · exact hu
  · split
    · exact hu
    · refine releaseAtThen_inv hu _ _ (fun t ht => ?_)
      split
      · exact ht.of_mem
      · exact ((ht.setBank ..).pushEntry ..).of_mem

theorem execFpop_inv {s : State} (h : s.Inv) (f : BitVec 4) (d : BitVec 6) (g : BitVec 4) : Keeps (execFpop f d g s) := by
  unfold execFpop
  refine issue_inv h _ _ (fun _ u hu => ?_)
  dsimp only
  split
  · exact hu
  · split
    · exact hu.of_mem
    · split
      next e => exact (((((hu.setBank ..).popEntry ..).of_eq Prod.fst e).updGang ..).acquireBy ..).of_mem
      · exact hu.of_mem

/-! ### Atomics -/

theorem State.Inv.hostAtomicBegin {s : State} (h : s.Inv) (org : Origin) (lane a op : Nat) (wide : Bool) (x y : DWord) :
    (s.hostAtomicBegin org lane a op wide x y).1.Inv := by
  unfold State.hostAtomicBegin
  extract_lets n job
  split
  · exact h.of_mem
  · split
    · dsimp only
      split
      · exact h.of_mem
      · exact h
    · exact h.of_mem

theorem State.Inv.atomGatherResult {s : State} (h : s.Inv) (r : AtomGather) (o : AtomOp) (lane old flags : Nat) (bad : Bool) :
    (r.result s o lane old flags bad).g.st.Inv :=
  h

theorem State.Inv.atomGatherLater {s : State} (h : s.Inv) (r : AtomGather) (o : AtomOp) (lane va tag : Nat) :
    (r.later s o lane va tag).g.st.Inv :=
  h

theorem State.Inv.atomGatherHostLane {r : AtomGather} (h : r.g.st.Inv) (id : Nat) (o : AtomOp) (p : Located) (d : AtomData) :
    (r.hostLane id o p d).g.st.Inv := by
  unfold AtomGather.hostLane
  dsimp only
  split
  · exact (h.hostAtomicBegin ..).atomGatherResult ..
  · exact (h.hostAtomicBegin ..).atomGatherLater ..

theorem State.Inv.atomGatherOwnLane {r : AtomGather} (h : r.g.st.Inv) (g : Gang) (o : AtomOp) (p : Located) (d : AtomData) :
    (r.ownLane g o p d).g.st.Inv := by
  unfold AtomGather.ownLane
  split
  · exact h.nearOp ..
  · exact (h.nearOp ..).atomGatherResult ..

theorem State.Inv.atomGatherSlot {r : AtomGather} (h : r.g.st.Inv) (id : Nat) (o : AtomOp) (q : Ask) (ps : List Located)
    (data : Nat → AtomData) : (r.slot id o q ps data).g.st.Inv := by
  unfold AtomGather.slot
  split
  next g0 p ps _ =>
    have hs := (h.drainLine id (lineOf p.phys)).l1DropUnit (clusterOf g0.core) p.phys
    dsimp only
    split
    · split
      · exact (hs.sendStore ..).countAck ..
      · exact State.Inv.of_mem hs rfl
    · split
      · exact foldl_inv (fun v : AtomGather => v.g.st) hs (fun v hv x => State.Inv.atomGatherHostLane hv ..) _
      · exact foldl_inv (fun v : AtomGather => v.g.st) hs (fun v hv x => State.Inv.atomGatherOwnLane hv ..) _
  · exact h

theorem State.Inv.atomGatherLine {r : AtomGather} (h : r.g.st.Inv) (id : Nat) (o : AtomOp) (q : Ask) (ps : List Located)
    (data : Nat → AtomData) : (r.line id o q ps data).g.st.Inv :=
  foldl_inv (fun v : AtomGather => v.g.st) h (fun _ hu _ => State.Inv.atomGatherSlot hu ..) _

theorem State.Inv.atomGatherStrongLines {r : AtomGather} (h : r.g.st.Inv) (id : Nat) (o : AtomOp) (q : Ask) (ps : List Located)
    (data : Nat → AtomData) : (r.strongLines id o q ps data).g.st.Inv := by
  refine foldl_inv (fun v : AtomGather => v.g.st) h (fun u hu x => ?_) _
  dsimp only
  split
  · exact State.Inv.atomGatherLine hu ..
  · exact hu

theorem State.Inv.atomLanes {s : State} (h : s.Inv) (id : Nat) (o : AtomOp) (q : Ask) (ls : List Located)
    (data : Nat → AtomData) : (s.atomLanes id o q ls data).g.st.Inv :=
  foldl_inv (fun v : AtomGather => v.g.st) (State.Inv.atomGatherStrongLines h ..) (fun _ hu _ => State.Inv.atomGatherLine hu ..) _

theorem atomic_inv {t : State} (h : t.Inv) (i : Issue) (o : AtomOp) (scalar : Bool) (es : List Elem) (limit : Option Nat)
    (poison : Nat → Bool) (kind reg : Nat) (data : Nat → AtomData) :
    (atomic i t o scalar es limit poison kind reg data).state.Inv := by
  unfold atomic
  split
  next e => exact (h.check ..).of_eq Checked.state e
  next u _ ls _ e =>
    have hu : u.Inv := (h.check ..).of_eq Checked.state e
    refine Res.inv_ite hu (releaseAtThen_inv hu _ _ fun v0 hv0 => ?_)
    extract_lets v src r w k
    have hv : v.Inv := (hv0.drainAll _).ite hv0
    have hr : r.g.st.Inv := (hv.unreplayable _).atomLanes ..
    have hw : w.Inv := hr.updGang ..
    exact hw.issueEndLoad ..

theorem vecAtomic_inv {s : State} (h : s.Inv) (o : AtomOp) (d a : BitVec 6) (b : BitVec 5) (g : BitVec 4) :
    Keeps (vecAtomic o d a b g s) :=
  issue_inv h _ _ (fun _ _ hu => atomic_inv hu ..)

theorem scalarAtomic_inv {s : State} (h : s.Inv) (o : AtomOp) (d a : BitVec 6) (b : Option (BitVec 6)) :
    Keeps (scalarAtomic o d a b s) :=
  issue_inv h _ _ (fun _ _ hu => atomic_inv hu ..)

/-! ### The copy engine -/

theorem State.Inv.collectiveSettleOverlap {s : State} (h : s.Inv) (c : Collective) (sl : CopySlice) (pos : Nat)
    (data : List Byte) : (c.settleOverlap s sl pos data).1.Inv := by
  unfold Collective.settleOverlap
  dsimp only
  split
  · exact h
  · refine foldl_inv Prod.fst h (fun q hq _ => ?_) _
    split
    · exact hq
    · split
      · exact hq
      · exact hq.of_mem

theorem State.Inv.countBar {s : State} (h : s.Inv) (v off : Nat) (f : Bar → Bar) : (s.countBar v off f).Inv :=
  (h.barEvent ..).ite h

theorem State.Inv.countRead {s : State} (h : s.Inv) (sl : CopySlice) (n : Nat) : (s.countRead sl n).Inv := by
  unfold State.countRead
  split
  · exact h
  · exact h.countBar ..

theorem State.Inv.countLanded {s : State} (h : s.Inv) (coll : Nat) (sl : CopySlice) (pos n : Nat) :
    (s.countLanded coll sl pos n).Inv := by
  unfold State.countLanded
  refine State.Inv.foldl ?_ (fun t ht _ => ?_) _
  · split
    · exact h
    · split
      · exact h.of_mem
      · exact h.countBar ..
  · split
    · exact ht.countBar ..
    · exact ht

theorem State.Inv.engineFetch {s : State} (h : s.Inv) (coll : Nat) (sl : CopySlice) (first n phys leaf : Nat) :
    (s.engineFetch coll sl first n phys leaf).1.Inv := by
  unfold State.engineFetch
  split
  · dsimp only
    split
    · split
      · split
        · exact h
        · exact h.of_mem
      · exact h.of_mem
    · exact h.sliceBytesWith ..
  · exact h.of_mem

theorem State.Inv.engineMeet {s : State} (h : s.Inv) (c : Collective) (a n : Nat) : (s.engineMeet c a n).Inv := by
  unfold State.engineMeet
  split
  · exact h.readBacking ..
  · exact h.padMeet ..

theorem State.Inv.readSeg {s : State} (h : s.Inv) (c : Collective) (x : Xfer) (sl : CopySlice) (g : Seg) :
    (s.readSeg c x sl g).1.Inv := by
  unfold State.readSeg
  split
  · dsimp only
    split
    · exact h.engineMeet ..
    · exact (h.engineMeet ..).of_mem
  · refine foldl_inv Prod.fst h (fun q hq _ => ?_) _
    dsimp only
    split <;> exact hq.engineFetch ..

theorem State.Inv.readSegs {s : State} (h : s.Inv) (c : Collective) (gs : List Seg) : (s.readSegs c gs).1.Inv := by
  unfold State.readSegs
  refine foldl_inv Prod.fst h (fun q hq _ => ?_) _
  split
  · exact hq
  · exact hq.readSeg ..

theorem State.Inv.pieceRead {s : State} (h : s.Inv) (id : Nat) (x : Xfer) : (s.pieceRead id x).Inv := by
  unfold State.pieceRead
  split
  · exact h
  · refine State.Inv.postEvent (State.Inv.foldl (State.Inv.setColl ?_ _) ?_ _) _
    · refine foldl_inv Prod.fst (b := (s, [])) h (fun q hq _ => ?_) _
      exact hq.collectiveSettleOverlap ..
    · exact fun _ hu _ => hu.countRead ..

theorem State.Inv.offerColls {s : State} (h : s.Inv) (v : Nat) : (s.offerColls v).Inv := h.foldl (fun _ ht _ => ht.postOnce ..) _

theorem State.Inv.finishColl {s : State} (h : s.Inv) (id : Nat) : (s.finishColl id).Inv := by
  unfold State.finishColl
  split
  · exact h
  · exact ((((h.setColl ..).foldl (fun t ht _ => ht.completeColl ..) _).offerColls ..).retireColl ..).ite h

theorem State.Inv.copyRead {s : State} (h : s.Inv) (id : Nat) : (s.copyRead id).Inv := by
  unfold State.copyRead
  split
  · exact h
  · split
    · exact h
    · split
      · exact (h.setColl ..).finishColl ..
      · exact ((((h.readSegs ..).setColl ..).postEvent ..).pieceRead ..).ite (((h.readSegs ..).setColl ..).postEvent ..)

theorem State.Inv.keepBefore {s : State} (h : s.Inv) (id : Nat) (places : List Place) : (s.keepBefore id places).Inv := by
  unfold State.keepBefore
  split
  · exact h
  · exact h.ite (h.setColl ..)

theorem State.Inv.copyToPad {s : State} (h : s.Inv) (id v a : Nat) (data : List Byte) : (s.copyToPad id v a data).Inv := by
  unfold State.copyToPad
  dsimp only
  split
  next e => exact ((h.keepBefore ..).padLand ..).of_eq Prod.fst e
  next e => exact (((h.keepBefore ..).padLand ..).of_eq Prod.fst e).of_mem

theorem State.Inv.copyAcc {s : State} (h : s.Inv) (id : Nat) (sl : CopySlice) (data : List Byte) (poison : Bool)
    (phys leaf : Nat) : (s.copyAcc id sl data poison phys leaf).Inv :=
  (h.sendStore ..).ite ((h.tellOrigin ..).ite ((h.nearFxWith ..).l1DropUnit ..))

theorem State.Inv.writeRun {s : State} (h : s.Inv) (id : Nat) (sl : CopySlice) (g : Seg) (data : List Byte) (poison : Bool) :
    (s.writeRun id sl g data poison).Inv := by
  unfold State.writeRun
  split
  · exact h.foldl (fun t ht _ => ht.copyToPad ..) _
  · split
    · exact h.copyToPad ..
    · split
      · exact h
      · exact (h.copyAcc ..).ite ((h.keepBefore ..).performWrite ..)

theorem State.Inv.writePiece {s : State} (h : s.Inv) (id : Nat) (c : Collective) (x : Xfer) : (s.writePiece id c x).Inv := by
  unfold State.writePiece
  split
  · exact h.tellOrigin ..
  · exact h.foldl (fun t ht _ => ht.writeRun ..) _

theorem State.Inv.pieceLanded {s : State} (h : s.Inv) (id : Nat) (x : Xfer) : (s.pieceLanded id x).Inv := by
  unfold State.pieceLanded
  split
  · exact h
  · exact ((h.setColl ..).foldl (fun t ht _ => ht.countLanded ..) _).finishColl ..

theorem State.Inv.copyLand {s : State} (h : s.Inv) (id : Nat) : (s.copyLand id).Inv := by
  unfold State.copyLand
  split
  · exact h
  · split
    · exact h
    · split
      · exact h.pieceLanded ..
      · dsimp only
        split
        · exact (h.writePiece ..).pieceLanded ..
        · split
          · exact h.writePiece ..
          · exact (h.writePiece ..).of_mem

theorem State.Inv.ackColl {s : State} (h : s.Inv) (tag : Nat) : (s.ackColl tag).Inv := by
  unfold State.ackColl
  split
  · exact h
  · exact h.of_mem

theorem State.Inv.dataColl {s : State} (h : s.Inv) (tag : Nat) (data : List Byte) (bad : Nat → Bool) :
    (s.dataColl tag data bad).Inv := by
  unfold State.dataColl
  split
  · exact h
  · split
    · exact h
    · split
      · exact ((h.setColl ..).pieceRead ..).ite (h.setColl ..)
      · exact h

theorem State.Inv.openWith {s : State} (h : s.Inv) (c : CopySlice) : (s.openWith c).Inv := h.of_mem.completeColl ..

theorem State.Inv.uncharge {s : State} (h : s.Inv) (c : CopySlice) : (s.uncharge c).Inv :=
  h.foldl (fun _ ht _ => ht.countBar ..) _

theorem State.Inv.assemble {s : State} (h : s.Inv) (g : Nat) : (s.assemble g).Inv := by
  unfold State.assemble
  split
  · exact h
  next c _ =>
    refine h.ite ?_
    extract_lets t
    have ht : t.Inv := h.updGang ..
    split
    · exact ht.openWith _
    · extract_lets fits d
      have hu := (State.Inv.setColl (ht.ite (c := fits = true) (ht.deferTo g c.ctx 0x13 0)) d).completeColl d
      exact hu.ite (hu.uncharge _)

theorem State.Inv.startColl {s : State} (h : s.Inv) (v q : Nat) : (s.startColl v q).Inv := by
  unfold State.startColl
  split
  · exact h
  · split
    · refine State.Inv.finishColl ?_ ..
      split
      · exact h.of_mem
      · exact (h.setColl ..).countBar ..
    · refine State.Inv.postEvent ?_ ..
      split
      · exact h.of_mem
      · exact (h.setColl ..).countBar ..

theorem State.Inv.supply {s : State} (h : s.Inv) (c : CopySlice) : (s.supply c).Inv :=
  (h.foldl (fun t ht _ => ht.ite (ht.barEvent ..)) _).of_mem

theorem supplyThen_inv {t : State} (h : t.Inv) (i : Issue) {go : State → Res} (hgo : ∀ t, t.Inv → (go t).state.Inv) :
    (supplyThen i t go).state.Inv := by
  unfold supplyThen
  split
  · exact h
  · exact releaseAtThen_inv h _ _ (fun u hu => hgo _ hu)

theorem State.Inv.copyReach {s : State} (h : s.Inv) (i : Issue) (c : CopySlice) : (s.copyReach i c).1.Inv := by
  unfold State.copyReach
  extract_lets src dst a b
  have ha : a.1.Inv := h.coalesce ..
  have hb : b.1.Inv := ha.coalesce ..
  split
  · split <;> exact hb
  · exact ha

theorem refuseSlice_inv {t : State} (h : t.Inv) (i : Issue) (c : CopySlice) (cause addr : Nat) :
    (refuseSlice i t c cause addr).state.Inv :=
  supplyThen_inv h _ (fun _ hv => hv.supply ..)

theorem copyBody_inv {t : State} (h : t.Inv) (w : CopyWord) (i : Issue) : (copyBody w i t).state.Inv := by
  unfold copyBody
  extract_lets r c0 c list marked v
  have hv : v.Inv := (h.padMeet ..).ite h
  split
  · exact h
  · split
    · exact h
    · split
      · exact h
      · split
        next e => exact (hv.copyReach ..).of_eq Prod.fst e
        next e => exact ((hv.copyReach ..).of_eq Prod.fst e).machineCheck ..
        next e _ => exact (hv.copyReach ..).of_eq Prod.fst e
        next u _ _ _ e _ =>
          have hu : u.Inv := (hv.copyReach ..).of_eq Prod.fst e
          extract_lets d
          split
          · exact refuseSlice_inv hu ..
          · split
            · exact refuseSlice_inv hu ..
            · refine Res.inv_ite hu (supplyThen_inv hu i fun x hx => ?_)
              exact (hx.ite (hx.unreplayable _)).supply _

theorem copyWith_inv {s : State} (h : s.Inv) (w : CopyWord) : Keeps (copyWith w s) :=
  issue_inv h _ _ (fun _ _ hu => copyBody_inv hu ..)

/-! ### Ordering instructions -/

theorem execFenceAcq_inv {s : State} (h : s.Inv) (c : BitVec 3) : Keeps (execFenceAcq c s) :=
  issue_inv h _ _ (fun _ _ hu => releaseThen_inv hu _ _ (fun _ hv => hv.acquireBy ..))

theorem execFenceRel_inv {s : State} (h : s.Inv) (c : BitVec 3) : Keeps (execFenceRel c s) :=
  issue_inv h _ _ (fun _ _ hu => releaseThen_inv hu _ _ (fun _ hv => hv))

theorem execFenceFull_inv {s : State} (h : s.Inv) (c : BitVec 3) : Keeps (execFenceFull c s) :=
  issue_inv h _ _ (fun _ _ hu => releaseThen_inv hu _ _ (fun _ hv => hv.acquireBy ..))

theorem execFenceSv_inv {s : State} (h : s.Inv) (d : BitVec 6) : Keeps (execFenceSv d s) :=
  issue_inv h _ _ (fun _ _ hu => releaseThen_inv hu _ _ (fun _ hv => (hv.updGang ..).acquireBy ..))

theorem State.Inv.cutCluster {s : State} (h : s.Inv) (i : Issue) (cl : Nat) : (s.cutCluster i cl).1.Inv :=
  (h.foldl (fun t ht _ => ((ht.drainAll ..).releaseSlots ..).updGang ..) _).of_mem

theorem execFenceRemote_inv {s : State} (h : s.Inv) (a : BitVec 6) : Keeps (execFenceRemote a s) := by
  unfold execFenceRemote
  refine issue_inv h _ _ (fun _ u hu => ?_)
  split
  · dsimp only
    split
    · exact hu.acquireBy ..
    · exact hu
  · dsimp only
    split
    · exact hu
    · refine releaseThen_inv hu _ _ (fun t ht => ?_)
      split
      · exact (ht.cutCluster ..).acquireBy ..
      · exact ht.cutCluster ..

theorem execQfence_inv {s : State} (h : s.Inv) (q : BitVec 5) : Keeps (execQfence q s) := by
  unfold execQfence
  refine issue_inv h _ _ (fun _ u hu => ?_)
  split
  · exact hu
  · split
    · exact hu
    · dsimp only
      split
      · exact refuseSlice_inv hu ..
      · exact supplyThen_inv hu _ (fun t ht => ht.supply ..)

theorem State.Inv.walksIn {s : State} (h : s.Inv) (ctx end_ n va : Nat) : (State.walksIn ctx end_ n va s).Inv := by
  induction n generalizing s va with
  | zero => exact h
  | succ n ih =>
    unfold State.walksIn
    dsimp only
    split
    · exact h
    · split <;> exact ih (h.walked ..) _

theorem State.Inv.walksOver {s : State} (h : s.Inv) (ctx va n : Nat) : (s.walksOver ctx va n).Inv := h.walksIn ..
theorem State.Inv.tlbDrop {s : State} (h : s.Inv) (ctx base size : Nat) : (s.tlbDrop ctx base size).Inv := h.of_mem

theorem State.Inv.setLeaf {s : State} (h : s.Inv) (ctx : Nat) (l : Nat × Nat × Nat × Nat) (e : Nat) : (s.setLeaf ctx l e).Inv :=
  (h.commitWrite ..).tlbDrop ..

theorem State.Inv.dropMarked {s : State} (h : s.Inv) (phys size : Nat) : (s.dropMarked phys size).Inv := h.of_mem
theorem State.Inv.drainCtx {s : State} (h : s.Inv) (ctx : Nat) : (s.drainCtx ctx).Inv := h.foldl (fun _ ht _ => ht.drainAll ..) _

theorem State.Inv.sealAll {s : State} (h : s.Inv) (ctx base len : Nat) : (s.sealAll ctx base len).Inv :=
  h.foldl (fun _ ht _ => (ht.tlbDrop ..).ite (ht.setLeaf ..)) _

theorem State.Inv.unsealAll {s : State} (h : s.Inv) (ctx base len : Nat) : (s.unsealAll ctx base len).Inv :=
  h.foldl (fun _ ht _ => ((ht.setLeaf ..).dropMarked ..).ite ht) _

theorem sealFrame_inv {s : State} (h : s.Inv) (a b : BitVec 6) {go : Issue → Nat × Nat × Nat → State → Res}
    (hgo : ∀ i r t, t.Inv → (go i r t).state.Inv) : Keeps (sealFrame a b s go) := by
  unfold sealFrame
  refine issue_inv h _ _ (fun _ u hu => ?_)
  split
  · exact hu
  · split
    · exact hu
    · split
      · exact hu.of_mem
      · exact hgo _ _ _ hu

theorem execSealPages_inv {s : State} (h : s.Inv) (a b : BitVec 6) : Keeps (execSealPages a b s) := by
  unfold execSealPages
  refine sealFrame_inv h _ _ (fun _ _ u hu => releaseAtThen_inv hu _ _ (fun v hv => ?_))
  dsimp only
  split
  · exact hv.drainCtx ..
  · exact ((hv.drainCtx ..).walksOver ..).sealAll ..

theorem execUnsealPages_inv {s : State} (h : s.Inv) (a b : BitVec 6) : Keeps (execUnsealPages a b s) :=
  sealFrame_inv h _ _ (fun _ _ _ hu => releaseAtThen_inv hu _ _ (fun _ hv => (hv.walksOver ..).unsealAll ..))

theorem execDrysync_inv {s : State} (h : s.Inv) (d : BitVec 6) : Keeps (execDrysync d s) := by
  unfold execDrysync
  refine issue_inv h _ _ (fun _ u hu => ?_)
  split
  · exact hu.of_mem
  · exact hu
  · split
    · exact hu.of_mem
    · exact hu

/-! ### Matrix instructions -/

theorem State.Inv.queueJob {s : State} (h : s.Inv) (core : Nat) (j : MatJob) (e : Event) : (s.queueJob core j e).Inv := h.of_mem

theorem matFrame_inv {s : State} (h : s.Inv) (legal : Issue → State → Bool) {body : Issue → State → Res}
    (hbody : ∀ i t, t.Inv → (body i t).state.Inv) : Keeps (matFrame s legal body) := by
  unfold matFrame
  refine issue_inv h _ _ (fun _ u hu => ?_)
  split
  · exact hu
  · split
    · exact hu
    · exact hbody _ _ hu

theorem enterArray_inv {t : State} (h : t.Inv) (i : Issue) (marked : Bool) (j : MatJob) :
    (enterArray i t marked j).state.Inv := by
  unfold enterArray
  split
  · exact h
  · split
    · exact h
    · split
      · exact h
      · exact h.of_mem

theorem execMma_inv {s : State} (h : s.Inv) (c : BitVec 2) (p : BitVec 1) (a : BitVec 6) (q : BitVec 1) (b x : BitVec 6) :
    Keeps (execMma c p a q b x s) := by
  unfold execMma
  refine matFrame_inv h _ (fun _ u hu => ?_)
  split
  · dsimp only
    split <;> exact hu
  · dsimp only
    split
    · exact hu
    · exact enterArray_inv hu ..

theorem execMmaP_inv {s : State} (h : s.Inv) (c : BitVec 2) (p : BitVec 1) (a : BitVec 6) (q : BitVec 1) (b x : BitVec 6) :
    Keeps (execMmaP c p a q b x s) := by
  unfold execMmaP
  refine matFrame_inv h _ (fun _ u hu => ?_)
  split
  · dsimp only
    split <;> exact hu
  · split
    · dsimp only
      split <;> exact hu
    · split
      · dsimp only
        split <;> exact hu
      · dsimp only
        split
        · exact hu
        · exact enterArray_inv hu ..

theorem execMzero_inv {s : State} (h : s.Inv) (c : BitVec 2) : Keeps (execMzero c s) :=
  matFrame_inv h _ (fun _ _ hu => hu.queueJob ..)

theorem State.Inv.hold {s : State} (h : s.Inv) (g : Gang) (f : Bool) : (s.hold g f).Inv := h.of_mem

theorem take_inv {s : State} (h : s.Inv) (f : Bool) : Keeps (take f s) := by
  unfold take
  refine matFrame_inv h _ (fun _ u hu => ?_)
  dsimp only
  split
  · exact hu.of_mem
  · exact hu

theorem execMgive_inv {s : State} (h : s.Inv) : Keeps (execMgive s) := by
  unfold execMgive
  refine matFrame_inv h _ (fun _ u hu => ?_)
  split
  · exact hu.passTrowel ..
  · exact hu

theorem State.Inv.reachRanges {s : State} (h : s.Inv) (i : Issue) (need : Nat) (rs : List (Nat × Nat)) :
    (s.reachRanges i need rs).1.Inv :=
  h.coalesce ..

theorem matReach_inv {t : State} (h : t.Inv) (i : Issue) (kind need : Nat) (rs : List (Nat × Nat)) (marked : Bool)
    {go : State → List Located → Res} (hgo : ∀ t ls, t.Inv → (go t ls).state.Inv) :
    (matReach i t kind need rs marked go).state.Inv := by
  unfold matReach
  split
  · split
    · exact h
    · split
      · exact h
      · split
        · exact h
        · exact hgo _ _ h
  · split
    · split
      next e => exact (h.reachRanges ..).of_eq Prod.fst e
      next e => exact ((h.reachRanges ..).of_eq Prod.fst e).machineCheck ..
      next u ls e =>
        have hu : u.Inv := (h.reachRanges ..).of_eq Prod.fst e
        have hv : (if anyStrong ls then u.drainAll i.g.id else u).Inv := (hu.drainAll _).ite hu
        dsimp only
        split
        · exact hu
        · split
          · exact hu
          · split
            · exact releaseAtThen_inv hu _ _ fun _ hv => hgo _ _ hv
            · exact Res.inv_ite hv (hgo _ _ hv)
    · split
      · exact h
      · exact hgo _ _ h

theorem drain_inv {s : State} (h : s.Inv) (acc k : BitVec 2) (d : BitVec 6) (tr : Option (BitVec 6)) (x : BitVec 6) :
    Keeps (drain acc k d tr x s) :=
  matFrame_inv h _ (fun _ _ hu => matReach_inv hu _ _ _ _ _ (fun _ _ hv => hv.queueJob ..))

theorem move_inv {s : State} (h : s.Inv) (op need : Nat) (z n : BitVec 4) (k : BitVec 1) (r : BitVec 6) :
    Keeps (move op need z n k r s) :=
  matFrame_inv h _ (fun _ _ hu => matReach_inv hu _ _ _ _ _ (fun _ _ hv => hv.queueJob ..))

theorem State.Inv.startJob {s : State} (h : s.Inv) (core : Nat) (j : MatJob) (e : Event) : (s.startJob core j e).Inv := h.of_mem

theorem State.Inv.dueAgain {s : State} (h : s.Inv) (core id : Nat) (e : Event) : (s.dueAgain core id e).Inv :=
  (h.postEvent ..).ite h

theorem execMmaStart_inv {s : State} (h : s.Inv) (core : Nat) : Keeps (execMmaStart core s) := by
  unfold execMmaStart
  refine happen_inv ?_
  split
  · exact h.of_mem
  · exact h

theorem execMmaRetire_inv {s : State} (h : s.Inv) (core : Nat) : Keeps (execMmaRetire core s) := by
  unfold execMmaRetire
  refine happen_inv ?_
  split
  · exact (h.runJob ..).of_mem
  · exact h

theorem execMdrainStart_inv {s : State} (h : s.Inv) (core : Nat) : Keeps (execMdrainStart core s) := by
  unfold execMdrainStart
  refine happen_inv ?_
  split
  · exact h.of_mem
  · exact h

theorem execMdrainRetire_inv {s : State} (h : s.Inv) (core : Nat) : Keeps (execMdrainRetire core s) := by
  unfold execMdrainRetire
  refine happen_inv ?_
  split
  · exact ((h.runJob ..).postEvent ..).dueAgain ..
  · exact h

theorem execMzeroRetire_inv {s : State} (h : s.Inv) (core : Nat) : Keeps (execMzeroRetire core s) := by
  unfold execMzeroRetire
  refine happen_inv ?_
  split
  · exact h.runJob ..
  · exact h

theorem execTilePortRetire_inv {s : State} (h : s.Inv) (core : Nat) : Keeps (execTilePortRetire core s) := by
  unfold execTilePortRetire
  refine happen_inv ?_
  split
  · exact ((h.runJob ..).dueAgain ..).ite (h.runJob ..)
  · exact h

theorem State.Inv.arriveTrowel {s : State} (h : s.Inv) (core : Nat) : (s.arriveTrowel core).Inv := by
  unfold State.arriveTrowel
  split
  · exact h
  · split
    · exact h.passTrowel ..
    · split
      · exact h.of_mem
      · exact h.of_mem
      · exact h.passTrowel ..

/-! ### Retrieval instructions and events -/

theorem tableError_inv {t : State} (h : t.Inv) (i : Issue) (lanes : List Nat) (addr : Nat) :
    (tableError i t lanes addr).state.Inv :=
  h

theorem retrCheck_inv {t : State} (h : t.Inv) (i : Issue) (need : Nat) (ns : List Named) (pad : Option Nat) (lanes : List Nat)
    (bad : Option Nat) (marked : Bool) {go : State → List Located → Res} (hgo : ∀ t ls, t.Inv → (go t ls).state.Inv) :
    (retrCheck i t need ns pad lanes bad marked go).state.Inv := by
  unfold retrCheck
  split
  next e => exact (h.coalesce ..).of_eq Prod.fst e
  next e => exact ((h.coalesce ..).of_eq Prod.fst e).machineCheck ..
  next u ls e =>
    have hu : u.Inv := (h.coalesce ..).of_eq Prod.fst e
    extract_lets wrong
    split
    · exact hu
    · exact tableError_inv hu ..
    · refine Res.inv_ite (tableError_inv hu ..) ?_
      split
      · exact hu
      · exact Res.inv_ite hu (hgo _ _ hu)

theorem emptySlot_inv {t : State} (h : t.Inv) (i : Issue) : (emptySlot i t).state.Inv := tableError_inv h ..

theorem State.Inv.setSlot {s : State} (h : s.Inv) (g : Gang) (a va desc : Nat) (config : List DWord) (empty : Bool) :
    (s.setSlot g a va desc config empty).Inv :=
  h.of_mem

theorem execRfam_inv {s : State} (h : s.Inv) (a : BitVec 3) (d : BitVec 6) : Keeps (execRfam a d s) := by
  unfold execRfam
  refine issue_inv h _ _ (fun _ u hu => ?_)
  split
  · exact hu
  · dsimp only
    split
    · exact hu.of_mem
    · refine retrCheck_inv hu _ _ _ _ _ _ _ (fun t _ ht => ?_)
      split
      · exact (ht.drainVa ..).touch ..
      · split
        · exact tableError_inv ((ht.drainVa ..).touch ..) ..
        · exact ((ht.drainVa ..).touch ..).of_mem

theorem State.Inv.beginProbe {s : State} (h : s.Inv) (p : Probe) : (s.beginProbe p).state.Inv := by
  unfold State.beginProbe
  split
  · exact h.of_mem.finishProbe ..
  · exact h.of_mem.foldl (fun t ht _ => ht.postEvent ..) _

theorem execRprobe_inv {s : State} (h : s.Inv) (a : BitVec 3) (d k a3 : BitVec 6) : Keeps (execRprobe a d k a3 s) := by
  unfold execRprobe
  refine issue_inv h _ _ (fun _ u hu => ?_)
  split
  · dsimp only
    split
    · exact hu
    · exact emptySlot_inv hu ..
  · split
    · exact hu
    · refine retrCheck_inv hu _ _ _ _ _ _ _ (fun t _ ht => ?_)
      split
      · exact ht
      · exact ht.beginProbe ..

theorem State.Inv.queueRetr {s : State} (h : s.Inv) (i : Issue) (ins : Bool) (q : BucketReq) (batch : Nat) (after : Option Nat) :
    (s.queueRetr i ins q batch after).Inv :=
  h.of_mem

theorem State.Inv.queueLanes {s : State} (h : s.Inv) (i : Issue) (ins : Bool) (qs : List BucketReq) :
    (s.queueLanes i ins qs).Inv := by
  unfold State.queueLanes
  refine (h.of_mem.foldl (fun t ht _ => ht.queueRetr ..) _).foldl (fun t ht _ => ?_) _
  split
  · exact ht.of_mem
  · exact ht

theorem updateRows_inv {s : State} (h : s.Inv) (a : BitVec 3) (d : BitVec 6) (k n : Nat) (g : BitVec 4)
    (pairBad : List DWord → List Word → Bool)
    {go : Issue → HashSlot → List (Nat × Nat × Nat × Nat) → List (Nat × Word) → State → State}
    (hgo : ∀ i slot rows data t, t.Inv → (go i slot rows data t).Inv) : Keeps (updateRows a d k n g pairBad go s) := by
  unfold updateRows
  refine issue_inv h _ _ (fun _ u hu => ?_)
  split
  · exact emptySlot_inv hu ..
  · exact retrCheck_inv hu _ _ _ _ _ _ _ (fun t _ ht => (hgo _ _ _ _ _ ht).unreplayable ..)

theorem updateOne_inv {s : State} (h : s.Inv) (ins : Bool) (a : BitVec 3) (d k : BitVec 6) (g : BitVec 4) :
    Keeps (updateOne ins a d k g s) :=
  updateRows_inv h _ _ _ _ _ _ (fun _ _ _ _ _ ht => ht.queueLanes ..)

theorem State.Inv.moveRow {s : State} (h : s.Inv) (i : Issue) (slot : HashSlot) (xl : List (Nat × Nat × Nat × Nat))
    (old new row : Word) : (s.moveRow i slot xl old new row).Inv :=
  h.ite ((((h.queueRetr ..).queueRetr ..).postEvent ..).postEvent ..)

theorem execRmove_inv {s : State} (h : s.Inv) (a : BitVec 3) (d : BitVec 6) (k : BitVec 5) (g : BitVec 4) :
    Keeps (execRmove a d k g s) :=
  updateRows_inv h _ _ _ _ _ _ (fun _ _ _ _ _ ht => ht.foldl (fun _ hv _ => hv.moveRow ..) _)

theorem State.Inv.fetchRows {s : State} (h : s.Inv) (id : Nat) (l : PendLoad) (xs : List Located) : (s.fetchRows id l xs).1.Inv :=
  h.fetchPieces ..

theorem State.Inv.landLines {s : State} (h : s.Inv) (l : PendLoad) : (s.landLines l).Inv := by
  unfold State.landLines
  split
  · exact h
  · exact h.padWrite ..

theorem gatherRows_inv {u : State} (h : u.Inv) (i : Issue) (ls : List Located) (base pitch len n : Nat) :
    (gatherRows i u ls base pitch len n).state.Inv := by
  unfold gatherRows
  dsimp only
  split
  · exact (h.fetchRows ..).of_mem
  · split <;> exact (h.fetchRows ..).landLines ..

theorem gatherFrom_inv {t : State} (h : t.Inv) (i : Issue) (s' e : Nat) (rows : List Nat) (marked : Bool) :
    (gatherFrom i t s' e rows marked).state.Inv := by
  unfold gatherFrom
  extract_lets y o len parts
  split
  next e => exact (h.coalesce ..).of_eq Prod.fst e
  next e => exact ((h.coalesce ..).of_eq Prod.fst e).machineCheck ..
  next u ls e =>
    have hu : u.Inv := (h.coalesce ..).of_eq Prod.fst e
    split
    · exact hu
    · exact Res.inv_ite hu (gatherRows_inv hu ..)

theorem execRgath_inv {s : State} (h : s.Inv) (l : BitVec 6) (s' e : BitVec 5) : Keeps (execRgath l s' e s) := by
  refine issue_inv h _ _ fun i t ht => ?_
  have hp (n : Nat) := ht.padTakeRange i.g.crew (bits (i.g.sreg l.toNat).toNat 0 32) n
  dsimp only
  split
  · exact ht
  · split
    · exact ht
    · split
      · exact ht
      · split
        · exact (hp 16).raiseCrew ..
        · split
          · exact hp 16
          · split
            · exact hp 16
            · have hr := (hp 16).padTakeRange i.g.crew (bits (i.g.sreg l.toNat).toNat 0 32)
              split
              · exact (hr _).raiseCrew ..
              · split
                · exact hr _
                · exact gatherFrom_inv (hr _) ..

theorem execRstat_inv {s : State} (h : s.Inv) (a : BitVec 3) (d r : BitVec 6) (sel : BitVec 3) :
    Keeps (execRstat a d r sel s) := by
  refine issue_inv h _ _ fun i t ht => ?_
  extract_lets put
  split
  · split
    · exact ht.updGang ..
    · exact ht
  · extract_lets key bad
    split
    · exact ht
    · refine retrCheck_inv ht _ _ _ _ _ _ _ fun u _ hu => ?_
      extract_lets xl u' desc bucket v
      have hd : u'.Inv := hu.drainVa ..
      have hv : v.Inv := by
        unfold v
        split
        · exact hd.touch ..
        · exact hd
      split
      · exact hv.updGang ..
      · split
        · exact hv
        · exact hv.updGang ..

theorem State.Inv.readBucket {s : State} (h : s.Inv) (tag addr : Nat) : (s.readBucket tag addr).Inv := by
  unfold State.readBucket
  split
  · exact h
  · split
    · exact h
    · dsimp only
      split
      · exact h.probeRead ..
      · exact ((h.probeRead ..).finishProbe ..).ite (h.probeRead ..)

/-! ### Watches, task descriptors and range counters -/

theorem State.Inv.issuePutS {s : State} (h : s.Inv) (i : Issue) (d : BitVec 6) (x : DWord) : (i.putS s d x).Inv := h.of_mem

theorem State.Inv.watchWalks {s : State} (h : s.Inv) (ctx descVa n : Nat) : (s.watchWalks ctx descVa n).Inv :=
  (((h.walksOver ..).walksOver ..).walksOver ..).ite h

theorem installWatch_inv {t : State} (h : t.Inv) (i : Issue) (d : BitVec 6) (va n : Nat) (ps : List (Nat × Nat × Nat)) :
    (installWatch i t d va n ps).state.Inv := by
  unfold installWatch
  split
  · exact h
  · split
    · exact h
    · exact ((h.of_mem.writeDFields ..).unreplayable ..).issuePutS ..

theorem execWatch_inv {s : State} (h : s.Inv) (d a : BitVec 6) : Keeps (execWatch d a s) := by
  refine issue_inv h _ _ fun i t ht => ?_
  dsimp only
  split
  next e => exact (ht.coalesce ..).of_eq Prod.fst e
  next e => exact ((ht.coalesce ..).of_eq Prod.fst e).machineCheck ..
  next u ls e =>
    have hu : u.Inv := (ht.coalesce ..).of_eq Prod.fst e
    split
    · exact hu
    · split
      · exact hu.issuePutS ..
      · split
        · exact hu
        next p _ =>
          have hr := (hu.drainLine i.g.id (lineOf p.phys)).fetchPast i.g p
          split
          · exact hr.addLoad _
          · split
            · exact hr
            · split
              · exact (hr.watchWalks ..).issuePutS ..
              · exact installWatch_inv (hr.watchWalks ..) ..

theorem State.Inv.unpin {s : State} (h : s.Inv) (die ctx : Nat) (rs : List LeaseRange) : (s.unpin die ctx rs).Inv := h.of_mem
theorem State.Inv.unreserve {s : State} (h : s.Inv) (task : Nat) : (s.unreserve task).Inv := h.of_mem

theorem State.Inv.dropTask {s : State} (h : s.Inv) (k : HubTask) : (s.dropTask k).Inv := by
  unfold State.dropTask
  extract_lets t
  have ht : t.Inv := by
    unfold t
    split
    · exact h.unpin ..
    · exact h
  exact (ht.unreserve k.id).of_mem

theorem State.Inv.removeWatch {s : State} (h : s.Inv) (w : Watch) : (s.removeWatch w).Inv :=
  (h.foldl (fun t ht _ => ht.dropTask ..) _).of_mem

theorem execUnwatch_inv {s : State} (h : s.Inv) (d a : BitVec 6) : Keeps (execUnwatch d a s) := by
  unfold execUnwatch
  refine issue_inv h _ _ (fun _ u hu => ?_)
  split
  · exact hu.of_mem
  · exact (hu.removeWatch ..).of_mem

theorem execWstat_inv {s : State} (h : s.Inv) (d a : BitVec 6) (sel : BitVec 4) : Keeps (execWstat d a sel s) := by
  unfold execWstat
  refine issue_inv h _ _ (fun _ u hu => ?_)
  split
  · exact hu.of_mem
  · exact ((hu.writeDFields ..).ite hu).of_mem

theorem State.Inv.queueTask {s : State} (h : s.Inv) (k : HubTask) : (s.queueTask k).Inv := h.of_mem

theorem State.Inv.spillTask {s : State} (h : s.Inv) (k : HubTask) : (s.spillTask k).1.Inv := by
  unfold State.spillTask
  dsimp only
  split
  next e => exact ((h.areaStore ..).of_eq Prod.fst e).of_mem
  next e => exact ((h.areaStore ..).of_eq Prod.fst e).of_mem

theorem State.Inv.rewrite {s : State} (h : s.Inv) (die poster : Nat) : (s.rewrite die poster).Inv := by
  unfold State.rewrite
  split
  · exact h
  · exact (h.spillTask ..).of_mem

theorem State.Inv.postTask {s0 : State} (h : s0.Inv) (k : HubTask) : (s0.postTask k).1.Inv := by
  unfold State.postTask
  dsimp only
  split
  · exact h.rewrite ..
  · split
    · exact (h.rewrite ..).of_mem
    · split
      · exact h.rewrite ..
      · exact ((h.rewrite ..).spillTask ..).of_mem

theorem State.Inv.takeDescriptor {s : State} (h : s.Inv) (g : Gang) (ctx : Nat) (d : List Byte) :
    (s.takeDescriptor g ctx d).1.Inv := by
  unfold State.takeDescriptor
  split
  · exact h
  · exact h.postTask ..

theorem postFrom_inv {t : State} (h : t.Inv) (i : Issue) (d : BitVec 6) (ctx : Nat) (p : Located) :
    (postFrom i t d ctx p).state.Inv := by
  unfold postFrom
  dsimp only
  split
  · split
    · exact (h.gatherStart.gatherHostParts ..).addLoad ..
    · split
      · exact h.gatherStart.gatherHostParts ..
      · exact (((h.gatherStart.gatherHostParts ..).takeDescriptor ..).unreplayable ..).issuePutS ..
  · split
    · exact (h.gatherStart.gatherBeyond ..).addLoad ..
    · split
      · exact h.gatherStart.gatherBeyond ..
      · exact (((h.gatherStart.gatherBeyond ..).takeDescriptor ..).unreplayable ..).issuePutS ..

theorem execQpost_inv {s : State} (h : s.Inv) (d a b : BitVec 6) : Keeps (execQpost d a b s) := by
  refine issue_inv h _ _ fun i t ht => ?_
  dsimp only
  split
  · exact ht
  · split
    next e => exact (ht.coalesce ..).of_eq Prod.fst e
    next e => exact ((ht.coalesce ..).of_eq Prod.fst e).machineCheck ..
    next u ls e =>
      have hu : u.Inv := (ht.coalesce ..).of_eq Prod.fst e
      split
      · exact hu
      · refine releaseAtThen_inv hu _ _ fun v hv => Res.inv_ite (State.Inv.issuePutS hv ..) ?_
        split
        · exact hv
        · exact postFrom_inv hv ..

theorem State.Inv.issuePutClaim {s : State} (h : s.Inv) (r : NearResult) (i : Issue) (d : Nat) : (i.putClaim s d r).Inv :=
  h.of_mem

theorem counterOp_inv {t : State} (h : t.Inv) (i : Issue) (a : BitVec 6) (marked : Bool) {go : State → Located → Res}
    (hgo : ∀ t p, t.Inv → (go t p).state.Inv) : (counterOp i t a marked go).state.Inv := by
  unfold counterOp
  split
  next e => exact (h.check ..).of_eq Checked.state e
  next e =>
    split
    · exact (h.check ..).of_eq Checked.state e
    · exact (h.check ..).of_eq Checked.state e
    · split
      · exact (h.check ..).of_eq Checked.state e
      · exact releaseAtThen_inv ((h.check ..).of_eq Checked.state e) _ _
          (fun w hw => hgo _ _ ((hw.l1DropUnit ..).unreplayable ..))

theorem execClaim_inv {s : State} (h : s.Inv) (d : BitVec 5) (a : BitVec 6) : Keeps (execClaim d a s) := by
  unfold execClaim
  refine issue_inv h _ _ (fun _ u hu => counterOp_inv hu _ _ _ (fun v _ hv => ?_))
  split
  · exact ((hv.nearOp ..).issuePutClaim ..).acquireBy ..
  · exact hv.of_mem

theorem execRinit_inv {s : State} (h : s.Inv) (a : BitVec 6) (b : BitVec 4) : Keeps (execRinit a b s) := by
  refine issue_inv h _ _ fun i t ht => counterOp_inv ht _ _ _ fun u p hu => ?_
  extract_lets src q e
  refine Res.inv_ite (hu.nearOp ..) ?_
  dsimp only [Res.state]
  exact State.Inv.countAck (hu.sendStore ..) _

theorem State.Inv.advanceHead {s : State} (h : s.Inv) (w : Watch) : (s.advanceHead w).Inv :=
  ((h.writeDFields ..).postEvent ..).ite (h.writeDFields ..)

theorem State.Inv.readRing {s : State} (h : s.Inv) (w : Watch) : (s.readRing w).Inv := h.ite (h.deviceRead ..)

theorem execSpillRefill_inv {s : State} (h : s.Inv) (ctx watch : Nat) : Keeps (execSpillRefill ctx watch s) := by
  unfold execSpillRefill
  refine happen_inv ?_
  split
  · exact h
  · dsimp only
    split
    · exact h.readRing ..
    · exact (h.readRing ..).of_mem
    · exact (h.readRing ..).advanceHead ..
    · exact ((h.readRing ..).enterTrigger ..).advanceHead ..

/-! ### Pre-emption and restore -/

theorem State.Inv.askPreempt {s : State} (h : s.Inv) (drain : Bool) (v : Nat) : (s.askPreempt drain v).Inv := by
  unfold State.askPreempt
  split
  · exact h
  · exact h.ite ((((h.updCrew ..).postEvent ..).foldl (fun t ht _ => ht.postEvent ..) _).ite ((h.updCrew ..).postEvent ..))

theorem State.Inv.startPreempt {s : State} (h : s.Inv) (v : Nat) : (s.startPreempt v).Inv := h.askPreempt ..
theorem State.Inv.giveUp {s : State} (h : s.Inv) (id : Nat) : (s.giveUp id).Inv := h.of_mem
theorem State.Inv.lendTrowel {s : State} (h : s.Inv) (g : Gang) : (s.lendTrowel g).Inv := (h.giveTrowel ..).of_mem
theorem State.Inv.queueRestore {s : State} (h : s.Inv) (c : Crew) (cls : Nat) : (s.queueRestore c cls).Inv := h.of_mem

theorem State.Inv.saveGangs {s : State} (h : s.Inv) (c : Crew) : (s.saveGangs c).Inv :=
  (h.foldl (fun _ ht _ => ht.saveFields ..) _).saveFields ..

theorem State.Inv.saveArea {s : State} (h : s.Inv) (c : Crew) : (s.saveArea c).Inv := by
  unfold State.saveArea
  exact (h.saveGangs ..).saveFields ..

theorem State.Inv.parkCrew {s : State} (h : s.Inv) (c : Crew) : (s.parkCrew c).Inv := by
  unfold State.parkCrew
  extract_lets ms src t w
  have hsrc : src.Inv := State.Inv.updCrew (h.leaveFifos _) ..
  have ht : t.Inv := State.Inv.of_mem hsrc rfl
  have hw : w.Inv := ht.ite (ht.post _)
  exact (hw.queueRestore ..).postEvent _

theorem State.Inv.saveCrew {s : State} (h : s.Inv) (v : Nat) : (s.saveCrew v).Inv := by
  unfold State.saveCrew
  split
  · exact h
  · extract_lets a b d
    have ha : a.Inv := h.foldl (fun t ht _ => ht.drainAll _) _
    have hb : b.Inv := ha.foldl (fun t ht _ => ht.lendTrowel _) _
    have hd : d.Inv := (hb.holdRetrieval _).saveArea _
    exact (ha.postEvent _).ite (hd.ite ((hd.foldl (fun t ht _ => ht.giveUp _) _).parkCrew _))

theorem State.Inv.returnTrowel {s : State} (h : s.Inv) (g : Gang) : (s.returnTrowel g).Inv := by
  unfold State.returnTrowel
  split
  · exact h
  · exact ((h.updCore ..).postEvent ..).ite h

theorem State.Inv.readPages {s : State} (h : s.Inv) (ctx : Nat) (rs : List (Nat × Nat)) : (s.readPages ctx rs).1.Inv := by
  unfold State.readPages
  refine foldl_inv Prod.fst h (fun q hq _ => ?_) _
  split
  · exact hq
  · split
    next e =>
      split
      · exact (hq.deviceRead ..).of_eq Prod.fst e
      · exact ((hq.deviceRead ..).of_eq Prod.fst e).of_mem
    next e => exact (hq.deviceRead ..).of_eq Prod.fst e

theorem State.Inv.retakeLeases {s : State} (h : s.Inv) (k : HubTask) (rs : List LeaseRange) (tasks : List Nat) :
    (s.retakeLeases k rs tasks).Inv :=
  h.of_mem

theorem State.Inv.restoreCrew {s : State} (h : s.Inv) (c : Crew) (k : HubTask) (rs : List LeaseRange) :
    (s.restoreCrew c k rs).Inv := by
  unfold State.restoreCrew
  extract_lets src t u v
  have ht : t.Inv := State.Inv.of_mem (h.retakeLeases k rs (c.saved.map (·.task))) rfl
  have hu : u.Inv := (ht.updCrew ..).wakeSlices _
  have hv : v.Inv := State.Inv.foldl hu (fun _ hx g => (State.Inv.acquireBy hx g scopeMod).resendRetrieval g) _
  exact State.Inv.foldl hv (fun _ hx g => State.Inv.returnTrowel hx g) _

theorem State.Inv.tryRestore {s : State} (h : s.Inv) (c : Crew) (k : HubTask) (rs : List LeaseRange) :
    (s.tryRestore c k rs).Inv := by
  unfold State.tryRestore
  split
  next e => exact (((h.readPages ..).of_eq Prod.fst e).dropTask ..).of_mem
  next t e =>
    have ht : t.Inv := (h.readPages ..).of_eq Prod.fst e
    extract_lets r
    have hr : r.st.Inv := foldl_inv Gather.st ht.gatherStart (fun q hq _ => hq.gatherBeyond ..) _
    exact (hr.restoreCrew ..).ite (hr.addLoad _)

theorem State.Inv.areasCome {s : State} (h : s.Inv) (l : PendLoad) : (s.areasCome l).Inv := by
  unfold State.areasCome
  split
  · split
    · exact ((h.machineCheck ..).dropTask ..).of_mem
    · split
      · exact ((h.restoreCrew ..).postEvent ..).ite (h.postEvent ..)
      · exact h.of_mem
  · exact h

theorem execCrewRestore_inv {s : State} (h : s.Inv) (crew : Nat) : Keeps (execCrewRestore crew s) := by
  unfold execCrewRestore
  refine happen_inv ?_
  split
  · split
    · exact ((h.tryRestore ..).postEvent ..).ite h
    · exact h
  · exact h

theorem State.Inv.failRestore {s : State} (h : s.Inv) (k : HubTask) (v addr : Nat) : (s.failRestore k v addr).Inv := by
  unfold State.failRestore
  dsimp only
  split
  · exact (h.dropTask ..).faultCrew ..
  · exact h.dropTask ..

/-! ### Lease sets and discarded tasks -/

/-- The units of a lease set are read one by one, each after its walk. -/
theorem State.Inv.readUnits {s : State} (h : s.Inv) (ctx va n : Nat) : ∀ r, s.readUnits ctx va n = some r → r.1.Inv := by
  refine List.foldlRecOn (motive := fun o : Option SetRead => ∀ r, o = some r → r.1.Inv) _ _ (fun r e => Option.some.inj e ▸ h)
    fun o ho k _ => ?_
  split
  · exact nofun
  next t0 got aw =>
    have ht : (t0.walked ctx (va + 16 * k)).Inv := State.Inv.walked (ho _ rfl) ..
    generalize t0.walked ctx (va + 16 * k) = t at ht
    intro r e
    dsimp only at e
    split at e
    · cases e
    · split at e
      · cases e
      · exact Option.some.inj e ▸ State.Inv.touch ht ..
    · exact Option.some.inj e ▸ State.Inv.of_mem ht rfl

theorem State.Inv.walksTo {s : State} (h : s.Inv) (ctx end_ n va : Nat) : (State.walksTo ctx end_ n va s).Inv := by
  induction n generalizing s va with
  | zero => exact h
  | succ n ih => exact h.ite (ih (h.walked ..) _)

theorem State.Inv.leaseWalks {s : State} (h : s.Inv) (ctx : Nat) (rs : List LeaseRange) : (s.leaseWalks ctx rs).Inv :=
  h.foldl (fun _ ht _ => ht.walksTo ..) _

theorem State.Inv.pin {s : State} (h : s.Inv) (die ctx : Nat) (r : LeaseRange) : (s.pin die ctx r).Inv := h.of_mem.ite h.of_mem

theorem State.Inv.pinAll {s : State} (h : s.Inv) (die ctx : Nat) (rs : List LeaseRange) : (s.pinAll die ctx rs).Inv :=
  h.foldl (fun _ ht _ => ht.pin ..) _

theorem State.Inv.setLease {s : State} (h : s.Inv) (id : Nat) (l : LeaseState) : (s.setLease id l).Inv := h.of_mem

theorem State.Inv.freeEntry {s : State} (h : s.Inv) (k : HubTask) : (s.freeEntry k).Inv := by
  unfold State.freeEntry
  split
  · exact h.of_mem.foldl (fun t ht _ => ht.postEvent ..) _
  · exact h

theorem State.Inv.discard {s : State} (h : s.Inv) (k : HubTask) (info addr : Nat) : (s.discard k info addr).Inv :=
  ((((h.dropTask ..).freeEntry ..).post ..).postEvent ..).postEvent ..

theorem State.Inv.dropUnknown {s : State} (h : s.Inv) (k : HubTask) : (s.dropUnknown k).Inv :=
  ((((h.dropTask ..).freeEntry ..).post ..).postEvent ..).postEvent ..

theorem State.Inv.sendFault {s : State} (h : s.Inv) (k : HubTask) (f : PageFault) : (s.sendFault k f).Inv := by
  unfold State.sendFault
  dsimp only
  split
  · split
    · exact ((h.of_mem.postEvent ..).ite h.of_mem).setLease ..
    · exact (h.of_mem.postEvent ..).ite h.of_mem
  · exact (h.of_mem.postEvent ..).ite h.of_mem

theorem State.Inv.writeFault {s : State} (h : s.Inv) : (s.writeFault).Inv := by
  unfold State.writeFault
  split
  · exact (h.of_mem.commitWrite ..).ite ((h.of_mem.commitWrite ..).postEvent ..)
  · exact h

theorem State.Inv.pinTask {s : State} (h : s.Inv) (k : HubTask) (rs : List LeaseRange) : (s.pinTask k rs).Inv :=
  (((h.pinAll ..).setLease ..).postEvent ..).ite ((h.setLease ..).postEvent ..)

theorem State.Inv.walkTask {s0 : State} (h : s0.Inv) (k : HubTask) (rs : List LeaseRange) : (s0.walkTask k rs).Inv := by
  unfold State.walkTask
  extract_lets all there s fs
  have hs : s.Inv := h.ite (h.leaseWalks ..)
  exact (((hs.setLease ..).postEvent _).ite (hs.pinTask ..)).ite ((hs.setLease ..).foldl (fun t ht _ => ht.sendFault ..) _)

theorem State.Inv.badSet {s : State} (h : s.Inv) (k : HubTask) : (s.badSet k).Inv := h.discard ..

theorem State.Inv.setEntries {s : State} (h : s.Inv) (k : HubTask) (n : Nat) (got : Store Byte) : (s.setEntries k n got).Inv := by
  unfold State.setEntries
  split
  · exact h.badSet ..
  · exact h.walkTask ..

theorem State.Inv.setHeader {s : State} (h : s.Inv) (k : HubTask) (header : Nat) : (s.setHeader k header).Inv := by
  unfold State.setHeader
  split
  · exact h.badSet k
  next n _ =>
    have hr := State.Inv.readUnits h k.ctx (k.leaseVa + 16) n
    split
    · exact h.badSet k
    next e => exact (hr _ e).setEntries ..
    next e => exact ((hr _ e).addLoad _).setLease ..

theorem State.Inv.readSet {s : State} (h : s.Inv) (k : HubTask) : (s.readSet k).Inv := by
  unfold State.readSet
  split
  · exact h.pinTask ..
  · split
    · exact h.badSet k
    · have hr := State.Inv.readUnits h k.ctx k.leaseVa 1
      split
      · exact h.badSet k
      next e => exact (hr _ e).setHeader ..
      next e => exact ((hr _ e).addLoad _).setLease ..

theorem State.Inv.establish {s : State} (h : s.Inv) (k : HubTask) : (s.establish k).Inv := by
  unfold State.establish
  split
  · exact (h.walkTask ..).ite (h.dropTask ..)
  · exact (h.postEvent ..).ite (h.readSet ..)
  · exact h.walkTask ..
  · exact h

theorem execLeaseEstablish_inv {s : State} (h : s.Inv) (task : Nat) : Keeps (execLeaseEstablish task s) := by
  unfold execLeaseEstablish
  refine happen_inv ?_
  split
  · exact (h.establish ..).ite h
  · exact h

theorem State.Inv.walkAgain {s0 : State} (h : s0.Inv) (k : HubTask) (rs : List LeaseRange) (rest : List (Nat × Nat × Nat))
    (va : Nat) : (s0.walkAgain k rs rest va).Inv := by
  unfold State.walkAgain
  split
  · dsimp only
    split
    · exact ((h.walked ..).setLease ..).sendFault ..
    · exact (h.walked ..).walkTask ..
  · dsimp only
    split
    · exact ((h.walked ..).setLease ..).sendFault ..
    · exact (h.walked ..).of_mem

theorem State.Inv.deny {s : State} (h : s.Inv) (k : HubTask) (va kind : Nat) : (s.deny k va kind).Inv := by
  unfold State.deny
  split
  · exact h.failRestore ..
  · exact h.discard ..

theorem State.Inv.leaseReply {s : State} (h : s.Inv) (seq code : Nat) : (s.leaseReply seq code).Inv := by
  unfold State.leaseReply
  split
  · exact h
  · split
    · exact (h.walkAgain ..).ite ((h.deny ..).ite h)
    · exact h

theorem State.Inv.standLease {s0 : State} (h : s0.Inv) (die ctx : Nat) (rs : List LeaseRange) :
    (s0.standLease die ctx rs).1.Inv := by
  unfold State.standLease
  split
  · dsimp only
    split
    · exact h
    · exact (h.pinAll ..).of_mem
  · dsimp only
    split
    · exact h.leaseWalks ..
    · exact ((h.leaseWalks ..).pinAll ..).of_mem

theorem State.Inv.loosen {s : State} (h : s.Inv) (ctx base len : Nat) (l : Lease) : (s.loosen ctx base len l).Inv := h.of_mem

theorem State.Inv.revoke {s : State} (h : s.Inv) (ctx base len : Nat) : (s.revoke ctx base len).Inv :=
  (((h.foldl (fun t ht _ => ht.loosen ..) _).of_mem).foldl (fun t ht _ => ht.unpin ..) _).foldl
    (fun t ht _ => ((ht.unpin ..).setLease ..).postEvent ..) _

/-! ### Islands -/

theorem State.Inv.setIsland {s : State} (h : s.Inv) (n : Nat) (x : IslSt) : (s.setIsland n x).Inv := h.of_mem
theorem State.Inv.moveIsland {s : State} (h : s.Inv) (n : Nat) : (s.moveIsland n).Inv := h.ite ((h.setIsland ..).postEvent ..)

theorem State.Inv.writeIsl {s : State} (h : s.Inv) (n : Nat) (x : DWord) : (s.writeIsl n x).Inv :=
  (h.setIsland ..).ite ((h.setIsland ..).moveIsland ..)

theorem State.Inv.endChange {s : State} (h : s.Inv) (n : Nat) : (s.endChange n).Inv :=
  ((((h.setIsland ..).moveIsland ..).postEvent ..).ite ((h.setIsland ..).moveIsland ..)).ite h

theorem State.Inv.powerDown {s : State} (h : s.Inv) (n : Nat) : (s.powerDown n).Inv := h.of_mem

theorem State.Inv.stepDie {s : State} (h : s.Inv) (ns : List Nat) : (s.stepDie ns).Inv :=
  ((h.foldl (fun t ht _ => ht.powerDown ..) _).of_mem).ite (((h.foldl (fun t ht _ => ht.powerDown ..) _).of_mem).machineCheck ..)

theorem execPowerStepDown_inv {s : State} (h : s.Inv) : Keeps (execPowerStepDown s) := by
  unfold execPowerStepDown
  refine happen_inv ?_
  split
  · exact h.of_mem.stepDie ..
  · split
    · exact h.of_mem.stepDie ..
    · exact h.ite (h.of_mem.machineCheck ..)

theorem State.Inv.powerUp {s : State} (h : s.Inv) (n : Nat) : (s.powerUp n).Inv := h.of_mem

theorem execPowerStepUp_inv {s : State} (h : s.Inv) (die : Nat) : Keeps (execPowerStepUp die s) :=
  happen_inv ((h.of_mem.foldl (fun t ht _ => ht.powerUp ..) _).ite h)

/-! ### System instructions and hint words -/

theorem command_inv {s : State} (h : s.Inv) (regs : List (BitVec 6)) {body : Issue → State → Res}
    (hbody : ∀ i t, t.Inv → (body i t).state.Inv) : Keeps (command regs body s) := by
  unfold command
  refine issue_inv h _ _ (fun _ u hu => ?_)
  split
  · exact hu
  · split
    · exact hu
    · exact hbody _ _ hu

theorem execSysrd_inv {s : State} (h : s.Inv) (d : BitVec 6) (n : BitVec 12) : Keeps (execSysrd d n s) := by
  unfold execSysrd
  refine issue_inv h _ _ (fun _ u hu => ?_)
  split
  · exact hu
  · split
    · exact hu
    · exact hu.of_mem

theorem State.Inv.writeTrap {s : State} (h : s.Inv) (i : Issue) (f : Split → Split) : (s.writeTrap i f).Inv :=
  h.ite (h.updGang ..)

theorem State.Inv.sysWrite {s : State} (h : s.Inv) (i : Issue) (n : Nat) (x : DWord) {p : State} (e : s.sysWrite i n x = some p) :
    p.Inv := by
  revert e
  unfold State.sysWrite
  split
  · rintro ⟨⟩
    exact h.updGang ..
  · rintro ⟨⟩
    exact h.updGang ..
  · rintro ⟨⟩
    exact h.writeTrap ..
  · rintro ⟨⟩
    exact h.writeTrap ..
  · rintro ⟨⟩
    exact h.writeTrap ..
  · rintro ⟨⟩
    exact h.writeTrap ..
  · split
    · rintro ⟨⟩
      exact h.writeIsl ..
    · exact nofun

theorem execSyswr_inv {s : State} (h : s.Inv) (a : BitVec 6) (n : BitVec 12) : Keeps (execSyswr a n s) := by
  unfold execSyswr
  refine issue_inv h _ _ (fun _ u hu => ?_)
  split
  · exact hu
  · split
    · exact hu
    next e =>
      split
      · exact hu
      · exact hu.sysWrite _ _ _ e

theorem tret_inv {s : State} (h : s.Inv) {go : Issue → State → Res} (hgo : ∀ i t, t.Inv → (go i t).state.Inv) :
    Keeps (tret go s) := by
  unfold tret
  refine issue_inv h _ _ (fun _ u hu => ?_)
  split
  · exact hu
  · split
    · exact hu.of_mem
    · exact hgo _ _ hu

theorem State.Inv.leaveTrap {s : State} (h : s.Inv) (i : Issue) (f : Split → Split) : (s.leaveTrap i f).state.Inv := h.of_mem
theorem execTretR_inv {s : State} (h : s.Inv) : Keeps (execTretR s) := tret_inv h (fun _ _ hu => hu.leaveTrap ..)
theorem State.Inv.skipGroup {s : State} (h : s.Inv) (i : Issue) (n : Nat) : (s.skipGroup i n).state.Inv := h.leaveTrap ..

theorem execTretS_inv {s : State} (h : s.Inv) : Keeps (execTretS s) := by
  unfold execTretS
  refine tret_inv h (fun _ u hu => ?_)
  dsimp only
  split
  · exact hu.skipGroup ..
  · split
    · exact (foldl_inv Gather.st hu.gatherStart (fun q hq _ => hq.gatherBeyond ..) _).skipGroup ..
    · exact (foldl_inv Gather.st hu.gatherStart (fun q hq _ => hq.gatherBeyond ..) _).of_mem

theorem malformed_inv {t : State} (h : t.Inv) (x : DWord) : (malformed t x).state.Inv := h.of_mem

theorem withRange_inv {t : State} (h : t.Inv) (i : Issue) (a b : BitVec 6) {go : Nat × Nat × Nat → Res}
    (hgo : ∀ r, (go r).state.Inv) : (withRange i t a b go).state.Inv := by
  unfold withRange
  split
  · exact hgo _
  · exact malformed_inv h ..

theorem standRanges_inv {t : State} (h : t.Inv) (i : Issue) (d : BitVec 6) (ctx : Nat) (rs : List LeaseRange) :
    (standRanges i t d ctx rs).state.Inv := by
  unfold standRanges
  dsimp only
  split
  · exact h
  · exact (h.standLease ..).of_mem

theorem standEntries_inv {t : State} (h : t.Inv) (i : Issue) (d : BitVec 6) (ctx : Nat) (va : DWord) (n : Nat)
    (got : Store Byte) : (standEntries i t d ctx va n got).state.Inv := by
  unfold standEntries
  split
  · exact malformed_inv h ..
  · exact standRanges_inv h ..

theorem standHeader_inv {t : State} (h : t.Inv) (i : Issue) (d : BitVec 6) (ctx : Nat) (va : DWord) (header : Nat) :
    (standHeader i t d ctx va header).state.Inv := by
  unfold standHeader
  split
  · exact malformed_inv h va
  next n _ =>
    have hr := State.Inv.readUnits h ctx (va.toNat + 16) n
    split
    · exact malformed_inv h va
    next e => exact standEntries_inv (hr _ e) ..
    next e => exact (hr _ e).addLoad _

theorem execLease_inv {s : State} (h : s.Inv) (d a b : BitVec 6) : Keeps (execLease d a b s) := by
  refine command_inv h _ fun i t ht => ?_
  dsimp only
  split
  · exact malformed_inv ht _
  · have hr := State.Inv.readUnits ht (bits (i.g.sreg b.toNat).toNat 0 16) (i.g.sreg a.toNat).toNat 1
    split
    · exact malformed_inv ht _
    next e => exact standHeader_inv (hr _ e) ..
    next e => exact (hr _ e).addLoad _

theorem State.Inv.revokeRange {t : State} (h : t.Inv) (ctx base len : Nat) : (t.revokeRange ctx base len).state.Inv := by
  unfold State.revokeRange
  dsimp only
  split
  · exact h.revoke ..
  · exact h.foldl (fun u hu _ => hu.startPreempt ..) _

theorem execUnlease_inv {s : State} (h : s.Inv) (a b : BitVec 6) : Keeps (execUnlease a b s) := by
  unfold execUnlease
  refine command_inv h _ (fun _ u hu => withRange_inv hu _ _ _ (fun _ => ?_))
  split
  · split
    · exact hu.revokeRange ..
    · exact hu
  · exact hu.revokeRange ..

theorem State.Inv.dropRange {s : State} (h : s.Inv) (ctx base len : Nat) : (s.dropRange ctx base len).Inv := by
  unfold State.dropRange
  extract_lets t
  have ht : t.Inv := h.of_mem.ite (h.tlbDrop ..)
  exact ht.of_mem

theorem execTlbinv_inv {s : State} (h : s.Inv) (a b : BitVec 6) : Keeps (execTlbinv a b s) :=
  command_inv h _ (fun _ _ hu => withRange_inv hu _ _ _ (fun _ => hu.dropRange ..))

theorem State.Inv.sendToken {s : State} (h : s.Inv) (ctx m : Nat) : (s.sendToken ctx m).Inv := h.of_mem

theorem State.Inv.killCtx {s : State} (h : s.Inv) (ctx : Nat) : (s.killCtx ctx).Inv := by
  unfold State.killCtx
  extract_lets vs a b d e hs f
  have ha : a.Inv := h.foldl (fun t ht _ => ht.dropTask _) _
  have hb : b.Inv := ha.foldl (fun t ht _ => ht.removeWatch _) _
  have hd : d.Inv := hb.foldl (fun t ht _ => ht.endCrew ..) _
  have hf : f.Inv := hd.of_mem
  exact hf.foldl (fun t ht _ => ht.sendToken ..) _

theorem execCtxkill_inv {s : State} (h : s.Inv) (d a : BitVec 6) : Keeps (execCtxkill d a s) := by
  unfold execCtxkill
  refine command_inv h _ (fun _ u hu => ?_)
  split
  · split
    · exact hu
    · exact hu.of_mem
  · dsimp only
    split
    · exact hu.of_mem
    · split
      · exact hu.killCtx ..
      · exact (hu.killCtx ..).of_mem

theorem State.Inv.stopClocks {s : State} (h : s.Inv) : (s.stopClocks).Inv := h.of_mem

theorem execHalt_inv {s : State} (h : s.Inv) : Keeps (execHalt s) := by
  unfold execHalt
  refine command_inv h _ (fun _ u hu => ?_)
  split
  · split
    · exact hu.of_mem
    · exact hu
  · dsimp only
    split
    · exact (hu.foldl (fun t ht _ => ht.killCtx ..) _).of_mem
    · exact hu.foldl (fun t ht _ => ht.killCtx ..) _

theorem State.Inv.clearFlag {s : State} (h : s.Inv) (n : Nat) : (s.clearFlag n).Inv := h.of_mem

theorem execWfe_inv {s : State} (h : s.Inv) (a : BitVec 6) : Keeps (execWfe a s) := by
  unfold execWfe
  refine command_inv h _ (fun _ u hu => ?_)
  split
  · dsimp only
    split
    · exact hu.of_mem
    · exact hu
  · dsimp only
    split
    · exact hu.of_mem
    · exact hu

theorem State.Inv.signalCore {s : State} (h : s.Inv) (n : Nat) : (s.signalCore n).Inv := h.of_mem.ite h.of_mem

theorem execSignal_inv {s : State} (h : s.Inv) (a b : BitVec 6) : Keeps (execSignal a b s) := by
  unfold execSignal
  refine command_inv h _ (fun _ u hu => ?_)
  dsimp only
  split
  · exact malformed_inv hu ..
  · split
    · exact malformed_inv hu ..
    · refine releaseAtThen_inv hu _ _ (fun t ht => ?_)
      split
      · exact ht.of_mem
      · exact (ht.unreplayable ..).signalCore ..

theorem execPreempt_inv {s : State} (h : s.Inv) (d a : BitVec 6) : Keeps (execPreempt d a s) := by
  unfold execPreempt
  refine command_inv h _ (fun _ u hu => ?_)
  dsimp only
  split
  · split
    · exact hu.of_mem
    · exact hu
  · exact hu.of_mem
  · split
    · exact hu.of_mem
    · exact hu.startPreempt ..

theorem State.Inv.setRebuild {s : State} (h : s.Inv) (b : Rebuild) : (s.setRebuild b).Inv := h.of_mem

theorem State.Inv.goOnRebuild {s : State} (h : s.Inv) (b : Rebuild) : (s.goOnRebuild b).Inv := by
  unfold State.goOnRebuild
  split
  · exact h.of_mem
  · split
    · dsimp only
      split <;> exact h.of_mem
    · dsimp only
      split <;> exact h.of_mem

theorem State.Inv.startRebuild {s : State} (h : s.Inv) (rs : List Nat) (lost repl : Nat) (fs : Nat → List Nat) :
    (s.startRebuild rs lost repl fs).Inv := by
  unfold State.startRebuild
  refine h.of_mem.foldl (fun t ht _ => ?_) _
  split
  · exact ht.goOnRebuild ..
  · exact ht

theorem execRbld_inv {s : State} (h : s.Inv) (d a b : BitVec 6) : Keeps (execRbld d a b s) := by
  unfold execRbld
  refine command_inv h _ (fun _ u hu => ?_)
  dsimp only
  split
  · exact malformed_inv hu ..
  · exact (hu.startRebuild ..).of_mem

theorem hint_inv {s : State} (h : s.Inv) (dup : Hints → Bool) (f : Hints → Hints) : Keeps (hint dup f s) := by
  unfold hint
  split
  · exact trivial
  · dsimp only
    split
    · exact State.Inv.issueFinish (r := .trap ..) h _
    · exact (h.of_mem.updGang ..).settle

/-! ### The dispatch hubs -/

theorem State.Inv.setHub {s : State} (h : s.Inv) (d : Nat) (a : HubSt) : (s.setHub d a).Inv := h.of_mem

theorem State.Inv.tlbRange {s : State} (h : s.Inv) (cl ctx end_ n va : Nat) : (State.tlbRange cl ctx end_ n s va).Inv := by
  induction n generalizing s va with
  | zero => exact h
  | succ n ih =>
    unfold State.tlbRange
    dsimp only
    split
    · exact h
    · split
      · exact h
      · exact ih (h.ite (h.tlbAdd ..)) _

theorem State.Inv.countFired {s : State} (h : s.Inv) (k : HubTask) : (s.countFired k).Inv := by
  unfold State.countFired
  split
  · split
    · exact h.writeDFields ..
    · exact h
  · exact h

theorem State.Inv.place {s : State} (h : s.Inv) (k : HubTask) (core : Nat) (rs : List LeaseRange) : (s.place k core rs).Inv := by
  unfold State.place
  extract_lets num val slots gs c crew src t u v
  have ht : t.Inv := State.Inv.of_mem (h.useCrewNum core num) rfl
  have hu : u.Inv := by
    refine State.Inv.foldl ht (fun q hq r => ?_) rs
    exact hq.tlbRange ..
  have hv : v.Inv := hu.unreserve _
  have hw := ((hv.countFired k).freeEntry k).postEvent (.hubSpillRefill k.die)
  exact State.Inv.foldl hw (fun q hq g => State.Inv.acquireBy hq g scopeMod) gs

theorem State.Inv.handOver {s : State} (h : s.Inv) (k : HubTask) (taker : Nat) : (s.handOver k taker).Inv :=
  ((((h.dropTask ..).of_mem).postEvent ..).postOnce ..).postEvent ..

theorem State.Inv.serve {s : State} (h : s.Inv) (d : Nat) (k : HubTask) : (s.serve d k).Inv := by
  unfold State.serve
  split
  · exact h
  · exact h.of_mem
  · exact h.place ..
  · split
    · exact h.handOver ..
    · exact h

theorem State.Inv.consider {s : State} (h : s.Inv) (d : Nat) : (s.consider d).Inv := by
  unfold State.consider
  split
  · split
    · exact h.dropTask ..
    · exact h.dropUnknown ..
  · split
    · exact h
    · split
      · split
        · exact (h.setHub ..).serve ..
        · exact ((h.setHub ..).serve ..).of_mem
      · split
        · exact (h.setHub ..).serve ..
        · exact ((h.setHub ..).serve ..).of_mem

theorem State.Inv.updTask {s : State} (h : s.Inv) (id : Nat) (f : HubTask → HubTask) : (s.updTask id f).Inv := h.of_mem

theorem State.Inv.age {s : State} (h : s.Inv) (id : Nat) : (s.age id).Inv := by
  unfold State.age
  split
  · exact h
  · exact (((h.updTask ..).postEvent ..).postEvent ..).ite h

theorem execCoreReservation_inv {s : State} (h : s.Inv) (task : Nat) : Keeps (execCoreReservation task s) := by
  unfold execCoreReservation
  refine happen_inv ?_
  split
  · exact h
  · split
    · exact h
    · exact h.of_mem

theorem State.Inv.takeSpilled {s : State} (h : s.Inv) (k : HubTask) (va : Nat) (b : List Byte) : (s.takeSpilled k va b).Inv :=
  (h.machineCheck ..).ite ((h.updTask ..).postEvent ..)

theorem State.Inv.unspill {s : State} (h : s.Inv) (d : Nat) : (s.unspill d).Inv := by
  unfold State.unspill
  split
  · exact h
  next k _ =>
    refine h.ite ?_
    extract_lets va
    have hr := h.areaRead k.poster va 128
    split
    next e => exact (hr.of_eq AreaRead.state e).machineCheck ..
    next e => exact (hr.of_eq AreaRead.state e).takeSpilled ..
    next e => exact (hr.of_eq AreaRead.state e).addLoad _

theorem State.Inv.descriptorComes {s : State} (h : s.Inv) (l : PendLoad) : (s.descriptorComes l).Inv := by
  unfold State.descriptorComes
  split
  · exact h.of_mem
  · exact (h.postEvent ..).ite ((h.machineCheck ..).ite (h.takeSpilled ..))

theorem State.Inv.breakWaits {s : State} (h : s.Inv) (g : Gang) : (s.breakWaits g).Inv :=
  (h.leaveFifos ..).foldl (fun _ ht _ => ht.takeCause ..) _

theorem State.Inv.scan {s : State} (h : s.Inv) (d : Nat) : (s.scan d).Inv := (h.foldl (fun t ht _ => ht.breakWaits ..) _).of_mem

/-! ### Events of gangs, clusters and the copy engine -/

theorem State.Inv.refillFails {s : State} (h : s.Inv) (g : Gang) (va : Nat) : (s.refillFails g va).Inv := h.of_mem

theorem State.Inv.refillEntry {s : State} (h : s.Inv) (id k : Nat) : (s.refillEntry id k).Inv := by
  unfold State.refillEntry
  split
  · exact h
  · split
    · exact h
    · refine h.ite ?_
      split
      next e => exact ((h.areaRead ..).of_eq AreaRead.state e).refillFails ..
      next e => exact ((h.areaRead ..).of_eq AreaRead.state e).updGang ..
      next e => exact ((h.areaRead ..).of_eq AreaRead.state e).addLoad _

theorem State.Inv.entryComes {s : State} (h : s.Inv) (l : PendLoad) : (s.entryComes l).Inv := by
  unfold State.entryComes
  split
  · exact h
  · split
    · exact h.of_mem
    · split
      · exact h
      · exact (h.updGang ..).ite h

theorem execTableWalk_inv {s : State} (h : s.Inv) (cluster ctx va : Nat) : Keeps (execTableWalk cluster ctx va s) := by
  unfold execTableWalk
  refine happen_inv ?_
  split
  · exact h
  · split
    next e1 => exact ((h.walkFor ..).of_eq Prod.fst e1).of_mem
    next e => exact (h.walkFor ..).of_eq Prod.fst e

theorem execClusterTlbHit_inv {s : State} (h : s.Inv) (core ctx va : Nat) : Keeps (execClusterTlbHit core ctx va s) := by
  unfold execClusterTlbHit
  refine happen_inv ?_
  split
  · exact h.of_mem
  · exact h

theorem State.Inv.setLoad {s : State} (h : s.Inv) (l : PendLoad) : (s.setLoad l).Inv := h.of_mem

theorem State.Inv.l1DropSectors {s : State} (h : s.Inv) (cl line : Nat) (sec : BitVec 4) : (s.l1DropSectors cl line sec).Inv :=
  h.of_mem

theorem State.Inv.fillLine {s : State} (h : s.Inv) (r : LineRead) (line : Nat) (sec : BitVec 4) (data : List Byte) :
    (s.fillLine r line sec data).Inv :=
  ((h.cancelFills ..).l1DropSectors ..).ite (((h.cancelFills ..).l1Put ..).ite (h.cancelFills ..))

theorem State.Inv.fillFrom {s : State} (h : s.Inv) (w : Await) (data : List Byte) (bad : Nat → Bool) :
    (s.fillFrom w data bad).Inv := by
  unfold State.fillFrom
  split
  · exact h
  · exact h.foldl (fun t ht _ => ht.fillLine ..) _

theorem State.Inv.tileReply {s : State} (h : s.Inv) (l : PendLoad) (w : Await) (data : List Byte) (bad : Bool) :
    (s.tileReply l w data bad).Inv := by
  unfold State.tileReply
  split
  · exact h
  · exact h.of_mem

theorem State.Inv.resumeLoad {s : State} (h : s.Inv) (l : PendLoad) : (s.resumeLoad l).Inv := by
  unfold State.resumeLoad
  split
  · exact (h.atomGatherStrongLines ..).of_mem
  · refine State.Inv.ite ?_ ((h.gatherStrongLines ..).setLoad _)
    extract_lets p
    have hp : p.st.Inv := h.piecesStrongLines ..
    exact (hp.setLoad _).ite ((hp.foldl (fun t ht _ => ht.tileReply ..) _).setLoad _)

theorem State.Inv.loadOn {s : State} (h : s.Inv) (tag : Nat) : (s.loadOn tag).Inv := by
  unfold State.loadOn
  split
  · exact h
  · exact h.ite (((h.ite (h.resumeLoad ..)).postEvent ..).ite (h.ite (h.resumeLoad ..)))

theorem State.Inv.dataLoad {s : State} (h : s.Inv) (tag : Nat) (data : List Byte) (f : Nat → Bool) :
    (s.dataLoad tag data f).Inv := by
  unfold State.dataLoad
  split
  · exact h
  · exact ((h.setLoad ..).foldl (fun t ht _ => ((ht.fillFrom ..).tileReply ..).ite (ht.fillFrom ..)) _).loadOn ..

theorem State.Inv.deliver {s : State} (h : s.Inv) (tag : Nat) (data : List Byte) (f : Nat → Bool) : (s.deliver tag data f).Inv :=
  (h.dataLoad ..).ite (h.dataColl ..)

theorem State.Inv.unblock {s : State} (h : s.Inv) (id k : Nat) : (s.unblock id k).Inv := h.of_mem

theorem State.Inv.endWait {s : State} (h : s.Inv) (i : Issue) (l : PendLoad) : (s.endWait i l).state.Inv := by
  unfold State.endWait
  split
  · split <;> exact h.landLines ..
  · dsimp only
    split <;> exact h.updGang ..
  · dsimp only
    split
    · exact h
    · exact h.issuePutS ..
  · dsimp only
    split
    · exact h
    · exact ((h.takeDescriptor ..).unreplayable ..).issuePutS ..
  · dsimp only
    split
    · exact malformed_inv h ..
    · exact standHeader_inv h ..
  · dsimp only
    split
    · exact malformed_inv h ..
    · exact standEntries_inv h ..
  · exact h.takeAt ..
  · exact h.skipGroup ..
  · exact (h.landLoad ..).issueEnded ..

theorem State.Inv.completeLoad {s : State} (h : s.Inv) (l : PendLoad) : (s.completeLoad l).Inv := by
  unfold State.completeLoad
  extract_lets t
  have ht : t.Inv := h.of_mem
  clear_value t
  split
  · exact ht
  · split
    · split
      · exact ht
      · refine State.Inv.postEvent (State.Inv.postEvent (State.Inv.dropJob ?_ ..) _) _
        split
        · exact ht.acquireBy ..
        · exact ht
    · split
      · split
        · exact ht
        next k _ =>
          have hu := ht.setLease k.id .none
          exact (hu.badSet _).ite ((hu.setHeader ..).ite (hu.setEntries ..))
      · refine (ht.entryComes l).ite ((ht.descriptorComes l).ite ((ht.slotRead ..).ite ((ht.areasCome l).ite ?_)))
        split
        · exact ht
        · exact State.Inv.issueFinish ((ht.unblock ..).endWait ..) _

theorem execLoadComplete_inv {s : State} (h : s.Inv) (tag : Nat) : Keeps (execLoadComplete tag s) := by
  unfold execLoadComplete
  refine happen_inv ?_
  split
  · exact h.completeLoad ..
  · exact h

theorem execWcbIdleDrain_inv {s : State} (h : s.Inv) (g line : Nat) : Keeps (execWcbIdleDrain g line s) := by
  unfold execWcbIdleDrain
  refine happen_inv ?_
  split
  · exact (h.drainLine ..).ite h
  · exact h

theorem State.Inv.evacuateBank {s : State} (h : s.Inv) (c b : Nat) : (s.evacuateBank c b).Inv :=
  h.foldl (fun _ ht _ => (ht.updCrew ..).postEvent ..) _

theorem State.Inv.endPushes {s : State} (h : s.Inv) (c b : Nat) : (s.endPushes c b).Inv := by
  unfold State.endPushes
  refine h.foldl (fun t ht _ => ?_) _
  split
  · exact ht
  · split
    · exact ht
    · exact ht.of_mem

theorem State.Inv.changeRole {s : State} (h : s.Inv) (c b : Nat) : (s.changeRole c b).Inv := by
  unfold State.changeRole
  dsimp only
  split
  · exact h
  · exact ((((((h.endPushes ..).setBank ..).postEvent ..).postEvent ..).dropWay ..).postEvent ..).ite
      ((((h.endPushes ..).setBank ..).postEvent ..).postEvent ..)

theorem State.Inv.readSector {s : State} (h : s.Inv) (c b n : Nat) : (s.readSector c b n).Inv := by
  unfold State.readSector
  extract_lets k pos r
  refine State.Inv.ite ?_ (State.Inv.ite ?_ (State.Inv.setBank (h.meetSlot ..) ..))
  · split
    · exact h.meetLine ..
    · exact h.meetSector ..
  · split
    · split
      · exact h.meetPad ..
      · exact h.meetSector ..
    · exact h.meetSector ..

theorem execBankReencode_inv {s : State} (h : s.Inv) (cluster bank : Nat) : Keeps (execBankReencode cluster bank s) :=
  happen_inv (((h.foldl (fun _ ht _ => ht.readSector ..) _).setBank ..).postEvent ..)

theorem execPadFill_inv {s : State} (h : s.Inv) (crew page : Nat) : Keeps (execPadFill crew page s) := by
  unfold execPadFill
  refine happen_inv ?_
  split
  · exact h
  · split
    · exact h
    · split
      next e => exact (h.padTake ..).of_eq Prod.fst e
      next e => exact ((h.padTake ..).of_eq Prod.fst e).of_mem

/-! ### Ports -/

theorem State.Inv.updPort {s : State} (h : s.Inv) (n : Nat) (f : PortSt → PortSt) : (s.updPort n f).Inv := h.of_mem.setCells ..

theorem State.Inv.hearOn {s : State} (h : s.Inv) (src : Nat) (port : Option Nat) : (s.hearOn src port).Inv := by
  unfold State.hearOn
  split
  · exact h.of_mem.ite (h.of_mem.updPort ..)
  · exact h.of_mem

theorem receive_inv {s : State} (h : s.Inv) (p : Packet) {f : State → State} (hf : ∀ t, t.Inv → (f t).Inv) :
    Keeps (receive p f s) :=
  happen_inv (h.ite (hf _ (h.hearOn ..)))

theorem State.Inv.countRetry {s : State} (h : s.Inv) (n : Nat) : (s.countRetry n).Inv := h.updPort ..
theorem State.Inv.linkAck {s : State} (h : s.Inv) (port n : Nat) : (s.linkAck port n).Inv := h.updPort ..

theorem execPortDown_inv {s : State} (h : s.Inv) (port : Nat) : Keeps (execPortDown port s) := by
  have ht := h.updPort port (fun p => { p with up := false, acked := (s.sentOn port).length })
  exact happen_inv (State.Inv.ite (State.Inv.of_mem ht rfl) h)

/-! ### Events of slices -/

theorem nearEvent_inv {s : State} (h : s.Inv) (op : Nat) (q : NearReq) : Keeps (nearEvent op q s) :=
  happen_inv (((h.nearOp ..).of_mem).ite h)

theorem State.Inv.applyDelta {s : State} (h : s.Inv) (d : DeltaMsg) (f : Nat → Nat) : (s.applyDelta d f).Inv :=
  (h.touchLine ..).putCells ..

theorem State.Inv.takeDelta {s : State} (h : s.Inv) (d : DeltaMsg) : (s.takeDelta d).Inv := by
  unfold State.takeDelta
  split
  · exact (h.applyDelta ..).of_mem
  · exact h.of_mem

theorem State.Inv.deltaDone {s : State} (h : s.Inv) (id : Nat) (isLost : Bool) : (s.deltaDone id isLost).Inv := h.of_mem

theorem State.Inv.settleDelta {s : State} (h : s.Inv) (d : PendDelta) (refused : Bool) : (s.settleDelta d refused).Inv := by
  unfold State.settleDelta
  split
  · exact h.of_mem
  · exact ((h.tellOrigin ..).ite h).ite ((((h.tellOrigin ..).ite h).ackColl ..).retireColl ..)
  · exact h.of_mem
  · exact h
  · exact h
  · exact h

theorem State.Inv.ackDelta {s : State} (h : s.Inv) (tag : Nat) (refused : Bool) : (s.ackDelta tag refused).Inv := by
  unfold State.ackDelta
  split
  · exact h
  · exact h.of_mem.settleDelta ..

theorem execDeltaAck_inv {s : State} (h : s.Inv) (tag : Nat) (refused : Bool) : Keeps (execDeltaAck tag refused s) := by
  unfold execDeltaAck
  refine happen_inv ?_
  split
  · exact h
  · exact h.ite ((h.hearOn ..).ackDelta ..)

theorem State.Inv.sweepOn {s : State} (h : s.Inv) (k line : Nat) : (s.sweepOn k line).Inv :=
  h.ite ((h.setSlice ..).ite ((h.setSlice ..).postEvent ..))

theorem State.Inv.scrubDram {s : State} (h : s.Inv) (line : Nat) : (s.scrubDram line).Inv :=
  h.ite (((h.decodeHalf ..).decodeHalf ..).sweepOn ..)

theorem State.Inv.scrubSram {s : State} (h : s.Inv) (line : Nat) : (s.scrubSram line).Inv :=
  h.ite ((((h.meetSectors ..).updSram ..).ite (h.meetSectors ..)).leaveWalk ..)

/-! ### The host port -/

theorem execHostWrite_inv {s : State} (h : s.Inv) (dec a : Nat) (data : List Byte) : Keeps (execHostWrite dec a data s) := by
  unfold execHostWrite
  refine happen_inv ?_
  split
  · exact h
  · exact h.ite (h.commitWrite ..)

theorem State.Inv.tellHost {s : State} (h : s.Inv) (x : HostTx) : (s.tellHost x).Inv := h.of_mem

theorem execHostRead_inv {s : State} (h : s.Inv) (dec a n : Nat) : Keeps (execHostRead dec a n s) := by
  unfold execHostRead
  refine happen_inv ?_
  split
  · exact h
  · exact (h.tellHost ..).ite ((h.sliceBytes ..).tellHost ..)

theorem State.Inv.agentEvict {s : State} (h : s.Inv) (e : Nat × Bool × List Byte) : (s.agentEvict e).Inv := (h.tellHost ..).ite h

theorem State.Inv.agentPut {s : State} (h : s.Inv) (line : Nat) (excl : Bool) (data : List Byte) :
    (s.agentPut line excl data).Inv := by
  unfold State.agentPut
  split
  · exact h
  · exact h.of_mem.foldl (fun t ht _ => ht.agentEvict ..) _

theorem State.Inv.setHost {s : State} (h : s.Inv) (a : HostAtomic) : (s.setHost a).Inv := h.of_mem

theorem State.Inv.hostNext {s : State} (h : s.Inv) : (s.hostNext).Inv := by
  unfold State.hostNext
  split
  · exact h
  · split
    · exact (h.setHost ..).ite ((h.setHost ..).tellHost ..)
    · exact h

theorem State.Inv.hostDone {s : State} (h : s.Inv) (a : HostAtomic) : (s.hostDone a).Inv := h.of_mem.hostNext

theorem State.Inv.hostAcked {s : State} (h : s.Inv) (a : HostAtomic) : (s.hostAcked a).Inv := by
  unfold State.hostAcked
  split
  · exact (h.updHeld ..).nextStrong ..
  · exact h.ackColl ..

theorem State.Inv.hostPerformed {s : State} (h : s.Inv) (a : HostAtomic) (old n flags : Nat) :
    (s.hostPerformed a old n flags).Inv := by
  unfold State.hostPerformed
  refine (State.Inv.hostDone ?_ ..).deliver ..
  split
  · exact h.of_mem
  · exact h

theorem State.Inv.hostExhausted {s : State} (h : s.Inv) (a : HostAtomic) : (s.hostExhausted a).Inv := by
  unfold State.hostExhausted
  dsimp only
  split
  · exact h.hostDone ..
  · exact ((h.hostDone ..).setLoad ..).loadOn ..

theorem State.Inv.hostLoop {s : State} (h : s.Inv) (a : HostAtomic) (op : Nat) (wide : Bool) (x : DWord) (old : Nat) :
    (s.hostLoop a op wide x old).Inv :=
  h.of_mem

theorem State.Inv.hostAtomicGot {s : State} (h : s.Inv) (a : HostAtomic) (op : Nat) (wide : Bool) (x : DWord) (got : Nat) :
    (s.hostAtomicGot a op wide x got).Inv :=
  (h.hostPerformed ..).ite ((h.hostLoop ..).ite (((h.hostPerformed ..).ite ((h.hostExhausted ..).ite (h.hostLoop ..))).ite h))

theorem State.Inv.hostOnLine {s : State} (h : s.Inv) (a : HostAtomic) : (s.hostOnLine a).Inv := by
  unfold State.hostOnLine
  split
  · exact (h.hostDone ..).deliver ..
  · exact ((h.agentWrite ..).hostDone ..).hostAcked ..
  · refine State.Inv.hostPerformed ?_ ..
    split
    · exact h.of_mem
    · exact h

theorem State.Inv.agentServe {s : State} (h : s.Inv) (n : Nat) : (State.agentServe n s).Inv := by
  induction n generalizing s with
  | zero => exact h
  | succ n ih =>
    unfold State.agentServe
    split
    · exact h
    · exact ih (h.hostOnLine _)

theorem State.Inv.agentGoes {s : State} (h : s.Inv) : (s.agentGoes).Inv := h.agentServe ..

theorem execHostAtomicCompletion_inv {s : State} (h : s.Inv) (tag : Nat) (data : List Byte) :
    Keeps (execHostAtomicCompletion tag data s) := by
  unfold execHostAtomicCompletion
  refine happen_inv ?_
  split
  · exact h
  · split
    · exact (((h.hostDone ..).deliver ..).agentGoes).ite h
    · exact h
    · exact (h.hostAtomicGot ..).agentGoes

theorem execHostWriteCompletion_inv {s : State} (h : s.Inv) (tag : Nat) : Keeps (execHostWriteCompletion tag s) := by
  unfold execHostWriteCompletion
  refine happen_inv ?_
  split
  · exact h
  · split
    · exact ((h.hostDone ..).hostAcked ..).agentGoes
    · exact h

theorem State.Inv.askFurther {s : State} (h : s.Inv) (a : HostAtomic) : (s.askFurther a).Inv := by
  unfold State.askFurther
  split
  · split
    · exact h.of_mem
    · exact h
  · exact h

theorem execCxlCacheOwnership_inv {s : State} (h : s.Inv) (tag : Nat) (data : List Byte) :
    Keeps (execCxlCacheOwnership tag data s) := by
  unfold execCxlCacheOwnership
  refine happen_inv ?_
  split
  · exact h
  · exact (((h.agentPut ..).askFurther ..).agentGoes).ite h

/-! ### Slice queues -/

theorem State.Inv.setQueue {s : State} (h : s.Inv) (k : Nat) (q : SliceQueue) : (s.setQueue k q).Inv := h.of_mem
theorem State.Inv.admitTo {s : State} (h : s.Inv) (k : Nat) (q : SliceQueue) : (s.admitTo k q).Inv := h.of_mem

theorem State.Inv.arrive {s : State} (h : s.Inv) (e : Event) : (s.arrive e).Inv := by
  unfold State.arrive
  split
  · exact h
  · exact h.of_mem

theorem State.Inv.leaveQueue {s : State} (h : s.Inv) (k n : Nat) {p : Event × State} (e : s.leaveQueue k n = some p) :
    p.2.Inv := by
  obtain ⟨_, _, rfl⟩ := Option.map_eq_some_iff.1 e
  exact h.admitTo ..

/-! ### Images that the host loads -/

theorem State.Inv.setImage {s : State} (h : s.Inv) (m : Image) : (s.setImage m).Inv := h.of_mem

theorem State.Inv.loadSection {s : State} (h : s.Inv) (f : ImageFile) (ctx : Nat) (x : ImageSection) :
    (s.loadSection f ctx x).Inv := by
  unfold State.loadSection
  refine h.foldl (fun t ht _ => ?_) _
  split
  · exact ht
  · exact ht.performWrite ..

theorem State.Inv.loadImage {s : State} (h : s.Inv) (ctx : Nat) (d : List Byte) : (s.loadImage ctx d).Inv :=
  ((h.setImage ..).foldl (fun _ ht _ => ht.loadSection ..) _).ite h

/-! ### Crew operations and barrier instructions -/

theorem State.Inv.clearArrivals {s : State} (h : s.Inv) (v : Nat) (names : List Nat) : (s.clearArrivals v names).Inv := h.of_mem

theorem State.Inv.initBar {s : State} (h : s.Inv) (v n off x : Nat) : (s.initBar v n off x).Inv := by
  unfold State.initBar
  split
  next e => exact ((h.padTake ..).of_eq Prod.fst e).of_mem
  next e => exact ((((h.padTake ..).of_eq Prod.fst e).updCrew ..).clearArrivals ..).setBar ..

theorem execBarInit_inv {s : State} (h : s.Inv) (n : BitVec 4) (a b : BitVec 6) : Keeps (execBarInit n a b s) := by
  unfold execBarInit
  refine issue_inv h _ _ (fun _ u hu => ?_)
  split
  · exact hu
  · split
    · dsimp only
      split <;> exact hu
    · dsimp only
      split
      · exact hu
      · split
        · exact hu
        · exact hu.initBar ..

theorem atBar_inv {s : State} (h : s.Inv) (n : BitVec 4) {body : Issue → Nat → State → Res}
    (hbody : ∀ i off t, t.Inv → (body i off t).state.Inv) : Keeps (atBar n body s) := by
  unfold atBar
  refine issue_inv h _ _ (fun _ u hu => ?_)
  split
  · exact hu
  · split
    · exact hu
    · exact hbody _ _ _ (hu.padMeet ..)

theorem execBarArrive_inv {s : State} (h : s.Inv) (n : BitVec 4) (d : BitVec 6) (g : BitVec 4) : Keeps (execBarArrive n d g s) :=
  atBar_inv h _ (fun _ _ _ hu => releaseThen_inv hu _ _ (fun _ hv => ((hv.goOn ..).updGang ..).arriveBar ..))

theorem State.Inv.lookBar {s : State} (h : s.Inv) (i : Issue) (n off : Nat) : (s.lookBar i n off).Inv := by
  unfold State.lookBar
  split
  · exact h
  · exact ((h.setBar ..).undefer ..).ite h

theorem State.Inv.waited {s : State} (h : s.Inv) (i : Issue) (n off : Nat) : (s.waited i n off).state.Inv :=
  ((h.goOn ..).acquireBy ..).lookBar ..

theorem execBarWait_inv {s : State} (h : s.Inv) (n : BitVec 4) (a : BitVec 6) : Keeps (execBarWait n a s) := by
  unfold execBarWait
  refine atBar_inv h _ (fun _ _ u hu => ?_)
  split
  · dsimp only
    split
    · exact hu.waited ..
    · exact hu
  · dsimp only
    split
    · exact hu.waited ..
    · exact hu

theorem execBarSync_inv {s : State} (h : s.Inv) (n : BitVec 4) (d : BitVec 6) (g : BitVec 4) : Keeps (execBarSync n d g s) := by
  unfold execBarSync
  refine atBar_inv h _ (fun _ _ u hu => ?_)
  split
  · exact hu.waited ..
  · dsimp only
    split
    · exact (hu.updGang ..).waited ..
    · exact hu
  · exact releaseThen_inv hu _ _ (fun t ht => (ht.block ..).arriveBar ..)

theorem execBarGen_inv {s : State} (h : s.Inv) (n : BitVec 4) (d : BitVec 6) : Keeps (execBarGen n d s) :=
  atBar_inv h _ (fun _ _ _ hu => ((hu.goOn ..).updGang ..).lookBar ..)

theorem execBarObs_inv {s : State} (h : s.Inv) (n : BitVec 4) : Keeps (execBarObs n s) := by
  unfold execBarObs
  refine atBar_inv h _ (fun _ _ u hu => ?_)
  dsimp only
  split
  · exact hu
  · exact (hu.setBar ..).of_mem

theorem execBarDrop_inv {s : State} (h : s.Inv) (n : BitVec 4) : Keeps (execBarDrop n s) := by
  unfold execBarDrop
  refine atBar_inv h _ (fun _ _ u hu => ?_)
  split
  · exact hu
  · exact (((hu.goOn ..).setBar ..).updGang ..).undefer ..

theorem State.Inv.leaveCrew {s : State} (h : s.Inv) (g : Gang) (lanes : Mask) : (s.leaveCrew g lanes).Inv :=
  ((((h.unreplayable ..).leaveBars ..).dropObservers ..).unawait ..).of_mem

theorem State.Inv.enterCrew {s : State} (h : s.Inv) (g : Gang) (v : Nat) (lanes : Mask) : (s.enterCrew g v lanes).Inv :=
  ((((h.updGang ..).unreplayable ..).joinBars ..).dissolve ..).ite (((h.updGang ..).unreplayable ..).joinBars ..)

theorem moveCrew_inv {t : State} (h : t.Inv) (i : Issue) {go : State → State} (hgo : ∀ t, t.Inv → (go t).Inv) :
    (moveCrew i t go).state.Inv := by
  unfold moveCrew
  split
  · exact h
  · split
    next e => exact (h.release ..).of_eq Prod.fst e
    next e => exact (hgo _ (((h.release ..).of_eq Prod.fst e).goOn ..)).acquireBy ..

theorem execCjoin_inv {s : State} (h : s.Inv) (a : BitVec 6) : Keeps (execCjoin a s) := by
  unfold execCjoin
  refine issue_inv h _ _ (fun _ u hu => ?_)
  dsimp only
  split
  · exact hu
  · split
    · exact hu
    · split
      · exact hu
      · exact moveCrew_inv hu _ (fun t ht => (ht.leaveCrew ..).enterCrew ..)

theorem State.Inv.cleave {s : State} (h : s.Inv) (i : Issue) (d num : Nat) : (s.cleave i d num).Inv := by
  unfold State.cleave
  extract_lets v t c u
  have ht : t.Inv := (h.leaveCrew ..).useCrewNum ..
  have hu : u.Inv := State.Inv.of_mem ht rfl
  exact (hu.enterCrew ..).updGang ..

theorem execCleave_inv {s : State} (h : s.Inv) (d : BitVec 6) : Keeps (execCleave d s) := by
  unfold execCleave
  refine issue_inv h _ _ (fun _ u hu => ?_)
  split
  · exact hu
  · split
    · exact hu.of_mem
    · split
      · exact hu
      · exact moveCrew_inv hu _ (fun t ht => ht.cleave ..)

theorem execCmask_inv {s : State} (h : s.Inv) (d : BitVec 6) : Keeps (execCmask d s) :=
  issue_inv h _ _ (fun _ _ hu => hu.updGang ..)

theorem execCrank_inv {s : State} (h : s.Inv) (d : BitVec 6) : Keeps (execCrank d s) :=
  issue_inv h _ _ (fun _ _ hu => hu.updGang ..)

/-! ### Vector instructions -/

theorem State.Inv.issueWriteV {t : State} (h : t.Inv) (i : Issue) (d : BitVec 6) (m : Mask) (f : Nat → LaneResult) :
    (i.writeV t d m f).Inv :=
  h.of_mem

theorem vecOp_inv {s : State} (h : s.Inv) (acc : Accepts) (legal : Issue → Bool) (d : BitVec 6) (g : BitVec 4)
    (f : Issue → Nat → LaneResult) : Keeps (vecOp acc legal d g f s) :=
  issue_inv h _ _ (fun _ _ hu => hu.issueWriteV ..)

theorem vecCmp_inv {s : State} (h : s.Inv) (legal : Issue → Bool) (d : BitVec 6) (g : BitVec 4)
    (f : Issue → Nat → Bool × Bool × Nat) : Keeps (vecCmp legal d g f s) := by
  unfold vecCmp
  refine issue_inv h _ _ (fun _ u hu => ?_)
  dsimp only
  split
  · exact hu
  · exact hu.of_mem

theorem vfOp2_inv {s : State} (h : s.Inv) (op : Fmt → Nat → Bool → Nat → Nat → Nat × Nat) (d a b : BitVec 6) (p : BitVec 1)
    (g : BitVec 4) : Keeps (vfOp2 op d a b p g s) :=
  vecOp_inv h ..

theorem vfOp1_inv {s : State} (h : s.Inv) (op : Fmt → Nat → Nat) (d a : BitVec 6) (p : BitVec 1) (g : BitVec 4) :
    Keeps (vfOp1 op d a p g s) :=
  vecOp_inv h ..

theorem vfFma_inv {s : State} (h : s.Inv) (negP negD : Bool) (d a b : BitVec 6) (p : BitVec 1) (g : BitVec 4) :
    Keeps (vfFma negP negD d a b p g s) :=
  vecOp_inv h ..

theorem vfUnary_inv {s : State} (h : s.Inv) (op : Nat → FVal → FVal × Nat) (rm : Option Nat) (d a : BitVec 6) (g : BitVec 4) :
    Keeps (vfUnary op rm d a g s) :=
  vecOp_inv h ..

theorem vfCmp_inv {s : State} (h : s.Inv) (rel : FVal → FVal → Bool) (onNan quiet : Bool) (d a b : BitVec 6) (g : BitVec 4) :
    Keeps (vfCmp rel onNan quiet d a b g s) :=
  vecCmp_inv h ..

theorem vecToInt_inv {s : State} (h : s.Inv) (lo hi : ℤ) (d a : BitVec 6) (c : BitVec 2) (g : BitVec 4) :
    Keeps (vecToInt lo hi d a c g s) :=
  issue_inv h _ _ (fun _ _ hu => ((hu.issueWriteV ..).updGang ..).ite (hu.issueWriteV ..))

theorem vecOfInt_inv {s : State} (h : s.Inv) (signed : Bool) (d a : BitVec 6) (c : BitVec 2) (g : BitVec 4) :
    Keeps (vecOfInt signed d a c g s) :=
  vecOp_inv h ..

theorem viOp2_inv {s : State} (h : s.Inv) (op : Word → Word → Word) (d a b : BitVec 6) (g : BitVec 4) :
    Keeps (viOp2 op d a b g s) :=
  vecOp_inv h ..

theorem viCmp_inv {s : State} (h : s.Inv) (rel : Word → Word → Bool) (d a b : BitVec 6) (g : BitVec 4) :
    Keeps (viCmp rel d a b g s) :=
  vecCmp_inv h ..

theorem vsOp_inv {s : State} (h : s.Inv) (op : Issue → Word → Word → Word × Nat) (d a b : BitVec 6) (g : BitVec 4) :
    Keeps (vsOp op d a b g s) :=
  vecOp_inv h ..

theorem vsCmp_inv {s : State} (h : s.Inv) (rel : Word → Word → Bool) (d a b : BitVec 6) (g : BitVec 4) :
    Keeps (vsCmp rel d a b g s) :=
  vecCmp_inv h ..

/-! ### Lane moves and predicates -/

theorem vecScan_inv {s : State} (h : s.Inv) (fp : Bool) (part : Word × Word × Bool → Word) (d a : BitVec 6) (g : BitVec 4) :
    Keeps (vecScan fp part d a g s) :=
  issue_inv h _ _ (fun _ _ hu => (hu.issueWriteV ..).updGang ..)

theorem vecRed_inv {s : State} (h : s.Inv) (fp : Bool) (d a : BitVec 6) (g : BitVec 4) : Keeps (vecRed fp d a g s) :=
  issue_inv h _ _ (fun _ _ hu => (hu.issueWriteV ..).updGang ..)

theorem execVget_inv {s : State} (h : s.Inv) (d a b : BitVec 6) : Keeps (execVget d a b s) :=
  issue_inv h _ _ (fun _ _ hu => hu.updGang ..)

theorem execVins_inv {s : State} (h : s.Inv) (d a b : BitVec 6) (g : BitVec 4) : Keeps (execVins d a b g s) :=
  issue_inv h _ _ (fun _ _ hu => hu.issueWriteV ..)

theorem viOp1_inv {s : State} (h : s.Inv) (op : Word → Word) (d a : BitVec 6) (g : BitVec 4) : Keeps (viOp1 op d a g s) :=
  vecOp_inv h ..

theorem predOp_inv {s : State} (h : s.Inv) (f : Gang → Mask) (d : BitVec 3) : Keeps (predOp f d s) :=
  issue_inv h _ _ (fun _ _ hu => hu.updGang ..)

theorem predRead_inv {s : State} (h : s.Inv) (f : Issue → Nat) (d : BitVec 6) : Keeps (predRead f d s) :=
  issue_inv h _ _ (fun _ _ hu => hu.updGang ..)

theorem execPmov_inv {s : State} (h : s.Inv) (d : BitVec 3) (a : BitVec 6) : Keeps (execPmov d a s) := by
  unfold execPmov
  refine issue_inv h _ _ (fun _ u hu => ?_)
  split
  · exact hu
  · exact hu.of_mem

theorem vecKadd_inv {s : State} (h : s.Inv) (fp : Bool) (d a b : BitVec 6) (g : BitVec 4) : Keeps (vecKadd fp d a b g s) :=
  issue_inv h _ _ (fun _ _ hu => (hu.issueWriteV ..).updGang ..)

theorem execRebal_inv {s : State} (h : s.Inv) (d a b : BitVec 6) (g : BitVec 4) : Keeps (execRebal d a b g s) :=
  issue_inv h _ _ (fun _ _ hu => (hu.issueWriteV ..).updGang ..)

/-! ### Scalar instructions -/

theorem scalarOp2_inv {s : State} (h : s.Inv) (f : DWord → DWord → DWord) (d a b : BitVec 6) : Keeps (scalarOp2 f d a b s) :=
  issue_inv h _ _ (fun _ _ hu => hu.updGang ..)

theorem scalarOp1_inv {s : State} (h : s.Inv) (f : DWord → DWord) (d a : BitVec 6) : Keeps (scalarOp1 f d a s) :=
  issue_inv h _ _ (fun _ _ hu => hu.updGang ..)

theorem scalarImm_inv {s : State} (h : s.Inv) (f : DWord → DWord → DWord) (d a : BitVec 6) (x : BitVec 14) :
    Keeps (scalarImm f d a x s) :=
  issue_inv h _ _ (fun _ _ hu => hu.updGang ..)

theorem scalarWide_inv {s : State} (h : s.Inv) (f : State → Issue → DWord → DWord) (d : BitVec 6) (x : BitVec 20) :
    Keeps (scalarWide f d x s) :=
  issue_inv h _ _ (fun _ _ hu => hu.updGang ..)

/-! ### Rebuilds -/

theorem State.Inv.askHalf {r : Rebuild × State} (h : r.2.Inv) (s : State) (b : Rebuild) (f op p : Nat) :
    (s.askHalf b f op r p).2.Inv :=
  (h.of_mem.postEvent ..).ite h.of_mem

theorem State.Inv.askHalves {s : State} (h : s.Inv) (b : Rebuild) (f op : Nat) (ps : List Nat) : (s.askHalves b f op ps).Inv :=
  (foldl_inv Prod.snd h (fun q hq _ => hq.askHalf ..) _).of_mem

theorem State.Inv.landRebuilt {s : State} (h : s.Inv) (a : Nat) (d : List Byte) (bad : Bool) : (s.landRebuilt a d bad).Inv :=
  (((h.putCells ..).clearPoison ..).countPoison ..).ite ((h.putCells ..).clearPoison ..)

theorem State.Inv.endCut {s : State} (h : s.Inv) (a lost : Nat) : (s.endCut a lost).Inv :=
  h.of_mem.foldl (fun t ht _ => ht.of_mem.ite ht) _

/-- An outcome that a cut holds back leaves the state as it stood, and the event that waits posted. -/
theorem State.Inv.cutHolds {s : State} (h : s.Inv) (e : Option Event) {r : Outcome} (hr : Keeps r) : Keeps (s.cutHolds e r) := by
  unfold State.cutHolds
  split
  · split
    · exact h.of_mem
    · exact hr
  · exact hr

theorem State.Inv.ackCovered {s : State} (h : s.Inv) (base : Nat) : (s.ackCovered base).Inv :=
  h.foldl (fun _ ht _ => ht.ackDelta ..) _

theorem State.Inv.redirect {s : State} (h : s.Inv) (lost base repl : Nat) : (s.redirect lost base repl).Inv := h.of_mem

theorem State.Inv.halfRebuilt {s : State} (h : s.Inv) (a lost repl : Nat) : (s.halfRebuilt a lost repl).Inv :=
  (h.endCut ..).ite ((((h.endCut ..).ackCovered ..).redirect ..).ite ((h.endCut ..).ackCovered ..))

theorem State.Inv.halfDone {s : State} (h : s.Inv) (b : Rebuild) (f : Nat) : (s.halfDone b f).Inv :=
  ((((h.halfRebuilt ..).of_mem).setRebuild ..).postEvent ..).ite ((((h.halfRebuilt ..).of_mem).setRebuild ..).goOnRebuild ..)

theorem State.Inv.writeRebuilt {s : State} (h : s.Inv) (b : Rebuild) (f : Nat) : (s.writeRebuilt b f).Inv :=
  ((h.landRebuilt ..).halfDone ..).ite (h.of_mem.setRebuild ..)

theorem State.Inv.driveRebuild {s : State} (h : s.Inv) (b : Rebuild) (f : Nat) : (s.driveRebuild b f).Inv :=
  h.ite ((h.askHalves ..).ite ((h.askHalves ..).ite (h.writeRebuilt ..)))

theorem execRebuildStripe_inv {s : State} (h : s.Inv) (record stripe : Nat) : Keeps (execRebuildStripe record stripe s) := by
  unfold execRebuildStripe
  refine happen_inv ?_
  split
  · exact h
  · exact (h.driveRebuild ..).ite ((h.setRebuild ..).driveRebuild ..)

theorem State.Inv.answerQuery {s : State} (h : s.Inv) (p : Packet) : (s.answerQuery p).Inv := by
  unfold State.answerQuery
  split
  · exact h.postEvent _
  · extract_lets r src a src' t
    have hr := h.sliceBytes p.addr 64
    have ht : t.Inv := State.Inv.ite (State.Inv.of_mem hr rfl) hr
    exact (ht.postEvent _).ite (State.Inv.of_mem ht rfl)

theorem execRebuildQuery_inv {s : State} (h : s.Inv) (p : Packet) : Keeps (execRebuildQuery p s) :=
  receive_inv h _ (fun _ hu => hu.ite ((hu.halfRebuilt ..).ite (hu.answerQuery ..)))

theorem State.Inv.takeAnswer {s : State} (h : s.Inv) (p : Packet) : (s.takeAnswer p).Inv := by
  unfold State.takeAnswer
  split
  · exact h
  · exact (h.setRebuild ..).driveRebuild ..

theorem execRebuildAnswer_inv {s : State} (h : s.Inv) (p : Packet) : Keeps (execRebuildAnswer p s) :=
  receive_inv h _ (fun _ hu => hu.takeAnswer ..)

theorem State.Inv.rebuiltAcked {s : State} (h : s.Inv) (tag : Nat) : (s.rebuiltAcked tag).Inv := by
  unfold State.rebuiltAcked
  split
  · exact h
  · exact h.halfDone ..

/-! ### Modules of a fabric -/

theorem State.Inv.send {s : State} (h : s.Inv) (p : Packet) : (s.send p).Inv := h.of_mem

theorem State.Inv.readFrom {s : State} (h : s.Inv) (p : Packet) : (s.readFrom p).Inv :=
  (h.foldl (fun t ht _ => ht.touch ..) _).of_mem

theorem execRead_inv {s : State} (h : s.Inv) (p : Packet) : Keeps (execRead p s) :=
  receive_inv h _ (fun _ hu => (hu.readFrom ..).ite hu)

theorem State.Inv.writeFrom {s : State} (h : s.Inv) (p : Packet) : (s.writeFrom p).Inv := (h.commit ..).of_mem

theorem execWrite_inv {s : State} (h : s.Inv) (p : Packet) : Keeps (execWrite p s) :=
  receive_inv h _ (fun _ hu => hu.ite (((hu.landRebuilt ..).send ..).ite (hu.writeFrom ..)))

theorem State.Inv.nearAnswerOne {r : NearAnswer} (h : r.st.Inv) (p : Packet) (q : NearReq) : (NearAnswer.one p r q).st.Inv :=
  h.nearOp ..

theorem State.Inv.atomicFrom {s : State} (h : s.Inv) (p : Packet) : (s.atomicFrom p).Inv :=
  (foldl_inv NearAnswer.st h (fun q hq _ => hq.nearAnswerOne ..) _).of_mem

theorem execAtomic_inv {s : State} (h : s.Inv) (p : Packet) : Keeps (execAtomic p s) :=
  receive_inv h _ (fun _ hu => (hu.atomicFrom ..).ite hu)

theorem execReadData_inv {s : State} (h : s.Inv) (p : Packet) : Keeps (execReadData p s) :=
  receive_inv h _ (fun _ hu => hu.deliver ..)

theorem State.Inv.awaitDeltas {s : State} (h : s.Inv) (o : Origin) (p : Packet) : (s.awaitDeltas o p).Inv := by
  unfold State.awaitDeltas
  split <;> exact h.of_mem

theorem State.Inv.peerAnswered {s : State} (h : s.Inv) (e : PeerStore) (p : Packet) : (s.peerAnswered e p).Inv := by
  unfold State.peerAnswered
  extract_lets t u
  have hu : u.Inv := ((h.peerCommitted _).awaitDeltas ..).foldl (fun v hv _ => hv.tellOrigin ..) _
  split
  · exact (hu.updHeld ..).nextStrong _
  · exact (hu.ackColl _).ite hu

theorem State.Inv.noLonger {s : State} (h : s.Inv) (tag : Nat) : (s.noLonger tag).Inv := h.of_mem

theorem execWriteAck_inv {s : State} (h : s.Inv) (p : Packet) : Keeps (execWriteAck p s) := by
  unfold execWriteAck
  refine receive_inv h _ (fun u hu => ?_)
  split
  · exact (hu.noLonger ..).peerAnswered ..
  · exact hu.rebuiltAcked ..

theorem State.Inv.dropSlots {s : State} (h : s.Inv) (tag : Nat) : (s.dropSlots tag).Inv := by
  unfold State.dropSlots
  split
  · exact h
  · split
    · exact h
    · exact h.foldl (fun t ht _ => ht.l1DropUnit ..) _

theorem State.Inv.oldValue {s : State} (h : s.Inv) (p : Packet) : (s.oldValue p).Inv :=
  ((((h.dropSlots ..).awaitDeltas ..).updHeld ..).foldl (fun _ ht _ => ht.deferTo ..) _).deliver ..

theorem execAtomicData_inv {s : State} (h : s.Inv) (p : Packet) : Keeps (execAtomicData p s) := by
  unfold execAtomicData
  refine receive_inv h _ (fun u hu => ?_)
  split
  · exact (hu.noLonger ..).peerAnswered ..
  · exact hu.oldValue ..

theorem execLeaseRecord_inv {s : State} (h : s.Inv) (p : Packet) : Keeps (execLeaseRecord p s) :=
  receive_inv h _ (fun u hu => hu.of_mem.postEvent ..)

theorem State.Inv.returnToken {s : State} (h : s.Inv) (ctx m tag : Nat) : (s.returnToken ctx m tag).Inv := h.of_mem
theorem State.Inv.passToken {s : State} (h : s.Inv) (p : Packet) (m : Nat) : (s.passToken p m).Inv := h.of_mem

theorem execDrainToken_inv {s : State} (h : s.Inv) (p : Packet) : Keeps (execDrainToken p s) :=
  receive_inv h _ (fun _ hu => (hu.returnToken ..).ite (hu.foldl (fun _ hv _ => hv.passToken ..) _))

theorem State.Inv.tokenBack {s : State} (h : s.Inv) (ctx tag : Nat) : (s.tokenBack ctx tag).Inv := by
  unfold State.tokenBack
  split
  · exact h.of_mem
  · exact h.of_mem.ite (h.of_mem.returnToken ..)

theorem execTokenReturn_inv {s : State} (h : s.Inv) (p : Packet) : Keeps (execTokenReturn p s) :=
  receive_inv h _ (fun _ hu => hu.tokenBack ..)

theorem State.Inv.agree {s : State} (h : s.Inv) (r m : Nat) : (s.agree r m).Inv := h.ite ((h.of_mem.setByte ..).ite h.of_mem)

theorem State.Inv.compareRecord {s : State} (h : s.Inv) (r m : Nat) (b : List Byte) : (s.compareRecord r m b).Inv := by
  unfold State.compareRecord
  split
  · exact h
  · exact (h.agree ..).ite (h.failGroup ..)

theorem execGroupExchange_inv {s : State} (h : s.Inv) (p : Packet) : Keeps (execGroupExchange p s) :=
  receive_inv h _ (fun _ hu => hu.ite ((hu.postEvent ..).ite
    (((hu.failGroup ..).ite hu).ite (((hu.sendRecord ..).ite hu).compareRecord ..))))

theorem State.Inv.degrade {s : State} (h : s.Inv) (m r : Nat) : (s.degrade m r).Inv := (h.setCells ..).setByte ..

theorem State.Inv.loseAtomic {s : State} (h : s.Inv) (p : Packet) : (s.loseAtomic p).Inv := by
  unfold State.loseAtomic
  split
  · exact h
  · exact (h.of_mem.updHeld ..).deliver ..

theorem State.Inv.loseStores {s : State} (h : s.Inv) (m : Nat) : (s.loseStores m).Inv := by
  unfold State.loseStores
  refine ((h.of_mem.foldl (fun t ht _ => ht.loseAtomic ..) _).foldl (fun t ht _ => ?_) _).foldl (fun t ht _ => ?_) _
  · split
    · exact (ht.updHeld ..).nextStrong ..
    · exact ht.ackColl ..
  · split
    · exact ht.of_mem
    · exact (ht.ackColl ..).of_mem
    · exact ht.ackColl ..

theorem State.Inv.loseTokens {s : State} (h : s.Inv) (m : Nat) : (s.loseTokens m).Inv := h.foldl (fun _ ht _ => ht.tokenBack ..) _

theorem State.Inv.restartRebuilds {s : State} (h : s.Inv) : (s.restartRebuilds).Inv := by
  unfold State.restartRebuilds
  refine h.foldl (fun t ht _ => ?_) _
  split
  · exact ht.of_mem
  · exact ht

theorem State.Inv.loseModule {s : State} (h : s.Inv) (m : Nat) : (s.loseModule m).Inv := by
  unfold State.loseModule
  extract_lets a b hold c d
  have ha : a.Inv := by
    refine State.Inv.foldl (s := { s with lost := s.lost ++ [m] }) h.of_mem (fun t ht r => ?_) _
    exact ht.degrade ..
  have hc : c.Inv := State.Inv.of_mem (ha.post (residentRec 0x22 m 0 0)) rfl
  have hd : d.Inv := ((hc.loseStores m).loseTokens m).restartRebuilds
  exact State.Inv.foldl hd (fun t ht r => State.Inv.failGroup ht r) _

theorem execPeerLostTimeout_inv {s : State} (h : s.Inv) (peer : Nat) : Keeps (execPeerLostTimeout peer s) :=
  happen_inv ((h.loseModule ..).ite ((h.foldl (fun _ ht _ => ht.failGroup ..) _).ite h))

theorem execSelfFenceTimeout_inv {s : State} (h : s.Inv) : Keeps (execSelfFenceTimeout s) :=
  happen_inv ((((h.foldl (fun t ht _ => ht.killCtx ..) _).of_mem).stopClocks).ite h)

/-! ### The skim and detectors -/

theorem State.Inv.skimmed {s : State} (h : s.Inv) (f : List Nat → List Nat) (failed : Bool) : (s.skimmed f failed).Inv := h.of_mem

theorem State.Inv.closeCore {s : State} (h : s.Inv) (core : Nat) : (s.closeCore core).Inv :=
  (h.updCore ..).foldl (fun _ ht _ => ht.askPreempt ..) _

theorem State.Inv.skimVisit {s : State} (h : s.Inv) (d : Nat) : (s.skimVisit d).Inv := by
  unfold State.skimVisit
  split
  · exact h
  · exact (h.setHub ..).closeCore ..

theorem State.Inv.corePasses {s : State} (h : s.Inv) (core : Nat) : (s.corePasses core).Inv := h.of_mem

theorem State.Inv.endSkimmed {s : State} (h : s.Inv) (c : Crew) : (s.endSkimmed c).Inv := by
  unfold State.endSkimmed
  split
  · split
    · exact (h.dropTask ..).faultCrew ..
    · exact h.dropTask ..
  · split
    · exact h.faultCrew ..
    · exact h

theorem State.Inv.coreFails {s : State} (h : s.Inv) (core : Nat) : (s.coreFails core).Inv :=
  (((h.updCore ..).skimmed ..).foldl (fun t ht _ => ht.endSkimmed ..) _).of_mem

/-! ### Starts -/

theorem State.Inv.loadResident {s : State} (h : s.Inv) : (s.loadResident).Inv :=
  (h.setImage ..).foldl (fun _ ht _ => ht.setCells ..) _

theorem State.Inv.startAt1 {s : State} (h : s.Inv) (m : Mgmt) : (s.startAt1 m).Inv := h.of_mem
theorem State.Inv.beginCold {s : State} (h : s.Inv) : (s.beginCold).Inv := h.of_mem
theorem State.Inv.beginWarm {s : State} (h : s.Inv) : (s.beginWarm).Inv := h.ite (h.startAt1 ..)
theorem State.Inv.startFails {s : State} (h : s.Inv) : (s.startFails).Inv := (h.startAt1 ..).ite h.of_mem
theorem State.Inv.nextStep {s : State} (h : s.Inv) : (s.nextStep).Inv := h.of_mem

theorem State.Inv.clearMemory {s : State} (h : s.Inv) : (s.clearMemory).Inv := by
  unfold State.clearMemory
  split
  · exact wf_filter h _
  · rfl

theorem State.Inv.trainPorts {s : State} (h : s.Inv) (ports : BitVec 48) : (s.trainPorts ports).Inv :=
  h.of_mem.foldl (fun t ht _ => ht.updPort ..) _

theorem State.Inv.beginFormation {s : State} (h : s.Inv) : (s.beginFormation).Inv :=
  (h.foldl (fun _ ht _ => ht.setCells ..) _).foldl (fun _ ht _ => ht.formGroup ..) _

theorem State.Inv.verifyParity {s : State} (h : s.Inv) : (s.verifyParity).Inv := h.of_mem.startRebuild ..
theorem State.Inv.failUnformed {s : State} (h : s.Inv) : (s.failUnformed).Inv := h.foldl (fun _ ht _ => ht.failGroup ..) _
theorem State.Inv.setUpContext0 {s : State} (h : s.Inv) : (s.setUpContext0).Inv := ((h.setCells ..).setCells ..).setCells ..

theorem State.Inv.finishStart {s : State} (h : s.Inv) : (s.finishStart).Inv :=
  (h.failUnformed.flushLog.setUpContext0.loadResident.ite h.failUnformed.flushLog.setUpContext0).of_mem

theorem State.Inv.stepDone {s : State} (h : s.Inv) (ports : BitVec 48) : (s.stepDone ports).Inv := by
  unfold State.stepDone
  split
  · exact h.nextStep.ite (h.of_mem.nextStep.ite h.startFails)
  · exact h.clearMemory.nextStep.ite h.clearMemory.startFails
  · exact h.of_mem
  · exact ((h.trainPorts ..).nextStep).beginFormation
  · exact ((h.failUnformed.flushLog.verifyParity.ite h).finishStart).ite (h.failUnformed.flushLog.verifyParity.ite h)
  · exact h.of_mem

theorem State.Inv.askReport {s : State} (h : s.Inv) (x : Nat) : (s.askReport x).Inv := h.of_mem.ite h

theorem State.Inv.writeMctl {s : State} (h : s.Inv) (x : Nat) : (s.writeMctl x).Inv :=
  h.ite (h.of_mem.beginCold.ite (h.of_mem.beginWarm.ite h.of_mem))

theorem State.Inv.writeRegister {s : State} (h : s.Inv) (off : Nat) (x : BitVec 64) : (s.writeRegister off x).Inv :=
  (h.writeMctl ..).ite ((h.of_mem.ite h).ite ((h.ite h.of_mem).ite ((h.askReport ..).ite ((h.of_mem.ite h).ite h))))

/-! ### Every instruction and event -/

/-- Every instruction and every event keeps memory in its canonical form. -/
theorem exec_inv {s : State} (h : s.Inv) (i : Instr) : Keeps (exec i s) := by
  cases i with
    dsimp only [exec]
  | add => exact scalarOp2_inv h ..
  | sub => exact scalarOp2_inv h ..
  | and => exact scalarOp2_inv h ..
  | or => exact scalarOp2_inv h ..
  | xor => exact scalarOp2_inv h ..
  | andn => exact scalarOp2_inv h ..
  | sll => exact scalarOp2_inv h ..
  | srl => exact scalarOp2_inv h ..
  | sra => exact scalarOp2_inv h ..
  | rol => exact scalarOp2_inv h ..
  | ror => exact scalarOp2_inv h ..
  | slt => exact scalarOp2_inv h ..
  | sltz => exact scalarOp2_inv h ..
  | seq => exact scalarOp2_inv h ..
  | minS => exact scalarOp2_inv h ..
  | maxS => exact scalarOp2_inv h ..
  | minZ => exact scalarOp2_inv h ..
  | maxZ => exact scalarOp2_inv h ..
  | mul => exact scalarOp2_inv h ..
  | mulhS => exact scalarOp2_inv h ..
  | mulhZ => exact scalarOp2_inv h ..
  | divS => exact scalarOp2_inv h ..
  | divZ => exact scalarOp2_inv h ..
  | remS => exact scalarOp2_inv h ..
  | remZ => exact scalarOp2_inv h ..
  | clz => exact scalarOp1_inv h ..
  | ctz => exact scalarOp1_inv h ..
  | popc => exact scalarOp1_inv h ..
  | brev => exact scalarOp1_inv h ..
  | bswap => exact scalarOp1_inv h ..
  | sextS8 => exact scalarOp1_inv h ..
  | sextS16 => exact scalarOp1_inv h ..
  | sextS32 => exact scalarOp1_inv h ..
  | zextZ32 => exact scalarOp1_inv h ..
  | addW => exact scalarOp2_inv h ..
  | subW => exact scalarOp2_inv h ..
  | mulW => exact scalarOp2_inv h ..
  | addi => exact scalarImm_inv h ..
  | andi => exact scalarImm_inv h ..
  | ori => exact scalarImm_inv h ..
  | xori => exact scalarImm_inv h ..
  | slti => exact scalarImm_inv h ..
  | sltiz => exact scalarImm_inv h ..
  | slli => exact scalarOp1_inv h ..
  | srli => exact scalarOp1_inv h ..
  | srai => exact scalarOp1_inv h ..
  | rori => exact scalarOp1_inv h ..
  | slliW => exact scalarOp1_inv h ..
  | srliW => exact scalarOp1_inv h ..
  | sraiW => exact scalarOp1_inv h ..
  | roriW => exact scalarOp1_inv h ..
  | lui => exact scalarWide_inv h ..
  | addpc => exact scalarWide_inv h ..
  | addcb => exact scalarWide_inv h ..
  | ld => exact execLd_inv h ..
  | st => exact execSt_inv h ..
  | beqz => exact branchScalar_inv h ..
  | bnez => exact branchScalar_inv h ..
  | bltz => exact branchScalar_inv h ..
  | bgez => exact branchScalar_inv h ..
  | bgtz => exact branchScalar_inv h ..
  | blez => exact branchScalar_inv h ..
  | bany => exact branchPred_inv h ..
  | ball => exact branchPred_inv h ..
  | bnone => exact branchPred_inv h ..
  | bnall => exact branchPred_inv h ..
  | braD => exact execBraD_inv h ..
  | jmp => exact execJmp_inv h ..
  | call => exact execCall_inv h ..
  | nop => exact execNop_inv h
  | jr => exact jumpReg_inv h ..
  | jrL => exact jumpReg_inv h ..
  | ret => exact jumpReg_inv h ..
  | exit => exact execExit_inv h ..
  | trap => exact execTrap_inv h ..
  | brk => exact execBrk_inv h ..
  | yield => exact execYield_inv h
  | setfmt => exact execSetfmt_inv h ..
  | getfmt => exact execGetfmt_inv h ..
  | safept => exact execSafept_inv h ..
  | barInit => exact execBarInit_inv h ..
  | barArrive => exact execBarArrive_inv h ..
  | barWait => exact execBarWait_inv h ..
  | barSync => exact execBarSync_inv h ..
  | barGen => exact execBarGen_inv h ..
  | barObs => exact execBarObs_inv h ..
  | barDrop => exact execBarDrop_inv h ..
  | cjoin => exact execCjoin_inv h ..
  | cleave => exact execCleave_inv h ..
  | cmask => exact execCmask_inv h ..
  | crank => exact execCrank_inv h ..
  | vfadd => exact vfOp2_inv h ..
  | vfsub => exact vfOp2_inv h ..
  | vfmul => exact vfOp2_inv h ..
  | vfdiv => exact vfOp2_inv h ..
  | vfmin => exact vfOp2_inv h ..
  | vfmax => exact vfOp2_inv h ..
  | vfabs => exact vfOp1_inv h ..
  | vfneg => exact vfOp1_inv h ..
  | vffma => exact vfFma_inv h ..
  | vffms => exact vfFma_inv h ..
  | vfnma => exact vfFma_inv h ..
  | vfnms => exact vfFma_inv h ..
  | vfsqrt => exact vfUnary_inv h ..
  | vfrcp => exact vfUnary_inv h ..
  | vfrsq => exact vfUnary_inv h ..
  | vfexp => exact vfUnary_inv h ..
  | vflog2 => exact vfUnary_inv h ..
  | vfcmpEq => exact vfCmp_inv h ..
  | vfcmpNe => exact vfCmp_inv h ..
  | vfcmpLt => exact vfCmp_inv h ..
  | vfcmpLe => exact vfCmp_inv h ..
  | vfcmpGt => exact vfCmp_inv h ..
  | vfcmpGe => exact vfCmp_inv h ..
  | vfcmpUn => exact vfCmp_inv h ..
  | vfcmpOrd => exact vfCmp_inv h ..
  | vfrintNe => exact vfUnary_inv h ..
  | vfrintZ => exact vfUnary_inv h ..
  | vfrintDn => exact vfUnary_inv h ..
  | vfrintUp => exact vfUnary_inv h ..
  | vfscale => exact vecOp_inv h ..
  | vfrint => exact vfUnary_inv h ..
  | vcvtSF32 => exact vecToInt_inv h ..
  | vcvtZF32 => exact vecToInt_inv h ..
  | vcvtF32S => exact vecOfInt_inv h ..
  | vcvtF32Z => exact vecOfInt_inv h ..
  | vcvtNfF32 => exact vecOp_inv h ..
  | vcvtF32Nf => exact vecOp_inv h ..
  | vadd => exact viOp2_inv h ..
  | vsub => exact viOp2_inv h ..
  | vmul => exact viOp2_inv h ..
  | vmulhS32 => exact viOp2_inv h ..
  | vmulhZ32 => exact viOp2_inv h ..
  | vand => exact viOp2_inv h ..
  | vor => exact viOp2_inv h ..
  | vxor => exact viOp2_inv h ..
  | vsll => exact viOp2_inv h ..
  | vsrl => exact viOp2_inv h ..
  | vsra => exact viOp2_inv h ..
  | vminS32 => exact viOp2_inv h ..
  | vmaxS32 => exact viOp2_inv h ..
  | vminZ32 => exact viOp2_inv h ..
  | vmaxZ32 => exact viOp2_inv h ..
  | vaddsatS32 => exact viOp2_inv h ..
  | vcmpEqZ32 => exact viCmp_inv h ..
  | vcmpNeZ32 => exact viCmp_inv h ..
  | vcmpLtS32 => exact viCmp_inv h ..
  | vcmpLeS32 => exact viCmp_inv h ..
  | vcmpGtS32 => exact viCmp_inv h ..
  | vcmpGeS32 => exact viCmp_inv h ..
  | vcmpLtZ32 => exact viCmp_inv h ..
  | vcmpLeZ32 => exact viCmp_inv h ..
  | vcmpGtZ32 => exact viCmp_inv h ..
  | vcmpGeZ32 => exact viCmp_inv h ..
  | vtest => exact viCmp_inv h ..
  | vaddScalar => exact vsOp_inv h ..
  | vsubScalar => exact vsOp_inv h ..
  | vmulScalar => exact vsOp_inv h ..
  | vandScalar => exact vsOp_inv h ..
  | vorScalar => exact vsOp_inv h ..
  | vxorScalar => exact vsOp_inv h ..
  | vsllScalar => exact vsOp_inv h ..
  | vsrlScalar => exact vsOp_inv h ..
  | vsraScalar => exact vsOp_inv h ..
  | vfaddScalar => exact vsOp_inv h ..
  | vfmulScalar => exact vsOp_inv h ..
  | vffmaScalar => exact vecOp_inv h ..
  | vmovScalar => exact vecOp_inv h ..
  | vcmpEqScalar => exact vsCmp_inv h ..
  | vcmpLtS32Scalar => exact vsCmp_inv h ..
  | vcmpLtZ32Scalar => exact vsCmp_inv h ..
  | vaddImm => exact vecOp_inv h ..
  | vli => exact vecOp_inv h ..
  | vperm => exact vecOp_inv h ..
  | vscanZ32 => exact vecScan_inv h ..
  | vscanF32 => exact vecScan_inv h ..
  | vscanxZ32 => exact vecScan_inv h ..
  | vredZ32 => exact vecRed_inv h ..
  | vredF32 => exact vecRed_inv h ..
  | vsgn => exact vecOp_inv h ..
  | vget => exact execVget_inv h ..
  | vins => exact execVins_inv h ..
  | vlane => exact vecOp_inv h ..
  | vpopc => exact viOp1_inv h ..
  | vclz => exact viOp1_inv h ..
  | pand => exact predOp_inv h ..
  | por => exact predOp_inv h ..
  | pxor => exact predOp_inv h ..
  | pandn => exact predOp_inv h ..
  | pnot => exact predOp_inv h ..
  | pmov => exact execPmov_inv h ..
  | prd => exact predRead_inv h ..
  | pact => exact predRead_inv h ..
  | pcnt => exact predRead_inv h ..
  | pfirst => exact predRead_inv h ..
  | vsel => exact vecOp_inv h ..
  | vconf => exact vecOp_inv h ..
  | vkaddZ32 => exact vecKadd_inv h ..
  | vkaddF32 => exact vecKadd_inv h ..
  | rebal => exact execRebal_inv h ..
  | vld => exact execVld_inv h ..
  | vst => exact execVst_inv h ..
  | vatswap => exact vecAtomic_inv h ..
  | vatcas => exact vecAtomic_inv h ..
  | vatadd => exact vecAtomic_inv h ..
  | vatand => exact vecAtomic_inv h ..
  | vator => exact vecAtomic_inv h ..
  | vatxor => exact vecAtomic_inv h ..
  | vatsmin => exact vecAtomic_inv h ..
  | vatsmax => exact vecAtomic_inv h ..
  | vatumin => exact vecAtomic_inv h ..
  | vatumax => exact vecAtomic_inv h ..
  | vatfadd => exact vecAtomic_inv h ..
  | vatfxadd => exact vecAtomic_inv h ..
  | vatfxaddS32 => exact vecAtomic_inv h ..
  | vatfxaddF16 => exact vecAtomic_inv h ..
  | vatfxaddBf16 => exact vecAtomic_inv h ..
  | atswap => exact scalarAtomic_inv h ..
  | atcas => exact scalarAtomic_inv h ..
  | atadd => exact scalarAtomic_inv h ..
  | atand => exact scalarAtomic_inv h ..
  | ator => exact scalarAtomic_inv h ..
  | atxor => exact scalarAtomic_inv h ..
  | atsmin => exact scalarAtomic_inv h ..
  | atsmax => exact scalarAtomic_inv h ..
  | atumin => exact scalarAtomic_inv h ..
  | atumax => exact scalarAtomic_inv h ..
  | atfadd => exact scalarAtomic_inv h ..
  | atfxadd => exact scalarAtomic_inv h ..
  | atfxaddS32 => exact scalarAtomic_inv h ..
  | atfxaddF16 => exact scalarAtomic_inv h ..
  | atfxaddBf16 => exact scalarAtomic_inv h ..
  | fenceAcq => exact execFenceAcq_inv h ..
  | fenceRel => exact execFenceRel_inv h ..
  | fenceFull => exact execFenceFull_inv h ..
  | fenceSv => exact execFenceSv_inv h ..
  | fenceRemote => exact execFenceRemote_inv h ..
  | qfence => exact execQfence_inv h ..
  | sealPages => exact execSealPages_inv h ..
  | unsealPages => exact execUnsealPages_inv h ..
  | drysync => exact execDrysync_inv h ..
  | pf => exact execPf_inv h ..
  | vpf => exact execVpf_inv h ..
  | fpush => exact execFpush_inv h ..
  | fpop => exact execFpop_inv h ..
  | copy => exact copyWith_inv h ..
  | copyAcc => exact copyWith_inv h ..
  | copyChk => exact copyWith_inv h ..
  | copyMc => exact copyWith_inv h ..
  | mma => exact execMma_inv h ..
  | mmaP => exact execMmaP_inv h ..
  | mzero => exact execMzero_inv h ..
  | mdrain => exact drain_inv h ..
  | mdrainT => exact drain_inv h ..
  | mtake => exact take_inv h ..
  | mtakeF => exact take_inv h ..
  | mgive => exact execMgive_inv h
  | zld => exact move_inv h ..
  | zst => exact move_inv h ..
  | rfam => exact execRfam_inv h ..
  | rprobe => exact execRprobe_inv h ..
  | rins => exact updateOne_inv h ..
  | rdel => exact updateOne_inv h ..
  | rmove => exact execRmove_inv h ..
  | rgath => exact execRgath_inv h ..
  | rstat => exact execRstat_inv h ..
  | watch => exact execWatch_inv h ..
  | unwatch => exact execUnwatch_inv h ..
  | wstat => exact execWstat_inv h ..
  | qpost => exact execQpost_inv h ..
  | claim => exact execClaim_inv h ..
  | rinit => exact execRinit_inv h ..
  | sysrd => exact execSysrd_inv h ..
  | syswr => exact execSyswr_inv h ..
  | tretR => exact execTretR_inv h
  | tretS => exact execTretS_inv h
  | lease => exact execLease_inv h ..
  | unlease => exact execUnlease_inv h ..
  | tlbinv => exact execTlbinv_inv h ..
  | ctxkill => exact execCtxkill_inv h ..
  | halt => exact execHalt_inv h
  | wfe => exact execWfe_inv h ..
  | signal => exact execSignal_inv h ..
  | preempt => exact execPreempt_inv h ..
  | rbld => exact execRbld_inv h ..
  | hintImm => exact hint_inv h ..
  | hintOrd => exact hint_inv h ..
  | hintScope => exact hint_inv h ..
  | hintCache => exact hint_inv h ..
  | hintSched => exact hint_inv h ..
  | hintBnd => exact hint_inv h ..
  | joinArrival => exact happen_inv (((h.updGang ..).spillEntries ..).ite h)
  | reconvergenceRefill => exact happen_inv (h.refillEntry ..)
  | yieldExpiry => exact happen_inv ((h.updGang ..).ite h)
  | tableWalk => exact execTableWalk_inv h ..
  | loadComplete => exact execLoadComplete_inv h ..
  | wcbIdleDrain => exact execWcbIdleDrain_inv h ..
  | sliceWriteCommit => exact happen_inv ((h.commitWrite ..).ite h)
  | sliceRead => exact happen_inv (((h.sliceBytes ..).of_mem).ite h)
  | watchCacheFill => exact happen_inv (h.of_mem.ite h)
  | spillRefill => exact execSpillRefill_inv h ..
  | nearSwap => exact nearEvent_inv h ..
  | nearCas => exact nearEvent_inv h ..
  | nearAdd => exact nearEvent_inv h ..
  | nearAnd => exact nearEvent_inv h ..
  | nearOr => exact nearEvent_inv h ..
  | nearXor => exact nearEvent_inv h ..
  | nearSmin => exact nearEvent_inv h ..
  | nearSmax => exact nearEvent_inv h ..
  | nearUmin => exact nearEvent_inv h ..
  | nearUmax => exact nearEvent_inv h ..
  | nearFadd => exact nearEvent_inv h ..
  | nearFxadd => exact nearEvent_inv h ..
  | nearClaim => exact nearEvent_inv h ..
  | nearRinit => exact nearEvent_inv h ..
  | insert => exact happen_inv (h.performBucket ..)
  | delete => exact happen_inv (h.performBucket ..)
  | bucketRead => exact happen_inv (h.readBucket ..)
  | delta => exact happen_inv (h.ite ((h.hearOn ..).takeDelta ..))
  | deltaAck => exact execDeltaAck_inv h ..
  | scrub => exact happen_inv (((h.scrubSram ..).scrubDram ..).ite h)
  | sweepPeriodExpiry => exact happen_inv (h.ite ((h.setSlice ..).postEvent ..))
  | sliceStatusWrite => exact happen_inv ((h.commitWrite ..).ite h)
  | bankStatusWrite => exact happen_inv (h.commitWrite ..)
  | bankRoleChange => exact happen_inv (h.ite (((h.evacuateBank ..).postEvent ..).ite (h.changeRole ..)))
  | bankReencode => exact execBankReencode_inv h ..
  | padFill => exact execPadFill_inv h ..
  | padEvacuate => exact happen_inv ((h.evacuate ..).ite h)
  | copySliceAssemble => exact happen_inv (h.assemble ..)
  | collectiveStart => exact happen_inv (h.startColl ..)
  | copyByteRead => exact happen_inv (h.copyRead ..)
  | copyByteLanded => exact happen_inv (h.copyLand ..)
  | trowelPass => exact happen_inv ((h.arriveTrowel ..).ite h)
  | mmaStart => exact execMmaStart_inv h ..
  | mmaRetire => exact execMmaRetire_inv h ..
  | mdrainStart => exact execMdrainStart_inv h ..
  | mdrainRetire => exact execMdrainRetire_inv h ..
  | leaseEstablish => exact execLeaseEstablish_inv h ..
  | faultRecordWrite => exact happen_inv h.writeFault
  | hubConsider => exact happen_inv (h.consider ..)
  | taskAging => exact happen_inv (h.age ..)
  | coreReservation => exact execCoreReservation_inv h ..
  | hubSpillRefill => exact happen_inv (h.unspill ..)
  | detectorScan => exact happen_inv (h.scan ..)
  | crewRestore => exact execCrewRestore_inv h ..
  | preemptSaveDone => exact happen_inv ((h.saveCrew ..).ite h)
  | forerunnerTimeout => exact happen_inv ((h.updGang ..).ite h)
  | skimVisit => exact happen_inv (h.ite (h.skimVisit ..))
  | skimScanDone => exact happen_inv (((h.corePasses ..).ite (h.coreFails ..)).ite h)
  | rebuildStripe => exact execRebuildStripe_inv h ..
  | islctl => exact happen_inv ((h.writeIsl ..).ite h)
  | operatingPointChangeDone => exact happen_inv (h.endChange ..)
  | powerStepDown => exact execPowerStepDown_inv h
  | powerStepUp => exact execPowerStepUp_inv h ..
  | thermalStep => exact happen_inv ((h.setIsland ..).machineCheck ..)
  | thermalRecover => exact happen_inv (h.setIsland ..)
  | thermalTrip => exact h.of_mem
  | wfeTimeout => exact happen_inv h.of_mem
  | hostWrite => exact execHostWrite_inv h ..
  | hostRead => exact execHostRead_inv h ..
  | hostSnoop => exact happen_inv (h.of_mem.tellHost ..)
  | hostAtomicCompletion => exact execHostAtomicCompletion_inv h ..
  | read => exact execRead_inv h ..
  | readData => exact execReadData_inv h ..
  | write => exact execWrite_inv h ..
  | writeAck => exact execWriteAck_inv h ..
  | atomic => exact execAtomic_inv h ..
  | atomicData => exact execAtomicData_inv h ..
  | leaseRecord => exact execLeaseRecord_inv h ..
  | leaseReply => exact happen_inv (h.ite (h.leaseReply ..))
  | rebuildQuery => exact execRebuildQuery_inv h ..
  | rebuildAnswer => exact execRebuildAnswer_inv h ..
  | drainToken => exact execDrainToken_inv h ..
  | tokenReturn => exact execTokenReturn_inv h ..
  | groupExchange => exact execGroupExchange_inv h ..
  | heartbeat => exact happen_inv (h.ite (h.hearOn ..))
  | reservedPacketKind => exact happen_inv (h.ite ((h.hearOn ..).countRetry ..))
  | heartbeatTimer => exact happen_inv h.of_mem
  | flitRetransmit => exact happen_inv ((h.countRetry ..).ite h)
  | portDown => exact execPortDown_inv h ..
  | peerLostTimeout => exact execPeerLostTimeout_inv h ..
  | selfFenceTimeout => exact execSelfFenceTimeout_inv h
  | coldStart => exact happen_inv h.beginCold
  | warmStart => exact happen_inv h.beginWarm
  | attreq => exact happen_inv (h.askReport ..)
  | registerWrite => exact happen_inv ((h.writeRegister ..).ite h)
  | clusterTlbHit => exact execClusterTlbHit_inv h ..
  | mzeroRetire => exact execMzeroRetire_inv h ..
  | tilePortRetire => exact execTilePortRetire_inv h ..
  | hostWriteCompletion => exact execHostWriteCompletion_inv h ..
  | cxlCacheOwnership => exact execCxlCacheOwnership_inv h ..
  | hostLinkTraining => exact happen_inv (h.of_mem.setCells ..)
  | bootWindowWrite => exact happen_inv (h.of_mem.ite h)
  | attestationReport => exact happen_inv (h.of_mem.ite h)
  | startStepComplete => exact happen_inv (h.ite (h.startFails.ite (h.stepDone ..)))
  | powerLoss => exact State.Inv.reset.of_mem

/-! ### Upsets -/

theorem State.Inv.failPins {s : State} (h : s.Inv) (a : Nat) (e : List Byte) : (s.failPins a e).Inv := h.of_mem

theorem State.Inv.flipSram {s : State} (h : s.Inv) (f : SectorFlaw) : (s.flipSram f).Inv := by
  unfold State.flipSram
  split
  · exact h
  · exact h.ite h.of_mem

theorem State.Inv.upset {s : State} (h : s.Inv) (u : Upset) : (s.upset u).Inv := by
  unfold State.upset
  split
  · exact (h.failPins ..).ite h
  · exact h.flipSram ..
  · exact (h.setBank ..).ite h
  · exact (h.failLine ..).ite h
  · exact h.of_mem
  · exact h.of_mem

/-! ### Turns, fetch and the step -/

theorem State.Inv.pipeClock {s : State} (h : s.Inv) (p : Nat) (cs : List Cand) : (s.pipeClock p cs).Inv := h.of_mem

theorem State.Inv.choose {s : State} (h : s.Inv) {p : Cand × State} (e : s.choose = some p) : p.2.Inv := by
  obtain ⟨_, _, e⟩ := Option.bind_eq_some_iff.1 e
  obtain ⟨_, _, rfl⟩ := Option.map_eq_some_iff.1 e
  exact h.pipeClock ..

theorem State.Inv.post_ {s : State} (h : s.Inv) (n : Nat) (e : Event) : (s.post_ n e).state.Inv := h.of_mem

theorem State.Inv.issuable {s : State} (h : s.Inv) (p : Nat) (stalled : List (Nat × Nat)) {r : Cand × State}
    (e : s.issuable p stalled = some r) : r.2.Inv := by
  obtain ⟨_, _, rfl⟩ := Option.map_eq_some_iff.1 e
  exact h.pipeClock ..

theorem State.Inv.serving {s : State} (h : s.Inv) (k n : Nat) : (s.serving k n).state.Inv := by
  unfold State.serving
  split
  next e1 => exact h.leaveQueue _ _ e1
  · exact h

theorem State.Inv.takeTurn {s : State} (h : s.Inv) (t : Turn) : (s.takeTurn t).state.Inv := by
  unfold State.takeTurn
  split
  · split
    · exact h
    · exact h.of_mem
  · split <;> exact h
  · exact (h.linkAck ..).ite h
  · exact h.upset ..
  · exact h.ite (h.loadImage ..)
  · exact h.ite (h.arrive ..)
  · split
    · exact h
    · exact h.serving ..
  · split
    · split
      · exact h
      · exact h.post_ ..
    · exact h
  · split
    · exact h
    · split
      next e => exact h.issuable _ _ e
      · exact h

theorem State.Inv.byItself {s : State} (h : s.Inv) : (s.byItself).state.Inv := by
  unfold State.byItself
  split
  · exact h
  · split
    · exact h.serving ..
    · split
      · split
        · exact h.post_ ..
        · exact h
      · split
        · exact h
        · split
          next e => exact h.choose e
          · split
            · split
              · exact h.post_ ..
              · exact h
            · exact h

theorem State.Inv.act {s : State} (h : s.Inv) : (s.act).state.Inv := by
  unfold State.act
  split
  · exact h.of_mem.takeTurn ..
  · exact h.byItself

theorem State.Inv.dropHints {s : State} (h : s.Inv) (i : Issue) : (s.dropHints i).Inv := h.of_mem

theorem State.Inv.fetchFails {s : State} (h : s.Inv) (i : Issue) (c addr : Nat) : (s.fetchFails i c addr).state.Inv :=
  State.Inv.issueFinish (r := .trap ..) h _

theorem State.Inv.fetchPoison {s : State} (h : s.Inv) (i : Issue) (addr : Nat) : (s.fetchPoison i addr).state.Inv :=
  (h.dropHints ..).fetchFails ..

theorem State.Inv.localWord {s : State} (h : s.Inv) (i : Issue) (p : Located) : (s.localWord i p).state.Inv := by
  unfold State.localWord
  dsimp only
  split
  · exact (h.sliceBytes ..).fetchPoison ..
  · exact h.sliceBytes ..

theorem State.Inv.remoteWord {s : State} (h : s.Inv) (i : Issue) (p : Located) : (s.remoteWord i p).state.Inv := by
  unfold State.remoteWord
  dsimp only
  split
  · split
    · exact h.fetchPast ..
    · exact (h.fetchPast ..).fetchPoison ..
  · exact State.Inv.issueFinish (r := .wait ..) ((h.fetchPast ..).addLoad ..) _

theorem State.Inv.fetch {s : State} (h : s.Inv) (i : Issue) : (s.fetch i).state.Inv := by
  unfold State.fetch
  split
  · exact h
  · split
    · exact h.fetchFails ..
    · dsimp only
      split
      · exact ((h.walked ..).machineCheck ..).fetchFails ..
      · split
        · exact (h.walked ..).localWord ..
        · exact (h.walked ..).remoteWord ..

theorem State.Inv.fetchAt {s : State} (h : s.Inv) (g k : Nat) : (s.fetchAt g k).state.Inv := by
  unfold State.fetchAt
  split
  · exact h.of_mem
  · exact h.of_mem.fetch ..

theorem State.Inv.illegalWord {s : State} (h : s.Inv) : (s.illegalWord).Inv := by
  unfold State.illegalWord
  split
  · exact h
  · exact State.Inv.issueFinish (r := .trap ..) h _

theorem runWord_inv {s : State} (h : s.Inv) (w : Word) : Keeps (runWord s w) := by
  unfold runWord
  split
  · exact exec_inv h ..
  · exact h.illegalWord

/-- A step is nothing, an event, or the word that a fetch answers. -/
theorem step_inv {s : State} (h : s.Inv) : Keeps (step s) := by
  unfold step
  split
  next e => exact h.act.of_eq Act.state e
  next e =>
    have ht := h.act.of_eq Act.state e
    exact ht.cutHolds _ (exec_inv ht _)
  next g k t e =>
    have ht := (h.act.of_eq Act.state e).fetchAt g k
    split
    next e' =>
      have hu := ht.of_eq Fetch.state e'
      exact hu.cutHolds _ (runWord_inv hu _)
    next e' => exact ht.of_eq Fetch.state e'

end Sys2Proof.Machine
end

section
/-! PROOF. Every step keeps the canonical form of memory. -/

namespace Sys2Proof.Claims
open Sys2Proof.Machine

/-- Settles O59: a step is an event, an instruction or nothing, in a state that a turn leaves, and each keeps the invariant
(`step_inv`). -/
theorem everyStepKeepsMemoryForm : Obligations.EveryStepKeepsMemoryForm := by
  intro s t h e
  have hs := step_inv h
  rw [e] at hs
  exact hs

end Sys2Proof.Claims
end

section
/-! SUPPORT. What the parts of a step do: the cut of a rebuild, the word that a fetch finds in own memory, the choice of a
split. -/

namespace Sys2Proof.Machine

/-! ### The cut of a rebuild (R403) -/

theorem bytes_ne_iff (s t : State) (a n : Nat) :
    s.bytes a n ≠ t.bytes a n ↔ ∃ b, a ≤ b ∧ b < a + n ∧ t.byte b ≠ s.byte b := by
  simp only [State.bytes, ne_eq, List.map_inj_left, List.mem_range, not_forall]
  constructor
  · rintro ⟨k, hk, h⟩
    exact ⟨a + k, by omega, by omega, fun e => h e.symm⟩
  · rintro ⟨b, hab, hb, h⟩
    exact ⟨b - a, by omega, by rw [Nat.add_sub_cancel' hab]; exact fun e => h e.symm⟩

theorem writesCut_iff (s t : State) : s.writesCut t = true ↔ Claims.WritesCut s t := by
  simp [State.writesCut, Claims.WritesCut, ← bytes_ne_iff, ne_comm]

/-- An outcome that writes no half-line under the cut stands. -/
theorem cutHolds_of_not_writesCut {s : State} {e : Option Event} {r : Outcome}
    (h : ∀ t, r = .next t → ¬ Claims.WritesCut s t) : s.cutHolds e r = r := by
  unfold State.cutHolds
  split
  next t => exact if_neg fun hw => h t rfl ((writesCut_iff s t).1 hw)
  · rfl

/-- One that writes there does not happen, and its event waits. -/
theorem cutHolds_of_writesCut {s t : State} {e : Option Event} (h : Claims.WritesCut s t) :
    s.cutHolds e (.next t) = .next { s with agenda := s.agenda ++ e.toList } :=
  if_pos ((writesCut_iff s t).2 h)

/-! ### The word in own memory (R3, R25) -/

theorem toNat_append_eq {m n : Nat} (x : BitVec m) (y : BitVec n) : (x ++ y).toNat = x.toNat * 2 ^ n + y.toNat := by
  rw [BitVec.toNat_append, ← Nat.shiftLeft_add_eq_or_of_lt y.isLt, Nat.shiftLeft_eq]

theorem wordOfBytes_four (b0 b1 b2 b3 : Byte) : wordOfBytes [b0, b1, b2, b3] = b3 ++ b2 ++ b1 ++ b0 := by
  have h3 := toNat_append_eq b3 b2
  have h2 := toNat_append_eq (b3 ++ b2) b1
  have h1 := toNat_append_eq (b3 ++ b2 ++ b1) b0
  apply BitVec.eq_of_toNat_eq
  simp only [wordOfBytes, List.take, List.foldr, BitVec.toNat_ofNat]
  omega

theorem wordOfBytes_bytes (s : State) (a : Nat) : wordOfBytes (s.bytes a 4) = Claims.wordHere s a := wordOfBytes_four ..

theorem OnlySram.bytes {s t : State} (h : OnlySram s t) (a n : Nat) : t.bytes a n = s.bytes a n := by rw [h]; rfl

/-- Where no poison and no error lies, a fetch answers the word that stands in memory and touches SRAM lines alone. -/
theorem localWord_faultless {s : State} (hs : s.Faultless) (hp : s.poison = []) (i : Issue) (p : Located) :
    ∃ u, s.localWord i p = .word u (Claims.wordHere s (dpaLocal p.phys)) ∧ OnlySram s u := by
  have hu : OnlySram s (s.touchWith (dpaLocal p.phys) 4 false false 0) := touchWith_faultless hs ..
  refine ⟨_, ?_, hu⟩
  have hclean : (s.touchWith (dpaLocal p.phys) 4 false false 0).anyPoison (dpaLocal p.phys) 4 = false := by
    rw [hu]
    simp [State.anyPoison, hp]
  simp [State.localWord, State.sliceBytes, State.sliceBytesWith, hclean, hu.bytes, wordOfBytes_bytes]

/-! ### The choice of a split (R367) -/

theorem foldl_choice_mem {α : Type} (f : α → α → Bool) (l : List α) (x : α) :
    l.foldl (fun m y => if f y m then y else m) x ∈ x :: l := by
  induction l generalizing x with
  | nil => simp
  | cons y l ih =>
    rw [List.foldl_cons]
    split
    · exact List.mem_cons_of_mem x (ih y)
    · exact List.cons_subset_cons x (List.subset_cons_self y l) (ih x)

theorem bestOf_mem {α : Type} {f : α → α → Bool} {l : List α} {x : α} (h : bestOf f l = some x) : x ∈ l := by
  cases l with
  | nil => cases h
  | cons y l => exact Option.some.inj h ▸ foldl_choice_mem f l y

/-- What a pipe issues is one of its ready splits. -/
theorem pick_mem {s : State} {p : Nat} {cs : List Cand} {c : Cand} (h : s.pick p cs = some c) : c ∈ cs := by
  have hbest {f : Cand → Cand → Bool} {q : Cand → Bool} {l : List Cand} (e : bestOf f (l.filter q) = some c) : c ∈ l :=
    List.mem_of_mem_filter (bestOf_mem e)
  rcases Option.or_eq_some_iff.1 h with h | ⟨_, h⟩
  · exact hbest h
  · rcases Option.or_eq_some_iff.1 h with h | ⟨_, h⟩
    · exact List.mem_of_mem_filter (List.mem_of_find?_eq_some h)
    · rcases Option.or_eq_some_iff.1 h with h | ⟨_, h⟩
      · exact List.mem_of_mem_filter (hbest h)
      · exact hbest h

theorem split_of_mem_live {g : Gang} {k : Nat} {sp : Split} (h : (k, sp) ∈ g.live) : g.split k = some sp := by
  obtain ⟨j, _, hj⟩ := List.mem_filterMap.1 h
  obtain ⟨_, hsp, e⟩ := Option.map_eq_some_iff.1 hj
  cases e
  exact hsp

/-- A ready split is a live split of a gang. -/
theorem mem_gangs_of_mem_cands {s : State} {c : Cand} (h : c ∈ s.cands) : c.g ∈ s.gangs ∧ c.g.split c.k = some c.sp := by
  obtain ⟨g, hg, hc⟩ := List.mem_flatMap.1 h
  obtain ⟨q, hq, rfl⟩ := List.mem_map.1 hc
  exact ⟨hg, split_of_mem_live (List.mem_of_mem_filter hq)⟩

/-- The split that a turn issues: of that pipe, ready and not stalled. -/
theorem issuable_spec {s t : State} {p : Nat} {stalled : List (Nat × Nat)} {c : Cand} (h : s.issuable p stalled = some (c, t)) :
    { t with gangs := s.gangs } = s ∧ c ∈ s.cands ∧ c.g.pipe = p ∧ (c.g.id, c.k) ∉ stalled := by
  obtain ⟨_, hpick, e⟩ := Option.map_eq_some_iff.1 h
  cases e
  obtain ⟨hmem, hc⟩ := List.mem_filter.1 (pick_mem hpick)
  simp only [Bool.and_eq_true, beq_iff_eq, Bool.not_eq_true', List.contains_eq_mem, decide_eq_false_iff_not] at hc
  exact ⟨rfl, hmem, hc⟩

/-! ### The step -/

theorem step_of_issue {s t u : State} {g k : Nat} {w : Word} {i : Instr} (ha : s.act = .issue g k t)
    (hf : t.fetchAt g k = .word u w) (hd : decodeWord w = some i) : step s = u.cutHolds none (exec i u) := by
  simp only [step, ha, hf, runWord, hd]

theorem step_of_event {s t : State} {e : Event} (ha : s.act = .event e t) : step s = t.cutHolds (some e) (exec e.toInstr t) := by
  simp only [step, ha]

theorem step_of_idle {s t : State} (ha : s.act = .idle t) : step s = .next t := by simp only [step, ha]

theorem act_of_turn {s : State} {t : Turn} {ts : List Turn} (h : s.turns = t :: ts) :
    s.act = { s with turns := ts }.takeTurn t := by
  unfold State.act
  rw [h]

theorem takeTurn_issue {s t : State} {p : Nat} {stalled : List (Nat × Nat)} {c : Cand} (hstop : s.stoppedClocks = false)
    (hcrowd : s.crowded = false) (h : s.issuable p stalled = some (c, t)) :
    s.takeTurn (.issue p stalled) = .issue c.g.id c.k t := by
  simp [State.takeTurn, hstop, hcrowd, h]

theorem takeTurn_event {s : State} {e : Event} (hstop : s.stoppedClocks = false) (hcrowd : s.crowded = false)
    (h : s.mayEnter e = true) : s.takeTurn (.event e) = .event e s := by
  simp [State.takeTurn, hstop, hcrowd, h]

end Sys2Proof.Machine
end

section
/-! PROOF. A step runs what it fetches. -/

namespace Sys2Proof.Claims
open Sys2Proof.Machine

/-- The fetch of a split finds the word that stands at its pc. -/
theorem fetchAt_here {s : State} {i : Issue} {p : Located} (h : FetchesHere { s with cur := (i.g.id, i.k) } i p) :
    ∃ u, s.fetchAt i.g.id i.k = .word u (wordHere s (dpaLocal p.phys)) ∧ OnlySram { s with cur := (i.g.id, i.k) } u := by
  have hw := walked_faultless h.sound.2 i.g.ctx i.sp.pc.toNat
  have hpage := h.page
  have hown : p.ownDram ({ s with cur := (i.g.id, i.k) }.walked i.g.ctx i.sp.pc.toNat) = true := by
    rw [hw]
    exact h.own
  have hsound : ({ s with cur := (i.g.id, i.k) }.walked i.g.ctx i.sp.pc.toNat).poison = [] := by
    rw [hw]
    exact h.sound.1
  obtain ⟨u, hu, hsram⟩ := localWord_faultless (hw.faultless h.sound.2) hsound i p
  refine ⟨u, ?_, hw.trans hsram⟩
  have hbytes : wordHere ({ s with cur := (i.g.id, i.k) }.walked i.g.ctx i.sp.pc.toNat) (dpaLocal p.phys)
      = wordHere s (dpaLocal p.phys) := by
    rw [hw]
    rfl
  simp only [State.fetchAt, h.issuer, State.fetch, h.ahead, h.aligned, hpage, hown, hu, hbytes, ne_eq,
    not_true_eq_false, if_false, if_true]

/-- Settles O57: what the cut holds and lets through (`cutHolds_of_writesCut`, `cutHolds_of_not_writesCut`), the word that a fetch
finds (`fetchAt_here`), and the turn that is taken (`issuable_spec`). -/
theorem aStepRunsWhatItFetches : Obligations.AStepRunsWhatItFetches := by
  refine ⟨?_, ?_, ?_, ?_, ?_, ?_⟩
  · intro s t u g k w i ha hf hd
    rw [step_of_issue ha hf hd]
    refine ⟨cutHolds_of_not_writesCut, fun r e hr => ?_⟩
    rw [e, cutHolds_of_writesCut hr]
    simp
  · intro s t e ha
    rw [step_of_event ha]
    refine ⟨cutHolds_of_not_writesCut, fun r he hr => ?_⟩
    rw [he, cutHolds_of_writesCut hr]
    rfl
  · exact fun s t => step_of_idle
  · intro s i p h
    obtain ⟨u, hu, hsram⟩ := fetchAt_here h
    refine ⟨u, hu, ?_, ?_, ?_, ?_⟩
    · rw [hsram]
      exact h.issuer
    all_goals rw [hsram]
  · intro s t ts p stalled c hts hstop hcrowd hi
    obtain ⟨hframe, hmem, hpipe, hstalled⟩ := issuable_spec hi
    obtain ⟨hg, hsp⟩ := mem_gangs_of_mem_cands hmem
    refine ⟨?_, ?_, hg, hsp, hpipe, hstalled⟩
    · rw [act_of_turn hts]
      exact takeTurn_issue hstop hcrowd hi
    · calc { t with gangs := s.gangs, turns := s.turns }
          = { ({ t with gangs := s.gangs } : State) with turns := s.turns } := rfl
        _ = { ({ s with turns := ts } : State) with turns := s.turns } :=
          congrArg (fun x : State => { x with turns := s.turns }) hframe
        _ = s := rfl
  · intro s ts e hts hstop hcrowd henter
    rw [act_of_turn hts]
    exact takeTurn_event hstop hcrowd henter

end Sys2Proof.Claims
end

section
/-! PROOF. A spilled entry is read back over the page tables, and one of their lines can have lost a sector in its slice's SRAM: the
machine check that tells of it is written at the end of the step, so that more than the gang has changed since the read. -/

namespace Sys2Proof.Claims
open Sys2Proof.Machine

/-- A split of all lanes that belongs to the reconvergence entry 0 of its gang, and that entry, spilled. -/
def awaitingSplit : Split := { Split.start 0 (BitVec.allOnes 32) 0 with top := some 0 }
def spilledEntry : RcEntry :=
  { idx := 0, order := 0, join := 0, ppc := 0, mask := BitVec.allOnes 32, arr := 0, pmask := 0, fmt := 0, link := none, pv := false,
    pusher := Split.start 0 0 0, spilled := true }

/-- A gang of core 0 in context 0, whose tables reset has laid out. -/
def awaitingGang : Gang := { Gang.start 7 0 0 0 0 1 5 16 awaitingSplit with rc := [spilledEntry] }

/-- The root table of context 0 is in its slice's SRAM, unwritten since it came from DRAM, and two bits of its first sector have
flipped: SECDED detects that, and the sector is fetched again (R143). -/
def lostTableSector : State :=
  { State.reset with
    gangs := [awaitingGang]
    sram := [{ line := 0xC00000, valid := 0xF, dirty := 0, code := 0, keep := false }]
    sramFlaws := [{ sector := 0x60000, code := 0, tags := 0, flips := 2 }] }

/-- The read of the spilled entry. -/
def lostTableRead : State × Option (List Byte) :=
  lostTableSector.deviceRead awaitingGang.ctx (lostTableSector.gangBlock awaitingGang + 0x2000 + 64 * spilledEntry.idx) 64

/-- The read brings the bytes, and a record of the lost sector waits to be written. -/
theorem lostTableRead_brings : lostTableRead.2.isSome = true ∧ lostTableRead.1.logQueue ≠ [] := by decide +kernel

/-- The step has written that record. -/
theorem logQueue_after_refill : ((lostTableSector.refillEntry 7 0).settle).logQueue = [] := by decide +kernel

theorem GangBecomes.logQueue {s t : State} {id : Nat} {h : Gang} (hb : GangBecomes s t id h) : t.logQueue = s.logQueue := by
  rw [← hb.rest]

/-- Refutes O41: at `lostTableSector`, the refill of the entry leaves no record to be written, where the read has left one
(`lostTableRead_brings`, `logQueue_after_refill`); so the gang is not all that the step changes after the read. -/
theorem not_gangAndClusterEvents : ¬ Obligations.GangAndClusterEvents := by
  rintro ⟨-, -, hrefill, -⟩
  obtain ⟨hbrings, hrecord⟩ := lostTableRead_brings
  obtain ⟨d, hd⟩ := Option.isSome_iff_exists.1 hbrings
  have hquiet : lostTableSector.Quiet := ⟨rfl, rfl, fun c hc => by cases hc⟩
  have hread : lostTableRead = (lostTableRead.1, some d) := by rw [← hd]
  obtain ⟨t, h, ht, hbecomes, -⟩ := (hrefill lostTableSector 7 0 awaitingGang awaitingSplit spilledEntry hquiet rfl rfl rfl rfl).2 rfl rfl
    lostTableRead.1 d hread
  have hend : (lostTableSector.refillEntry 7 0).settle = t := Host.Outcome.next.inj ht
  rw [← hbecomes.logQueue, ← hend] at hrecord
  exact hrecord logQueue_after_refill

end Sys2Proof.Claims
end

section
/-! SUPPORT. The frame of memory's side of the machine: slices, trigger units, the link agent, packets and the fault logs. What they
do for the device, and for a read past the L1, changes no gang, no crew, no core, no island and no lease; nor does the end of a
step at which no cause is to be taken. One rule per operation, in the order of the model's files: `h.f` says that `t.f` is still
within the frame of `h : MemorySide s t`. -/

namespace Sys2Proof.Machine

/-- Two states differ at most in what is listed here. -/
def MemorySide (s t : State) : Prop :=
  t = { s with
    mem := t.mem, poison := t.poison, errors := t.errors, sram := t.sram, sramFlaws := t.sramFlaws, l1 := t.l1, slices := t.slices,
    tasks := t.tasks, watches := t.watches, pending := t.pending, loads := t.loads, deltas := t.deltas, out := t.out,
    hostOut := t.hostOut, hostAtomics := t.hostAtomics, agentCache := t.agentCache, peerPending := t.peerPending,
    logQueue := t.logQueue, eventFlags := t.eventFlags, agenda := t.agenda, fresh := t.fresh, freeCtr := t.freeCtr }

namespace MemorySide

variable {s t : State}

theorem refl (s : State) : MemorySide s s := rfl

theorem trans {u : State} (h : MemorySide s t) (k : MemorySide t u) : MemorySide s u := by
  unfold MemorySide at *
  rw [k, h]

theorem gangs (h : MemorySide s t) : t.gangs = s.gangs := by rw [h]
theorem gang (h : MemorySide s t) (id : Nat) : t.gang id = s.gang id := by rw [State.gang, h.gangs, State.gang]
theorem crews (h : MemorySide s t) : t.crews = s.crews := by rw [h]
theorem raises (h : MemorySide s t) : t.raises = s.raises := by rw [h]
theorem islands (h : MemorySide s t) : t.islands = s.islands := by rw [h]
theorem island (h : MemorySide s t) (n : Nat) : t.island n = s.island n := by rw [State.island, h.islands, State.island]

theorem of_eq {α : Type} {a b : α} (f : α → State) (h : MemorySide s (f a)) (e : a = b) : MemorySide s (f b) := e ▸ h

theorem ite {u : State} {c : Prop} [Decidable c] (h : MemorySide s t) (k : MemorySide s u) : MemorySide s (if c then t else u) := by
  split
  · exact h
  · exact k

/-- A fold of steps that stay within the frame, of the state that a result carries. -/
theorem foldl_of {α β : Type} (p : β → State) {f : β → α → β} {b : β} (h : MemorySide s (p b))
    (hf : ∀ c, MemorySide s (p c) → ∀ x, MemorySide s (p (f c x))) (l : List α) : MemorySide s (p (l.foldl f b)) := by
  induction l generalizing b with
  | nil => exact h
  | cons x l ih => exact ih (hf b h x)

theorem foldl {α : Type} (h : MemorySide s t) {f : State → α → State} (hf : ∀ u, MemorySide s u → ∀ x, MemorySide s (f u x))
    (l : List α) : MemorySide s (l.foldl f t) :=
  foldl_of id h hf l

/-! ### Bytes, poison, slice state and records -/

theorem setByte (h : MemorySide s t) (a : Nat) (v : Byte) : MemorySide s (t.setByte a v) := h.trans rfl
theorem setCells (h : MemorySide s t) (cells : List (Nat × Byte)) : MemorySide s (t.setCells cells) := h.foldl (fun _ hu _ => hu.setByte ..) _
theorem addPoison (h : MemorySide s t) (a : Nat) : MemorySide s (t.addPoison a) := h.ite (h.trans rfl)
theorem clearPoison (h : MemorySide s t) (a : Nat) : MemorySide s (t.clearPoison a) := h.trans rfl
theorem setSlice (h : MemorySide s t) (k : Nat) (f : SliceSt → SliceSt) : MemorySide s (t.setSlice k f) := h.trans rfl
theorem machineCheck (h : MemorySide s t) (sub addr aux : Nat) : MemorySide s (t.machineCheck sub addr aux) := h.trans rfl
theorem postEvent (h : MemorySide s t) (e : Event) : MemorySide s (t.postEvent e) := h.trans rfl
theorem poisonHalf (h : MemorySide s t) (a : Nat) : MemorySide s (t.poisonHalf a) := (h.setCells ..).addPoison ..
theorem sliceError (h : MemorySide s t) (a : Nat) : MemorySide s (t.sliceError a) := h.trans rfl
theorem rewritten (h : MemorySide s t) (a : Nat) : MemorySide s (t.rewritten a) := h.trans rfl
theorem countPoison (h : MemorySide s t) (a : Nat) : MemorySide s (t.countPoison a) := (h.poisonHalf ..).setSlice ..

/-! ### DRAM codes and the SRAM lines of a slice -/

theorem readsPoison (h : MemorySide s t) (a : Nat) (pins : List Byte) : MemorySide s (t.readsPoison a pins) := by
  have hu := (h.rewritten a).poisonHalf a
  exact h.ite (hu.ite (hu.trans rfl))

theorem decodeHalf (h : MemorySide s t) (a : Nat) : MemorySide s (t.decodeHalf a) := by
  unfold State.decodeHalf
  split
  · exact h
  · split
    · exact h.readsPoison ..
    · exact (h.rewritten ..).setSlice ..
    · exact ((h.rewritten ..).setCells ..).setSlice ..
    · exact (((h.rewritten ..).sliceError ..).countPoison ..).setSlice ..

theorem updSram (h : MemorySide s t) (line : Nat) (f : SramLine → SramLine) : MemorySide s (t.updSram line f) := h.trans rfl
theorem failLine (h : MemorySide s t) (a : Nat) : MemorySide s (t.failLine a) := (h.countPoison ..).setSlice ..

theorem verifyLine (h : MemorySide s t) (before : State) (a : Nat) : MemorySide s (before.verifyLine t a) := h.ite (h.failLine ..)

theorem meetSram (h : MemorySide s t) (line n : Nat) : MemorySide s (t.meetSram line n) := by
  have hdrop (k : Nat) : MemorySide s { t with sramFlaws := t.sramFlaws.filter (fun g => g.sector != k) } := h.trans rfl
  unfold State.meetSram
  extract_lets k
  generalize t.sramFlaws.find? (fun f => f.sector == k) = flaw
  cases flaw with
  | none => exact h
  | some f =>
    dsimp only
    generalize f.fate t.freeCtr = fate
    cases fate with
    | sound => exact hdrop k
    | corrected => exact (hdrop k).setSlice ..
    | lost => exact ((((hdrop k).sliceError ..).setSlice ..).countPoison ..).ite ((((hdrop k).sliceError ..).setSlice ..).updSram ..)
    | wrong =>
      refine verifyLine (setCells ?_ _) ..
      exact (hdrop k).trans rfl

theorem meetSectors (h : MemorySide s t) (line : Nat) (sec : BitVec 4) : MemorySide s (t.meetSectors line sec) :=
  h.ite (h.foldl (fun _ hu _ => hu.meetSram ..) _)

theorem leaveWalk (h : MemorySide s t) (line : Nat) : MemorySide s (t.leaveWalk line) := (h.setSlice ..).ite h

theorem evictSram (h : MemorySide s t) (x : SramLine) : MemorySide s (t.evictSram x) := by
  have hu := (h.meetSectors x.line 0xF#4).foldl (f := fun (u : State) (k : Nat) =>
    if !(x.dirtyAt (2 * k) || x.dirtyAt (2 * k + 1)) then u
    else (if x.has (2 * k) && x.has (2 * k + 1) then u else u.decodeHalf (x.line + 64 * k)).rewritten (x.line + 64 * k))
    (fun _ hv _ => hv.ite ((hv.ite (hv.decodeHalf ..)).rewritten ..)) [0, 1]
  refine leaveWalk ?_ _
  exact hu.trans rfl

theorem useLine (h : MemorySide s t) (line : Nat) (keep : Bool) : MemorySide s (t.useLine line keep) := by
  unfold State.useLine
  split
  · exact h.trans rfl
  · split
    · exact (h.evictSram _).trans rfl
    · exact h.trans rfl

theorem fillSectors (h : MemorySide s t) (line : Nat) (sec : BitVec 4) (allocate keep : Bool) :
    MemorySide s (t.fillSectors line sec allocate keep) := by
  unfold State.fillSectors
  extract_lets here miss u got
  have hu : MemorySide s u := h.foldl (fun _ hv _ => hv.decodeHalf ..) _
  exact hu.ite ((hu.useLine ..).updSram ..)

theorem touchSectors (h : MemorySide s t) (line : Nat) (sec : BitVec 4) (guarded : Bool) (policy : Nat) :
    MemorySide s (t.touchSectors line sec guarded policy) :=
  (h.meetSectors ..).fillSectors ..

theorem touchWith (h : MemorySide s t) (a n : Nat) (whole guarded : Bool) (policy : Nat) :
    MemorySide s (t.touchWith a n whole guarded policy) :=
  h.foldl (fun _ hu _ => hu.touchSectors ..) _

theorem touch (h : MemorySide s t) (a n : Nat) : MemorySide s (t.touch a n) := h.touchWith ..
theorem touchLine (h : MemorySide s t) (a n : Nat) : MemorySide s (t.touchLine a n) := h.touchWith ..

theorem openHalf (h : MemorySide s t) (a : Nat) (cells : List (Nat × Byte)) (guarded : Bool) (policy : Nat) :
    MemorySide s (t.openHalf a cells guarded policy) :=
  (h.touchLine ..).ite ((h.meetSectors ..).ite ((h.meetSectors ..).decodeHalf ..))

theorem closeHalf (h : MemorySide s t) (a : Nat) (cells : List (Nat × Byte)) (guarded : Bool) (policy : Nat) :
    MemorySide s (t.closeHalf a cells guarded policy) :=
  (h.rewritten a).ite (((h.useLine (lineOf a) (policy == 4)).updSram ..).trans rfl)

theorem putCells (h : MemorySide s t) (cells : List (Nat × Byte)) : MemorySide s (t.putCells cells) :=
  h.foldl (fun _ hu _ => ((hu.openHalf ..).setCells ..).closeHalf ..) _

/-! ### Walks, and accesses of the device -/

theorem walkReads (h : MemorySide s t) (va n level table : Nat) : MemorySide s (State.walkReads va n level table t) := by
  induction n generalizing t level table with
  | zero => exact h
  | succ n ih => exact (ih (h.touch ..) ..).ite (h.touch ..)

theorem walked (h : MemorySide s t) (ctx va : Nat) : MemorySide s (t.walked ctx va) := by
  unfold State.walked
  split
  · split
    · exact h.walkReads ..
    · exact h
  · exact h

theorem deviceReach (h : MemorySide s t) (ctx va n : Nat) (rd wr : Bool) : MemorySide s (t.deviceReach ctx va n rd wr).1 := by
  have hu := h.walked ctx va
  unfold State.deviceReach
  dsimp only
  split
  · exact (hu.touch ..).ite hu
  · exact hu

theorem deviceRead (h : MemorySide s t) (ctx va n : Nat) : MemorySide s (t.deviceRead ctx va n).1 := h.deviceReach ..

/-! ### Writes that commit at a slice, of the device's own -/

theorem setWatch (h : MemorySide s t) (w : Watch) : MemorySide s (t.setWatch w) := h.trans rfl

theorem writeDFields (h : MemorySide s t) (w : Watch) : MemorySide s (t.writeDFields w) := by
  unfold State.writeDFields
  split
  next e => exact ((h.deviceReach ..).of_eq Prod.fst e).machineCheck ..
  next e => exact (((h.deviceReach ..).of_eq Prod.fst e).setWatch ..).putCells ..

theorem loseTrigger (h : MemorySide s t) (w : Watch) : MemorySide s (t.loseTrigger w) := h.writeDFields ..

theorem spill (h : MemorySide s t) (w : Watch) (gidx depth kind : Nat) : MemorySide s (t.spill w gidx depth kind) := by
  unfold State.spill
  refine (h.loseTrigger _).ite ?_
  dsimp only
  split
  next e => exact (((h.deviceReach ..).of_eq Prod.fst e).machineCheck ..).loseTrigger ..
  next e => exact ((((h.deviceReach ..).of_eq Prod.fst e).putCells ..).writeDFields ..).postEvent ..

theorem enterTrigger (h : MemorySide s t) (w : Watch) (gidx depth kind : Nat) : MemorySide s (t.enterTrigger w gidx depth kind) :=
  (h.trans rfl : MemorySide s { t with pending := t.pending.map _ }).ite ((h.trans rfl : MemorySide s (t.takeEntry ..)).ite (h.spill ..))

theorem trigger (h : MemorySide s t) (w : Watch) (gidx depth kind ctx : Nat) :
    MemorySide s (t.trigger w gidx depth kind ctx .device).1 := by
  unfold State.trigger
  split
  · exact h
  · exact h.enterTrigger ..

theorem triggers (h : MemorySide s t) (changed : List Nat) (depth kind ctx : Nat) :
    MemorySide s (t.triggers changed depth kind ctx .device).1 := by
  unfold State.triggers
  refine foldl_of Prod.fst h (fun q hq _ => ?_) _
  split
  · exact hq
  · exact hq.trigger ..

theorem sendDelta (h : MemorySide s t) (dest parity ctx : Nat) (m : DeltaMsg) : MemorySide s (t.sendDelta dest parity ctx m .device) :=
  h.trans rfl

theorem sendDeltas (h : MemorySide s t) (a : Nat) (bytes : List (Nat × Byte)) (ctx : Nat) :
    MemorySide s (t.sendDeltas a bytes ctx .device) := by
  unfold State.sendDeltas
  split
  · exact h
  · exact ((h.sendDelta ..).sendDelta ..).ite (h.sendDelta ..)

theorem refuseHalf (h : MemorySide s t) {w : SliceWrite} (hw : w.org = .device) (a c : Nat) : MemorySide s (t.refuseHalf w a c) := by
  unfold State.refuseHalf
  rw [hw]
  exact (h.machineCheck ..).ite h

theorem putHalf (h : MemorySide s t) (w : SliceWrite) (a : Nat) (cells : List (Nat × Byte)) : MemorySide s (t.putHalf w a cells) :=
  (h.setCells ..).closeHalf ..

theorem half {r : Commit} (h : MemorySide s r.st) {w : SliceWrite} (hw : w.org = .device) (a : Nat) : MemorySide s (r.half w a).st := by
  unfold Commit.half
  rw [hw]
  extract_lets cells u
  have hu : MemorySide s u := h.ite (h.openHalf ..)
  split
  · exact hu.machineCheck ..
  · exact hu.refuseHalf hw ..
  · exact (hu.putHalf ..).clearPoison ..
  · exact hu.putHalf ..
  · exact ((hu.putHalf ..).sendDeltas ..).ite (hu.putHalf ..)

theorem noteReplies (h : MemorySide s t) (w : SliceWrite) : MemorySide s (t.noteReplies w) :=
  h.foldl (fun _ hu _ => (hu.postEvent ..).ite hu) _

theorem commitWrite (h : MemorySide s t) {w : SliceWrite} (hw : w.org = .device) : MemorySide s (t.commitWrite w) := by
  have hrecords (u : State) : State.recordsChanged t u w = u := by simp [State.recordsChanged, hw]
  have hpass (u : State) (m : Nat) (cells : List (Nat × Byte)) : u.passL1 w.org m cells = u := by simp [State.passL1, hw]
  unfold State.commitWrite State.commit
  extract_lets r0 r k s1 s2 q
  have hr : MemorySide s r.st := foldl_of (b := r0) Commit.st h (fun _ hq a => half hq hw a) _
  have h1 : MemorySide s s1 := MemorySide.ite hr ((hr.setSlice ..).postEvent ..)
  have h2 : MemorySide s s2 := by
    unfold s2
    rw [hpass]
    exact h1
  have hq : MemorySide s q.1 := by
    unfold q
    split
    · rw [hw]
      exact h2.triggers ..
    · exact h2
  exact ((hrecords q.1).symm ▸ hq).noteReplies w

theorem deviceStore (h : MemorySide s t) (ctx va : Nat) (data : List Byte) : MemorySide s (t.deviceStore ctx va data).1 := by
  unfold State.deviceStore
  split
  next e => exact ((h.deviceReach ..).of_eq Prod.fst e).commitWrite rfl
  next e => exact (h.deviceReach ..).of_eq Prod.fst e

/-! ### Host memory and peers -/

theorem hostBegin (h : MemorySide s t) (org : Origin) (lane a : Nat) (job : HostJob) (phase : Nat) (tx : Nat → List HostTx) :
    MemorySide s (t.hostBegin org lane a job phase tx) :=
  h.trans rfl

theorem hostStore (h : MemorySide s t) (cells : List (Nat × Byte)) : MemorySide s (t.hostStore .device cells) := by
  refine (h.foldl (fun u hu _ => ?_) _).ite (h.trans rfl)
  unfold State.hostStoreHalf
  dsimp only
  split
  · exact hu.trans rfl
  · exact hu.trans rfl

theorem performWrite (h : MemorySide s t) {x : Writer} (hx : x.org = .device) (cells : List (Nat × Byte)) (w p : Bool) :
    MemorySide s (t.performWrite x cells w p) := by
  unfold State.performWrite
  split
  · exact h
  · rw [hx]
    exact ((h.hostStore _).ite (h.commitWrite rfl)).ite (h.trans rfl)

theorem awayStore (h : MemorySide s t) (ctx phys leaf : Nat) (data : List Byte) : MemorySide s (t.awayStore ctx phys leaf data) :=
  h.foldl (fun _ hu _ => hu.performWrite rfl ..) _

theorem areaStore (h : MemorySide s t) (ctx va : Nat) (data : List Byte) : MemorySide s (t.areaStore ctx va data).1 := by
  unfold State.areaStore
  split
  next e => exact (h.deviceStore ..).of_eq Prod.fst e
  next e =>
    have hu := (h.deviceStore ..).of_eq Prod.fst e
    split
    · exact hu
    · exact hu.awayStore ..

/-! ### Reads past the L1 -/

theorem take {r : Gather} (h : MemorySide s r.st) (x : Located) (b : List Byte) (bad : Bool) : MemorySide s (r.take x b bad).st := h

theorem hostParts {r : Gather} (h : MemorySide s r.st) (g : Gang) (ps : List Located) : MemorySide s (r.hostParts g ps).st := by
  unfold Gather.hostParts
  split
  · exact h
  · dsimp only
    split
    · split
      · exact foldl_of Gather.st h (fun _ hq _ => take hq ..) _
      · exact h.trans rfl
    · exact h.trans rfl

theorem hostLine {r : Gather} (h : MemorySide s r.st) (g : Gang) (ps : List Located) : MemorySide s (r.hostLine g ps).st := by
  unfold Gather.hostLine
  split
  · exact h
  · split
    · exact foldl_of Gather.st h (fun _ hq _ => hq.hostParts ..) _
    · exact h.hostParts ..

theorem ownLine {r : Gather} (h : MemorySide s r.st) (g : Gang) (ps : List Located) (policy : Nat) :
    MemorySide s (r.ownLine g ps true policy).st := by
  unfold Gather.ownLine
  split
  · exact h
  · refine foldl_of Gather.st (h.touchSectors ..) (fun u hu _ => ?_) _
    simp only [if_true, Bool.true_and]
    split
    · exact hu.trans rfl
    · exact hu

theorem peerLine {r : Gather} (h : MemorySide s r.st) (g : Gang) (ps : List Located) (q : Ask) (fills : Bool) :
    MemorySide s (r.peerLine g ps q fills).st := by
  unfold Gather.peerLine
  split
  · exact h
  · extract_lets grain line whole secs read others src first
    have hfirst : MemorySide s first.st := h.trans rfl
    refine foldl_of Gather.st hfirst (fun _ hp _ => ?_) others
    exact hp.trans rfl

theorem beyond {r : Gather} (h : MemorySide s r.st) (g : Gang) (ps : List Located) : MemorySide s (r.beyond g ps Ask.past).st := by
  unfold Gather.beyond
  split
  · exact h
  · simp only [Ask.past, Bool.true_or, Bool.not_true, Bool.false_and, Bool.false_eq_true, if_false]
    split
    · split
      · exact h.hostLine ..
      · exact h.ownLine ..
    · exact h.peerLine ..

theorem fetchPast (h : MemorySide s t) (g : Gang) (x : Located) : MemorySide s (t.fetchPast g x).st :=
  beyond (r := Gather.start t) h g [x]

theorem areaRead (h : MemorySide s t) (ctx va n : Nat) : MemorySide s (t.areaRead ctx va n).state := by
  unfold State.areaRead
  split
  next e => exact (h.deviceRead ..).of_eq Prod.fst e
  next e =>
    have hu := (h.deviceRead ..).of_eq Prod.fst e
    split
    · exact hu
    · dsimp only
      split
      · exact hu.fetchPast ..
      · split
        · exact hu.fetchPast ..
        · exact hu.fetchPast ..

/-! ### The fault logs, and the end of a step -/

theorem loseRecord (h : MemorySide s t) (c : Nat) : MemorySide s (t.loseRecord c) := h.putCells _

theorem recordFails (h : MemorySide s t) (r : LogRec) (va : Nat) : MemorySide s (t.recordFails r va) :=
  (h.loseRecord r.ctx).ite ((h.loseRecord r.ctx).machineCheck ..)

theorem recordTakes (h : MemorySide s t) (r : LogRec) {write : State → State} (hw : ∀ u, MemorySide s u → MemorySide s (write u)) :
    MemorySide s (t.recordTakes r write) := by
  have hu := hw _ (h.putCells (cellsAt (64 * r.ctx + 48) (leBytes 4 (bits (t.ctxLogw r.ctx) 0 32 + 1))))
  unfold State.recordTakes
  dsimp only
  generalize List.range Config.clusters = flags
  exact MemorySide.ite (hu.trans rfl) hu

theorem writeRecord (h : MemorySide s t) (r : LogRec) : MemorySide s (t.writeRecord r) := by
  unfold State.writeRecord
  split
  · exact h.loseRecord ..
  · refine (h.trans rfl : MemorySide s { t with logQueue := t.logQueue ++ [r] }).ite ?_
    split
    next e =>
      have hq := (h.deviceReach ..).of_eq Prod.fst e
      exact (hq.loseRecord ..).ite (hq.recordTakes r fun _ hu => hu.commitWrite rfl)
    next q e =>
      have hq := (h.deviceReach ..).of_eq Prod.fst e
      have hread {x : AreaRead} {ctx va : Nat} {rd wr : Bool} (e' : (areaAway q ctx va 64 rd wr).map (fun _ => q.areaRead ctx va 64) = some x) :
          MemorySide s x.state := by
        obtain ⟨_, _, hr⟩ := Option.map_eq_some_iff.1 e'
        exact (hq.areaRead ..).of_eq AreaRead.state hr
      split
      next e' => exact (hread e').trans rfl
      next e' => exact ((hread e').loseRecord ..).ite ((hread e').recordTakes r fun _ hu => hu.areaStore ..)
      next e' => exact (hread e').recordFails ..
      · exact hq.recordFails ..

theorem flushLog (h : MemorySide s t) : MemorySide s t.flushLog :=
  (h.trans rfl : MemorySide s { t with logQueue := [] }).foldl (fun _ hu _ => hu.writeRecord ..) _

/-- The end of a step at which no cause is to be taken and no checkpoint is due. -/
theorem settle (h : MemorySide s t) (hs : s.Quiet) : MemorySide s t.settle := by
  obtain ⟨hraises, -, hckpts⟩ := hs
  have hnone : t.crews.filter (fun c => !c.ckpts.isEmpty) = [] :=
    List.filter_eq_nil_iff.2 fun c hc => by simp [hckpts c (h.crews ▸ hc)]
  have hend : t.settle = if t.logQueue.isEmpty then t else t.flushLog := by
    simp only [State.settle, hnone, List.foldl_nil, h.raises, hraises, List.isEmpty_nil, if_true]
  rw [hend]
  exact h.ite h.flushLog

end MemorySide

end Sys2Proof.Machine
end

section
/-! SUPPORT. Islands: an island read after a change, what a write of ISLCTL and the end of a change leave, the steps of the power and
the thermal rules, and the die whose turn it is (R17 to R24). -/

namespace Sys2Proof.Machine

theorem island_setIsland (s : State) (n m : Nat) (x : IslSt) : (s.setIsland n x).island m = if m = n then x else s.island m :=
  sget_sput ..

@[simp] theorem island_setIsland_same (s : State) (n : Nat) (x : IslSt) : (s.setIsland n x).island n = x := by
  rw [island_setIsland, if_pos rfl]

theorem island_setIsland_ne (s : State) {n m : Nat} (x : IslSt) (h : m ≠ n) : (s.setIsland n x).island m = s.island m := by
  rw [island_setIsland, if_neg h]

@[simp] theorem island_postEvent (s : State) (e : Event) (m : Nat) : (s.postEvent e).island m = s.island m := rfl
@[simp] theorem island_agenda (s : State) (l : List Event) (m : Nat) : State.island { s with agenda := l } m = s.island m := rfl

/-! ### A change of operating point -/

/-- An island that is on its way, or where it is due, does not set out. -/
theorem moveIsland_stays {s : State} {n : Nat} (h : (s.island n).busy = true ∨ (s.island n).target = (s.island n).cur) :
    s.moveIsland n = s := by
  unfold State.moveIsland
  exact if_pos (by simpa using h)

theorem moveIsland_sets_out {s : State} {n : Nat} (hb : (s.island n).busy = false) (ht : (s.island n).target ≠ (s.island n).cur) :
    s.moveIsland n = (s.setIsland n { s.island n with
      busy := true, goal := (s.island n).target, due := if (s.island n).target = 6 then s.gateCores n else [] }).postEvent
        (.operatingPointChangeDone n) := by
  unfold State.moveIsland
  exact if_neg (by simp [hb, ht])

theorem moveIsland_frame (s : State) (n : Nat) : { s.moveIsland n with islands := s.islands, agenda := s.agenda } = s := by
  unfold State.moveIsland
  dsimp only
  split <;> rfl

theorem island_moveIsland_ne (s : State) {n m : Nat} (h : m ≠ n) : (s.moveIsland n).island m = s.island m := by
  unfold State.moveIsland
  dsimp only
  split
  · rfl
  · exact island_setIsland_ne _ _ h

/-- A point that the island takes: its request changes, ERR stays unless the write clears it, and it sets out. -/
theorem writeIsl_takes {s : State} {n : Nat} {x : DWord} (h : islRefuses n (bits x.toNat 0 4) = false) :
    s.writeIsl n x = (s.setIsland n
      { s.island n with err := (s.island n).err && !bit x.toNat 23, req := bits x.toNat 0 4 }).moveIsland n :=
  if_neg (by simp [h])

theorem writeIsl_refuses {s : State} {n : Nat} {x : DWord} (h : islRefuses n (bits x.toNat 0 4) = true) :
    s.writeIsl n x = s.setIsland n { s.island n with err := true } :=
  if_pos h

/-- A write of ISLCTL touches islands and the agenda alone. -/
theorem writeIsl_frame (s : State) (n : Nat) (x : DWord) : { s.writeIsl n x with islands := s.islands, agenda := s.agenda } = s := by
  cases h : islRefuses n (bits x.toNat 0 4) with
  | true => rw [writeIsl_refuses h]; rfl
  | false =>
    rw [writeIsl_takes h]
    exact congrArg (fun t : State => { t with islands := s.islands, agenda := s.agenda }) (moveIsland_frame ..)

/-- A change that ends lands the island, which goes straight on; one out of GATED has its hub consider the tasks that wait. -/
theorem endChange_lands {s : State} {n : Nat} (hb : (s.island n).busy = true) (hd : (s.island n).due = []) :
    s.endChange n =
      let t := (s.setIsland n { s.island n with
        cur := if (s.island n).goal = 6 then 6 else max (s.island n).goal (max (s.island n).power (s.island n).thermal),
        busy := false }).moveIsland n
      { t with agenda := t.agenda ++ if (s.island n).cur = 6 ∧ (s.island n).goal ≠ 6 then [.hubConsider (n / 4)] else [] } := by
  unfold State.endChange
  simp only [hb, hd, List.isEmpty_nil, Bool.and_self, if_true]
  by_cases h : (s.island n).cur = 6 ∧ (s.island n).goal ≠ 6
  · simp [h, State.postEvent]
  · simp [h]

theorem endChange_waits {s : State} {n : Nat} (h : (s.island n).busy = false ∨ (s.island n).due ≠ []) : s.endChange n = s := by
  unfold State.endChange
  exact if_neg (by rcases h with h | h <;> simp [h])

/-- The end of a change touches islands and the agenda alone. -/
theorem endChange_frame (s : State) (n : Nat) : { s.endChange n with islands := s.islands, agenda := s.agenda } = s := by
  by_cases h : (s.island n).busy = true ∧ (s.island n).due = []
  · rw [endChange_lands h.1 h.2]
    exact congrArg (fun t : State => { t with islands := s.islands, agenda := s.agenda }) (moveIsland_frame ..)
  · rw [endChange_waits (by simpa [imp_iff_not_or] using h)]

/-! ### Steps of several islands -/

/-- A step function that changes one island at a time changes islands alone, and each island of the list once. -/
theorem foldl_islands {g : State → Nat → State} {f : Nat → IslSt → IslSt} (l : List Nat) :
    ∀ {s : State}, (∀ t n, t.clock = s.clock → g t n = t.setIsland n (f n (t.island n))) → l.Nodup →
      { l.foldl g s with islands := s.islands } = s ∧ ∀ m, (l.foldl g s).island m = if m ∈ l then f m (s.island m) else s.island m := by
  induction l with
  | nil => exact fun _ _ => ⟨rfl, fun m => by simp⟩
  | cons n l ih =>
    intro s hg hl
    obtain ⟨hn, hl⟩ := List.nodup_cons.1 hl
    have hs : g s n = s.setIsland n (f n (s.island n)) := hg s n rfl
    obtain ⟨hframe, hisl⟩ := ih (s := g s n) (fun t k ht => hg t k (by rw [ht, hs]; rfl)) hl
    rw [List.foldl_cons]
    refine ⟨?_, fun m => ?_⟩
    · have := congrArg (fun t : State => { t with islands := s.islands }) hframe
      exact this.trans (by rw [hs]; rfl)
    · rw [hisl m, hs]
      by_cases hm : m = n
      · subst hm; simp [hn]
      · simp [island_setIsland_ne _ _ hm, hm]

/-! ### The die whose turn it is -/

/-- The first die that will do, counted from the next one. -/
theorem find_dieOrder {next j : Nat} {p : Nat → Bool} (hj : j < 16) (hp : p ((next + j) % 16) = true)
    (hbefore : ∀ i, i < j → p ((next + i) % 16) = false) : (dieOrder next).find? p = some ((next + j) % 16) := by
  unfold dieOrder
  have hfirst : (List.range 16).find? (p ∘ fun k => (next + k) % 16) = some j :=
    List.find?_range_eq_some.2 ⟨hp, by simpa using hj, fun i hi => by simpa using hbefore i hi⟩
  rw [List.find?_map, hfirst]
  rfl

theorem find_dieOrder_none {next : Nat} {p : Nat → Bool} (h : ∀ d, d < 16 → p d = false) : (dieOrder next).find? p = none := by
  simp only [dieOrder, List.find?_eq_none, List.mem_map]
  rintro _ ⟨k, -, rfl⟩
  simp [h _ (Nat.mod_lt (next + k) (by decide))]

theorem canStep_low {s : State} {d : Nat} : s.canStep false d = true ↔ ∃ k, k < 3 ∧ (s.island (4 * d + k)).cur < 5 := by
  simp [State.canStep]

theorem canStep_high {s : State} {d : Nat} : s.canStep true d = true ↔ (s.island (4 * d + 3)).cur < 3 := by
  simp [State.canStep]

theorem heldDown_iff {s : State} {d : Nat} : s.heldDown d = true ↔ ∃ k, k < 4 ∧ (s.island (4 * d + k)).power ≠ 0 := by
  simp [State.heldDown]

/-- A step within a spell of the power rule, of islands that differ, leaves all else. -/
theorem stepDie_active {s : State} {ns : List Nat} (ha : s.power.active = true) (hn : ns.Nodup) :
    { s.stepDie ns with islands := s.islands } = s ∧
      ∀ m, (s.stepDie ns).island m = if m ∈ ns then (s.island m).down m s.clock false else s.island m := by
  obtain ⟨hframe, hisl⟩ := foldl_islands (g := State.powerDown) (f := fun m x => x.down m s.clock false) ns
    (s := s) (fun t n ht => by rw [State.powerDown, ht]) hn
  have hpower : (ns.foldl State.powerDown s).power = s.power := (congrArg State.power hframe :)
  have hstep : s.stepDie ns = ns.foldl State.powerDown s := by
    unfold State.stepDie
    simp only [ha, if_true, hpower]
    rw [show ({ s.power with active := true } : PowerSt) = s.power by rw [← ha], ← hpower]
  exact hstep ▸ ⟨hframe, hisl⟩

/-- A step up of islands that differ changes them alone. -/
theorem foldl_powerUp {s : State} {ns : List Nat} (hn : ns.Nodup) :
    { ns.foldl State.powerUp s with islands := s.islands } = s ∧
      ∀ m, (ns.foldl State.powerUp s).island m
        = if m ∈ ns then (s.island m).up (fun x => { x with power := x.less x.power }) else s.island m :=
  foldl_islands (g := State.powerUp) (f := fun _ y => y.up (fun x => { x with power := x.less x.power })) ns (fun _ _ _ => rfl) hn

end Sys2Proof.Machine
end

section
/-! PROOF. O50: a write of ISLCTL, the end of a change, the steps of the power and the thermal rules, and a trip (R18 to R24). -/

namespace Sys2Proof.Claims

open Sys2Proof.Machine

theorem bits_eq_field (x : DWord) (l n : Nat) : bits x.toNat l n = field x l n := by
  rw [bits, field, Nat.shiftRight_eq_div_pow]

theorem target_eq_islGoal (x : IslSt) : x.target = islGoal x := rfl

theorem islRefuses_iff (n code : Nat) : islRefuses n code = true ↔ 7 ≤ code ∨ (n % 4 = 3 ∧ 4 ≤ code) := by
  simp [islRefuses]

/-- A core is of island n when its die and its third of the die are the island's (R15). -/
theorem mem_islCores {n c : Nat} (hn : n < 64) (h3 : n % 4 ≠ 3) : c ∈ islCores n ↔ OfIsland n c := by
  simp only [islCores, List.mem_map, List.mem_range, OfIsland]
  constructor
  · rintro ⟨k, hk, rfl⟩
    omega
  · rintro ⟨hc, hd, ht⟩
    exact ⟨c % 48, by omega, by omega⟩

theorem mem_gateCores {s : State} {n c : Nat} (hn : n < 64) (h3 : n % 4 ≠ 3) :
    c ∈ s.gateCores n ↔ ∃ d, OfIsland n d ∧ c = if (s.core d).closed = true then d + 4096 else d := by
  simp only [State.gateCores, List.mem_map, mem_islCores hn h3, State.inPass, eq_comm (a := c)]
  rfl

/-- A write to an island's register, as R18 to R20 describe it. -/
theorem islandWritten_writeIsl (s : State) {n : Nat} (hn : n < 64) (x : DWord) : IslandWritten s (s.writeIsl n x) n x := by
  have hcode := bits_eq_field x 0 4
  unfold IslandWritten
  dsimp only
  by_cases href : 7 ≤ field x 0 4 ∨ (n % 4 = 3 ∧ 4 ≤ field x 0 4)
  · rw [writeIsl_refuses ((islRefuses_iff ..).2 (hcode ▸ href)), if_pos href]
    exact ⟨fun m hm => island_setIsland_ne _ _ hm, island_setIsland_same .., rfl⟩
  · rw [writeIsl_takes (Bool.eq_false_iff.2 fun h => href (hcode ▸ (islRefuses_iff ..).1 h)), if_neg href, hcode,
      show bit x.toNat 23 = x.getLsbD 23 from rfl]
    refine ⟨fun m hm => (island_moveIsland_ne _ hm).trans (island_setIsland_ne _ _ hm), ?_⟩
    split
    next hstay =>
      rw [moveIsland_stays (by simpa [target_eq_islGoal] using hstay)]
      exact ⟨island_setIsland_same .., rfl⟩
    next hgo =>
      rw [not_or, Bool.not_eq_true] at hgo
      rw [moveIsland_sets_out (by simpa using hgo.1) (by simpa [target_eq_islGoal] using hgo.2)]
      simp only [island_setIsland_same, island_postEvent, target_eq_islGoal]
      refine ⟨_, rfl, rfl, fun h6 => if_neg h6, fun h6 c => ?_⟩
      rw [if_pos (by simp [islGoal, h6]), mem_gateCores hn (by omega)]
      rfl

/-! ### The steps -/

theorem servedBy_eq_any (x : IslSt) (now : Nat) (thermal : Bool) :
    x.servedBy now thermal = x.stepped.any (fun e => e.1 != thermal && decide (now < e.2 + 100000)) := by
  unfold IslSt.servedBy
  cases x.stepped <;> rfl

theorem demand_eq_demands (x : IslSt) (thermal : Bool) (p : Nat) : x.demand thermal p = demands x thermal p := rfl

theorem down_eq_steppedDown (x : IslSt) (n now : Nat) (thermal : Bool) :
    x.down n now thermal = steppedDown (islFloor n) now thermal x := by
  simp only [IslSt.down, steppedDown, servedBy_eq_any, demand_eq_demands]

theorem less_eq (x : IslSt) (p : Nat) : x.less p = if x.req < 6 ∧ p - 1 ≤ x.req then 0 else p - 1 := by
  simp [IslSt.less]

theorem up_power_eq_steppedUp (x : IslSt) : x.up (fun y => { y with power := y.less y.power }) = steppedUp false x.power x := by
  simp [IslSt.up, steppedUp, demands, less_eq, target_eq_islGoal]

theorem up_thermal_eq_steppedUp (x : IslSt) : x.up (fun y => { y with thermal := y.less y.thermal }) = steppedUp true x.thermal x := by
  simp [IslSt.up, steppedUp, demands, less_eq, target_eq_islGoal]

/-! ### The clauses -/

/-- At a state at which nothing is due, an event that changes islands, the power controller and the agenda alone ends there. -/
theorem happen_of_frame {s t : State} (hs : s.Quiet) (h : { t with islands := s.islands, power := s.power, agenda := s.agenda } = s) :
    happen t = .next t := by
  rw [← h] at hs
  rw [happen, settle_of_quiet (s := t) hs]

theorem happen_of_islands {s t : State} (hs : s.Quiet) (h : { t with islands := s.islands } = s) : happen t = .next t :=
  happen_of_frame hs (congrArg (fun u : State => { u with power := s.power, agenda := s.agenda }) h)

theorem happen_of_agenda {s t : State} (hs : s.Quiet) (h : { t with islands := s.islands, agenda := s.agenda } = s) :
    happen t = .next t :=
  happen_of_frame hs (congrArg (fun u : State => { u with power := s.power }) h)

theorem happen_of_power {s t : State} (hs : s.Quiet) (h : { t with islands := s.islands, power := s.power } = s) :
    happen t = .next t :=
  happen_of_frame hs (congrArg (fun u : State => { u with agenda := s.agenda }) h)

theorem happen_self {s : State} (hs : s.Quiet) : happen s = .next s := happen_of_islands hs rfl

section
variable {s : State} (hs : s.Quiet)
include hs

theorem islctl_writes (n : Nat) (x : BitVec 64) : (64 ≤ n → exec (.islctl n x) s = .next s) ∧
    (n < 64 → ∃ t, exec (.islctl n x) s = .next t ∧ { t with islands := s.islands, agenda := s.agenda } = s ∧ IslandWritten s t n x) := by
  rw [exec_islctl, execIslctl]
  refine ⟨fun hn => ?_, fun hn => ⟨_, ?_, writeIsl_frame .., islandWritten_writeIsl s hn x⟩⟩
  · rw [if_neg (Nat.not_lt.2 hn), happen_self hs]
  · rw [if_pos hn, happen_of_agenda hs (writeIsl_frame ..)]

theorem change_waits {n : Nat} (h : (s.island n).busy = false ∨ (s.island n).due ≠ []) :
    exec (.operatingPointChangeDone n) s = .next s := by
  rw [exec_operatingPointChangeDone, execOperatingPointChangeDone, endChange_waits h, happen_self hs]

/-- The goal of a change as it is reached: the point that the rules still allow. -/
theorem change_ends {n : Nat} (hb : (s.island n).busy = true) (hd : (s.island n).due = []) {landed : Nat}
    (hl : landed = if (s.island n).goal = 6 then 6 else max (s.island n).goal (max (s.island n).power (s.island n).thermal)) :
    (islGoal (s.island n) = landed → ∃ t, exec (.operatingPointChangeDone n) s = .next t ∧
      { t with islands := s.islands, agenda := s.agenda } = s ∧ t.island n = { s.island n with cur := landed, busy := false } ∧
      (∀ m, m ≠ n → t.island m = s.island m) ∧
      t.agenda = s.agenda ++ (if (s.island n).cur = 6 ∧ (s.island n).goal ≠ 6 then [.hubConsider (n / 4)] else [])) ∧
    (islGoal (s.island n) ≠ landed → ∃ t, exec (.operatingPointChangeDone n) s = .next t ∧
      (t.island n).cur = landed ∧ (t.island n).busy = true ∧ (t.island n).goal = islGoal (s.island n) ∧
      .operatingPointChangeDone n ∈ t.agenda) := by
  have hend := endChange_lands hb hd
  rw [← hl] at hend
  have hnext : exec (.operatingPointChangeDone n) s = .next (s.endChange n) := happen_of_agenda hs (endChange_frame ..)
  constructor
  · intro hgoal
    refine ⟨_, hnext, endChange_frame .., ?_⟩
    rw [hend, moveIsland_stays (.inr (by rw [island_setIsland_same]; exact hgoal))]
    refine ⟨?_, fun m hm => ?_, rfl⟩
    · rw [island_agenda, island_setIsland_same]
    · rw [island_agenda, island_setIsland_ne _ _ hm]
  · intro hgoal
    refine ⟨_, hnext, ?_⟩
    rw [hend, moveIsland_sets_out (by rw [island_setIsland_same]) (by rw [island_setIsland_same]; exact hgoal), island_setIsland_same,
      island_agenda, island_postEvent, island_setIsland_same]
    exact ⟨rfl, rfl, rfl, List.mem_append_left _ (List.mem_append_right _ (List.mem_singleton.2 rfl))⟩

/-- With the power controller's place changed, a step of islands alone ends there. -/
theorem happen_power {t : State} {q : PowerSt} (h : { t with islands := s.islands } = { s with power := q }) :
    happen t = .next t ∧ { t with islands := s.islands, power := s.power } = s ∧ t.power = q :=
  have hside : { t with islands := s.islands, power := s.power } = s := congrArg (fun u : State => { u with power := s.power }) h
  ⟨happen_of_power hs hside, hside, (congrArg State.power h :)⟩

/-- The step of a die's islands 0 to 2 (R22). -/
theorem powerStepDown_low {j : Nat} (ha : s.power.active = true) (hj : j < 16)
    (hcan : ∃ k, k < 3 ∧ (s.island (4 * ((s.power.next + j) % 16) + k)).cur < 5)
    (hbefore : ∀ i, i < j → ∀ k, k < 3 → 5 ≤ (s.island (4 * ((s.power.next + i) % 16) + k)).cur) :
    let d := (s.power.next + j) % 16
    ∃ t, exec .powerStepDown s = .next t ∧ { t with islands := s.islands, power := s.power } = s ∧ t.power.next = (d + 1) % 16 ∧
      t.power.next3 = s.power.next3 ∧
      (∀ k, k < 3 → t.island (4 * d + k) = steppedDown 5 s.clock false (s.island (4 * d + k))) ∧
      ∀ m, m / 4 ≠ d ∨ m % 4 = 3 → t.island m = s.island m := by
  intro d
  have hfind : (dieOrder s.power.next).find? (s.canStep false) = some d :=
    find_dieOrder hj (canStep_low.2 hcan) fun i hi => Bool.eq_false_iff.2 fun h => by
      obtain ⟨k, hk, hlow⟩ := canStep_low.1 h
      exact absurd (hbefore i hi k hk) (by omega)
  obtain ⟨hframe, hisl⟩ := stepDie_active (s := { s with power := { s.power with next := (d + 1) % 16 } })
    (ns := (List.range 3).map (4 * d + ·)) ha (List.nodup_range.map fun _ _ h => Nat.add_left_cancel h)
  obtain ⟨hnext, hside, hpower⟩ := happen_power hs hframe
  rw [exec_powerStepDown, execPowerStepDown, hfind]
  refine ⟨_, hnext, hside, by rw [hpower], by rw [hpower], fun k hk => ?_, fun m hm => ?_⟩
  · rw [hisl, if_pos (List.mem_map.2 ⟨k, List.mem_range.2 hk, rfl⟩), down_eq_steppedDown, islFloor, if_neg (by omega)]
    rfl
  · rw [hisl, if_neg (by simp only [List.mem_map, List.mem_range]; omega)]
    rfl

theorem powerStepDown_high {j : Nat} (ha : s.power.active = true) (hj : j < 16)
    (hlow : ∀ n, n < 64 → n % 4 ≠ 3 → 5 ≤ (s.island n).cur) (hcan : (s.island (4 * ((s.power.next3 + j) % 16) + 3)).cur < 3)
    (hbefore : ∀ i, i < j → 3 ≤ (s.island (4 * ((s.power.next3 + i) % 16) + 3)).cur) :
    let d := (s.power.next3 + j) % 16
    ∃ t, exec .powerStepDown s = .next t ∧ { t with islands := s.islands, power := s.power } = s ∧ t.power.next3 = (d + 1) % 16 ∧
      t.island (4 * d + 3) = steppedDown 3 s.clock false (s.island (4 * d + 3)) ∧ ∀ m, m ≠ 4 * d + 3 → t.island m = s.island m := by
  intro d
  have hnone : (dieOrder s.power.next).find? (s.canStep false) = none :=
    find_dieOrder_none fun e he => Bool.eq_false_iff.2 fun h => by
      obtain ⟨k, hk, hlt⟩ := canStep_low.1 h
      exact absurd (hlow (4 * e + k) (by omega) (by omega)) (by omega)
  have hfind : (dieOrder s.power.next3).find? (s.canStep true) = some d :=
    find_dieOrder hj (canStep_high.2 hcan) fun i hi => Bool.eq_false_iff.2 fun h =>
      absurd (hbefore i hi) (Nat.not_le.2 (canStep_high.1 h))
  obtain ⟨hframe, hisl⟩ := stepDie_active (s := { s with power := { s.power with next3 := (d + 1) % 16 } })
    (ns := [4 * d + 3]) ha (List.nodup_singleton _)
  obtain ⟨hnext, hside, hpower⟩ := happen_power hs hframe
  rw [exec_powerStepDown, execPowerStepDown, hnone, hfind]
  refine ⟨_, hnext, hside, by rw [hpower], ?_, fun m hm => ?_⟩
  · rw [hisl, if_pos (List.mem_singleton.2 rfl), down_eq_steppedDown, islFloor, if_pos (by omega)]
    rfl
  · rw [hisl, if_neg (by simpa using hm)]
    rfl

/-- Every island at its lowest point, and the machine check made: nothing more to do. -/
theorem powerStepDown_capped (hall : ∀ n, n < 64 → (if n % 4 = 3 then 3 else 5) ≤ (s.island n).cur) (hc : s.power.capped = true) :
    exec .powerStepDown s = .next s := by
  have hlow : (dieOrder s.power.next).find? (s.canStep false) = none :=
    find_dieOrder_none fun e he => Bool.eq_false_iff.2 fun h => by
      obtain ⟨k, hk, hlt⟩ := canStep_low.1 h
      have := hall (4 * e + k) (by omega)
      rw [if_neg (by omega)] at this
      omega
  have hhigh : (dieOrder s.power.next3).find? (s.canStep true) = none :=
    find_dieOrder_none fun e he => Bool.eq_false_iff.2 fun h => by
      have hlt := canStep_high.1 h
      have := hall (4 * e + 3) (by omega)
      rw [if_pos (by omega)] at this
      omega
  rw [exec_powerStepDown, execPowerStepDown, hlow, hhigh]
  dsimp only
  rw [if_pos hc, happen_self hs]

/-- A die that is not the one whose turn it is rises not at all. -/
theorem powerStepUp_other {d : Nat} (h : (dieOrder s.power.rise).find? s.heldDown ≠ some d) : exec (.powerStepUp d) s = .next s := by
  rw [exec_powerStepUp, execPowerStepUp, if_neg h, happen_self hs]

theorem powerStepUp_none (h : ∀ n, n < 64 → (s.island n).power = 0) (d : Nat) : exec (.powerStepUp d) s = .next s := by
  refine powerStepUp_other hs ?_
  rw [find_dieOrder_none fun e he => Bool.eq_false_iff.2 fun hd => ?_]
  · simp
  · obtain ⟨k, hk, hp⟩ := heldDown_iff.1 hd
    exact hp (h _ (by omega))

/-- The die whose turn it is rises one point (R22). -/
theorem powerStepUp_turn {j : Nat} (hj : j < 16) (hheld : ∃ k, k < 4 ∧ (s.island (4 * ((s.power.rise + j) % 16) + k)).power ≠ 0)
    (hbefore : ∀ i, i < j → ∀ k, k < 4 → (s.island (4 * ((s.power.rise + i) % 16) + k)).power = 0) :
    let d := (s.power.rise + j) % 16
    (∀ x, x ≠ d → exec (.powerStepUp x) s = .next s) ∧
      ∃ t, exec (.powerStepUp d) s = .next t ∧ { t with islands := s.islands, power := s.power } = s ∧
        t.power = { s.power with active := false, capped := false, rise := (d + 1) % 16 } ∧
        (∀ k, k < 4 → t.island (4 * d + k) = steppedUp false (s.island (4 * d + k)).power (s.island (4 * d + k))) ∧
        ∀ m, m / 4 ≠ d → t.island m = s.island m := by
  intro d
  have hfind : (dieOrder s.power.rise).find? s.heldDown = some d :=
    find_dieOrder hj (heldDown_iff.2 hheld) fun i hi => Bool.eq_false_iff.2 fun h => by
      obtain ⟨k, hk, hp⟩ := heldDown_iff.1 h
      exact hp (hbefore i hi k hk)
  refine ⟨fun x hx => powerStepUp_other hs (by rw [hfind]; simpa using hx.symm), ?_⟩
  obtain ⟨hframe, hisl⟩ := foldl_powerUp (s := { s with power := { s.power with active := false, capped := false, rise := (d + 1) % 16 } })
    (ns := (List.range 4).map (4 * d + ·)) (List.nodup_range.map fun _ _ h => Nat.add_left_cancel h)
  obtain ⟨hnext, hside, hpower⟩ := happen_power hs hframe
  rw [exec_powerStepUp, execPowerStepUp, if_pos hfind, ← List.foldl_map]
  refine ⟨_, hnext, hside, hpower, fun k hk => ?_, fun m hm => ?_⟩
  · rw [hisl, if_pos (List.mem_map.2 ⟨k, List.mem_range.2 hk, rfl⟩), up_power_eq_steppedUp]
    rfl
  · rw [hisl, if_neg (by simp only [List.mem_map, List.mem_range]; omega)]
    rfl

/-- An island that is hot steps down; its machine check is written to the resident's log, which touches no island. -/
theorem thermalStep_steps (n : Nat) : ∃ t, exec (.thermalStep n) s = .next t ∧ (∀ m, m ≠ n → t.island m = s.island m) ∧
    t.island n = steppedDown (if n % 4 = 3 then 3 else 5) s.clock true (s.island n) := by
  have hside := ((MemorySide.refl (s.setIsland n ((s.island n).down n s.clock true))).machineCheck 2 n 0).settle hs
  refine ⟨_, rfl, fun m hm => ?_, ?_⟩
  · exact (hside.island m).trans (island_setIsland_ne _ _ hm)
  · exact (hside.island n).trans ((island_setIsland_same ..).trans (down_eq_steppedDown ..))

theorem thermalRecover_steps (n : Nat) : ∃ t, exec (.thermalRecover n) s = .next t ∧ { t with islands := s.islands } = s ∧
    (∀ m, m ≠ n → t.island m = s.island m) ∧ t.island n = steppedUp true (s.island n).thermal (s.island n) := by
  refine ⟨_, happen_of_islands hs rfl, rfl, fun m hm => island_setIsland_ne _ _ hm, ?_⟩
  rw [island_setIsland_same, up_thermal_eq_steppedUp]

end

/-- Settles O50: each island is read back after the change of its event, and the rest of the state is left by it. -/
theorem islandsPowerAndHeat : Obligations.IslandsPowerAndHeat := by
  unfold Obligations.IslandsPowerAndHeat
  intro s hs
  exact ⟨islctl_writes hs,
    fun n => ⟨change_waits hs, fun hb hd => (change_ends hs hb hd rfl).1, fun hb hd => (change_ends hs hb hd rfl).2⟩,
    fun _ ha hj => powerStepDown_low hs ha hj, fun _ ha hj => powerStepDown_high hs ha hj, powerStepDown_capped hs,
    powerStepUp_none hs, fun _ hj => powerStepUp_turn hs hj, fun n => ⟨thermalStep_steps hs n, thermalRecover_steps hs n⟩,
    ⟨_, rfl, rfl, rfl, rfl, rfl, rfl, rfl, rfl, rfl, rfl, rfl, rfl, rfl⟩⟩

end Sys2Proof.Claims
end

section
/-! SUPPORT. Instructions that change the split which issues them: one rule for all of them. -/

namespace Sys2Proof.Machine

theorem updSplit_updSplit (g : Gang) (k : Nat) (f f' : Split → Split) :
    (g.updSplit k f).updSplit k f' = g.updSplit k (fun sp => f' (f sp)) := by
  have hsplit : (g.updSplit k f).split k = (g.split k).map f := by rw [split_updSplit, if_pos rfl]
  rw [Gang.updSplit, hsplit, Option.map_map, Gang.updSplit, Gang.setSplit, Gang.setSplit, List.set_set]
  rfl

theorem updGang_updGang (s : State) (id : Nat) {f : Gang → Gang} (f' : Gang → Gang) (hid : ∀ g, (f g).id = g.id) :
    (s.updGang id f).updGang id f' = s.updGang id (fun g => f' (f g)) := by
  have hgangs : (s.gangs.map (fun g => if g.id == id then f g else g)).map (fun g => if g.id == id then f' g else g)
      = s.gangs.map (fun g => if g.id == id then f' (f g) else g) := by
    rw [List.map_map]
    refine List.map_congr_left fun g _ => ?_
    by_cases h : g.id = id <;> simp [h, hid]
  exact congrArg (fun l => { s with gangs := l }) hgangs

/-- A split that is changed and then goes on. -/
theorem goOn_updSplit (s : State) (id k : Nat) (f : Split → Split) (pc : DWord) :
    (s.updGang id (fun g => g.updSplit k f)).goOn id k pc = s.updGang id (fun g => g.updSplit k (fun sp => (f sp).next pc)) := by
  rw [State.goOn, updGang_updGang s id (f := fun g => g.updSplit k f) _ fun _ => rfl]
  simp only [updSplit_updSplit]

theorem goOn_eq_updSplit (s : State) (id k : Nat) (pc : DWord) :
    s.goOn id k pc = s.updGang id (fun g => g.updSplit k (fun sp => sp.next pc)) := rfl

/-- The issuing split, changed by f once it counts as issued. -/
theorem performed_updSplit {s : State} {i : Issue} (hi : s.issuer = some i) (f : Split → Split) :
    ∃ h, Performed s ((s.begin i).updGang i.g.id (fun g => g.updSplit i.k f)) i (f (i.sp.issued s.fresh)) h ∧ i.g.Same h := by
  obtain ⟨hg, hsp⟩ := issuer_eq hi
  have hlt := split_lt hsp
  refine ⟨(i.g.setSplit i.k (some (i.sp.issued s.fresh))).updSplit i.k f, ⟨?_, ⟨rfl, fun j hj => ?_⟩, ?_, fun k hk => ?_⟩, rfl⟩
  · rw [gang_updGang _ _ (fun g => g.updSplit i.k f) fun _ => rfl, gang_begin]
    simp [hg]
  · rw [gang_updGang _ _ (fun g => g.updSplit i.k f) fun _ => rfl, gang_begin]
    simp [hj]
  · rw [split_updSplit, if_pos rfl, split_setSplit _ _ _ _ hlt, if_pos rfl]
    rfl
  · rw [split_updSplit, if_neg hk, split_setSplit _ _ _ _ hlt, if_neg hk]

end Sys2Proof.Machine
end

section
/-! SUPPORT. The system registers: who may access them, what a read finds and what a write does (R42, R71, R382, R383). -/

namespace Sys2Proof.Claims

open Sys2Proof.Machine

theorem accepts_of_plain {h : Hints} (hp : Plain h) : Accepts.ok {} h = true := by
  obtain ⟨himms, hord, hscope, hcache, hbnd⟩ := hp
  simp [Accepts.ok, himms, hord, hscope, hcache, hbnd]

theorem mayAccess_iff (i : Issue) : i.mayAccess = true ↔ Granted i := by
  simp [Issue.mayAccess, Granted]

/-! ### Numbers that R42 reserves -/

theorem sysregDefined_of_numReserved {n : BitVec 12} (h : numReserved n.toNat) : sysregDefined n = false := by
  simp only [numReserved] at h
  simp only [sysregDefined, Bool.or_eq_false_iff, Bool.and_eq_false_iff, decide_eq_false_iff_not]
  omega

/-- The fields of a word by its bits. -/
theorem fld_toNat (n lo len : Nat) : (fld n lo len).toNat = n / 2 ^ lo % 2 ^ len := by
  rw [fld, BitVec.toNat_ofNat, Nat.shiftRight_eq_div_pow]

theorem decSystem_sysrd {n : Nat} (h : (fld n 22 4).toNat = 0) :
    decSystem n = if fld n 0 4 = 0#4 then some (.sysrd (fld n 16 6) (fld n 4 12)) else none := by rw [decSystem, h]; rfl

theorem decSystem_syswr {n : Nat} (h : (fld n 22 4).toNat = 1) :
    decSystem n = if fld n 0 4 = 0#4 then some (.syswr (fld n 16 6) (fld n 4 12)) else none := by rw [decSystem, h]; rfl

theorem decSystem_reserved {n : Nat} (hop : n / 2 ^ 22 = 0x2E0 ∨ n / 2 ^ 22 = 0x2E1) (hn : numReserved (n / 2 ^ 4 % 2 ^ 12)) :
    ∀ x, decSystem n = some x → x.toInstr.wellFormed = false := by
  have hdef : sysregDefined (fld n 4 12) = false := sysregDefined_of_numReserved (by rwa [fld_toNat])
  rcases hop with hop | hop
  · rw [decSystem_sysrd (by rw [fld_toNat]; omega)]
    split
    · rintro _ ⟨⟩
      exact hdef
    · rintro _ ⟨⟩
  · rw [decSystem_syswr (by rw [fld_toNat]; omega)]
    split
    · rintro _ ⟨⟩
      exact hdef
    · rintro _ ⟨⟩

/-- A word of sysrd or syswr with a reserved number decodes to nothing. -/
theorem decodeWord_reserved {w : Word} (hop : w.toNat / 2 ^ 22 = 0x2E0 ∨ w.toNat / 2 ^ 22 = 0x2E1)
    (hn : numReserved (w.toNat / 2 ^ 4 % 2 ^ 12)) : decodeWord w = none := by
  have hmajor : (fld w.toNat 26 6).toNat = 46 := by rw [fld_toNat]; omega
  have hhigh : decodeHigh w.toNat = decSystem w.toNat := by rw [decodeHigh, hmajor]; rfl
  have hlow : decodeLow w.toNat = none := by rw [decodeLow, hmajor]; rfl
  rw [decodeWord, decodeRow, hhigh]
  cases hx : decSystem w.toNat with
  | none => simp only [hlow]
  | some x => simp only [decSystem_reserved hop hn x hx, Bool.false_eq_true, if_false]

theorem runWord_of_undecoded {w : Word} (h : decodeWord w = none) {s : State} {i : Issue} (hi : s.issuer = some i) :
    runWord s w = .next (s.takeCause i.g.id i.k 0x01 i.act 0).settle := by
  rw [runWord, h]
  simp only [State.illegalWord, hi]
  rfl

/-! ### Reads -/

/-- The numbers that R42 defines, but for the islands'. -/
def namedNumbers : List Nat :=
  [0x000, 0x001, 0x002, 0x003, 0x004, 0x005, 0x006, 0x007, 0x008, 0x009, 0x00A, 0x010, 0x011, 0x012, 0x013, 0x014]

theorem ofNat_own (control : Bool) (n : Nat) :
    dw (if control then 0 else n) = if control then 0 else BitVec.ofNat 64 n := by
  cases control <;> rfl

theorem own_toNat (control : Bool) (x : DWord) : dw (if control then 0 else x.toNat) = if control then 0 else x := by
  cases control with
  | true => rfl
  | false => exact BitVec.ofNat_toNat ..

theorem own_zeroExtend (control : Bool) (x : Mask) : dw (if control then 0 else x.toNat) = if control then 0 else x.zeroExtend 64 := by
  cases control with
  | true => rfl
  | false => exact BitVec.eq_of_toNat_eq (by simp [dw])

theorem trapVec_eq (s : State) (ctx : Nat) :
    s.trapVec ctx = BitVec.ofNat 64 (if s.ctxTvec ctx = 0 then 0 else s.ctxCb ctx + s.ctxTvec ctx) := by
  rw [State.trapVec]
  split <;> rfl

theorem sysValue_named (s : State) (i : Issue) {n : Nat} (h : n ∈ namedNumbers) : s.sysValue i n = readable s i n := by
  simp only [namedNumbers, List.mem_cons, List.not_mem_nil, or_false] at h
  rcases h with rfl | rfl | rfl | rfl | rfl | rfl | rfl | rfl | rfl | rfl | rfl | rfl | rfl | rfl | rfl | rfl
  · rfl
  · rfl
  · rfl
  · rfl
  · rfl
  · rfl
  · rfl
  · exact congrArg some (ofNat_own ..)
  · exact congrArg some (ofNat_own ..)
  · exact congrArg some (ofNat_own ..)
  · rfl
  · exact congrArg some (ofNat_own ..)
  · exact congrArg some (own_toNat ..)
  · exact congrArg some (own_zeroExtend ..)
  · exact congrArg some (own_toNat ..)
  · exact congrArg some (trapVec_eq ..)

theorem sysValue_island (s : State) (i : Issue) {n : Nat} (h : 0x400 ≤ n) :
    s.sysValue i n = if i.g.ctx = 0 then some (dw (s.island (n - 0x400)).word) else none := by
  unfold State.sysValue
  dsimp only
  split
  all_goals try omega
  rfl

/-- What the table of system registers lets a read find is what the model's read finds. -/
theorem sysValue_of_readable {s : State} {i : Issue} {n : Nat} {x : DWord} (h : readable s i n = some x) :
    s.sysValue i n = some x := by
  by_cases hn : n ∈ namedNumbers
  · rw [sysValue_named s i hn, h]
  · simp only [namedNumbers, List.mem_cons, List.not_mem_nil, or_false, not_or] at hn
    simp only [readable, hn, if_false] at h
    split at h
    next hisl => rw [sysValue_island s i hisl.1, if_pos hisl.2.2]; exact h
    · cases h

/-! ### Writes -/

/-- A register that R42 grants no write of. -/
theorem sysWrite_readOnly (s : State) (i : Issue) (x : DWord) {n : Nat}
    (h : n ∈ [0x002, 0x003, 0x004, 0x005, 0x006, 0x007, 0x008, 0x009, 0x00A, 0x014]) : s.sysWrite i n x = none := by
  simp only [List.mem_cons, List.not_mem_nil, or_false] at h
  rcases h with rfl | rfl | rfl | rfl | rfl | rfl | rfl | rfl | rfl | rfl
  all_goals rfl

theorem sysWrite_island (s : State) (i : Issue) (x : DWord) {n : Nat} (h : 0x400 ≤ n) :
    s.sysWrite i n x = if i.g.ctx = 0 then some (s.writeIsl (n - 0x400) x) else none := by
  unfold State.sysWrite
  split
  all_goals try omega
  simp [h]

end Sys2Proof.Claims
end

section
/-! SUPPORT. sysrd and syswr (R42, R71, R382, R383). -/

namespace Sys2Proof.Claims

open Sys2Proof.Machine

/-- A body that takes a cause where it stands, of an instruction that is legal everywhere. -/
theorem issue_traps {body : Issue → State → Res} {s : State} {i : Issue} (hr : Ready s i) {c : Nat} {lanes : Mask} {addr : Nat}
    (hb : body i (s.begin i) = .trap (s.begin i) c lanes addr) :
    issue {} (fun _ => true) body s = .next ((s.begin i).takeCause i.g.id i.k c lanes addr).settle := by
  rw [issue_legal hr.issuer (accepts_of_plain hr.hints) rfl, hb]
  rfl

theorem sysValue_begin (s : State) (i : Issue) (n : Nat) : (s.begin i).sysValue i n = s.sysValue i n := rfl

theorem writesSystem_of_same {n : Instr} {s : State} {i : Issue} {q : Split} {t : State} {h : Gang} (ht : exec n s = .next t)
    (hp : Performed s t i q h) (hsame : i.g.Same h) : WritesSystem n s i q i.g.fst := by
  refine ⟨t, h, ht, hp, ?_, (congrArg Gang.fst hsame :)⟩
  exact congrArg (fun g : Gang => { g with fst := i.g.fst }) hsame

section
variable {s : State} {i : Issue} (hr : Ready s i)
include hr

/-- What the resident and handlers alone may issue raises 0x02 for anyone else. -/
theorem ungranted_raises (h : ¬ Granted i) (d : BitVec 6) (n : BitVec 12) :
    ∀ w ∈ [Instr.sysrd d n, .syswr d n, .tretR, .tretS], Raises w s (s.begin i) i 0x02 i.act 0 := by
  have hno : i.mayAccess = false := Bool.eq_false_iff.2 fun hm => h ((mayAccess_iff i).1 hm)
  simp only [List.mem_cons, List.not_mem_nil, or_false]
  rintro w (rfl | rfl | rfl | rfl)
  · rw [Raises, exec_sysrd, execSysrd]
    exact issue_traps hr (by simp only [hno, Bool.not_false, if_true])
  · rw [Raises, exec_syswr, execSyswr]
    exact issue_traps hr (by simp only [hno, Bool.not_false, if_true])
  · rw [Raises, exec_tretR, execTretR, tret]
    exact issue_traps hr (by simp only [hno, Bool.not_false, if_true])
  · rw [Raises, exec_tretS, execTretS, tret]
    exact issue_traps hr (by simp only [hno, Bool.not_false, if_true])

section
variable (h : Granted i)
include h

theorem sysrd_raises (d : BitVec 6) {n : BitVec 12} (hn : s.sysValue i n.toNat = none) :
    Raises (.sysrd d n) s (s.begin i) i 0x02 i.act 0 := by
  rw [Raises, exec_sysrd, execSysrd]
  refine issue_traps hr ?_
  simp only [(mayAccess_iff i).2 h, sysValue_begin, hn, Bool.not_true, Bool.false_eq_true, if_false]

theorem sysrd_reads (d : BitVec 6) {n : BitVec 12} {x : DWord} (hx : readable s i n.toNat = some x) :
    WritesScalar (.sysrd d n) s i d x false := by
  rw [WritesScalar, exec_sysrd, execSysrd]
  refine performs_setS (legal := fun _ => true) hr.issuer hr.quiet (accepts_of_plain hr.hints) rfl d.toNat x false ?_
  simp only [(mayAccess_iff i).2 h, sysValue_begin, sysValue_of_readable hx, Bool.not_true, Bool.false_eq_true, if_false]
  rfl

theorem syswr_raises (a : BitVec 6) {n : BitVec 12} (hn : (s.begin i).sysWrite i n.toNat (i.g.sreg a.toNat) = none) :
    Raises (.syswr a n) s (s.begin i) i 0x02 i.act 0 := by
  rw [Raises, exec_syswr, execSyswr]
  refine issue_traps hr ?_
  simp only [(mayAccess_iff i).2 h, hn, Bool.not_true, Bool.false_eq_true, if_false]

theorem syswr_poisoned {a : BitVec 6} {n : BitVec 12} {u : State} (hn : (s.begin i).sysWrite i n.toNat (i.g.sreg a.toNat) = some u)
    (ha : i.g.smark a.toNat = true) : Raises (.syswr a n) s (s.begin i) i 0x09 i.act 0 := by
  rw [Raises, exec_syswr, execSyswr]
  refine issue_traps hr ?_
  simp only [(mayAccess_iff i).2 h, hn, ha, Bool.not_true, Bool.false_eq_true, if_false, if_true]

/-- A write that the table grants, its operand unpoisoned. -/
theorem syswr_writes {a : BitVec 6} {n : BitVec 12} {u : State} (hn : (s.begin i).sysWrite i n.toNat (i.g.sreg a.toNat) = some u)
    (ha : i.g.smark a.toNat = false) : exec (.syswr a n) s = .next (u.goOn i.g.id i.k (i.sp.pc + 4)).settle := by
  rw [exec_syswr, execSyswr, issue_legal hr.issuer (accepts_of_plain hr.hints) rfl]
  simp only [(mayAccess_iff i).2 h, hn, ha, Bool.not_true, Bool.false_eq_true, if_false]
  rfl

/-- A write of a register of the issuing split. -/
theorem syswr_split {a : BitVec 6} {n : BitVec 12} (ha : i.g.smark a.toNat = false) (f : Split → Split)
    (hn : (s.begin i).sysWrite i n.toNat (i.g.sreg a.toNat) = some ((s.begin i).updGang i.g.id (fun g => g.updSplit i.k f))) :
    WritesSystem (.syswr a n) s i ((f (i.sp.issued s.fresh)).next (i.sp.pc + 4)) i.g.fst := by
  obtain ⟨h', hp, hsame⟩ := performed_updSplit hr.issuer (fun sp => (f sp).next (i.sp.pc + 4))
  refine writesSystem_of_same ?_ hp hsame
  rw [syswr_writes hr h hn ha, goOn_updSplit]
  exact congrArg Host.Outcome.next (settle_of_quiet hr.quiet)

/-- A write of a trap register on a control core is ignored. -/
theorem syswr_ignored {a : BitVec 6} {n : BitVec 12} (ha : i.g.smark a.toNat = false)
    (hn : (s.begin i).sysWrite i n.toNat (i.g.sreg a.toNat) = some (s.begin i)) :
    WritesSystem (.syswr a n) s i (i.after s.fresh (i.sp.pc + 4)) i.g.fst := by
  obtain ⟨h', hp, hsame⟩ := performed_updSplit hr.issuer (fun sp => sp.next (i.sp.pc + 4))
  refine writesSystem_of_same ?_ hp hsame
  rw [syswr_writes hr h hn ha, goOn_eq_updSplit]
  exact congrArg Host.Outcome.next (settle_of_quiet hr.quiet)

theorem syswr_fst {a : BitVec 6} (ha : i.g.smark a.toNat = false) :
    WritesSystem (.syswr a 0x001) s i (i.after s.fresh (i.sp.pc + 4)) ((i.g.sreg a.toNat).truncate 32 &&& 0x3F) := by
  obtain ⟨t, h', ht, hp, hh⟩ := performed_updGang hr.issuer hr.quiet
    (fun g => { g with fst := (i.g.sreg a.toNat).truncate 32 &&& 0x3F }) (i.sp.pc + 4) (fun _ => rfl) (fun _ _ => rfl)
  refine ⟨t, h', ?_, hp, ?_, (congrArg Gang.fst hh :)⟩
  · rw [← ht]
    exact syswr_writes hr h rfl ha
  · exact congrArg (fun g : Gang => { g with fst := i.g.fst }) hh

/-- The registers that a split writes of its own gang. -/
theorem syswr_own {a : BitVec 6} (ha : i.g.smark a.toNat = false) :
    let x := i.g.sreg a.toNat
    let q := i.after s.fresh (i.sp.pc + 4)
    WritesSystem (.syswr a 0x000) s i { q with fmt := x.truncate 32 &&& 0x0F1FFFFF } i.g.fst ∧
    WritesSystem (.syswr a 0x001) s i q (x.truncate 32 &&& 0x3F) ∧
    (i.g.onControl = true → ∀ n ∈ [(0x010 : BitVec 12), 0x011, 0x012, 0x013], WritesSystem (.syswr a n) s i q i.g.fst) ∧
    (i.g.onControl = false →
      WritesSystem (.syswr a 0x010) s i { q with cause := x.truncate 8 } i.g.fst ∧
      WritesSystem (.syswr a 0x011) s i { q with trapPc := x } i.g.fst ∧
      WritesSystem (.syswr a 0x012) s i { q with trapLanes := x.truncate 32 } i.g.fst ∧
      WritesSystem (.syswr a 0x013) s i { q with trapAddr := x } i.g.fst) := by
  intro x q
  have htrap (hc : i.g.onControl = false) (f : Split → Split) :
      (s.begin i).writeTrap i f = (s.begin i).updGang i.g.id (fun g => g.updSplit i.k f) := if_neg (by simp [hc])
  refine ⟨syswr_split hr h ha (fun sp => { sp with fmt := x.truncate 32 &&& 0x0F1FFFFF }) rfl, syswr_fst hr h ha, fun hc => ?_, fun hc => ?_⟩
  · have hignored (f : Split → Split) : (s.begin i).writeTrap i f = s.begin i := if_pos hc
    simp only [List.mem_cons, List.not_mem_nil, or_false]
    rintro n (rfl | rfl | rfl | rfl)
    all_goals exact syswr_ignored hr h ha (congrArg some (hignored _))
  · exact ⟨syswr_split hr h ha (fun sp => { sp with cause := x.truncate 8 }) (congrArg some (htrap hc _)),
      syswr_split hr h ha (fun sp => { sp with trapPc := x }) (congrArg some (htrap hc _)),
      syswr_split hr h ha (fun sp => { sp with trapLanes := x.truncate 32 }) (congrArg some (htrap hc _)),
      syswr_split hr h ha (fun sp => { sp with trapAddr := x }) (congrArg some (htrap hc _))⟩

/-- The resident writes an island's register. -/
theorem syswr_island (hc : i.g.ctx = 0) {a : BitVec 6} {n : BitVec 12} (hlo : 0x400 ≤ n.toNat) (hhi : n.toNat < 0x440)
    (ha : i.g.smark a.toNat = false) : ∃ t h, exec (.syswr a n) s = .next t ∧ i.g.Same h ∧
      Performed s { t with islands := s.islands, agenda := s.agenda } i (i.after s.fresh (i.sp.pc + 4)) h ∧
      IslandWritten s t (n.toNat - 0x400) (i.g.sreg a.toNat) := by
  obtain ⟨h', hp, hsame⟩ := performed_updSplit hr.issuer (fun sp => sp.next (i.sp.pc + 4))
  have hwritten := islandWritten_writeIsl (s.begin i) (n := n.toNat - 0x400) (by omega) (i.g.sreg a.toNat)
  have hframe := writeIsl_frame (s.begin i) (n.toNat - 0x400) (i.g.sreg a.toNat)
  have hexec := syswr_writes hr h (by rw [sysWrite_island _ _ _ hlo, if_pos hc]) ha
  generalize (s.begin i).writeIsl (n.toNat - 0x400) (i.g.sreg a.toNat) = u at hwritten hframe hexec
  have hquiet : (u.goOn i.g.id i.k (i.sp.pc + 4)).Quiet := by
    have : (s.begin i).Quiet := hr.quiet
    rw [← hframe] at this
    exact this
  refine ⟨_, h', hexec.trans (congrArg Host.Outcome.next (settle_of_quiet hquiet)), hsame, ?_, hwritten⟩
  rw [← goOn_eq_updSplit, ← hframe] at hp
  exact hp

end
end

end Sys2Proof.Claims
end

section
/-! SUPPORT. The words of a group that stand in one page: an address's leaf is that of its page, and so is whose memory it names
(R88 to R93). -/

namespace Sys2Proof.Machine

/-! ### Addresses of one page -/

theorem bits_of_page {va vb l n : Nat} (h : va / 4096 = vb / 4096) (hl : 12 ≤ l) : bits va l n = bits vb l n := by
  have hpage (x : Nat) : x >>> l = (x / 4096) >>> (l - 12) := by
    rw [show l = 12 + (l - 12) by omega, Nat.shiftRight_add, Nat.shiftRight_eq_div_pow x, Nat.add_sub_cancel_left]
  rw [bits, bits, hpage va, hpage vb, h]

theorem alignDown_of_page {va vb : Nat} (h : va / 4096 = vb / 4096) (k : Nat) : alignDown va (4096 * k) = alignDown vb (4096 * k) := by
  have hdown (x : Nat) : alignDown x (4096 * k) = 4096 * k * (x / 4096 / k) := by
    rw [alignDown, Nat.div_div_eq_div_mul]
    have := Nat.div_add_mod x (4096 * k)
    omega
  rw [hdown, hdown, h]

theorem walkLast_of_page {s : State} {va vb : Nat} (h : va / 4096 = vb / 4096) (table : Nat) (s64 : Bool) :
    walkLast s va table s64 = walkLast s vb table s64 := by
  have halign : alignDown va (if s64 then 2 ^ 16 else 2 ^ 12) = alignDown vb (if s64 then 2 ^ 16 else 2 ^ 12) := by
    cases s64
    · exact alignDown_of_page h 1
    · exact alignDown_of_page h 16
  simp only [walkLast, bits_of_page h (Nat.le_refl 12), bits_of_page h (show 12 ≤ 16 by omega), halign]

theorem walk3_of_page {s : State} {va vb : Nat} (h : va / 4096 = vb / 4096) (table : Nat) : walk3 s va table = walk3 s vb table := by
  simp only [walk3, bits_of_page h (show 12 ≤ 21 by omega), walkLast_of_page h, show alignDown va (2 ^ 21) = alignDown vb (2 ^ 21) from alignDown_of_page h 512]

theorem walkUpper_of_page {s : State} {va vb : Nat} (h : va / 4096 = vb / 4096) (n : Nat) :
    ∀ level table, walkUpper s va n level table = walkUpper s vb n level table := by
  induction n with
  | zero => exact fun _ table => walk3_of_page h table
  | succ n ih =>
    intro level table
    simp only [walkUpper, bits_of_page h (show 12 ≤ 48 by omega), bits_of_page h (show 12 ≤ 39 by omega),
      bits_of_page h (show 12 ≤ 30 by omega), ih]

/-- The leaf of an address is that of every address of its page. -/
theorem leafAt_of_page {s : State} {ctx va vb : Nat} (h : va / 4096 = vb / 4096) : leafAt s ctx va = leafAt s ctx vb := by
  have hrange : va < 2 ^ 56 ↔ vb < 2 ^ 56 := by omega
  have hwalk : walk s ctx va = walk s ctx vb := by simp only [walk, walkUpper_of_page h]
  simp only [leafAt, hrange, hwalk]

/-! ### Leaves -/

/-- What a walk that ends at a leaf has found of it. -/
structure Found (s : State) (va base size e : Nat) : Prop where
  start : base = alignDown va size
  sizes : size = 2 ^ 12 ∨ size = 2 ^ 16 ∨ size = 2 ^ 21
  ok : leafOk s size e = true

theorem found_walkLast {s : State} {va table base size a e : Nat} {s64 : Bool} (h : walkLast s va table s64 = .leaf base size a e) :
    Found s va base size e := by
  unfold walkLast at h
  dsimp only at h
  split_ifs at h
  all_goals
    rename_i hleaf
    obtain ⟨rfl, rfl, rfl, rfl⟩ := Walk.leaf.inj h
    exact ⟨rfl, by simp, (Bool.and_eq_true_iff.1 hleaf).2⟩

theorem found_walk3 {s : State} {va table base size a e : Nat} (h : walk3 s va table = .leaf base size a e) : Found s va base size e := by
  unfold walk3 at h
  dsimp only at h
  split_ifs at h with _ _ _ hok
  · obtain ⟨rfl, rfl, rfl, rfl⟩ := Walk.leaf.inj h
    exact ⟨rfl, by simp, hok⟩
  · exact found_walkLast h

theorem found_walkUpper {s : State} {va base size a e : Nat} (n : Nat) :
    ∀ {level table}, walkUpper s va n level table = .leaf base size a e → Found s va base size e := by
  induction n with
  | zero => exact found_walk3
  | succ n ih =>
    intro level table h
    unfold walkUpper at h
    dsimp only at h
    split_ifs at h
    all_goals exact ih h

theorem found_leafAt {s : State} {ctx va base size e : Nat} (h : leafAt s ctx va = some (base, size, e)) : Found s va base size e := by
  unfold leafAt at h
  split at h
  · split at h
    next hw =>
      obtain ⟨rfl, rfl, rfl⟩ : _ ∧ _ ∧ _ := by simpa using h
      unfold walk at hw
      split at hw
      · cases hw
      · exact found_walkUpper 3 hw
    · cases h
  · cases h

theorem leafFrame_page (e : Nat) : leafFrame e % 4096 = 0 := Nat.mul_mod_left ..

theorem Found.base_le {s : State} {va base size e : Nat} (h : Found s va base size e) : base ≤ va ∧ va - base < size ∧ base % 4096 = 0 := by
  obtain ⟨rfl, hsize, -⟩ := h
  unfold alignDown
  rcases hsize with rfl | rfl | rfl <;> omega

theorem window_of_leafOk {s : State} {size e : Nat} (h : leafOk s size e = true) :
    tierWindow (leafTier e) (leafFrame e) = true ∧ (leafTier e < 2 ∨ leafModule e = s.mgmt.modid) := by
  simp only [leafOk, Bool.and_eq_true, Bool.or_eq_true, decide_eq_true_eq, beq_iff_eq] at h
  obtain ⟨⟨⟨⟨⟨⟨⟨-, hwindow⟩, htier⟩, -⟩, -⟩, -⟩, -⟩, -⟩ := h
  exact ⟨hwindow, htier⟩

/-- A frame of another module lies in a memory, well below the end of its module's addresses. -/
theorem Found.phys_lt {s : State} {va base size e : Nat} (h : Found s va base size e) (hm : leafModule e ≠ s.mgmt.modid) :
    leafFrame e + (va - base) < 2 ^ 51 := by
  obtain ⟨-, hlt, -⟩ := h.base_le
  have hsize : size ≤ 2 ^ 21 := by rcases h.sizes with h | h | h <;> omega
  obtain ⟨hwindow, htier⟩ := window_of_leafOk h.ok
  have hdram : leafFrame e < 0xC0000000000 := by
    have hlow : leafTier e = 0 ∨ leafTier e = 1 := by
      have := htier.resolve_right hm
      omega
    rcases hlow with h0 | h1
    · simp only [tierWindow, h0, if_true, isHbm, decide_eq_true_eq] at hwindow
      omega
    · simp only [tierWindow, h1, Nat.one_ne_zero, if_false, if_true, isLpd, Bool.and_eq_true, decide_eq_true_eq] at hwindow
      omega
  omega

/-! ### Whose memory a part names -/

theorem dpaModule_dpa {m a : Nat} (h : a < 2 ^ 51) : dpaModule (dpa m a) = m := by
  unfold dpaModule dpa
  omega

theorem dpaLocal_dpa {m a : Nat} (h : a < 2 ^ 51) : dpaLocal (dpa m a) = a := by
  unfold dpaLocal dpa
  omega

theorem isDram_iff (a : Nat) : isDram a = true ↔ a < 0x30000000000 ∨ (0x40000000000 ≤ a ∧ a < 0xC0000000000) := by
  simp [isDram, isHbm, isLpd]

theorem ownDram_iff_of_lt {s : State} {e base va : Nat} {p : Part} {z : Bool} (h : leafFrame e + (va - base) < 2 ^ 51) :
    Located.ownDram { part := p, phys := leafPhys e base va, leaf := e, isSealed := z } s = true ↔
      leafModule e = s.mgmt.modid ∧ isDram (leafFrame e + (va - base)) = true := by
  simp only [Located.ownDram, leafPhys, dpaModule_dpa h, dpaLocal_dpa h, Bool.and_eq_true, beq_iff_eq]

/-! ### The parts of a range -/

theorem mem_rangeParts {lane : Nat} (fuel : Nat) :
    ∀ {first va n : Nat} {p : Part}, p ∈ rangeParts lane fuel first va n → va ≤ p.va ∧ p.va < va + n := by
  induction fuel with
  | zero => exact fun h => absurd h List.not_mem_nil
  | succ fuel ih =>
    intro first va n p h
    unfold rangeParts at h
    split at h
    · exact absurd h List.not_mem_nil
    · rcases List.mem_cons.1 h with rfl | h
      · exact ⟨Nat.le_refl _, by dsimp only; omega⟩
      · have := ih h
        omega

end Sys2Proof.Machine
end

section
/-! SUPPORT. Returns from handler mode: where the group at TRAPPC is read, and what a read past the L1 still awaits (R384). -/

namespace Sys2Proof.Machine

/-! ### What a gather awaits -/

/-- A fold of steps that keep a property keeps it. -/
theorem foldl_keeps {α β : Type} {P : β → Prop} {f : β → α → β} (hf : ∀ b, P b → ∀ a, P (f b a)) (l : List α) {b : β} (h : P b) :
    P (l.foldl f b) :=
  List.foldlRecOn l f h fun b hb a _ => hf b hb a

/-- A gather has a reply to come. -/
def Gather.Waits (r : Gather) : Prop := r.await.isEmpty = false

namespace Gather.Waits

variable {r : Gather}

theorem append {a b : List Await} (h : a.isEmpty = false) : (a ++ b).isEmpty = false := by
  cases a with
  | nil => cases h
  | cons => rfl

theorem withState (h : r.Waits) (s : State) : Gather.Waits { r with st := s } := h

theorem ite {u : Gather} {c : Prop} [Decidable c] (h : r.Waits) (k : u.Waits) : (if c then r else u).Waits := by
  split
  · exact h
  · exact k

theorem take (h : r.Waits) (x : Located) (b : List Byte) (bad : Bool) : (r.take x b bad).Waits := h

theorem hostParts (h : r.Waits) (g : Gang) (ps : List Located) : (r.hostParts g ps).Waits := by
  unfold Gather.hostParts
  split
  · exact h
  · dsimp only
    split
    · split
      · exact foldl_keeps (P := Gather.Waits) (fun _ hb _ => hb.take ..) _ h
      · exact append h
    · exact append h

theorem hostLine (h : r.Waits) (g : Gang) (ps : List Located) : (r.hostLine g ps).Waits := by
  unfold Gather.hostLine
  split
  · exact h
  · split
    · exact foldl_keeps (P := Gather.Waits) (fun _ hb _ => hb.hostParts ..) _ h
    · exact h.hostParts ..

theorem ownLine (h : r.Waits) (g : Gang) (ps : List Located) (past : Bool) (policy : Nat) : (r.ownLine g ps past policy).Waits := by
  unfold Gather.ownLine
  split
  · exact h
  · refine foldl_keeps (P := Gather.Waits) (fun u hu y => ?_) _ h
    split
    · exact hu.take ..
    · exact ite hu hu

theorem peerLine (h : r.Waits) (g : Gang) (ps : List Located) (q : Ask) (fills : Bool) : (r.peerLine g ps q fills).Waits := by
  unfold Gather.peerLine
  split
  · exact h
  · refine foldl_keeps (P := Gather.Waits) (fun u hu l => ?_) _ (append h)
    exact append hu

theorem beyond (h : r.Waits) (g : Gang) (ps : List Located) (q : Ask) : (r.beyond g ps q).Waits := by
  unfold Gather.beyond
  split
  · exact h
  · dsimp only
    split
    · split
      · exact h.hostLine ..
      · exact h.ownLine ..
    · split
      · exact foldl_keeps (P := Gather.Waits) (fun _ hu _ => hu.take ..) _ h
      · exact (h.withState _).peerLine ..

end Gather.Waits

/-- A part of another module's memory, read past the L1, is awaited. -/
theorem beyond_waits {r : Gather} {x : Located} (h : dpaModule x.phys ≠ r.st.mgmt.modid) (g : Gang) : (r.beyond g [x] Ask.past).Waits := by
  have hpeer : r.beyond g [x] Ask.past = r.peerLine g [x] Ask.past false := by
    simp [Gather.beyond, h, Ask.past]
  rw [hpeer]
  simp [Gather.Waits, Gather.peerLine, awaitsOf]

/-! ### The frame of a split that waits -/

namespace MemorySide

theorem updGang {s t : State} (h : MemorySide s t) (id : Nat) (f : Gang → Gang) : MemorySide (s.updGang id f) (t.updGang id f) := by
  have hg := h.gangs
  unfold State.updGang
  rw [hg]
  exact congrArg (fun u : State => { u with gangs := s.gangs.map (fun g : Gang => if g.id == id then f g else g) }) h

theorem addLoad {s t : State} (h : MemorySide s t) (l : PendLoad) : MemorySide s (t.addLoad l) := h.trans rfl

end MemorySide

/-! ### The parts of a group -/

theorem rangeParts_group (va : Nat) : rangeParts 0 3 0 va 36
    = { lane := 0, first := 0, va, len := min 36 (128 - va % 128) } :: (rangeParts 0 3 0 va 36).tail := rfl

/-- Where nothing is mapped, no part of a group can be read. -/
theorem groupParts_unmapped {s : State} {ctx va : Nat} (h : leafAt s ctx va = none) : s.groupParts ctx va = [] := by
  rw [State.groupParts, rangeParts_group, List.map_cons, List.takeWhile_cons]
  simp [h]

/-- The first part of a group that stands where fetch is granted. -/
theorem groupParts_granted {s : State} {ctx va base size e : Nat} (h : leafAt s ctx va = some (base, size, e))
    (hg : leafGrants e 4 ctx = true) : ∃ p rest,
      s.groupParts ctx va = { part := p, phys := leafPhys e base va, leaf := e, isSealed := false } :: rest := by
  rw [State.groupParts, rangeParts_group, List.map_cons, List.takeWhile_cons]
  simp [h, hg]

theorem mem_groupParts {s : State} {ctx va : Nat} {x : Located} (h : x ∈ s.groupParts ctx va) :
    ∃ base size e p, p ∈ rangeParts 0 3 0 va 36 ∧ leafAt s ctx p.va = some (base, size, e) ∧
      x = { part := p, phys := leafPhys e base p.va, leaf := e, isSealed := false } := by
  obtain ⟨⟨p, l⟩, hmem, hx⟩ := List.mem_filterMap.1 h
  obtain ⟨q, hq, heq⟩ := List.mem_map.1 (List.takeWhile_subset _ hmem)
  cases heq
  obtain ⟨⟨base, size, e⟩, hl, rfl⟩ := Option.map_eq_some_iff.1 hx
  exact ⟨base, size, e, p, hq, hl, rfl⟩

/-- What the word at an address of own memory tells of its leaf. -/
theorem textWord_some {s : State} {ctx va w : Nat} (h : s.textWord ctx va = some w) :
    ∃ base size e, leafAt s ctx va = some (base, size, e) ∧ va % 4 = 0 ∧ leafModule e = s.mgmt.modid ∧
      isDram (leafFrame e + (va - base)) = true := by
  unfold State.textWord at h
  split at h
  · cases h
  next base size e hl =>
    dsimp only at h
    split at h
    next hc =>
      simp only [Bool.and_eq_true, decide_eq_true_eq, beq_iff_eq] at hc
      exact ⟨base, size, e, hl, hc.1.1, hc.1.2, hc.2⟩
    · cases h

/-- A group in one page of own memory is in own memory whole. -/
theorem groupParts_own {s : State} {ctx va w : Nat} (h : s.textWord ctx va = some w) (hpage : va % 4096 ≤ 4060) :
    (s.groupParts ctx va).all (fun p => p.ownDram s) = true := by
  obtain ⟨base, size, e, hl, -, hm, hd⟩ := textWord_some h
  rw [List.all_eq_true]
  intro x hx
  obtain ⟨base', size', e', p, hp, hl', rfl⟩ := mem_groupParts hx
  have hrange := mem_rangeParts 3 hp
  obtain ⟨rfl, rfl, rfl⟩ : base' = base ∧ size' = size ∧ e' = e := by
    rw [leafAt_of_page (show p.va / 4096 = va / 4096 by omega), hl] at hl'
    simpa [eq_comm] using hl'
  have hle := (found_leafAt hl).base_le
  have hframe := leafFrame_page e'
  rw [isDram_iff] at hd
  refine (ownDram_iff_of_lt (by omega)).2 ⟨hm, (isDram_iff _).2 (by omega)⟩

end Sys2Proof.Machine
end

section
/-! PROOF. O45: the system registers, and the returns from handler mode (R42, R382 to R384). -/

namespace Sys2Proof.Claims

open Sys2Proof.Machine

theorem resumable_iff (c : BitVec 8) : resumable c.toNat = true ↔ c = 0x05 ∨ c = 0x06 ∨ c = 0x08 ∨ c = 0x0C := by
  simp [resumable, BitVec.toNat_eq, or_assoc]

/-- A split of a gang as it blocks. -/
def blockedSplit (g : Gang) (w : Wait) (sp : Split) : Split :=
  { sp with blocked := some w, hints := { sp.hints with limit := g.limitOf sp.hints } }

theorem block_eq (s : State) (id k : Nat) (w : Wait) :
    s.block id k w = s.updGang id (fun g => g.updSplit k (blockedSplit g w)) := rfl

/-- The split that waits, told from a state in which nothing but memory's side has moved since. -/
theorem blocksOn_of_memorySide {s t : State} {i : Issue} {w : Wait} (hi : s.issuer = some i)
    (h : MemorySide ((s.begin i).block i.g.id i.k w) t) : BlocksOn t i w := by
  obtain ⟨hg, hsp⟩ := issuer_eq hi
  have hgang : t.gang i.g.id = some ((i.g.setSplit i.k (some (i.sp.issued s.fresh))).updSplit i.k
      (blockedSplit (i.g.setSplit i.k (some (i.sp.issued s.fresh))) w)) := by
    rw [h.gang, block_eq, gang_updGang _ _ (fun g => g.updSplit i.k (blockedSplit g w)) fun _ => rfl, gang_begin]
    simp [hg]
  have hsplit := split_updSplit (i.g.setSplit i.k (some (i.sp.issued s.fresh))) i.k
    (blockedSplit (i.g.setSplit i.k (some (i.sp.issued s.fresh))) w) i.k
  rw [if_pos rfl, split_setSplit _ _ _ _ (split_lt hsp), if_pos rfl] at hsplit
  exact ⟨_, _, hgang, hsplit, rfl, rfl⟩

/-- What the words of the group at TRAPPC have brought, and what of them is awaited. -/
def groupRead (s : State) (i : Issue) : Gather :=
  (s.groupParts i.g.ctx i.sp.trapPc.toNat).foldl (fun r x => r.beyond i.g [x] Ask.past) (Gather.start s)

/-- The load that awaits those words. -/
def groupLoad (s : State) (i : Issue) : PendLoad :=
  { (blankLoad i.g.id i.k 15 0 []).from (groupRead s i) with
    size := (s.groupParts i.g.ctx i.sp.trapPc.toNat).foldl (fun k p => k + p.part.len) 0 }

theorem memorySide_groupRead (s : State) (i : Issue) : MemorySide s (groupRead s i).st :=
  MemorySide.foldl_of Gather.st (MemorySide.refl s) (fun _ hc _ => hc.beyond ..) _

section
variable {s : State} {i : Issue} (hr : Ready s i)
include hr

/-- A return outside handler mode: nothing is performed, and the resident reports subcode 6. -/
theorem tret_outside (h : Granted i) (hm : i.sp.hm = false) (go : Issue → State → Res) :
    tret go s = .next ((((s.begin i).machineCheck 6 i.sp.pc.toNat 0).goOn i.g.id i.k (i.sp.pc + 4)).settle) := by
  rw [tret, issue_legal hr.issuer (accepts_of_plain hr.hints) rfl]
  simp only [(mayAccess_iff i).2 h, hm, Bool.not_true, Bool.not_false, Bool.false_eq_true, if_false, if_true]
  rfl

theorem tret_handler (hm : i.sp.hm = true) (go : Issue → State → Res) : tret go s = .next (i.finish (go i (s.begin i))) := by
  rw [tret, issue_legal hr.issuer (accepts_of_plain hr.hints) rfl]
  simp only [(mayAccess_iff i).2 (.inr hm), hm, Bool.not_true, Bool.false_eq_true, if_false]

/-- A return that leaves handler mode at once. -/
theorem tret_leaves (hm : i.sp.hm = true) {go : Issue → State → Res} {f : Split → Split}
    (hgo : go i (s.begin i) = (s.begin i).leaveTrap i f) :
    ∃ t h, tret go s = .next t ∧ i.g.Same h ∧
      Performed s t i (f { (i.sp.issued s.fresh).next i.sp.pc with hm := false }) h := by
  obtain ⟨h, hp, hsame⟩ := performed_updSplit hr.issuer (fun sp => f { sp.next sp.pc with hm := false })
  refine ⟨_, h, ?_, hsame, hp⟩
  rw [tret_handler hr hm, hgo]
  exact congrArg Host.Outcome.next (settle_of_quiet hr.quiet)

/-- tret.r performs the group again, a resumable cause's lanes alone. -/
theorem tretR_performs (hm : i.sp.hm = true) : ∃ t h, exec .tretR s = .next t ∧ i.g.Same h ∧
    Performed s t i { i.after s.fresh i.sp.trapPc with hm := false, retry :=
      if i.sp.cause = 0x05 ∨ i.sp.cause = 0x06 ∨ i.sp.cause = 0x08 ∨ i.sp.cause = 0x0C then some i.sp.trapLanes else none } h := by
  rw [← if_congr (resumable_iff i.sp.cause) rfl rfl, exec_tretR, execTretR]
  exact tret_leaves hr hm
    (f := fun sp => { sp with pc := sp.trapPc, retry := if resumable sp.cause.toNat then some sp.trapLanes else none }) rfl

/-- tret.s goes on after the group at TRAPPC, of n hint words. -/
theorem tretS_skips (hm : i.sp.hm = true) {n : Nat}
    (hown : ((s.begin i).groupParts i.g.ctx i.sp.trapPc.toNat).all (fun p => p.ownDram (s.begin i)) = true)
    (hn : (s.begin i).hintsAtTrap i.g.ctx i.sp = n) :
    ∃ t h, exec .tretS s = .next t ∧ i.g.Same h ∧
      Performed s t i { i.after s.fresh (i.sp.trapPc + BitVec.ofNat 64 (4 * (n + 1))) with hm := false } h := by
  rw [exec_tretS, execTretS]
  refine tret_leaves hr hm (f := fun sp => { sp with pc := sp.trapPc + dw (4 * (n + 1)) }) ?_
  simp only [hown, hn, Bool.true_or, if_true]
  rfl

/-- Nothing is mapped at TRAPPC: GLEN tells the length of the group. -/
theorem tretS_unmapped (hm : i.sp.hm = true) (hl : leafAt s i.g.ctx i.sp.trapPc.toNat = none) :
    ∃ t h, exec .tretS s = .next t ∧ i.g.Same h ∧
      Performed s t i { i.after s.fresh (i.sp.trapPc + BitVec.ofNat 64 (4 * (i.sp.glen + 1))) with hm := false } h := by
  have hl' : leafAt (s.begin i) i.g.ctx i.sp.trapPc.toNat = none := hl
  refine tretS_skips hr hm ?_ ?_
  · rw [groupParts_unmapped hl']
    rfl
  · have hno : (s.begin i).textWord i.g.ctx i.sp.trapPc.toNat = none := by rw [State.textWord, hl']
    rw [State.hintsAtTrap, hno]
    rfl

/-- An instruction without hint words stands at TRAPPC, in own memory. -/
theorem tretS_unhinted (hm : i.sp.hm = true) {w : Nat} (hw : s.textWord i.g.ctx i.sp.trapPc.toNat = some w)
    (hop : w / 2 ^ 26 % 2 ^ 6 ≠ 0x3F) (hpage : i.sp.trapPc.toNat % 4096 ≤ 4060) :
    ∃ t h, exec .tretS s = .next t ∧ i.g.Same h ∧ Performed s t i { i.after s.fresh (i.sp.trapPc + 4) with hm := false } h := by
  have hw' : (s.begin i).textWord i.g.ctx i.sp.trapPc.toNat = some w := hw
  refine tretS_skips hr hm (n := 0) (groupParts_own hw' hpage) ?_
  have hbits : bits w 26 6 ≠ 0x3F := by rwa [bits, Nat.shiftRight_eq_div_pow]
  simp only [State.hintsAtTrap, State.hintsAt, hw', hbits, Option.isSome_some, if_true, if_false]

/-- The words at TRAPPC are another module's: the split waits for them. -/
theorem tretS_waits (hm : i.sp.hm = true) {base size e : Nat} (hl : leafAt s i.g.ctx i.sp.trapPc.toNat = some (base, size, e))
    (hg : leafGrants e 4 i.g.ctx = true) (hmod : leafModule e ≠ s.mgmt.modid) (halign : i.sp.trapPc.toNat % 4 = 0) :
    ∃ t n, exec .tretS s = .next t ∧ BlocksOn t i (.reply n) := by
  have hl' : leafAt (s.begin i) i.g.ctx i.sp.trapPc.toNat = some (base, size, e) := hl
  have hphys : dpaModule (leafPhys e base i.sp.trapPc.toNat) ≠ s.mgmt.modid := by
    rw [leafPhys, dpaModule_dpa ((found_leafAt hl).phys_lt hmod)]
    exact hmod
  obtain ⟨p, rest, hparts⟩ := groupParts_granted hl' hg
  have haway : ((s.begin i).groupParts i.g.ctx i.sp.trapPc.toNat).all (fun p => p.ownDram (s.begin i)) = false := by
    rw [hparts, List.all_cons]
    exact Bool.and_eq_false_iff.2 (.inl (Bool.and_eq_false_iff.2 (.inl (beq_false_of_ne hphys))))
  have hwaits : (groupRead (s.begin i) i).Waits := by
    rw [groupRead, hparts, List.foldl_cons]
    exact foldl_keeps (P := Gather.Waits) (fun _ hc _ => hc.beyond ..) _ (beyond_waits hphys _)
  have hnext : exec .tretS s = .next (i.finish (.wait ((groupRead (s.begin i) i).st.addLoad (groupLoad (s.begin i) i))
      (.reply (groupRead (s.begin i) i).st.fresh))) := by
    rw [exec_tretS, execTretS, tret_handler hr hm]
    exact congrArg (fun r => Host.Outcome.next (i.finish r))
      ((if_neg (by simp [haway, halign])).trans (if_neg (Bool.eq_false_iff.1 hwaits)))
  exact ⟨_, _, hnext, blocksOn_of_memorySide hr.issuer ((((memorySide_groupRead _ i).addLoad _).updGang ..).settle hr.quiet)⟩

/-- The registers of islands are the resident's alone. -/
theorem island_number_raises (h : Granted i) (hc : i.g.ctx ≠ 0) (d : BitVec 6) (n : BitVec 12) (hn : 0x400 ≤ n.toNat) :
    ∀ w ∈ [Instr.sysrd d n, .syswr d n], Raises w s (s.begin i) i 0x02 i.act 0 := by
  simp only [List.mem_cons, List.not_mem_nil, or_false]
  rintro w (rfl | rfl)
  · exact sysrd_raises hr h d (by rw [sysValue_island s i hn, if_neg hc])
  · exact syswr_raises hr h d (by rw [sysWrite_island _ i _ hn, if_neg hc])

/-- A poisoned operand of a write that the table grants. -/
theorem poisoned_operand_raises (h : Granted i) (a : BitVec 6) (n : BitVec 12)
    (hn : n = 0x000 ∨ (i.g.ctx = 0 ∧ 0x400 ≤ n.toNat ∧ n.toNat < 0x440)) (ha : i.g.smark a.toNat = true) :
    Raises (.syswr a n) s (s.begin i) i 0x09 i.act 0 := by
  rcases hn with rfl | ⟨hc, hlo, -⟩
  · exact syswr_poisoned hr h rfl ha
  · exact syswr_poisoned hr h (by rw [sysWrite_island _ i _ hlo, if_pos hc]) ha

theorem tret_outside_handler (h : Granted i) (hm : i.sp.hm = false) : ∀ w ∈ [Instr.tretR, .tretS],
    exec w s = .next ((((s.begin i).machineCheck 6 i.sp.pc.toNat 0).goOn i.g.id i.k (i.sp.pc + 4)).settle) := by
  simp only [List.mem_cons, List.not_mem_nil, or_false]
  rintro w (rfl | rfl)
  · rw [exec_tretR, execTretR, tret_outside hr h hm]
  · rw [exec_tretS, execTretS, tret_outside hr h hm]

end

/-- Settles O45: the model's table of system registers is the statement's, and each return is told by where the words at TRAPPC
stand. -/
theorem systemRegistersAndReturns : Obligations.SystemRegistersAndReturns := by
  unfold Obligations.SystemRegistersAndReturns
  refine ⟨fun w hop hn => ⟨decodeWord_reserved hop hn, fun s i hi => runWord_of_undecoded (decodeWord_reserved hop hn) hi⟩,
    fun s i hr => ⟨ungranted_raises hr, fun h => ⟨fun d n x hx => sysrd_reads hr h d hx, island_number_raises hr h,
      fun d n hn => syswr_raises hr h d (sysWrite_readOnly _ i _ hn), fun a ha => syswr_own hr h ha,
      fun hc a n hlo hhi ha => syswr_island hr h hc hlo hhi ha, poisoned_operand_raises hr h, tret_outside_handler hr h,
      fun hm => ⟨tretR_performs hr hm, tretS_unmapped hr hm, fun w hw hop hpage => tretS_unhinted hr hm hw hop hpage,
        fun base size e hl hg hmod halign => tretS_waits hr hm hl hg hmod halign⟩⟩⟩⟩

end Sys2Proof.Claims
end

section
/-! PROOF. O24: one accumulation into an FX96 slot (R83, R84). -/

namespace Sys2Proof.Claims

open Sys2Proof.Machine

/-- An FX96 slot by its fields (R83): the sum, the count, SATF and the poison flag. -/
def fx96 (v n : Nat) (satf poison : Bool) : Nat := v + n * 2 ^ 96 + 2 ^ 120 * b2n satf + 2 ^ 121 * b2n poison

theorem b2n_le_one (b : Bool) : b2n b ≤ 1 := by cases b <;> decide

theorem b2n_eq_one (b : Bool) : decide (b2n b = 1) = b := by cases b <;> decide

theorem fxAccumulate_eq (slot elem f x : Nat) (poison : Bool) :
    fxAccumulate slot elem f x poison =
      fx96 ((bits slot 0 96 + wrapInt 96 (if poison then (0, false) else fxConvert elem f x).1) % 2 ^ 96)
        (min (bits slot 96 24 + 1) 0xFFFFFF) (bit slot 120 || (if poison then (0, false) else fxConvert elem f x).2)
        (bit slot 121 || poison) := rfl

section
variable {v n : Nat} (hv : v < 2 ^ 96) (hn : n < 2 ^ 24) (a b : Bool)
include hv

theorem fx96_sum : fx96 v n a b % 2 ^ 96 = v := by
  unfold fx96
  omega

include hn

theorem fx96_lt : fx96 v n a b < 2 ^ 122 := by
  have ha := b2n_le_one a
  have hb := b2n_le_one b
  unfold fx96
  omega

theorem fx96_count : fx96 v n a b / 2 ^ 96 % 2 ^ 24 = n := by
  unfold fx96
  omega

theorem fx96_satf : (fx96 v n a b).testBit 120 = a := by
  have ha := b2n_le_one a
  have h : fx96 v n a b / 2 ^ 120 % 2 = b2n a := by
    unfold fx96
    omega
  rw [Nat.testBit_eq_decide_div_mod_eq, h, b2n_eq_one]

theorem fx96_poison : (fx96 v n a b).testBit 121 = b := by
  have ha := b2n_le_one a
  have hb := b2n_le_one b
  have h : fx96 v n a b / 2 ^ 121 % 2 = b2n b := by
    unfold fx96
    omega
  rw [Nat.testBit_eq_decide_div_mod_eq, h, b2n_eq_one]

end

/-- The sum of a slot, read as an integer modulo 2^96, has grown by the contribution. -/
theorem wrapped_sum (v : Nat) (c : Int) : (((v + wrapInt 96 c) % 2 ^ 96 : Nat) : Int) = (v + c) % 2 ^ 96 := by
  unfold wrapInt
  omega

/-- An integer held between the bounds of a 96-bit sum, with the flag of one that did not fit. -/
def saturated (v : Int) : Int × Bool := (max (-(2 ^ 95)) (min (2 ^ 95 - 1) v), decide (v < -(2 ^ 95) ∨ 2 ^ 95 ≤ v))

theorem clamp_eq_saturated (v : Int) :
    (if v < -(2 ^ 95) then (-(2 ^ 95), true) else if 2 ^ 95 - 1 < v then (2 ^ 95 - 1, true) else (v, false)) = saturated v := by
  unfold saturated
  split
  · exact Prod.ext (by dsimp only; omega) (by simp; omega)
  · split
    · exact Prod.ext (by dsimp only; omega) (by simp; omega)
    · exact Prod.ext (by dsimp only; omega) (by simp; omega)

theorem fxConvert_s32 (f x : Nat) : fxConvert 3 f x = saturated ((BitVec.ofNat 32 x).toInt * 2 ^ f) :=
  clamp_eq_saturated _

/-- Rounding to an integer leaves a value that is one. -/
theorem roundAt_integer (rm : Nat) (neg : Bool) (m : Nat) {e : Int} (he : 0 ≤ e) : roundAt rm neg m e 0 = (m * 2 ^ e.toNat, false) := by
  unfold roundAt
  split
  · simp [*]
  · rw [sub_zero]

theorem fxConvert_fp32 {f x m : Nat} {sg : Bool} {e : Int} (hd : decodeF fp32 (x % 2 ^ 32) = .fin sg m e) (he : 0 ≤ e + f) :
    fxConvert 0 f x = saturated ((if sg then -1 else 1) * m * 2 ^ (e + f).toNat) := by
  have hw : x % 2 ^ fp32.width = x % 2 ^ 32 := rfl
  have hv : (if sg then -((m * 2 ^ (e + f).toNat : Nat) : Int) else (m * 2 ^ (e + f).toNat : Nat))
      = (if sg then -1 else 1) * m * 2 ^ (e + f).toNat := by
    cases sg <;> simp
  rw [← hv, ← clamp_eq_saturated]
  unfold fxConvert
  simp only [hw, hd, roundAt_integer 0 sg m he, if_true]

theorem fxAccumulate_lt (slot elem f x : Nat) (poison : Bool) : fxAccumulate slot elem f x poison < 2 ^ 122 := by
  rw [fxAccumulate_eq]
  exact fx96_lt (Nat.mod_lt _ (Nat.two_pow_pos 96)) (by omega) _ _

/-- Settles O24: the fields of the slot are told one by one, and a contribution that needs no rounding is clamped as it is. -/
theorem fixedPointAccumulation : Obligations.FixedPointAccumulation := by
  unfold Obligations.FixedPointAccumulation
  intro slot elem f x poison
  have hv := Nat.mod_lt (bits slot 0 96 + wrapInt 96 (if poison then (0, false) else fxConvert elem f x).1) (Nat.two_pow_pos 96)
  have hn : min (bits slot 96 24 + 1) 0xFFFFFF < 2 ^ 24 := by omega
  have hlow : bits slot 0 96 = slot % 2 ^ 96 := by rw [bits, Nat.shiftRight_zero]
  have hcount : bits slot 96 24 = slot / 2 ^ 96 % 2 ^ 24 := by rw [bits, Nat.shiftRight_eq_div_pow]
  dsimp only
  refine ⟨fxAccumulate_lt .., ?_⟩
  rw [fxAccumulate_eq]
  refine ⟨?_, ?_, fx96_satf hv hn _ _, fx96_poison hv hn _ _, ?_, ?_⟩
  · rw [fx96_sum hv, wrapped_sum, hlow]
  · rw [fx96_count hv hn, hcount]
    norm_num
  · rintro rfl - rfl
    rw [if_neg Bool.false_ne_true, fxConvert_s32, saturated]
  · rintro sg m e rfl hd he rfl
    rw [if_neg Bool.false_ne_true, fxConvert_fp32 hd he, saturated]

end Sys2Proof.Claims
end

section
/-! SUPPORT. The finite values of a floating-point format in order of their encodings, and what the rounding of a value into a
format is (R58, R59, R62). -/

namespace Sys2Proof.Claims

open Sys2Proof.Machine

/-! ### Formats -/

/-- What the formats of R58 share: a sign, an exponent and a mantissa field side by side, a bias in the middle of the exponents,
and the finite magnitudes below the infinity and the NaNs. -/
structure Regular (f : Fmt) : Prop where
  width : f.width = f.ebits + f.t + 1
  ebits : 2 ≤ f.ebits
  t : 1 ≤ f.t
  bias : f.bias + 1 = 2 ^ (f.ebits - 1)
  largest : f.largest + (if f.hasInf then 2 ^ f.t + 1 else 2) = 2 ^ (f.ebits + f.t)
  nan : if f.hasInf then f.largest + 1 < f.nan else f.nan = f.largest + 1

theorem regular {f : Fmt} (hf : f ∈ arithmeticFormats) : Regular f := by
  simp only [arithmeticFormats, List.mem_cons, List.not_mem_nil, or_false] at hf
  rcases hf with rfl | rfl | rfl | rfl | rfl <;> constructor <;> decide

/-- The sign of a result as a factor. -/
def signed (neg : Bool) : ℚ := if neg then -1 else 1

/-- The exponent of the unit of the least values of a format (R59). -/
def least (f : Fmt) : Int := 1 - f.bias - f.t

/-- The value of an encoding without its sign (R59). -/
def magValue (f : Fmt) (n : Nat) : ℚ :=
  ((if n / 2 ^ f.t = 0 then n % 2 ^ f.t else 2 ^ f.t + n % 2 ^ f.t : Nat) : ℚ) * (2 : ℚ) ^ (least f + (n / 2 ^ f.t - 1 : Nat))

theorem magValue_fields {f : Fmt} (e : Nat) {m : Nat} (hm : m < 2 ^ f.t) :
    magValue f (e * 2 ^ f.t + m) = ((if e = 0 then m else 2 ^ f.t + m : Nat) : ℚ) * (2 : ℚ) ^ (least f + (e - 1 : Nat)) := by
  have hd : (e * 2 ^ f.t + m) / 2 ^ f.t = e := by
    rw [Nat.add_comm, Nat.add_mul_div_right _ _ (Nat.two_pow_pos _), Nat.div_eq_of_lt hm, Nat.zero_add]
  have hr : (e * 2 ^ f.t + m) % 2 ^ f.t = m := by rw [Nat.mul_add_mod', Nat.mod_eq_of_lt hm]
  rw [magValue, hd, hr]

/-- Multiples of one unit from the encoding of the first on: from the bottom for the least unit, over one binade for another. -/
theorem magValue_grid (f : Fmt) {s n : Nat} (hs : s = 0 ∨ 2 ^ f.t ≤ n) (hn : n ≤ 2 ^ (f.t + 1)) :
    magValue f (s * 2 ^ f.t + n) = n * (2 : ℚ) ^ (least f + s) := by
  have hpow : 2 ^ (f.t + 1) = 2 * 2 ^ f.t := by ring
  rcases Nat.lt_or_ge n (2 ^ f.t) with hlt | hge
  · obtain rfl : s = 0 := by omega
    rw [magValue_fields 0 hlt]
    simp
  · obtain ⟨m, rfl⟩ := Nat.exists_eq_add_of_le hge
    rcases Nat.lt_or_ge m (2 ^ f.t) with hm | hm
    · rw [show s * 2 ^ f.t + (2 ^ f.t + m) = (s + 1) * 2 ^ f.t + m by ring, magValue_fields _ hm]
      simp
    · obtain rfl : m = 2 ^ f.t := by omega
      rw [show s * 2 ^ f.t + (2 ^ f.t + 2 ^ f.t) = (s + 2) * 2 ^ f.t + 0 by ring, magValue_fields _ (Nat.two_pow_pos _)]
      have he : (2 : ℚ) ^ (least f + ((s + 2 - 1 : Nat) : Int)) = 2 * (2 : ℚ) ^ (least f + s) := by
        rw [show least f + ((s + 2 - 1 : Nat) : Int) = 1 + (least f + s) by push_cast [show s + 2 - 1 = s + 1 by omega]; ring,
          zpow_add₀ two_ne_zero, zpow_one]
      rw [he]
      push_cast
      simp
      ring

theorem magValue_zero (f : Fmt) : magValue f 0 = 0 := by simp [magValue]

theorem magValue_strictMono (f : Fmt) : StrictMono (magValue f) := by
  refine strictMono_nat_of_lt_succ fun j => ?_
  obtain ⟨s, n, rfl, hs, hn⟩ : ∃ s n, j = s * 2 ^ f.t + n ∧ (s = 0 ∨ 2 ^ f.t ≤ n) ∧ n < 2 ^ (f.t + 1) := by
    have hr := Nat.mod_lt j (Nat.two_pow_pos f.t)
    have hj := Nat.div_add_mod' j (2 ^ f.t)
    have hpow : 2 ^ (f.t + 1) = 2 * 2 ^ f.t := by ring
    rcases Nat.eq_zero_or_pos (j / 2 ^ f.t) with h0 | hpos
    · refine ⟨0, j, by simp, .inl rfl, ?_⟩
      rw [h0] at hj
      omega
    · obtain ⟨e, he⟩ := Nat.exists_eq_add_of_le' hpos
      refine ⟨e, 2 ^ f.t + j % 2 ^ f.t, ?_, .inr (Nat.le_add_right ..), by omega⟩
      rw [← Nat.add_assoc, ← Nat.succ_mul, ← Nat.add_one, ← he, hj]
  rw [Nat.add_assoc, magValue_grid f hs hn.le, magValue_grid f (hs.imp_right (Nat.le_succ_of_le)) hn]
  refine mul_lt_mul_of_pos_right ?_ (zpow_pos two_pos _)
  exact_mod_cast Nat.lt_succ_self n

theorem magValue_lt_succ (f : Fmt) (k : Nat) : magValue f k < magValue f (k + 1) := magValue_strictMono f (Nat.lt_succ_self k)

theorem magValue_nonneg (f : Fmt) (n : Nat) : 0 ≤ magValue f n := by
  rw [← magValue_zero f]
  exact (magValue_strictMono f).monotone (Nat.zero_le n)

/-! ### The values of encodings -/

section
variable {f : Fmt} (hf : Regular f)
include hf

theorem bits_exponent (n : Nat) : bits n f.t f.ebits = n % 2 ^ (f.width - 1) / 2 ^ f.t := by
  rw [bits, Nat.shiftRight_eq_div_pow, hf.width, Nat.add_sub_cancel, Nat.add_comm f.ebits, pow_add, Nat.mod_mul_right_div_self]

theorem bits_mantissa (n : Nat) : bits n 0 f.t = n % 2 ^ (f.width - 1) % 2 ^ f.t := by
  rw [bits, Nat.shiftRight_zero, hf.width, Nat.add_sub_cancel, Nat.mod_mod_of_dvd _ (Nat.pow_dvd_pow 2 (Nat.le_add_left ..))]

/-- A finite encoding is its sign and the value of the rest. -/
theorem decodeF_fin {n m : Nat} {s : Bool} {x : Int} (h : decodeF f n = .fin s m x) :
    s = signOf f n ∧ (m : ℚ) * (2 : ℚ) ^ x = magValue f (n % 2 ^ (f.width - 1)) := by
  unfold decodeF at h
  rw [bits_exponent hf, bits_mantissa hf] at h
  rw [magValue]
  generalize n % 2 ^ (f.width - 1) / 2 ^ f.t = e at *
  dsimp only at h
  split at h
  · split at h <;> cases h
  · split at h
    · cases h
    · split at h
      case isTrue he =>
        cases h
        subst he
        exact ⟨rfl, by simp [least]⟩
      case isFalse he =>
        cases h
        rw [if_neg he, least]
        refine ⟨rfl, congrArg _ (congrArg _ ?_)⟩
        omega

theorem valueOf_some {n : Nat} {y : ℚ} (h : valueOf f n = some y) : y = signed (signOf f n) * magValue f (n % 2 ^ (f.width - 1)) := by
  unfold valueOf at h
  split at h
  case h_1 s m x hd =>
    obtain ⟨rfl, hv⟩ := decodeF_fin hf hd
    rw [← hv, ← mul_assoc]
    exact (Option.some.inj h).symm
  case h_2 => cases h

/-- Whatever encoding has a value, up to its sign it is that of a magnitude. -/
theorem valueOf_magnitude {n : Nat} {y : ℚ} (h : valueOf f n = some y) : ∃ j, y = magValue f j ∨ y = -magValue f j := by
  refine ⟨n % 2 ^ (f.width - 1), ?_⟩
  rw [valueOf_some hf h, signed]
  split <;> simp

/-- Up to the largest magnitude every encoding is finite. -/
theorem decodeF_finite {n : Nat} (h : n % 2 ^ (f.width - 1) ≤ f.largest) : ∃ m x, decodeF f n = .fin (signOf f n) m x := by
  have hsum := Nat.div_add_mod' (n % 2 ^ (f.width - 1)) (2 ^ f.t)
  have hr := Nat.mod_lt (n % 2 ^ (f.width - 1)) (Nat.two_pow_pos f.t)
  have hl := hf.largest
  have ht := Nat.two_pow_pos f.t
  have he : 1 ≤ 2 ^ f.ebits := Nat.one_le_two_pow
  rw [pow_add] at hl
  unfold decodeF
  rw [bits_exponent hf, bits_mantissa hf]
  generalize n % 2 ^ (f.width - 1) / 2 ^ f.t = e at *
  generalize n % 2 ^ (f.width - 1) % 2 ^ f.t = r at *
  have hall : e = 2 ^ f.ebits - 1 → e * 2 ^ f.t + 2 ^ f.t = 2 ^ f.ebits * 2 ^ f.t := fun h => by
    rw [← Nat.succ_mul, h, Nat.succ_eq_add_one, Nat.sub_add_cancel he]
  have h1 : ¬ (decide (e = 2 ^ f.ebits - 1) && f.hasInf) = true := by
    rw [Bool.and_eq_true, decide_eq_true_iff]
    rintro ⟨h, hi⟩
    have := hall h
    rw [hi] at hl
    simp only [if_true] at hl
    omega
  have h2 : ¬ (decide (e = 2 ^ f.ebits - 1) && !f.hasInf && decide (r = 2 ^ f.t - 1)) = true := by
    rw [Bool.and_eq_true, Bool.and_eq_true, decide_eq_true_iff, decide_eq_true_iff, Bool.not_eq_true']
    rintro ⟨⟨h, hi⟩, hm⟩
    have := hall h
    rw [hi] at hl
    simp only [Bool.false_eq_true, if_false] at hl
    omega
  rw [if_neg h1, if_neg h2]
  split
  · exact ⟨_, _, rfl⟩
  · exact ⟨_, _, rfl⟩

theorem largest_lt : f.largest < 2 ^ (f.width - 1) := by
  have hl := hf.largest
  have ht := Nat.two_pow_pos f.t
  rw [hf.width, Nat.add_sub_cancel]
  split at hl <;> omega

theorem signBit_mod (neg : Bool) {k : Nat} (hk : k ≤ f.largest) : (signBit f neg + k) % 2 ^ (f.width - 1) = k := by
  have hlt := largest_lt hf
  unfold signBit
  split
  · rw [Nat.add_mod_left, Nat.mod_eq_of_lt (by omega)]
  · rw [Nat.zero_add, Nat.mod_eq_of_lt (by omega)]

theorem signBit_lt (neg : Bool) {k : Nat} (hk : k ≤ f.largest) : signBit f neg + k < 2 ^ f.width := by
  have hlt := largest_lt hf
  have hw : 2 ^ f.width = 2 * 2 ^ (f.width - 1) := by rw [← pow_succ', hf.width, Nat.add_sub_cancel]
  unfold signBit
  split <;> omega

theorem signOf_signBit (neg : Bool) {k : Nat} (hk : k ≤ f.largest) : signOf f (signBit f neg + k) = neg := by
  have hlt := largest_lt hf
  have hd : (signBit f neg + k) / 2 ^ (f.width - 1) = b2n neg := by
    unfold signBit
    cases neg
    · simp [b2n, Nat.div_eq_of_lt (show k < 2 ^ (f.width - 1) by omega)]
    · simp only [if_true, b2n]
      rw [Nat.add_div_left _ (Nat.two_pow_pos _), Nat.div_eq_of_lt (by omega)]
  rw [signOf, bit, Nat.testBit_eq_decide_div_mod_eq, hd]
  cases neg <;> decide

theorem valueOf_signBit (neg : Bool) {k : Nat} (hk : k ≤ f.largest) :
    valueOf f (signBit f neg + k) = some (signed neg * magValue f k) := by
  have hm := signBit_mod hf neg hk
  obtain ⟨m, x, hd⟩ := decodeF_finite hf (n := signBit f neg + k) (by rw [hm]; exact hk)
  have hv := (decodeF_fin hf hd).2
  rw [hm] at hv
  rw [signOf_signBit hf neg hk] at hd
  rw [valueOf, hd, ← hv, ← mul_assoc]
  rfl

theorem valueOf_largest : valueOf f f.largest = some (magValue f f.largest) := by
  simpa [signBit, signed] using valueOf_signBit hf false (le_refl f.largest)

end

/-! ### Rounding to a multiple of a unit -/

theorem two_pow_bitLen_pred_le {m : Nat} (hm : m ≠ 0) : 2 ^ (bitLen m - 1) ≤ m := by
  rw [bitLen, if_neg hm, Nat.add_sub_cancel]
  exact Nat.log2_self_le hm

theorem lt_two_pow_bitLen (m : Nat) : m < 2 ^ bitLen m := by
  unfold bitLen
  split
  · simp [*]
  · exact Nat.lt_log2_self

theorem bitLen_pos {m : Nat} (hm : m ≠ 0) : 1 ≤ bitLen m := by
  rw [bitLen, if_neg hm]
  omega

/-- The exponent of the leading bit of m × 2^x. -/
theorem leading_le {m : Nat} (hm : m ≠ 0) (x : Int) : (2 : ℚ) ^ (x + bitLen m - 1) ≤ (m : ℚ) * (2 : ℚ) ^ x := by
  have h : ((2 ^ (bitLen m - 1) : Nat) : ℚ) ≤ m := by exact_mod_cast two_pow_bitLen_pred_le hm
  have hb := bitLen_pos hm
  rw [show x + (bitLen m : Int) - 1 = ((bitLen m - 1 : Nat) : Int) + x by omega, zpow_add₀ two_ne_zero, zpow_natCast]
  push_cast at h
  exact mul_le_mul_of_nonneg_right h (zpow_nonneg zero_le_two _)

theorem lt_leading (m : Nat) (x : Int) : (m : ℚ) * (2 : ℚ) ^ x < (2 : ℚ) ^ (x + bitLen m) := by
  have h : (m : ℚ) < ((2 ^ bitLen m : Nat) : ℚ) := by exact_mod_cast lt_two_pow_bitLen m
  rw [add_comm, zpow_add₀ two_ne_zero, zpow_natCast]
  push_cast at h
  exact mul_lt_mul_of_pos_right h (zpow_pos two_pos _)

/-- Of a value that lies a part r of the way from a multiple n of the unit to the next, rounding takes the next (R62). -/
def GoesUp (rm : Nat) (neg : Bool) (n : Nat) (r : ℚ) : Prop :=
  (rm = 0 ∧ (1 / 2 < r ∨ r = 1 / 2 ∧ n % 2 = 1)) ∨ (rm = 2 ∧ neg = true ∧ r ≠ 0) ∨ (rm = 3 ∧ neg = false ∧ r ≠ 0)

theorem GoesUp.ne_zero {rm n : Nat} {neg : Bool} {r : ℚ} (h : GoesUp rm neg n r) : r ≠ 0 := by
  rcases h with ⟨-, h | ⟨h, -⟩⟩ | ⟨-, -, h⟩ | ⟨-, -, h⟩
  · linarith
  · rw [h]; norm_num
  · exact h
  · exact h

theorem goesUp_congr {rm n k : Nat} {neg : Bool} {r : ℚ} (h : n % 2 = k % 2) : GoesUp rm neg n r ↔ GoesUp rm neg k r := by
  rw [GoesUp, GoesUp, h]

/-- The model's choice by a remainder of a power of two. -/
theorem roundsUp_iff {rm : Nat} (hrm : rm < 4) (neg : Bool) (n rem : Nat) {half : Nat} (hh : 0 < half) :
    roundsUp rm neg n rem half = true ↔ GoesUp rm neg n ((rem : ℚ) / (2 * half : Nat)) := by
  have hpos : (0 : ℚ) < (2 * half : Nat) := by exact_mod_cast Nat.mul_pos two_pos hh
  have hlt : (1 / 2 : ℚ) < (rem : ℚ) / (2 * half : Nat) ↔ half < rem := by
    rw [lt_div_iff₀ hpos, ← Nat.cast_lt (α := ℚ)]
    push_cast
    ring_nf
  have heq : (rem : ℚ) / (2 * half : Nat) = 1 / 2 ↔ rem = half := by
    rw [div_eq_iff hpos.ne', ← Nat.cast_inj (R := ℚ)]
    push_cast
    ring_nf
  have hne : (rem : ℚ) / (2 * half : Nat) ≠ 0 ↔ rem ≠ 0 := by
    rw [ne_eq, div_eq_zero_iff, not_or]
    simp [hh.ne']
  unfold GoesUp
  rw [hlt, heq, hne, roundsUp]
  interval_cases rm <;> simp

/-- What rounding to a multiple of 2^q has done: the value lies a part r of the way from n units to n + 1. -/
structure RoundsAt (rm : Nat) (neg : Bool) (a : ℚ) (q : Int) (p : Nat × Bool) (n : Nat) (r : ℚ) : Prop where
  nonneg : 0 ≤ r
  lt_one : r < 1
  value : a = (n + r) * (2 : ℚ) ^ q
  units : p.1 = n + 1 ∧ GoesUp rm neg n r ∨ p.1 = n ∧ ¬ GoesUp rm neg n r
  inexact : p.2 = true ↔ r ≠ 0

theorem roundsAt_ite {rm n : Nat} {neg b up : Bool} {a r : ℚ} {q : Int} (h0 : 0 ≤ r) (h1 : r < 1) (hv : a = (n + r) * (2 : ℚ) ^ q)
    (hup : up = true ↔ GoesUp rm neg n r) (hb : b = true ↔ r ≠ 0) : RoundsAt rm neg a q (if up then n + 1 else n, b) n r := by
  refine ⟨h0, h1, hv, ?_, hb⟩
  cases hu : up
  · exact .inr ⟨rfl, fun h => by rw [hup.2 h] at hu; cases hu⟩
  · exact .inl ⟨rfl, hup.1 hu⟩

/-- A remainder far below the unit is rounded as any below half of it is. -/
theorem roundsAt_jammed {rm : Nat} (hrm : rm < 4) (neg : Bool) {a : ℚ} {q : Int} (h0 : 0 < a) (h1 : a < (2 : ℚ) ^ (q - 2)) :
    RoundsAt rm neg a q ((if roundsUp rm neg 0 1 2 then 1 else 0), true) 0 (a / (2 : ℚ) ^ q) := by
  have hq : (0 : ℚ) < (2 : ℚ) ^ q := zpow_pos two_pos _
  have hr : a / (2 : ℚ) ^ q < 1 / 4 := by
    rw [div_lt_iff₀ hq]
    rw [zpow_sub₀ two_ne_zero] at h1
    norm_num at h1 ⊢
    linarith
  have hr0 : 0 < a / (2 : ℚ) ^ q := div_pos h0 hq
  refine roundsAt_ite hr0.le (by linarith) (by rw [Nat.cast_zero, zero_add, div_mul_cancel₀ _ hq.ne']) ?_ (by simp [hr0.ne'])
  rw [roundsUp_iff hrm neg 0 1 two_pos]
  unfold GoesUp
  have e1 : ¬ (1 / 2 : ℚ) < a / (2 : ℚ) ^ q := by linarith
  have e2 : ¬ a / (2 : ℚ) ^ q = 1 / 2 := by linarith
  have hquarter : ((1 : Nat) : ℚ) / (2 * 2 : Nat) = 1 / 4 := by norm_num
  rw [hquarter, iff_false_intro e1, iff_false_intro e2, iff_true_intro hr0.ne']
  norm_num

theorem roundAt_rounds {rm : Nat} (hrm : rm < 4) (neg : Bool) (m : Nat) (x q : Int) :
    ∃ n r, RoundsAt rm neg ((m : ℚ) * (2 : ℚ) ^ x) q (roundAt rm neg m x q) n r := by
  have hexact : ∀ n, ¬ GoesUp rm neg n 0 := fun n h => h.ne_zero rfl
  unfold roundAt
  split
  case isTrue hm => exact ⟨0, 0, le_refl _, one_pos, by simp [hm], .inr ⟨rfl, hexact 0⟩, by simp⟩
  case isFalse hm =>
    split
    case isTrue hqx =>
      refine ⟨m * 2 ^ (x - q).toNat, 0, le_refl _, one_pos, ?_, .inr ⟨rfl, hexact _⟩, by simp⟩
      have : (2 : ℚ) ^ x = (2 : ℚ) ^ (x - q).toNat * (2 : ℚ) ^ q := by
        rw [← zpow_natCast, ← zpow_add₀ two_ne_zero, Int.toNat_of_nonneg (by omega), sub_add_cancel]
      rw [this]
      push_cast
      ring
    case isFalse hqx =>
      obtain ⟨k, hk, hk0⟩ : ∃ k : Nat, q = x + k ∧ 0 < k := ⟨(q - x).toNat, by omega, by omega⟩
      have hkn : (q - x).toNat = k := by omega
      simp only [hkn]
      split
      case isTrue hfar =>
        refine ⟨0, _, roundsAt_jammed hrm neg ?_ ?_⟩
        · exact mul_pos (by exact_mod_cast Nat.pos_of_ne_zero hm) (zpow_pos two_pos _)
        · exact (lt_leading m x).trans_le (zpow_le_zpow_right₀ one_le_two (by omega))
      case isFalse hnear =>
        have hpow : 2 * 2 ^ (k - 1) = 2 ^ k := by rw [← pow_succ', Nat.sub_add_cancel hk0]
        have hpos : (0 : ℚ) < (2 ^ k : Nat) := by exact_mod_cast Nat.two_pow_pos k
        refine ⟨m / 2 ^ k, ((m % 2 ^ k : Nat) : ℚ) / (2 ^ k : Nat), roundsAt_ite (by positivity) ?_ ?_ ?_ ?_⟩
        · rw [div_lt_one hpos]
          exact_mod_cast Nat.mod_lt m (Nat.two_pow_pos k)
        · have hm' : (m : ℚ) = ((m / 2 ^ k : Nat) : ℚ) * (2 ^ k : Nat) + (m % 2 ^ k : Nat) := by exact_mod_cast (Nat.div_add_mod' m (2 ^ k)).symm
          rw [hk, zpow_add₀ two_ne_zero, zpow_natCast]
          conv_lhs => rw [hm']
          field_simp
          push_cast
          ring
        · rw [roundsUp_iff hrm neg _ _ (Nat.two_pow_pos _), hpow]
        · rw [bne_iff_ne, ne_eq, ne_eq, div_eq_zero_iff, not_or]
          simp

/-! ### Rounding into a format -/

/-- The exponent of the leading bit of m × 2^x, m not zero. -/
def lead (m : Nat) (x : Int) : Int := x + bitLen m - 1

/-- What an overflow delivers (R63). -/
def overflowed (f : Fmt) (rm : Nat) (sat neg : Bool) : Nat × Nat := (withSign f neg (overflowTo f rm sat neg), flagOF + flagNX)

/-- The unit in which m × 2^x is rounded into a format, s binades above the least, with n and r as `RoundsAt` tells them. -/
structure RoundingUnit (f : Fmt) (m : Nat) (x : Int) (s n : Nat) : Prop where
  at_ : least f + s = max (lead m x) (1 - f.bias) - f.t
  lower : s = 0 ∨ 2 ^ f.t ≤ n
  upper : n < 2 ^ (f.t + 1)

theorem unit_of_roundsAt {f : Fmt} {rm m s n : Nat} {neg : Bool} {x : Int} {p : Nat × Bool} {r : ℚ} (hm : m ≠ 0)
    (hs : least f + s = max (lead m x) (1 - f.bias) - f.t)
    (h : RoundsAt rm neg ((m : ℚ) * (2 : ℚ) ^ x) (least f + s) p n r) : RoundingUnit f m x s n := by
  have hu : (0 : ℚ) < (2 : ℚ) ^ (least f + s) := zpow_pos two_pos _
  have hv := h.value
  refine ⟨hs, ?_, ?_⟩
  · by_contra hn
    push Not at hn
    obtain ⟨hs0, hlt⟩ := hn
    have hle := leading_le hm x
    have he : x + bitLen m - 1 = (f.t : Int) + (least f + s) := by
      unfold lead least at hs
      unfold least
      omega
    rw [he, zpow_add₀ two_ne_zero, zpow_natCast, hv] at hle
    have h2 := le_of_mul_le_mul_right hle hu
    have h3 : ((n + 1 : Nat) : ℚ) ≤ ((2 ^ f.t : Nat) : ℚ) := by exact_mod_cast hlt
    push_cast at h3
    have := h.lt_one
    linarith
  · have hlt := lt_leading m x
    have he : (2 : ℚ) ^ (x + bitLen m) ≤ (2 : ℚ) ^ (((f.t + 1 : Nat) : Int) + (least f + s)) :=
      zpow_le_zpow_right₀ one_le_two (by unfold lead at hs; push_cast; omega)
    rw [zpow_add₀ two_ne_zero ((f.t + 1 : Nat) : Int), zpow_natCast] at he
    rw [hv] at hlt
    have h2 := lt_of_mul_lt_mul_right (hlt.trans_le he) hu.le
    have h3 : (n : ℚ) < ((2 ^ (f.t + 1) : Nat) : ℚ) := by
      push_cast
      linarith [h.nonneg]
    exact_mod_cast h3

/-- Rounding into a format: in its unit, and an overflow beyond the largest encoding. -/
theorem roundTo_unit (f : Fmt) {rm : Nat} (hrm : rm < 4) (sat neg : Bool) {m : Nat} (hm : m ≠ 0) (x : Int) :
    ∃ s n r p tiny, RoundingUnit f m x s n ∧ RoundsAt rm neg ((m : ℚ) * (2 : ℚ) ^ x) (least f + s) p n r ∧
      roundTo f rm sat neg m x = if (2 ^ f.ebits : Int) < lead m x ∨ f.largest < s * 2 ^ f.t + p.1 then overflowed f rm sat neg
        else (signBit f neg + (s * 2 ^ f.t + p.1), (if p.2 then flagNX else 0) + if p.2 && tiny then flagUF else 0) := by
  obtain ⟨s, hs⟩ : ∃ s : Nat, least f + s = max (lead m x) (1 - f.bias) - f.t :=
    ⟨(max (lead m x) (1 - f.bias) - f.t - least f).toNat, by unfold least; omega⟩
  obtain ⟨n, r, hr⟩ := roundAt_rounds hrm neg m x (least f + s)
  have hu := unit_of_roundsAt hm hs hr
  have hp : (roundAt rm neg m x (least f + s)).1 ≤ 2 ^ (f.t + 1) := by
    have := hu.upper
    rcases hr.units with ⟨h, -⟩ | ⟨h, -⟩ <;> omega
  refine ⟨s, n, r, _, decide (lead m x < 1 - f.bias) && !(lead m x == 1 - f.bias - 1 &&
    (roundAt rm neg m x (lead m x - f.t)).1 == 2 ^ (f.t + 1)), hu, hr, ?_⟩
  have hsn : (least f + s - (1 - f.bias - f.t)).toNat = s := by unfold least; omega
  have hlead : x + (bitLen m : Int) - 1 = lead m x := rfl
  have hmag : (if 2 ^ (f.t + 1) ≤ (roundAt rm neg m x (least f + s)).1 then (s + 1) * 2 ^ f.t + (roundAt rm neg m x (least f + s)).1 / 2
      else s * 2 ^ f.t + (roundAt rm neg m x (least f + s)).1) = s * 2 ^ f.t + (roundAt rm neg m x (least f + s)).1 := by
    split
    · rw [le_antisymm hp ‹_›, pow_succ, Nat.mul_div_cancel _ two_pos]
      ring
    · rfl
  unfold roundTo
  rw [if_neg hm]
  simp only [hlead, ← hs, hsn, hmag]
  by_cases h1 : (2 ^ f.ebits : Int) < lead m x
  · rw [if_pos h1, if_pos (.inl h1)]
    rfl
  · rw [if_neg h1]
    by_cases h2 : f.largest < s * 2 ^ f.t + (roundAt rm neg m x (least f + s)).1
    · rw [if_pos h2, if_pos (.inr h2)]
      rfl
    · rw [if_neg h2, if_neg (not_or_intro h1 h2)]

theorem magValue_lt (f : Fmt) (j : Nat) : magValue f j < (2 : ℚ) ^ (least f + f.t + 1 + (j / 2 ^ f.t - 1 : Nat)) := by
  have hr := Nat.mod_lt j (Nat.two_pow_pos f.t)
  have hpow : 2 ^ (f.t + 1) = 2 * 2 ^ f.t := by ring
  have hn : (if j / 2 ^ f.t = 0 then j % 2 ^ f.t else 2 ^ f.t + j % 2 ^ f.t) < 2 ^ (f.t + 1) := by split <;> omega
  rw [magValue, show least f + f.t + 1 + ((j / 2 ^ f.t - 1 : Nat) : Int) = ((f.t + 1 : Nat) : Int) + (least f + (j / 2 ^ f.t - 1 : Nat)) by
    push_cast; ring, zpow_add₀ two_ne_zero ((f.t + 1 : Nat) : Int), zpow_natCast]
  exact mul_lt_mul_of_pos_right (by exact_mod_cast hn) (zpow_pos two_pos _)

/-- A value within the range of a format has no leading bit beyond it. -/
theorem lead_le {f : Fmt} (hf : Regular f) {m : Nat} (hm : m ≠ 0) {x : Int}
    (h : (m : ℚ) * (2 : ℚ) ^ x ≤ magValue f f.largest) : lead m x ≤ 2 ^ f.ebits := by
  have hlt := (leading_le hm x).trans_lt (h.trans_lt (magValue_lt f f.largest))
  have he := (zpow_lt_zpow_iff_right₀ one_lt_two).1 hlt
  have hd : f.largest / 2 ^ f.t < 2 ^ f.ebits := by
    rw [Nat.div_lt_iff_lt_mul (Nat.two_pow_pos _), ← pow_add]
    have := largest_lt hf
    rwa [hf.width, Nat.add_sub_cancel] at this
  have h2 : 2 ≤ 2 ^ f.ebits := Nat.le_self_pow (by have := hf.ebits; omega) 2
  have h3 : ((2 ^ f.ebits : Nat) : Int) = 2 ^ f.ebits := by push_cast; rfl
  unfold lead least at *
  omega

/-- A value a of the range of a format has been rounded: it lies a part r of the way from magnitude k to the next. -/
structure RoundsTo (f : Fmt) (rm : Nat) (neg : Bool) (a : ℚ) (p : Nat × Nat) (k mag : Nat) (r : ℚ) : Prop where
  nonneg : 0 ≤ r
  lt_one : r < 1
  value : a = magValue f k + r * (magValue f (k + 1) - magValue f k)
  code : p.1 = signBit f neg + mag
  fits : mag ≤ f.largest
  steps : mag = k + 1 ∧ GoesUp rm neg k r ∨ mag = k ∧ ¬ GoesUp rm neg k r
  inexact : p.2 &&& flagNX ≠ 0 ↔ r ≠ 0

theorem flagNX_set (b c : Bool) : ((if b then flagNX else 0) + if c then flagUF else 0) &&& flagNX ≠ 0 ↔ b = true := by
  revert b c
  decide

theorem roundTo_zero (f : Fmt) (rm : Nat) (sat neg : Bool) (x : Int) : roundTo f rm sat neg 0 x = (signBit f neg, 0) := if_pos rfl

theorem roundTo_named {f : Fmt} (hf : Regular f) {rm : Nat} (hrm : rm < 4) (sat neg : Bool) (m : Nat) (x : Int)
    (h : (m : ℚ) * (2 : ℚ) ^ x ≤ magValue f f.largest) :
    ∃ k mag r, RoundsTo f rm neg ((m : ℚ) * (2 : ℚ) ^ x) (roundTo f rm sat neg m x) k mag r := by
  by_cases hm : m = 0
  · subst hm
    rw [roundTo_zero]
    exact ⟨0, 0, 0, le_refl _, one_pos, by simp [magValue_zero], rfl, Nat.zero_le _, .inr ⟨rfl, fun h => h.ne_zero rfl⟩, by simp⟩
  · obtain ⟨s, n, r, p, tiny, hu, hr, e⟩ := roundTo_unit f hrm sat neg hm x
    have hlo := magValue_grid f hu.lower hu.upper.le
    have hhi := magValue_grid f (hu.lower.imp_right Nat.le_succ_of_le) hu.upper
    have hmono := magValue_strictMono f
    have hval : (m : ℚ) * (2 : ℚ) ^ x = magValue f (s * 2 ^ f.t + n)
        + r * (magValue f (s * 2 ^ f.t + n + 1) - magValue f (s * 2 ^ f.t + n)) := by
      rw [Nat.add_assoc, hlo, hhi, hr.value]
      push_cast
      ring
    have hgap := magValue_lt_succ f (s * 2 ^ f.t + n)
    have hpar : n % 2 = (s * 2 ^ f.t + n) % 2 := by
      obtain ⟨t, ht⟩ := Nat.exists_eq_add_of_le' hf.t
      rw [ht, pow_succ, ← Nat.mul_assoc, Nat.mul_add_mod']
    have hsteps : s * 2 ^ f.t + p.1 = s * 2 ^ f.t + n + 1 ∧ GoesUp rm neg (s * 2 ^ f.t + n) r ∨
        s * 2 ^ f.t + p.1 = s * 2 ^ f.t + n ∧ ¬ GoesUp rm neg (s * 2 ^ f.t + n) r := by
      rw [← goesUp_congr hpar]
      exact hr.units.imp (fun h => ⟨by omega, h.2⟩) (fun h => ⟨by omega, h.2⟩)
    have hfits : s * 2 ^ f.t + p.1 ≤ f.largest := by
      rcases hsteps with ⟨hp, hg⟩ | ⟨hp, -⟩
      · have hpos : 0 < r := lt_of_le_of_ne hr.nonneg hg.ne_zero.symm
        have : 0 < r * (magValue f (s * 2 ^ f.t + n + 1) - magValue f (s * 2 ^ f.t + n)) := mul_pos hpos (sub_pos.2 hgap)
        rw [hp]
        exact hmono.lt_iff_lt.1 (show magValue f (s * 2 ^ f.t + n) < _ by linarith)
      · have : 0 ≤ r * (magValue f (s * 2 ^ f.t + n + 1) - magValue f (s * 2 ^ f.t + n)) := mul_nonneg hr.nonneg (sub_nonneg.2 hgap.le)
        rw [hp]
        exact hmono.le_iff_le.1 (by linarith)
    rw [if_neg (not_or_intro (not_lt.2 (lead_le hf hm h)) (not_lt.2 hfits))] at e
    rw [e]
    exact ⟨_, _, r, hr.nonneg, hr.lt_one, hval, rfl, hfits, hsteps, (flagNX_set _ _).trans hr.inexact⟩

end Sys2Proof.Claims
end

section
/-! PROOF. O17: rounding picks the value that the mode names (R62, R64). -/

namespace Sys2Proof.Claims

open Sys2Proof.Machine

/-! ### What the modes pick -/

/-- No value of a set lies strictly between two others. -/
def Beyond (lo hi z : ℚ) : Prop := z ≤ lo ∨ hi ≤ z

theorem beyond_magnitude (f : Fmt) (k j : Nat) : Beyond (magValue f k) (magValue f (k + 1)) (magValue f j) := by
  have h := (magValue_strictMono f).monotone
  rcases Nat.lt_or_ge k j with hj | hj
  · exact .inr (h hj)
  · exact .inl (h hj)

theorem beyond_negated (f : Fmt) (k j : Nat) : Beyond (magValue f k) (magValue f (k + 1)) (-magValue f j) :=
  .inl (by linarith [magValue_nonneg f k, magValue_nonneg f j])

section
variable {rm k : Nat} {neg : Bool} {lo hi a b r : ℚ} (hlt : lo < hi) (h0 : 0 ≤ r) (h1 : r < 1) (ha : a = lo + r * (hi - lo))
  (hb : b = hi ∧ GoesUp rm neg k r ∨ b = lo ∧ ¬ GoesUp rm neg k r)
include hlt h0 h1 ha hb

/-- To nearest: no value beyond the two neighbours is closer. -/
theorem nearest_le (hrm : rm = 0) {z : ℚ} (hz : Beyond lo hi z) : |b - a| ≤ |z - a| := by
  have hd : 0 < hi - lo := sub_pos.2 hlt
  have hr0 : 0 ≤ r * (hi - lo) := mul_nonneg h0 hd.le
  have hr1 : r * (hi - lo) < hi - lo := by nlinarith
  have hside : b = hi ∧ (hi - lo) ≤ 2 * (r * (hi - lo)) ∨ b = lo ∧ 2 * (r * (hi - lo)) ≤ hi - lo := by
    refine hb.imp (fun h => ⟨h.1, ?_⟩) (fun h => ⟨h.1, ?_⟩)
    · have : 1 / 2 ≤ r := by
        rcases h.2 with ⟨-, h | h⟩ | ⟨h, -⟩ | ⟨h, -⟩
        · exact h.le
        · exact h.1.ge
        · omega
        · omega
      nlinarith
    · have : r ≤ 1 / 2 := by
        by_contra hr
        exact h.2 (.inl ⟨hrm, .inl (not_le.1 hr)⟩)
      nlinarith
  rcases hside with ⟨rfl, hs⟩ | ⟨rfl, hs⟩ <;> rcases hz with hz | hz
  · rw [abs_of_pos (by linarith), abs_of_nonpos (by linarith)]; linarith
  · rw [abs_of_pos (by linarith), abs_of_pos (by linarith)]; linarith
  · rw [abs_of_nonpos (by linarith), abs_of_nonpos (by linarith)]; linarith
  · rw [abs_of_nonpos (by linarith), abs_of_pos (by linarith)]; linarith

/-- To nearest: another value is as close only half way between the two neighbours. -/
theorem nearest_tie (hrm : rm = 0) {z : ℚ} (hz : Beyond lo hi z) (hne : z ≠ b) (he : |z - a| = |b - a|) : r = 1 / 2 := by
  have hd : 0 < hi - lo := sub_pos.2 hlt
  have hr0 : 0 ≤ r * (hi - lo) := mul_nonneg h0 hd.le
  have hr1 : r * (hi - lo) < hi - lo := by nlinarith
  by_contra hr
  have hside : b = hi ∧ (hi - lo) < 2 * (r * (hi - lo)) ∨ b = lo ∧ 2 * (r * (hi - lo)) < hi - lo := by
    refine hb.imp (fun h => ⟨h.1, ?_⟩) (fun h => ⟨h.1, ?_⟩)
    · have : 1 / 2 < r := by
        rcases h.2 with ⟨-, h | h⟩ | ⟨h, -⟩ | ⟨h, -⟩
        · exact h
        · exact absurd h.1 hr
        · omega
        · omega
      nlinarith
    · have : r < 1 / 2 := lt_of_le_of_ne (not_lt.1 fun hr => h.2 (.inl ⟨hrm, .inl hr⟩)) hr
      nlinarith
  rcases hside with ⟨rfl, hs⟩ | ⟨rfl, hs⟩ <;> rcases hz with hz | hz
  · rw [abs_of_pos (show 0 < b - a by linarith), abs_of_nonpos (by linarith)] at he; linarith
  · rw [abs_of_pos (show 0 < b - a by linarith), abs_of_pos (by linarith)] at he; exact hne (by linarith)
  · rw [abs_of_nonpos (show b - a ≤ 0 by linarith), abs_of_nonpos (by linarith)] at he; exact hne (by linarith)
  · rw [abs_of_nonpos (show b - a ≤ 0 by linarith), abs_of_pos (by linarith)] at he; linarith

/-- Where rounding does not go up, it picks the greatest value not above. -/
theorem greatest_below (hn : ¬ GoesUp rm neg k r) : b ≤ a ∧ ∀ z, Beyond lo hi z → z ≤ a → z ≤ b := by
  obtain ⟨rfl, -⟩ : b = lo ∧ _ := hb.resolve_left fun h => hn h.2
  have hd : 0 < hi - b := sub_pos.2 hlt
  have hr0 : 0 ≤ r * (hi - b) := mul_nonneg h0 hd.le
  have hr1 : r * (hi - b) < hi - b := by nlinarith
  refine ⟨by linarith, fun z hz hza => hz.resolve_right fun h => by linarith⟩

/-- Where rounding goes up whenever it is inexact, it picks the least value not below. -/
theorem least_above (hn : r ≠ 0 → GoesUp rm neg k r) : a ≤ b ∧ ∀ z, Beyond lo hi z → a ≤ z → b ≤ z := by
  have hd : 0 < hi - lo := sub_pos.2 hlt
  rcases eq_or_ne r 0 with rfl | hr
  · obtain ⟨rfl, -⟩ : b = lo ∧ _ := hb.resolve_left fun h => h.2.ne_zero rfl
    rw [zero_mul, add_zero] at ha
    exact ⟨ha.le, fun z _ h => ha ▸ h⟩
  · obtain ⟨rfl, -⟩ : b = hi ∧ _ := hb.resolve_right fun h => h.2 (hn hr)
    have hr0 : 0 < r * (b - lo) := mul_pos (lt_of_le_of_ne h0 hr.symm) hd
    have hr1 : r * (b - lo) < b - lo := by nlinarith
    exact ⟨by linarith, fun z hz h => hz.resolve_left fun h' => by linarith⟩

end

theorem not_goesUp {rm : Nat} {neg : Bool} (h : rm = 1 ∨ (rm = 2 ∧ neg = false) ∨ (rm = 3 ∧ neg = true)) (k : Nat) (r : ℚ) :
    ¬ GoesUp rm neg k r := by
  rcases h with rfl | ⟨rfl, rfl⟩ | ⟨rfl, rfl⟩ <;> simp [GoesUp]

theorem goesUp_of_ne {rm : Nat} {neg : Bool} (h : (rm = 2 ∧ neg = true) ∨ (rm = 3 ∧ neg = false)) (k : Nat) {r : ℚ} (hr : r ≠ 0) :
    GoesUp rm neg k r := by
  rcases h with ⟨rfl, rfl⟩ | ⟨rfl, rfl⟩
  · exact .inr (.inl ⟨rfl, rfl, hr⟩)
  · exact .inr (.inr ⟨rfl, rfl, hr⟩)

theorem signed_mul_self (neg : Bool) : signed neg * signed neg = 1 := by cases neg <;> norm_num [signed]

theorem abs_signed_mul (neg : Bool) (u : ℚ) : |signed neg * u| = |u| := by cases neg <;> simp [signed]

/-- Distances from a signed value. -/
theorem abs_sub_signed (neg : Bool) (y a : ℚ) : |y - signed neg * a| = |signed neg * y - a| := by
  rw [← abs_signed_mul neg, mul_sub, ← mul_assoc, signed_mul_self, one_mul]

theorem signed_signed (neg : Bool) (b : ℚ) : signed neg * (signed neg * b) = b := by rw [← mul_assoc, signed_mul_self, one_mul]

section
variable {f : Fmt} {rm : Nat} {neg : Bool} {a r : ℚ} {p : Nat × Nat} {k mag : Nat} (h : RoundsTo f rm neg a p k mag r)
include h

theorem RoundsTo.picks : magValue f mag = magValue f (k + 1) ∧ GoesUp rm neg k r ∨ magValue f mag = magValue f k ∧ ¬ GoesUp rm neg k r :=
  h.steps.imp (And.imp_left (congrArg _)) (And.imp_left (congrArg _))

theorem RoundsTo.nonneg_value : 0 ≤ a := by
  rw [h.value]
  exact add_nonneg (magValue_nonneg f k) (mul_nonneg h.nonneg (sub_nonneg.2 (magValue_lt_succ f k).le))

/-- Rounding is exact where the value is that of the magnitude picked. -/
theorem RoundsTo.exact_iff : r = 0 ↔ magValue f mag = a := by
  have hd := sub_pos.2 (magValue_lt_succ f k)
  have h1 := h.lt_one
  have hv := h.value
  constructor
  · rintro rfl
    rcases h.picks with ⟨-, hg⟩ | ⟨e, -⟩
    · exact absurd rfl hg.ne_zero
    · rw [e, hv]; ring
  · intro e
    rcases h.picks with ⟨e', -⟩ | ⟨e', -⟩
    · exfalso
      rw [e'] at e
      nlinarith
    · rw [e'] at e
      have : r * (magValue f (k + 1) - magValue f k) = 0 := by linarith
      exact (mul_eq_zero.1 this).resolve_right hd.ne'

/-- A tie goes to the even encoding (R62). -/
theorem RoundsTo.even_of_half (hrm : rm = 0) (hr : r = 1 / 2) : mag % 2 = 0 := by
  rcases h.steps with ⟨rfl, hg⟩ | ⟨rfl, hn⟩
  · rcases hg with ⟨-, hg | hg⟩ | ⟨hg, -⟩ | ⟨hg, -⟩
    · linarith
    · omega
    · omega
    · omega
  · by_contra ho
    exact hn (.inl ⟨hrm, .inr ⟨hr, by omega⟩⟩)

/-- A value of the format, with the sign of the result taken off, does not lie between the neighbours. -/
theorem beyond_signed (hf : Regular f) {n : Nat} {y : ℚ} (hy : valueOf f n = some y) :
    Beyond (magValue f k) (magValue f (k + 1)) (signed neg * y) ∧ Beyond (magValue f k) (magValue f (k + 1)) |y| := by
  obtain ⟨j, hj⟩ := valueOf_magnitude hf hy
  have hp := beyond_magnitude f k j
  have hn := beyond_negated f k j
  have habs : |y| = magValue f j := by
    rcases hj with rfl | rfl
    · exact abs_of_nonneg (magValue_nonneg f j)
    · rw [abs_neg, abs_of_nonneg (magValue_nonneg f j)]
  refine ⟨?_, habs ▸ hp⟩
  cases neg <;> rcases hj with rfl | rfl <;> simpa [signed]

theorem RoundsTo.isRounded (hf : Regular f) : IsRounded f rm (signed neg * a) (signed neg * magValue f mag) := by
  have ha := h.nonneg_value
  refine ⟨⟨_, signBit_lt hf neg h.fits, valueOf_signBit hf neg h.fits⟩, fun n y _ hy => ⟨fun hrm => ?_, ?_, ?_, ?_⟩⟩
  all_goals obtain ⟨hz, habs⟩ := beyond_signed h hf hy
  · rw [abs_sub_signed, abs_sub_signed, signed_signed]
    exact nearest_le (magValue_lt_succ f k) h.nonneg h.lt_one h.value h.picks hrm hz
  · intro hrm
    obtain ⟨hle, hgr⟩ := greatest_below (magValue_lt_succ f k) h.nonneg h.lt_one h.value h.picks (not_goesUp (.inl hrm) k r)
    rw [abs_signed_mul, abs_signed_mul, abs_of_nonneg ha, abs_of_nonneg (magValue_nonneg f mag)]
    refine ⟨hle, ?_, fun hy _ => hgr _ habs hy⟩
    calc (0 : ℚ) ≤ magValue f mag * a := mul_nonneg (magValue_nonneg f mag) ha
      _ = signed neg * magValue f mag * (signed neg * a) := by rw [mul_mul_mul_comm, signed_mul_self, one_mul]
  · intro hrm
    cases neg
    · obtain ⟨hle, hgr⟩ := greatest_below (magValue_lt_succ f k) h.nonneg h.lt_one h.value h.picks (not_goesUp (.inr (.inl ⟨hrm, rfl⟩)) k r)
      simp only [signed, Bool.false_eq_true, if_false, one_mul] at hz ⊢
      exact ⟨hle, hgr y hz⟩
    · obtain ⟨hle, hgr⟩ := least_above (magValue_lt_succ f k) h.nonneg h.lt_one h.value h.picks (goesUp_of_ne (.inl ⟨hrm, rfl⟩) k)
      simp only [signed, if_true, neg_one_mul] at hz ⊢
      exact ⟨neg_le_neg hle, fun hy => le_neg_of_le_neg (hgr (-y) hz (le_neg_of_le_neg hy))⟩
  · intro hrm
    cases neg
    · obtain ⟨hle, hgr⟩ := least_above (magValue_lt_succ f k) h.nonneg h.lt_one h.value h.picks (goesUp_of_ne (.inr ⟨hrm, rfl⟩) k)
      simp only [signed, Bool.false_eq_true, if_false, one_mul] at hz ⊢
      exact ⟨hle, hgr y hz⟩
    · obtain ⟨hle, hgr⟩ := greatest_below (magValue_lt_succ f k) h.nonneg h.lt_one h.value h.picks (not_goesUp (.inr (.inr ⟨hrm, rfl⟩)) k r)
      simp only [signed, if_true, neg_one_mul] at hz ⊢
      exact ⟨neg_le_neg hle, fun hy => neg_le_of_neg_le (hgr (-y) hz (neg_le_of_neg_le hy))⟩

/-- Another value as close as the one picked: the encoding picked is even. -/
theorem RoundsTo.even_of_tie (hf : Regular f) (hrm : rm = 0) {n : Nat} {y : ℚ} (hy : valueOf f n = some y)
    (hne : y ≠ signed neg * magValue f mag) (he : |y - signed neg * a| = |signed neg * magValue f mag - signed neg * a|) :
    p.1 % 2 = 0 := by
  rw [abs_sub_signed, abs_sub_signed, signed_signed] at he
  have hr := nearest_tie (magValue_lt_succ f k) h.nonneg h.lt_one h.value h.picks hrm (beyond_signed h hf hy).1
    (fun e => hne (by rw [← e, signed_signed])) he
  have hm := h.even_of_half hrm hr
  have hs : signBit f neg % 2 = 0 := by
    have hw : f.width - 1 = (f.width - 2) + 1 := by
      have := hf.width
      have := hf.t
      omega
    unfold signBit
    split
    · rw [hw, pow_succ, Nat.mul_mod_left]
    · rfl
  rw [h.code]
  omega

end

/-- Settles O17: the value lies between two neighbouring magnitudes of the format, of which the mode picks one, and no finite value
lies strictly between them. -/
theorem roundingPicksTheNamedValue : Obligations.RoundingPicksTheNamedValue := by
  unfold Obligations.RoundingPicksTheNamedValue
  intro f hmem rm sat neg m x top hrm htop hle v r
  have hf := regular hmem
  obtain rfl : magValue f f.largest = top := Option.some.inj ((valueOf_largest hf).symm.trans htop)
  obtain ⟨k, mag, u, h⟩ := roundTo_named hf hrm sat neg m x hle
  have hv : v = signed neg * ((m : ℚ) * (2 : ℚ) ^ x) := mul_assoc _ _ _
  have hsig : signed neg ≠ 0 := fun e => by simpa [e] using signed_mul_self neg
  refine ⟨signed neg * magValue f mag, ?_, ?_, ?_, ?_, ?_⟩
  · rw [h.code]
    exact valueOf_signBit hf neg h.fits
  · rw [h.code]
    exact signBit_lt hf neg h.fits
  · rw [hv]
    exact h.isRounded hf
  · rw [h.inexact, ne_eq, ne_eq, h.exact_iff, hv, mul_right_inj' hsig]
  · rw [hv]
    exact fun hrm n y _ hy => h.even_of_tie hf hrm hy

end Sys2Proof.Claims
end

section
/-! PROOF. O19: what overflow delivers, and the special operands of floating-point arithmetic (R60, R63, R254, R255). -/

namespace Sys2Proof.Claims

open Sys2Proof.Machine

/-! ### Overflow (R63) -/

/-- A value that reaches a power of two has its leading bit there or above. -/
theorem le_lead {m : Nat} {x : Int} {e : Nat} (h : (2 : ℚ) ^ e ≤ (m : ℚ) * (2 : ℚ) ^ x) : (e : Int) ≤ lead m x := by
  have hlt := h.trans_lt (lt_leading m x)
  rw [← zpow_natCast, zpow_lt_zpow_iff_right₀ one_lt_two] at hlt
  unfold lead
  omega

/-- The power of two from which every rounding is beyond the largest value: that above the largest exponent, one more where the
largest exponent has no place for an infinity. -/
def ceiling (f : Fmt) : Nat := 2 ^ (f.ebits - 1) + (if f.hasInf then 0 else 1)

/-- In a unit that high even the first multiple of a binade is beyond the largest encoding. -/
theorem largest_lt_of_lead {f : Fmt} (hf : Regular f) {m s n : Nat} {x : Int} (hu : RoundingUnit f m x s n) (h : (ceiling f : Int) ≤ lead m x) :
    f.largest < s * 2 ^ f.t + n := by
  have hat := hu.at_
  have hb := hf.bias
  have hl := hf.largest
  have ht := Nat.two_pow_pos f.t
  have hpow : 2 ^ f.ebits = 2 * 2 ^ (f.ebits - 1) := by rw [← pow_succ', Nat.sub_add_cancel (le_of_lt hf.ebits)]
  have hhalf : 2 ≤ 2 ^ (f.ebits - 1) := Nat.le_self_pow (by have := hf.ebits; omega) 2
  have hs : 2 ^ f.ebits - 2 + (if f.hasInf then 0 else 1) ≤ s := by
    unfold ceiling at h
    unfold least at hat
    generalize (if f.hasInf = true then 0 else 1) = c at *
    omega
  have hn : 2 ^ f.t ≤ n := hu.lower.resolve_left (by omega)
  rw [pow_add] at hl
  split at hl
  case isTrue hi =>
    rw [if_pos hi] at hs
    have : (2 ^ f.ebits - 2) * 2 ^ f.t ≤ s * 2 ^ f.t := Nat.mul_le_mul_right _ (by omega)
    have : (2 ^ f.ebits - 2) * 2 ^ f.t + 2 * 2 ^ f.t = 2 ^ f.ebits * 2 ^ f.t := by
      rw [← Nat.add_mul, Nat.sub_add_cancel (by omega)]
    omega
  case isFalse hi =>
    rw [if_neg hi] at hs
    have : (2 ^ f.ebits - 1) * 2 ^ f.t ≤ s * 2 ^ f.t := Nat.mul_le_mul_right _ (by omega)
    have : (2 ^ f.ebits - 1) * 2 ^ f.t + 1 * 2 ^ f.t = 2 ^ f.ebits * 2 ^ f.t := by
      rw [← Nat.add_mul, Nat.sub_add_cancel (by omega)]
    omega

theorem roundTo_overflowed {f : Fmt} (hf : Regular f) {rm : Nat} (hrm : rm < 4) (sat neg : Bool) {m : Nat} (hm : m ≠ 0) {x : Int}
    (h : (2 : ℚ) ^ ceiling f ≤ (m : ℚ) * (2 : ℚ) ^ x) : roundTo f rm sat neg m x = overflowed f rm sat neg := by
  obtain ⟨s, n, r, p, tiny, hu, hr, e⟩ := roundTo_unit f hrm sat neg hm x
  have hlt := largest_lt_of_lead hf hu (le_lead h)
  have hp : n ≤ p.1 := by rcases hr.units with ⟨h, -⟩ | ⟨h, -⟩ <;> omega
  rw [e, if_pos (.inr (by omega))]

/-- The rounding and FMT.SAT deliver an overflow at the largest finite value. -/
def ToLargest (rm : Nat) (sat neg : Bool) : Prop := sat = true ∨ rm = 1 ∨ (rm = 2 ∧ neg = false) ∨ (rm = 3 ∧ neg = true)

theorem overflowTo_largest (f : Fmt) {rm : Nat} {sat neg : Bool} (h : ToLargest rm sat neg) : overflowTo f rm sat neg = f.largest :=
  if_pos (by simpa [ToLargest, or_assoc] using h)

theorem overflowTo_beyond (f : Fmt) {rm : Nat} {sat neg : Bool} (h : ¬ ToLargest rm sat neg) :
    overflowTo f rm sat neg = if f.hasInf then f.largest + 1 else f.nan :=
  if_neg (by simpa [ToLargest, or_assoc] using h)

theorem withSign_of_ne {f : Fmt} {mag : Nat} (h : mag ≠ f.nan) (neg : Bool) : withSign f neg mag = mag + signBit f neg := by
  rw [withSign, if_neg h, Nat.add_comm]

section
variable {f : Fmt} (hf : Regular f)
include hf

theorem largest_ne_nan : f.largest ≠ f.nan := by
  have := hf.nan
  split at this <;> omega

theorem infinity_ne_nan (hi : f.hasInf = true) : f.largest + 1 ≠ f.nan := by
  have := hf.nan
  rw [if_pos hi] at this
  omega

end

theorem overflowIsDelivered : OverflowIsDelivered := by
  intro f hmem rm sat neg m x hrm hm hle toLargest r
  have hf := regular hmem
  have hr : r = overflowed f rm sat neg := roundTo_overflowed hf hrm sat neg hm hle
  rw [hr]
  refine ⟨rfl, fun h => ?_, fun h hi => ?_, fun h hi => ?_⟩
  · rw [overflowed, overflowTo_largest f h, withSign_of_ne (largest_ne_nan hf)]
    rfl
  · rw [overflowed, overflowTo_beyond f h, if_pos hi, withSign_of_ne (infinity_ne_nan hf hi)]
    rfl
  · rw [overflowed, overflowTo_beyond f h, hi, if_neg Bool.false_ne_true, withSign, if_pos rfl]

/-! ### NaNs, infinities and zeros (R60, R254, R255) -/

/-- NV where an operand is a signalling NaN (R60). -/
def nvOf (a b : FVal) : Nat := if a.isSig || b.isSig then flagNV else 0

theorem finish_nan (f : Fmt) (rm : Nat) (sat : Bool) (fl : Nat) : finish f rm sat (.nan false, fl) = (f.nan, fl) := by
  simp [finish, packF]

theorem finish_zero (f : Fmt) (rm : Nat) (sat neg : Bool) (x : Int) : finish f rm sat (.fin neg 0 x, 0) = (signBit f neg, 0) := by
  simp [finish, packF, roundTo_zero]

theorem isNan_iff {a : FVal} : a.isNan = true ↔ ∃ s, a = .nan s := by cases a <;> simp [FVal.isNan]

theorem isZero_iff {a : FVal} : a.isZero = true ↔ ∃ s x, a = .fin s 0 x := by
  cases a with
  | nan s => simp [FVal.isZero]
  | inf n => simp [FVal.isZero]
  | fin n m x => cases m <;> simp [FVal.isZero]

theorem isSig_negate (a : FVal) : a.negate.isSig = a.isSig := by cases a <;> rfl
theorem isNan_negate (a : FVal) : a.negate.isNan = a.isNan := by cases a <;> rfl

section
variable {a b : FVal} (h : a.isNan = true ∨ b.isNan = true)
include h

theorem addV_nan (rm : Nat) : addV rm a b = (.nan false, nvOf a b) := by
  rcases h with h | h <;> obtain ⟨s, rfl⟩ := isNan_iff.1 h
  · cases b <;> simp [addV, nvOf, FVal.isSig]
  · cases a <;> simp [addV, nvOf, FVal.isSig]

theorem mulV_nan : mulV a b = (.nan false, nvOf a b) := by
  rcases h with h | h <;> obtain ⟨s, rfl⟩ := isNan_iff.1 h
  · cases b <;> simp [mulV, nvOf, FVal.isSig]
  · cases a <;> simp [mulV, nvOf, FVal.isSig]

theorem divV_nan : divV a b = (.nan false, nvOf a b) := by
  rcases h with h | h <;> obtain ⟨s, rfl⟩ := isNan_iff.1 h
  · cases b <;> simp [divV, nvOf, FVal.isSig]
  · cases a <;> simp [divV, nvOf, FVal.isSig]

end

/-- A zero times an infinity, in either order. -/
theorem mulV_zero_inf {a : FVal} (h : a.isZero = true) (n : Bool) :
    mulV a (.inf n) = (.nan false, flagNV) ∧ mulV (.inf n) a = (.nan false, flagNV) := by
  obtain ⟨s, x, rfl⟩ := isZero_iff.1 h
  exact ⟨by simp [mulV], by simp [mulV]⟩

theorem fmaV_invalid {a b : FVal} (h : mulV a b = (.nan false, flagNV)) (rm : Nat) (d : FVal) :
    fmaV rm a b d = (.nan false, flagNV) := by
  have hn : addV rm (.nan false) d = (.nan false, nvOf (.nan false) d) := addV_nan (.inl rfl) rm
  have hf : flagNV ||| nvOf (.nan false) d = flagNV := by
    unfold nvOf
    split <;> decide
  rw [fmaV]
  simp only [h, hn, hf]

theorem divV_zero_zero {a b : FVal} (ha : a.isZero = true) (hb : b.isZero = true) : divV a b = (.nan false, flagNV) := by
  obtain ⟨s, x, rfl⟩ := isZero_iff.1 ha
  obtain ⟨n, y, rfl⟩ := isZero_iff.1 hb
  rfl

/-- Finite values of equal magnitude and opposite sign add to a zero. -/
theorem addFin_cancel (rm : Nat) {n1 n2 : Bool} {m1 m2 : Nat} {x1 x2 : Int} (hn : n1 ≠ n2)
    (h : (m1 : ℚ) * (2 : ℚ) ^ x1 = (m2 : ℚ) * (2 : ℚ) ^ x2) : addFin rm n1 m1 x1 n2 m2 x2 = .fin (rm == 2) 0 0 := by
  have hpow : ∀ x : Int, min x1 x2 ≤ x → (2 : ℚ) ^ x = (2 : ℚ) ^ (x - min x1 x2).toNat * (2 : ℚ) ^ min x1 x2 := fun x hx => by
    rw [← zpow_natCast, ← zpow_add₀ two_ne_zero, Int.toNat_of_nonneg (by omega), sub_add_cancel]
  have hq : (2 : ℚ) ^ min x1 x2 ≠ 0 := (zpow_pos two_pos _).ne'
  rw [hpow x1 (min_le_left ..), hpow x2 (min_le_right ..), ← mul_assoc, ← mul_assoc] at h
  have hm : m1 * 2 ^ (x1 - min x1 x2).toNat = m2 * 2 ^ (x2 - min x1 x2).toNat := by exact_mod_cast mul_right_cancel₀ hq h
  have hz : scaledInt n1 m1 x1 (min x1 x2) + scaledInt n2 m2 x2 (min x1 x2) = 0 := by
    have hi : (m1 : Int) * 2 ^ (x1 - min x1 x2).toNat = m2 * 2 ^ (x2 - min x1 x2).toNat := by exact_mod_cast hm
    unfold scaledInt
    rw [hi]
    revert hn
    cases n1 <;> cases n2 <;> simp
  have hb : (n1 == n2) = false := beq_false_of_ne hn
  unfold addFin
  simp only [hz, hb, if_true, Bool.false_eq_true, if_false]

theorem addF_cancel {f : Fmt} (rm : Nat) (sat : Bool) {x y m1 m2 : Nat} {n1 n2 : Bool} {x1 x2 : Int} (ha : decodeF f x = .fin n1 m1 x1)
    (hb : decodeF f y = .fin n2 m2 x2) (hn : n1 ≠ n2) (h : (m1 : ℚ) * (2 : ℚ) ^ x1 = (m2 : ℚ) * (2 : ℚ) ^ x2) :
    addF f rm sat x y = (if rm = 2 then 2 ^ (f.width - 1) else 0, 0) := by
  rw [addF, ha, hb, addV, addFin_cancel rm hn h, finish_zero, signBit]
  exact Prod.ext (if_congr beq_iff_eq rfl rfl) rfl

/-- An encoding with a value is finite. -/
theorem decodeF_of_valueOf {f : Fmt} {n : Nat} {q : ℚ} (h : valueOf f n = some q) :
    ∃ s m x, decodeF f n = .fin s m x ∧ q = signed s * ((m : ℚ) * (2 : ℚ) ^ x) := by
  unfold valueOf at h
  split at h
  case h_1 s m x hd => exact ⟨s, m, x, hd, (Option.some.inj h).symm.trans (mul_assoc ..)⟩
  case h_2 => cases h

theorem valueOf_fin {f : Fmt} {n m : Nat} {s : Bool} {x : Int} (h : decodeF f n = .fin s m x) :
    valueOf f n = some (signed s * ((m : ℚ) * (2 : ℚ) ^ x)) := by
  rw [valueOf, h, ← mul_assoc]
  rfl

/-- Opposite non-zero values have opposite signs and one magnitude. -/
theorem opposite_values {s n : Bool} {u v : ℚ} (hu : 0 ≤ u) (hv : 0 ≤ v) (h0 : signed s * u ≠ 0) (h : signed n * v = -(signed s * u)) :
    s ≠ n ∧ u = v := by
  have hu0 : u ≠ 0 := fun e => h0 (by rw [e, mul_zero])
  have hpos : 0 < u := lt_of_le_of_ne hu hu0.symm
  cases s <;> cases n <;> simp only [signed, if_true, Bool.false_eq_true, if_false, one_mul, neg_mul] at h ⊢
  · linarith
  · exact ⟨Bool.false_ne_true, by linarith⟩
  · exact ⟨Bool.true_eq_false_eq_False, by linarith⟩
  · linarith

section
variable {f : Fmt} (rm : Nat) (sat : Bool) (x y z : Nat)

theorem arithmetic_nan (h : (decodeF f x).isNan = true ∨ (decodeF f y).isNan = true) :
    let nv := nvOf (decodeF f x) (decodeF f y)
    addF f rm sat x y = (f.nan, nv) ∧ subF f rm sat x y = (f.nan, nv) ∧ mulF f rm sat x y = (f.nan, nv) ∧ divF f rm sat x y = (f.nan, nv) := by
  have hs : (decodeF f x).isNan = true ∨ (decodeF f y).negate.isNan = true := by rwa [isNan_negate]
  have hnv : nvOf (decodeF f x) (decodeF f y).negate = nvOf (decodeF f x) (decodeF f y) := by rw [nvOf, isSig_negate, nvOf]
  refine ⟨?_, ?_, ?_, ?_⟩
  · rw [addF, addV_nan h, finish_nan]
  · rw [subF, addV_nan hs, finish_nan, hnv]
  · rw [mulF, mulV_nan h, finish_nan]
  · rw [divF, divV_nan h, finish_nan]

theorem addF_opposite_infinities {n : Bool} (ha : decodeF f x = .inf n) (hb : decodeF f y = .inf (!n)) :
    addF f rm sat x y = (f.nan, flagNV) := by
  rw [addF, ha, hb, show addV rm (.inf n) (.inf (!n)) = (.nan false, flagNV) by cases n <;> rfl, finish_nan]

theorem same_infinities {n : Bool} (ha : decodeF f x = .inf n) (hb : decodeF f y = .inf n) :
    subF f rm sat x y = (f.nan, flagNV) ∧ divF f rm sat x y = (f.nan, flagNV) := by
  constructor
  · rw [subF, ha, hb, show addV rm (.inf n) (FVal.inf n).negate = (.nan false, flagNV) by cases n <;> rfl, finish_nan]
  · rw [divF, ha, hb, show divV (.inf n) (.inf n) = (.nan false, flagNV) from rfl, finish_nan]

theorem zero_times_infinity {n : Bool} (ha : (decodeF f x).isZero = true) (hb : decodeF f y = .inf n) :
    mulF f rm sat x y = (f.nan, flagNV) ∧ mulF f rm sat y x = (f.nan, flagNV) ∧ fmaF f rm sat false false x y z = (f.nan, flagNV) := by
  obtain ⟨h1, h2⟩ := mulV_zero_inf ha n
  refine ⟨?_, ?_, ?_⟩
  · rw [mulF, hb, h1, finish_nan]
  · rw [mulF, hb, h2, finish_nan]
  · have h := fmaV_invalid h1 rm (decodeF f z)
    rw [← hb] at h
    rw [← finish_nan f rm sat flagNV, ← h]
    rfl

theorem divF_zero_zero (ha : (decodeF f x).isZero = true) (hb : (decodeF f y).isZero = true) : divF f rm sat x y = (f.nan, flagNV) := by
  rw [divF, divV_zero_zero ha hb, finish_nan]

/-- Division of a non-zero value by zero (R254). -/
theorem divF_by_zero {s n : Bool} {m : Nat} {e k : Int} (ha : decodeF f x = .fin s (m + 1) e) (hb : decodeF f y = .fin n 0 k) :
    divF f rm sat x y = (if f.hasInf then (f.largest + 1 + (if s != n then 2 ^ (f.width - 1) else 0), flagDZ)
      else if sat then (f.largest + (if s != n then 2 ^ (f.width - 1) else 0), flagSA ||| flagDZ)
      else (f.nan, flagNV ||| flagDZ)) := by
  have hd : divV (.fin s (m + 1) e) (.fin n 0 k) = (.inf (s != n), flagDZ) := rfl
  rw [divF, ha, hb, hd, finish, packF, packInf, signBit]
  split
  · exact Prod.ext (by dsimp only; omega) (Nat.zero_or _)
  · split
    · exact Prod.ext (Nat.add_comm ..) rfl
    · rfl

theorem divF_by_infinity {s n : Bool} {m : Nat} {e : Int} (ha : decodeF f x = .fin s m e) (hb : decodeF f y = .inf n) :
    divF f rm sat x y = (if s != n then 2 ^ (f.width - 1) else 0, 0) := by
  rw [divF, ha, hb, show divV (.fin s m e) (.inf n) = (.fin (s != n) 0 0, 0) from rfl, finish_zero, signBit]

/-- Zeros of opposite sign add to a zero that the mode names (R254). -/
theorem addF_zeros {s n : Bool} {m k : Nat} {e j : Int} (ha : decodeF f x = .fin s m e) (hb : decodeF f y = .fin n k j)
    (hv : valueOf f x = valueOf f y) (hs : s ≠ n) (hm : m = 0) :
    addF f rm sat x y = (if rm = 2 then 2 ^ (f.width - 1) else 0, 0) := by
  refine addF_cancel rm sat ha hb hs ?_
  rw [valueOf_fin ha, valueOf_fin hb, hm, Nat.cast_zero, zero_mul, mul_zero, Option.some.injEq] at hv
  have h := congrArg (signed n * ·) hv
  simp only [mul_zero, signed_signed] at h
  rw [hm, Nat.cast_zero, zero_mul, h]

/-- A value and its opposite add to the same zero (R254). -/
theorem addF_opposites {q : ℚ} (ha : valueOf f x = some q) (hb : valueOf f y = some (-q)) (h0 : q ≠ 0) :
    addF f rm sat x y = (if rm = 2 then 2 ^ (f.width - 1) else 0, 0) := by
  obtain ⟨s, m, e, hx, rfl⟩ := decodeF_of_valueOf ha
  obtain ⟨n, k, j, hy, hq⟩ := decodeF_of_valueOf hb
  have hpos : ∀ (m : Nat) (e : Int), (0 : ℚ) ≤ (m : ℚ) * (2 : ℚ) ^ e := fun m e => by positivity
  obtain ⟨hs, hu⟩ := opposite_values (hpos m e) (hpos k j) h0 hq.symm
  exact addF_cancel rm sat hx hy hs hu

end

/-! ### The lesser and the greater (R254) -/

section
variable {f : Fmt} {x y : Nat}

/-- Of a NaN and a number, whatever their order, the number. -/
theorem minMaxF_one_nan (isMax : Bool) (ha : (decodeF f x).isNan = true) (hb : (decodeF f y).isNan = false) :
    minMaxF f isMax x y = (y, nvOf (decodeF f x) (decodeF f y)) ∧ minMaxF f isMax y x = (y, nvOf (decodeF f x) (decodeF f y)) := by
  obtain ⟨s, hx⟩ := isNan_iff.1 ha
  have hsig : (decodeF f y).isSig = false := by
    revert hb
    cases decodeF f y <;> simp [FVal.isNan, FVal.isSig]
  have hy : (decodeF f y).sigFlag = 0 := by rw [FVal.sigFlag, hsig]; rfl
  have hnv : (decodeF f x).sigFlag = nvOf (decodeF f x) (decodeF f y) := by rw [nvOf, hsig, Bool.or_false, FVal.sigFlag]
  unfold minMaxF
  simp [ha, hb, hy, hnv]

theorem minMaxF_two_nans (isMax : Bool) (ha : (decodeF f x).isNan = true) (hb : (decodeF f y).isNan = true) :
    minMaxF f isMax x y = (f.nan, nvOf (decodeF f x) (decodeF f y)) := by
  have hnv : (decodeF f x).sigFlag ||| (decodeF f y).sigFlag = nvOf (decodeF f x) (decodeF f y) := by
    unfold nvOf FVal.sigFlag
    cases (decodeF f x).isSig <;> cases (decodeF f y).isSig <;> rfl
  unfold minMaxF
  simp [ha, hb, hnv]

/-- Of two zeros of opposite sign, whatever their order, −0 is the lesser. -/
theorem minMaxF_zeros (hf : Regular f) {e e2 : Int} (ha : decodeF f x = .fin true 0 e) (hb : decodeF f y = .fin false 0 e2) :
    minMaxF f false x y = (x, 0) ∧ minMaxF f true x y = (y, 0) ∧ minMaxF f false y x = (x, 0) ∧ minMaxF f true y x = (y, 0) := by
  have hx : signOf f x = true := (decodeF_fin hf ha).1.symm
  have hy : signOf f y = false := (decodeF_fin hf hb).1.symm
  simp [minMaxF, ha, hb, hx, hy, FVal.isNan, FVal.isZero, FVal.sigFlag, FVal.isSig]

end

theorem floatSpecialCases : FloatSpecialCases := by
  intro f hmem rm sat x y z _ _ _ _ a b nv
  exact ⟨arithmetic_nan rm sat x y, fun n => addF_opposite_infinities rm sat x y, fun n => same_infinities rm sat x y,
    fun n => zero_times_infinity rm sat x y z, divF_zero_zero rm sat x y, fun s m e n k => divF_by_zero rm sat x y,
    fun s m e n => divF_by_infinity rm sat x y, fun s m e n k j => addF_zeros rm sat x y, fun q => addF_opposites rm sat x y,
    fun ha hb => ⟨(minMaxF_one_nan false ha hb).1, (minMaxF_one_nan true ha hb).1, (minMaxF_one_nan false ha hb).2, (minMaxF_one_nan true ha hb).2⟩,
    fun ha hb => ⟨minMaxF_two_nans false ha hb, minMaxF_two_nans true ha hb⟩, fun e e2 => minMaxF_zeros (regular hmem)⟩

/-- Settles O19: far above the largest value the unit alone is beyond it; the special operands are told by what the exact operation
answers, each with one lemma. -/
theorem floatOverflowAndSpecialCases : Obligations.FloatOverflowAndSpecialCases := ⟨overflowIsDelivered, floatSpecialCases⟩

end Sys2Proof.Claims
end

section
/-! SUPPORT. Bytes as numbers, the last of several cells of an address, and lists without repeats. -/

namespace Sys2Proof.Machine

/-! ### Little-endian numbers (R3) -/

theorem ofBytes_leBytes (n x : Nat) : ofBytes (leBytes n x) = x % 256 ^ n := by
  induction n generalizing x with
  | zero => simp [leBytes, ofBytes, Nat.mod_one]
  | succ n ih =>
    have hb : (lowByte x).toNat = x % 256 := BitVec.toNat_ofNat ..
    rw [leBytes, ofBytes, ih, hb, pow_succ', Nat.mod_mul]

theorem ofBytes_lt (l : List Byte) : ofBytes l < 256 ^ l.length := by
  induction l with
  | nil => exact one_pos
  | cons b l ih =>
    have hb := b.isLt
    rw [ofBytes, List.length_cons, pow_succ']
    omega

@[simp] theorem length_bytes (s : State) (a n : Nat) : (s.bytes a n).length = n := by simp [State.bytes]

theorem readLe_lt (s : State) (a n : Nat) : s.readLe a n < 256 ^ n := by
  have h := ofBytes_lt (s.bytes a n)
  rwa [length_bytes] at h

/-- A number is read from the bytes alone. -/
theorem readLe_congr {s t : State} {a n : Nat} (h : ∀ k, k < n → t.byte (a + k) = s.byte (a + k)) : t.readLe a n = s.readLe a n := by
  unfold State.readLe State.bytes
  exact congrArg ofBytes (List.map_congr_left fun k hk => h k (List.mem_range.1 hk))

theorem nth_eq_getElem {α : Type} (d : α) {l : List α} {k : Nat} (h : k < l.length) : nth d l k = l[k] := by
  rw [nth, List.getElem?_eq_getElem h, Option.getD_some]

/-- Bytes laid somewhere are read there. -/
theorem bytes_eq {s : State} {a : Nat} {l : List Byte} (h : ∀ k, k < l.length → s.byte (a + k) = nth 0 l k) : s.bytes a l.length = l := by
  refine List.ext_getElem (by simp) fun k h1 h2 => ?_
  rw [← nth_eq_getElem 0 h2, ← h k h2]
  simp [State.bytes]

theorem nth_append_left {α : Type} (d : α) (l m : List α) {k : Nat} (h : k < l.length) : nth d (l ++ m) k = nth d l k := by
  rw [nth, nth, List.getElem?_append_left h]

theorem nth_append_right {α : Type} (d : α) (l m : List α) (k : Nat) : nth d (l ++ m) (l.length + k) = nth d m k := by
  rw [nth, nth, List.getElem?_append_right (Nat.le_add_right ..), Nat.add_sub_cancel_left]

/-! ### Cells -/

/-- The byte that cells give last to an address, or another one (R123). -/
def lastCell (cells : List (Nat × Byte)) (a : Nat) (d : Byte) : Byte :=
  ((cells.reverse.find? (fun c => c.1 == a)).map (·.2)).getD d

theorem lastCell_of_none {cells : List (Nat × Byte)} {a : Nat} (h : ∀ c ∈ cells, c.1 ≠ a) (d : Byte) : lastCell cells a d = d := by
  have : cells.reverse.find? (fun c => c.1 == a) = none := List.find?_eq_none.2 fun c hc => by simpa using h c (List.mem_reverse.1 hc)
  rw [lastCell, this]
  rfl

theorem lastCell_idem (cells : List (Nat × Byte)) (a : Nat) (d : Byte) : lastCell cells a (lastCell cells a d) = lastCell cells a d := by
  unfold lastCell
  cases cells.reverse.find? (fun c => c.1 == a) <;> rfl

theorem lastCell_append (cells : List (Nat × Byte)) (c : Nat × Byte) (a : Nat) (d : Byte) :
    lastCell (cells ++ [c]) a d = if a = c.1 then c.2 else lastCell cells a d := by
  unfold lastCell
  rw [List.reverse_append, List.reverse_singleton, List.singleton_append, List.find?_cons]
  by_cases h : a = c.1
  · simp [h]
  · simp [h, beq_false_of_ne (Ne.symm h)]

/-- Cells of other addresses do not matter. -/
theorem lastCell_filter (cells : List (Nat × Byte)) (p : Nat → Bool) {a : Nat} (h : p a = true) (d : Byte) :
    lastCell (cells.filter (fun c => p c.1)) a d = lastCell cells a d := by
  unfold lastCell
  rw [← List.filter_reverse, List.find?_filter]
  congr 3
  funext c
  by_cases hc : c.1 = a
  · simp [hc, h]
  · simp [hc]

theorem byte_setCells (cells : List (Nat × Byte)) (s : State) (a : Nat) : (s.setCells cells).byte a = lastCell cells a (s.byte a) := by
  induction cells using List.reverseRecOn with
  | nil => rfl
  | append_singleton cells c ih =>
    rw [lastCell_append, ← ih]
    simp [State.setCells]

/-- Of distinct addresses each cell is the last of its own. -/
theorem lastCell_of_mem {cells : List (Nat × Byte)} {c : Nat × Byte} (hd : cells.Pairwise (fun x y => x.1 ≠ y.1)) (h : c ∈ cells) (d : Byte) :
    lastCell cells c.1 d = c.2 := by
  induction cells using List.reverseRecOn with
  | nil => cases h
  | append_singleton cells x ih =>
    obtain ⟨hd', -, hx⟩ := List.pairwise_append.1 hd
    rw [lastCell_append]
    rcases List.mem_append.1 h with h | h
    · rw [if_neg (hx c h x (by simp)), ih hd' h]
    · rw [List.mem_singleton.1 h, if_pos rfl]

theorem lastCell_cellsAt (a : Nat) (l : List Byte) {k : Nat} (h : k < l.length) (d : Byte) : lastCell (cellsAt a l) (a + k) d = nth 0 l k := by
  have hd : (cellsAt a l).Pairwise (fun x y => x.1 ≠ y.1) := by
    unfold cellsAt
    rw [List.pairwise_map]
    exact List.nodup_range.imp fun h e => h (Nat.add_left_cancel e)
  exact lastCell_of_mem hd (c := (a + k, nth 0 l k)) (List.mem_map.2 ⟨k, List.mem_range.2 h, rfl⟩) d

theorem lastCell_cellsAt_outside {a b : Nat} {l : List Byte} (h : b < a ∨ a + l.length ≤ b) (d : Byte) : lastCell (cellsAt a l) b d = d := by
  refine lastCell_of_none (fun c hc => ?_) d
  obtain ⟨k, hk, rfl⟩ := List.mem_map.1 hc
  have := List.mem_range.1 hk
  dsimp only
  omega

/-! ### Lists without repeats -/

section
variable {α : Type} [DecidableEq α]

theorem distinct_fold_spec (l : List α) : ∀ r : List α, r.Nodup →
    (l.foldl (fun r x => if x ∈ r then r else r ++ [x]) r).Nodup ∧
      ∀ x, x ∈ l.foldl (fun r x => if x ∈ r then r else r ++ [x]) r ↔ x ∈ r ∨ x ∈ l := by
  induction l with
  | nil => exact fun r hr => ⟨hr, fun x => by simp⟩
  | cons y l ih =>
    intro r hr
    rw [List.foldl_cons]
    by_cases hy : y ∈ r
    · rw [if_pos hy]
      refine ⟨(ih r hr).1, fun x => ?_⟩
      rw [(ih r hr).2 x, List.mem_cons]
      constructor
      · exact Or.imp_right .inr
      · rintro (h | rfl | h)
        · exact .inl h
        · exact .inl hy
        · exact .inr h
    · rw [if_neg hy]
      have hn : (r ++ [y]).Nodup := List.nodup_append.2 ⟨hr, List.nodup_singleton y, fun a ha b hb e => hy (by simp_all)⟩
      refine ⟨(ih _ hn).1, fun x => ?_⟩
      rw [(ih _ hn).2 x, List.mem_append, List.mem_singleton, List.mem_cons, or_assoc]

theorem nodup_distinct (l : List α) : (distinct l).Nodup := (distinct_fold_spec l [] List.nodup_nil).1

theorem mem_distinct_iff {l : List α} {x : α} : x ∈ distinct l ↔ x ∈ l := by
  rw [distinct, (distinct_fold_spec l [] List.nodup_nil).2 x]
  simp

/-- A list of one value alone, without repeats. -/
theorem distinct_of_const {l : List α} {h : α} (hl : ∀ x ∈ l, x = h) : distinct l = if l.isEmpty then [] else [h] := by
  have hn := nodup_distinct l
  have hm : ∀ x ∈ distinct l, x = h := fun x hx => hl x (mem_distinct_iff.1 hx)
  cases l with
  | nil => rfl
  | cons y l =>
    obtain rfl := hl y (by simp)
    have hy : y ∈ distinct (y :: l) := mem_distinct_iff.2 (by simp)
    rw [if_neg (by simp)]
    refine List.perm_singleton.1 ((List.perm_ext_iff_of_nodup hn (List.nodup_singleton y)).2 fun x => ?_)
    rw [List.mem_singleton]
    exact ⟨hm x, fun e => e ▸ hy⟩

end

end Sys2Proof.Machine
end

section
/-! SUPPORT. The commit of an unwatched, unprotected write above the system frames (R114, R123, R142): the bytes that it leaves, and
the poison. -/

namespace Sys2Proof.Machine

theorem OnlySram.group {s t : State} (h : OnlySram s t) (a : Nat) : t.groupOf a = s.groupOf a := by rw [h]; rfl
theorem OnlySram.poison {s t : State} (h : OnlySram s t) : t.poison = s.poison := by rw [h]

/-! ### One half-line -/

/-- The cells of a write in a half-line. -/
def cellsIn (w : SliceWrite) (h : Nat) : List (Nat × Byte) := w.cells.filter (fun c => halfOf c.1 == h)

/-- The part of a write in a half-line is put there, whatever poison the half-line carries. -/
def State.placed (s : State) (w : SliceWrite) (h : Nat) : State := (s.fillHalf w h).putHalf w h (cellsIn w h)

/-- The part of a write names the half-line whole. -/
def fills (w : SliceWrite) (h : Nat) : Bool := (distinct ((cellsIn w h).map (·.1))).length == 64

theorem lastCell_at {w : SliceWrite} {h a : Nat} (d : Byte) : lastCell (cellsIn w h) a d = if halfOf a = h then lastCell w.cells a d else d := by
  split
  case isTrue ha => exact lastCell_filter w.cells (fun x => halfOf x == h) (beq_iff_eq.2 ha) d
  case isFalse ha =>
    refine lastCell_of_none (fun c hc e => ha ?_) d
    rw [← e]
    exact beq_iff_eq.1 (List.mem_filter.1 hc).2

/-- What is put in a half-line: its bytes, and the lines of the SRAM. -/
theorem placed_eq {s : State} (hs : s.Faultless) (w : SliceWrite) (h : Nat) :
    s.placed w h = { s with mem := (s.placed w h).mem, sram := (s.placed w h).sram } ∧
      ∀ a, (s.placed w h).byte a = if halfOf a = h then lastCell w.cells a (s.byte a) else s.byte a := by
  have hf : OnlySram s (s.fillHalf w h) := openHalf_faultless hs ..
  have hset := setCells_eq (cellsIn w h) (s.fillHalf w h)
  have hfl : ((s.fillHalf w h).setCells (cellsIn w h)).Faultless := by
    rw [hset]
    exact hf.faultless hs
  have hc : OnlySram ((s.fillHalf w h).setCells (cellsIn w h)) (s.placed w h) := closeHalf_faultless hfl ..
  constructor
  · rw [hc, hset, hf]
  · intro a
    rw [hc.byte, byte_setCells, hf.byte, lastCell_at]

theorem placed_sameBelow {s : State} (hs : s.Faultless) {w : SliceWrite} {n : Nat} (hw : ∀ c ∈ w.cells, n ≤ c.1) (h : Nat) :
    SameBelow n s (s.placed w h) := by
  obtain ⟨e, hb⟩ := placed_eq hs w h
  refine ⟨by rw [e], fun a ha => ?_⟩
  have hnone : ∀ c ∈ w.cells, c.1 ≠ a := fun c hc e => by have := hw c hc; omega
  rw [hb, lastCell_of_none hnone, ite_self]

section
variable {w : SliceWrite} {h : Nat} (hp : w.prot = false) (hh : 0xA00000 ≤ h)
include hp hh

theorem halfFate_of_ungrouped {s : State} (hg : s.groupOf h = none) :
    s.halfFate w h = if s.poisoned h then (if fills w h then .whole else .merged) else .plain := by
  have h1 : ¬ (0x810000 ≤ h ∧ h < 0xA00000) := by omega
  simp [State.halfFate, h1, State.parityFrame, hg, hp, fills, cellsIn]

theorem refusesHalf_of_ungrouped {s : State} (hg : s.groupOf h = none) : s.refusesHalf w h = false := by
  unfold State.refusesHalf
  rw [halfFate_of_ungrouped hp hh hg]
  cases s.poisoned h <;> cases fills w h <;> rfl

/-- The part of a write in a half-line outside every group (R123, R142): a poisoned half-line that is named whole is no longer
poisoned. -/
theorem half_of_ungrouped {r : Commit} (hs : r.st.Faultless) (hg : r.st.groupOf h = none) :
    (r.half w h).st = (if r.st.poisoned h && fills w h then (r.st.placed w h).clearPoison h else r.st.placed w h) ∧
      (r.half w h).refusals = r.refusals := by
  have hf : OnlySram r.st (r.st.fillHalf w h) := openHalf_faultless hs ..
  have hpo : (r.st.fillHalf w h).poisoned h = r.st.poisoned h := by rw [State.poisoned, hf.poison, State.poisoned]
  have hfill := halfFate_of_ungrouped hp hh ((hf.group h).trans hg)
  rw [hpo] at hfill
  unfold Commit.half
  simp only [refusesHalf_of_ungrouped hp hh hg, Bool.false_eq_true, if_false, hfill, hp, Bool.false_and]
  cases r.st.poisoned h <;> cases fills w h <;> exact ⟨rfl, rfl⟩

end

/-! ### The rest of a commit -/

/-- What is left of a commit once the half-lines are written: of an unwatched write above the system frames, the issuing cluster's L1
alone (R119, R125, R155). -/
theorem commit_of_halves {s : State} {w : SliceWrite} {u : Commit}
    (hu : (distinct (w.cells.map (fun c => halfOf c.1))).foldl (fun q h => q.half w h) { st := s, changed := [], written := [], refusals := [] } = u)
    (hr : u.refusals = []) (hwt : w.watched = false) (hw : ∀ c ∈ w.cells, 0xC00000 ≤ c.1) (hrep : u.st.awaitedSeqs = []) :
    (s.commit w).st = u.st.passL1 w.org u.st.mgmt.modid u.written ∧ (s.commit w).refusals = [] := by
  have hrec : ∀ t : State, s.recordsChanged t w = t := fun t => by
    have hnone : ∀ lo hi : Nat, hi ≤ 0xC00000 → w.cells.filter (fun c => lo ≤ c.1 && c.1 < hi) = [] := fun lo hi h =>
      List.filter_eq_nil_iff.2 fun c hc => by
        have := hw c hc
        simp
        omega
    unfold State.recordsChanged
    simp only [hnone 0 0x400000 (by norm_num), hnone 0x401000 0x404000 (by norm_num), hnone 0x600000 0x648000 (by norm_num),
      hnone 0xA00100 0xA00500 (by norm_num), List.map_nil]
    exact ite_self t
  have hrepl : ∀ l, (State.noteReplies { u.st with l1 := l } w) = { u.st with l1 := l } := fun l => by
    have : ({ u.st with l1 := l } : State).awaitedSeqs = [] := hrep
    rw [State.noteReplies, this]
    rfl
  have hpass : ∃ l, u.st.passL1 w.org u.st.mgmt.modid u.written = { u.st with l1 := l } := by
    unfold State.passL1
    split
    · split
      · exact ⟨_, rfl⟩
      · exact ⟨_, rfl⟩
    · exact ⟨_, rfl⟩
  obtain ⟨l, hl⟩ := hpass
  unfold State.commit
  simp only [hu, hr, List.isEmpty_nil, if_true, hwt, Bool.false_eq_true, if_false, hrec, hl, hrepl, List.append_nil, and_self]

/-- A write has committed: its bytes are the last of its cells, and nothing else has changed but L1s and the SRAM of the slices. -/
structure Committed (s t : State) (cells : List (Nat × Byte)) : Prop where
  rest : t = { s with mem := t.mem, sram := t.sram, l1 := t.l1 }
  byte : ∀ a, t.byte a = lastCell cells a (s.byte a)

theorem passL1_eq (s : State) (o : Origin) (m : Nat) (cells : List (Nat × Byte)) : s.passL1 o m cells = { s with l1 := (s.passL1 o m cells).l1 } := by
  unfold State.passL1
  split
  · split <;> rfl
  · rfl

theorem committed_passL1 {s u : State} {cells : List (Nat × Byte)} (h : u = { s with mem := u.mem, sram := u.sram })
    (hb : ∀ a, u.byte a = lastCell cells a (s.byte a)) (o : Origin) (m : Nat) (written : List (Nat × Byte)) :
    Committed s (u.passL1 o m written) cells := by
  rw [passL1_eq]
  refine ⟨?_, hb⟩
  rw [h]

theorem le_halfOf {n a : Nat} (h : 64 * n ≤ a) : 64 * n ≤ halfOf a := by
  unfold halfOf alignDown
  omega

/-- The half-lines of a write to clean memory. -/
theorem halves_byte {w : SliceWrite} (hp : w.prot = false) (hw : ∀ c ∈ w.cells, 0xC00000 ≤ c.1) (hs : List Nat) :
    ∀ r : Commit, Clean r.st → (∀ h ∈ hs, 0xA00000 ≤ h) → ∀ a,
      (hs.foldl (fun q h => q.half w h) r).st.byte a = if halfOf a ∈ hs then lastCell w.cells a (r.st.byte a) else r.st.byte a := by
  induction hs with
  | nil => exact fun r _ _ a => rfl
  | cons h hs ih =>
    intro r hc hh a
    have hclean : r.st.poisoned h = false := by rw [State.poisoned, hc.poison]; rfl
    obtain ⟨hst, -⟩ := half_of_ungrouped hp (hh h (by simp)) hc.faultless (hc.group h)
    rw [hclean, Bool.false_and, if_neg Bool.false_ne_true] at hst
    have hnext : Clean (r.half w h).st := by
      rw [hst]
      exact (placed_sameBelow hc.faultless hw h).clean (by norm_num) hc
    rw [List.foldl_cons, ih _ hnext (fun k hk => hh k (by simp [hk])), hst, (placed_eq hc.faultless w h).2 a]
    by_cases h1 : halfOf a = h <;> by_cases h2 : halfOf a ∈ hs <;> simp [h1, h2, lastCell_idem]

theorem commit_clean {s : State} {w : SliceWrite} (hc : Clean s) (hp : w.prot = false) (hwt : w.watched = false)
    (hw : ∀ c ∈ w.cells, 0xC00000 ≤ c.1) : Committed s (s.commit w).st w.cells ∧ (s.commit w).refusals = [] := by
  have hh : ∀ h ∈ distinct (w.cells.map (fun c => halfOf c.1)), 0xA00000 ≤ h := fun h hm => by
    obtain ⟨c, hcc, rfl⟩ := List.mem_map.1 (mem_distinct hm)
    have := le_halfOf (n := 0x30000) (hw c hcc)
    omega
  obtain ⟨hb, hr⟩ := halves_clean (n := 0xC00000) (by norm_num) w hp hw _ { st := s, changed := [], written := [], refusals := [] } hc rfl hh
  obtain ⟨hst, href⟩ := commit_of_halves rfl hr hwt hw (hb.replies.trans hc.replies)
  refine ⟨?_, href⟩
  rw [hst]
  refine committed_passL1 hb.rest (fun a => ?_) ..
  refine (halves_byte hp hw _ { st := s, changed := [], written := [], refusals := [] } hc hh a).trans ?_
  split
  case isTrue h => rfl
  case isFalse h =>
    refine (lastCell_of_none (fun c hc e => h ?_) _).symm
    exact mem_distinct_iff.2 (List.mem_map.2 ⟨c, hc, by rw [e]⟩)

/-- A write of one half-line of memory outside every group, poisoned or not: the poison goes where the half-line is named whole. -/
theorem commit_in_half {s : State} {w : SliceWrite} {h : Nat} (hs : s.Faultless) (hg : s.groupOf h = none) (hrep : s.awaitedSeqs = [])
    (hp : w.prot = false) (hwt : w.watched = false) (hw : ∀ c ∈ w.cells, 0xC00000 ≤ c.1) (hin : ∀ c ∈ w.cells, halfOf c.1 = h) :
    ∃ p, Committed { s with poison := p } (s.commit w).st w.cells ∧
      p = if !w.cells.isEmpty && (s.poisoned h && fills w h) then s.poison.filter (fun x => x != h) else s.poison := by
  have hconst : ∀ x ∈ w.cells.map (fun c => halfOf c.1), x = h := fun x hx => by
    obtain ⟨c, hc, rfl⟩ := List.mem_map.1 hx
    exact hin c hc
  have hd := distinct_of_const hconst
  rw [List.isEmpty_map] at hd
  refine ⟨_, ?_, rfl⟩
  cases he : w.cells.isEmpty
  case true =>
    have hnil := List.isEmpty_iff.1 he
    rw [he, if_pos rfl] at hd
    obtain ⟨hst, -⟩ := commit_of_halves (by rw [hd]) rfl hwt hw hrep
    rw [hst, hnil]
    exact committed_passL1 (s := { s with poison := s.poison }) rfl (fun _ => rfl) ..
  case false =>
    obtain ⟨c, hc⟩ := List.exists_mem_of_ne_nil _ (List.isEmpty_eq_false_iff.1 he)
    have hh : 0xA00000 ≤ h := by
      have := le_halfOf (n := 0x30000) (hw c hc)
      rw [hin c hc] at this
      omega
    rw [he, if_neg Bool.false_ne_true] at hd
    obtain ⟨hhalf, href⟩ := half_of_ungrouped hp hh (r := { st := s, changed := [], written := [], refusals := [] }) hs hg
    obtain ⟨hpl, hby⟩ := placed_eq hs w h
    have hall : ∀ a, (s.placed w h).byte a = lastCell w.cells a (s.byte a) := fun a => by
      rw [hby]
      split
      case isTrue => rfl
      case isFalse ha => exact (lastCell_of_none (fun c hc e => ha (by rw [← e, hin c hc])) _).symm
    have hput : (({ st := s, changed := [], written := [], refusals := [] } : Commit).half w h).st.awaitedSeqs = [] := by
      rw [hhalf]
      split <;> rw [hpl] <;> exact hrep
    obtain ⟨hst, -⟩ := commit_of_halves (by rw [hd]; rfl) href hwt hw hput
    rw [hst, hhalf]
    cases hcl : s.poisoned h && fills w h
    · exact committed_passL1 (s := { s with poison := s.poison }) hpl hall ..
    · refine committed_passL1 (s := { s with poison := s.poison.filter (fun x => x != h) }) (u := (s.placed w h).clearPoison h) ?_ hall ..
      rw [State.clearPoison, hpl]

end Sys2Proof.Machine
end

section
/-! SUPPORT. Near-memory operations on clean memory above the system frames (R84, R85, R132 to R137, R368, R369): what they answer
and what becomes of their slot. -/

namespace Sys2Proof.Machine

open Sys2Proof.Claims

/-! ### What a write leaves in a slot -/

theorem OnlySram.committed {s t : State} (h : OnlySram s t) : Committed s t [] := ⟨by rw [h], h.byte⟩

theorem Committed.of_onlySram {s t u : State} {cells : List (Nat × Byte)} (h : OnlySram s t) (k : Committed t u cells) : Committed s u cells :=
  ⟨by rw [k.rest, h], fun a => by rw [k.byte, h.byte]⟩

/-- Bytes laid from an address on: a number among them is read, and the rest of memory is as it was. -/
theorem Committed.readLe {s t : State} {a : Nat} {before mid after : List Byte}
    (h : Committed s t (cellsAt a (before ++ mid ++ after))) : t.readLe (a + before.length) mid.length = ofBytes mid := by
  rw [State.readLe, bytes_eq fun k hk => ?_]
  rw [h.byte, Nat.add_assoc, lastCell_cellsAt _ _ (by simp; omega), nth_append_left _ _ _ (by simp; omega), nth_append_right]

theorem Committed.slot {s t : State} {a : Nat} {l : List Byte} (h : Committed s t (cellsAt a l)) : SlotBecomes s t a l.length (ofBytes l) := by
  refine ⟨?_, fun b hb => by rw [h.byte, lastCell_cellsAt_outside hb]⟩
  have hr := Committed.readLe (before := []) (mid := l) (after := []) (by simpa using h)
  simpa using hr

theorem Committed.slot_le {s t : State} {a n x : Nat} (h : Committed s t (cellsAt a (leBytes n x))) : SlotBecomes s t a n (x % 256 ^ n) := by
  have hs := h.slot
  rwa [length_leBytes, ofBytes_leBytes] at hs

theorem OnlySram.readLe {s t : State} (h : OnlySram s t) (a n : Nat) : t.readLe a n = s.readLe a n := readLe_congr fun _ _ => h.byte _

theorem OnlySram.clean {s t : State} (h : OnlySram s t) (hc : Clean s) : Clean t := h.sameBelow.clean (n := 0xA00500) (le_refl _) hc

theorem Clean.not_poisoned {s : State} (hc : Clean s) (a : Nat) : s.poisoned a = false := by
  rw [State.poisoned, hc.poison]
  rfl

/-! ### Operations -/

/-- An operation has been performed: its slot, of n bytes, holds x, and it answers with two words and some flags, unpoisoned. -/
structure NearDone (s : State) (q : NearReq) (r : NearResult) (n x old y flags : Nat) : Prop where
  rest : r.st = { s with mem := r.st.mem, sram := r.st.sram, l1 := r.st.l1 }
  slot : SlotBecomes s r.st q.addr n x
  x : r.x.toNat = old
  y : r.y.toNat = y
  flags : r.flags = flags
  poison : r.poison = false

theorem eight_dvd_atomBits (wide : Bool) : ∃ k, atomBits wide / 8 = k + 1 ∧ k < 8 := by
  cases wide
  · exact ⟨3, rfl, by norm_num⟩
  · exact ⟨7, rfl, by norm_num⟩

/-- The operation's page is neither watched nor protected and lies above the system frames. -/
structure PlainSlot (q : NearReq) : Prop where
  watched : q.watched = false
  prot : q.prot = false
  above : 0xC00000 ≤ q.addr

section
variable {s : State} {q : NearReq} (hc : Clean s) (hq : PlainSlot q)
include hc hq

theorem commitFor_nearWrite (data : List Byte) : Committed s (s.commitFor (nearWrite q data)).1 (cellsAt q.addr data) :=
  (commit_clean (w := nearWrite q data) hc hq.prot hq.watched fun _ hm => hq.above.trans (cells_above _ _ _ hm)).1

theorem commitSilent_nearWrite (b : Byte) (data : List Byte) : s.commitSilent (nearWrite q (b :: data)) = (s, []) := by
  have hhead : ((nearWrite q (b :: data)).cells.map (·.1)).headD 0 = q.addr := by
    simp [nearWrite, cellsAt, List.range_succ_eq_map]
  have hh : 0xA00000 ≤ halfOf q.addr := by
    have := le_halfOf (n := 0x30000) hq.above
    omega
  rw [State.commitSilent, hhead, refusesHalf_of_ungrouped (w := nearWrite q (b :: data)) hq.prot hh (hc.group _), if_neg Bool.false_ne_true]

end

section
variable {s : State} {q : NearReq} (hc : Clean s) (hq : PlainSlot q)
include hc hq

/-- An atomic (R132 to R134): the slot holds the new value, or stays as it is where nothing is written. -/
theorem nearAtomic_clean (op : Nat) {n old : Nat} (hn : atomBits q.wide = n) (hold : s.readLe q.addr (n / 8) = old) :
    NearDone s q (s.nearAtomic op q) (n / 8)
      ((atomApply op n old (q.x.toNat % 2 ^ n) (q.y.toNat % 2 ^ n)).1.getD old % 256 ^ (n / 8)) old 0
      (atomApply op n old (q.x.toNat % 2 ^ n) (q.y.toNat % 2 ^ n)).2 := by
  have ht := touchLine_faultless hc.faultless q.addr (n / 8)
  have hct := OnlySram.clean ht hc
  have hread : (s.touchLine q.addr (n / 8)).readLe q.addr (n / 8) = old := (OnlySram.readLe ht ..).trans hold
  obtain ⟨k, hk, hk8⟩ := eight_dvd_atomBits q.wide
  rw [hn] at hk
  have hlt : old < 256 ^ (n / 8) := hold ▸ readLe_lt ..
  have hdw : (dw old).toNat = old := by
    have h8 : 256 ^ (n / 8) ≤ 256 ^ 8 := Nat.pow_le_pow_right (by norm_num) (by omega)
    exact (BitVec.toNat_ofNat ..).trans (Nat.mod_eq_of_lt (by omega))
  have hbits : ∀ x, bits x 0 n = x % 2 ^ n := fun x => by rw [bits, Nat.shiftRight_zero]
  unfold State.nearAtomic
  simp only [hn, hread, hbits]
  generalize atomApply op n old (q.x.toNat % 2 ^ n) (q.y.toNat % 2 ^ n) = p
  obtain ⟨new, fl⟩ := p
  cases new with
  | some v =>
    have hw := Committed.of_onlySram ht (commitFor_nearWrite hct hq (leBytes (n / 8) v))
    have hslot := hw.slot_le
    exact ⟨hw.rest, hslot, hdw, rfl, rfl, hct.not_poisoned _⟩
  | none =>
    have hsil : (s.touchLine q.addr (n / 8)).commitSilent (nearWrite q (leBytes (n / 8) old)) = (s.touchLine q.addr (n / 8), []) := by
      have hcons : leBytes (n / 8) old = lowByte old :: leBytes k (old / 256) := by rw [hk, leBytes]
      rw [hcons, commitSilent_nearWrite hct hq]
    have hw := OnlySram.committed ht
    simp only [hsil]
    refine ⟨hw.rest, ⟨?_, fun b _ => ht.byte b⟩, hdw, rfl, rfl, hct.not_poisoned _⟩
    rw [Option.getD_none, Nat.mod_eq_of_lt hlt]
    exact hread

/-- An accumulation into a slot that a region of the operation's context governs (R84, R85). -/
theorem nearFx_clean {f : Nat} (hreg : s.region q.addr = some (f, q.ctx)) :
    NearDone s q (s.nearFx q) 16 (fxAccumulate (s.readLe q.addr 16) q.elem f q.x.toNat q.poison % 256 ^ 16) 0 0 0 := by
  have ht : OnlySram s (s.touchWith q.addr 16 true (q.watched || q.prot) 0) := touchWith_faultless hc.faultless ..
  have hct := OnlySram.clean ht hc
  have hr : (s.touchWith q.addr 16 true (q.watched || q.prot) 0).region q.addr = some (f, q.ctx) := by
    rw [← hreg, ht]
    rfl
  unfold State.nearFx State.nearFxWith
  simp only [hr, hct.not_poisoned, bne_self_eq_false, Bool.or_false, Bool.false_eq_true, if_false, OnlySram.readLe ht]
  generalize fxAccumulate (s.readLe q.addr 16) q.elem f q.x.toNat q.poison = x
  have hw := Committed.of_onlySram ht (commitFor_nearWrite hct hq (leBytes 16 x))
  have hpolicy : ({ nearWrite q (leBytes 16 x) with policy := 0 } : SliceWrite) = nearWrite q (leBytes 16 x) := rfl
  rw [hpolicy]
  exact ⟨hw.rest, hw.slot_le, rfl, rfl, rfl, rfl⟩

/-- The four fields of a counter are written (R369). -/
theorem nearInit_clean : Committed s (s.nearInit q).st
    (cellsAt q.addr (leBytes 8 q.x.toNat ++ leBytes 8 q.y.toNat ++ leBytes 8 q.z.toNat ++ leBytes 8 q.w.toNat)) := by
  have ht := touchLine_faultless hc.faultless q.addr 32
  exact Committed.of_onlySram ht (commitFor_nearWrite (OnlySram.clean ht hc) hq _)

end

theorem ofBytes_dword (x : DWord) : ofBytes (leBytes 8 x.toNat) = x.toNat := by
  rw [ofBytes_leBytes, Nat.mod_eq_of_lt (lt_of_lt_of_eq x.isLt (by norm_num))]

theorem isCounter_of_committed {s u : State} {a : Nat} {x y z w : DWord}
    (h : Committed s u (cellsAt a (leBytes 8 x.toNat ++ leBytes 8 y.toNat ++ leBytes 8 z.toNat ++ leBytes 8 w.toNat))) : IsCounter u a x y z w := by
  have h0 := Committed.readLe (before := []) (mid := leBytes 8 x.toNat) (after := leBytes 8 y.toNat ++ leBytes 8 z.toNat ++ leBytes 8 w.toNat)
    (by simpa using h)
  have h1 := Committed.readLe (before := leBytes 8 x.toNat) (mid := leBytes 8 y.toNat) (after := leBytes 8 z.toNat ++ leBytes 8 w.toNat)
    (by simpa using h)
  have h2 := Committed.readLe (before := leBytes 8 x.toNat ++ leBytes 8 y.toNat) (mid := leBytes 8 z.toNat) (after := leBytes 8 w.toNat) h
  have h3 := Committed.readLe (before := leBytes 8 x.toNat ++ leBytes 8 y.toNat ++ leBytes 8 z.toNat) (mid := leBytes 8 w.toNat) (after := [])
    (by simpa using h)
  simp only [List.length_append, length_leBytes, List.length_nil, ofBytes_dword, Nat.add_zero] at h0 h1 h2 h3
  exact ⟨h0, h1, h2, h3⟩

theorem counter_frame {s u : State} {a : Nat} {x y z w : DWord}
    (h : Committed s u (cellsAt a (leBytes 8 x.toNat ++ leBytes 8 y.toNat ++ leBytes 8 z.toNat ++ leBytes 8 w.toNat))) (b : Nat)
    (hb : b < a ∨ a + 32 ≤ b) : u.byte b = s.byte b := by
  rw [h.byte, lastCell_cellsAt_outside (by simpa using hb)]

/-! ### Range counters (R368) -/

/-- The quotient rounded up is the one number between these bounds. -/
theorem ceil_eq {n d c : Int} (hd : 0 < d) (h1 : (c - 1) * d < n) (h2 : n ≤ c * d) : (n + d - 1) / d = c := by
  rw [Int.ediv_eq_iff_of_pos hd]
  constructor <;> linarith

theorem claimLen_eq {next end_ min_ div_ : DWord} {len : Nat} (h : IsLen next end_ min_ div_ len) :
    claimLen next.toInt end_.toInt min_.toInt div_.toInt = len := by
  have hmax : ∀ x : Int, (if 1 ≤ x then x else 1) = max 1 x := fun x => by split <;> omega
  unfold IsLen at h
  dsimp only at h
  unfold claimLen
  simp only [hmax]
  split at h
  case isTrue hr => rw [if_pos hr, h, Nat.cast_zero]
  case isFalse hr =>
    obtain ⟨c, h1, h2, hl⟩ := h
    rw [if_neg hr, hl, ceil_eq (by omega) h1 h2]

/-- A claim is shorter than what 64 bits count. -/
theorem claim_lt {next end_ min_ div_ : DWord} {len : Nat} (h : IsLen next end_ min_ div_ len) : len < 2 ^ 64 := by
  have h1 := BitVec.toInt_lt (x := end_)
  have h2 := BitVec.le_toInt (x := next)
  unfold IsLen at h
  dsimp only at h
  split at h
  · omega
  · obtain ⟨c, -, -, hl⟩ := h
    norm_num at h1 h2
    omega

theorem wrapInt_add (next : DWord) (len : Nat) : wrapInt 64 (next.toInt + len) = (next + BitVec.ofNat 64 len).toNat := by
  have h := next.isLt
  rw [wrapInt, BitVec.toNat_add, BitVec.toNat_ofNat, BitVec.toInt_eq_toNat_cond]
  split <;> omega

theorem toInt_dword (x : DWord) : toInt 64 x.toNat = x.toInt := by rw [toInt, BitVec.ofNat_toNat, BitVec.setWidth_eq]

/-- A claim on a counter (R368): its first field has grown by the length, and it answers with what that was and the length. -/
theorem nearClaim_clean {s : State} {q : NearReq} (hc : Clean s) (hq : PlainSlot q) {next end_ min_ div_ : DWord} {len : Nat}
    (h : IsCounter s q.addr next end_ min_ div_) (hl : IsLen next end_ min_ div_ len) :
    NearDone s q (s.nearClaim q) 8 (next + BitVec.ofNat 64 len).toNat next.toNat len 0 := by
  have ht := touchLine_faultless hc.faultless q.addr 32
  have hct := OnlySram.clean ht hc
  have hlen := claimLen_eq hl
  have hlt := claim_lt hl
  have hy : (dw (len : Int).toNat).toNat = len := (BitVec.toNat_ofNat ..).trans (Nat.mod_eq_of_lt hlt)
  have hx : (dw next.toNat).toNat = next.toNat := (BitVec.toNat_ofNat ..).trans (Nat.mod_eq_of_lt next.isLt)
  unfold State.nearClaim
  simp only [OnlySram.readLe ht, Nat.mul_zero, Nat.add_zero, Nat.mul_one, show 8 * 2 = 16 from rfl, show 8 * 3 = 24 from rfl, h.next, h.end_,
    h.min_, h.div_, toInt_dword, hlen, hct.not_poisoned, Bool.false_or, wrapInt_add]
  split
  case isTrue h0 =>
    obtain rfl : len = 0 := by simpa using h0
    have hsil := commitSilent_nearWrite hct hq (lowByte (next + BitVec.ofNat 64 0).toNat) (leBytes 7 ((next + BitVec.ofNat 64 0).toNat / 256))
    rw [leBytes, hsil]
    have hadd : next + BitVec.ofNat 64 0 = next := by simp
    refine ⟨(OnlySram.committed ht).rest, ⟨?_, fun b _ => ht.byte b⟩, hx, rfl, rfl, rfl⟩
    rw [hadd]
    exact (OnlySram.readLe ht ..).trans h.next
  case isFalse =>
    have hw := Committed.of_onlySram ht (commitFor_nearWrite hct hq (leBytes 8 (next + BitVec.ofNat 64 len).toNat))
    have hs := hw.slot
    rw [ofBytes_dword, length_leBytes] at hs
    exact ⟨hw.rest, hs, hx, hy, rfl, rfl⟩

end Sys2Proof.Machine
end

section
/-! SUPPORT. What the operations of R132 compute: the value of each code, and that an FP32 result is a word. -/

namespace Sys2Proof.Machine

open Sys2Proof.Claims

/-- The operations that write a value computed from the old one and the operand, by their codes (R132). -/
def valueOps : List (Nat × (Nat → Nat → Nat → Nat)) :=
  [(0x0, fun _ _ x => x), (0x2, fun n old x => (old + x) % 2 ^ n), (0x3, fun _ old x => old &&& x), (0x4, fun _ old x => old ||| x),
   (0x5, fun _ old x => old ^^^ x),
   (0x6, fun n old x => if (BitVec.ofNat n old).toInt ≤ (BitVec.ofNat n x).toInt then old else x),
   (0x7, fun n old x => if (BitVec.ofNat n old).toInt ≤ (BitVec.ofNat n x).toInt then x else old),
   (0x8, fun _ old x => if old ≤ x then old else x), (0x9, fun _ old x => if old ≤ x then x else old)]

/-- Numbers of n bits with one signed value are equal. -/
theorem eq_of_toInt_eq {n old x : Nat} (ho : old < 2 ^ n) (hx : x < 2 ^ n) (h : toInt n old = toInt n x) : old = x := by
  have := congrArg BitVec.toNat (BitVec.toInt_inj.1 h)
  rwa [BitVec.toNat_ofNat, BitVec.toNat_ofNat, Nat.mod_eq_of_lt ho, Nat.mod_eq_of_lt hx] at this

/-- The signed maximum, whichever way a tie is told. -/
theorem signedMax_eq {n old x : Nat} (ho : old < 2 ^ n) (hx : x < 2 ^ n) :
    (if toInt n old < toInt n x then x else old) = if (BitVec.ofNat n old).toInt ≤ (BitVec.ofNat n x).toInt then x else old := by
  show _ = if toInt n old ≤ toInt n x then x else old
  rcases lt_trichotomy (toInt n old) (toInt n x) with h | h | h
  · rw [if_pos h, if_pos h.le]
  · rw [eq_of_toInt_eq ho hx h, ite_self, ite_self]
  · rw [if_neg h.not_gt, if_neg (not_le.2 h)]

theorem atomApply_of_valueOps {p : Nat × (Nat → Nat → Nat → Nat)} (hp : p ∈ valueOps) {n old x : Nat} (ho : old < 2 ^ n) (hx : x < 2 ^ n)
    (y : Nat) : atomApply p.1 n old x y = (some (p.2 n old x), 0) ∧ p.2 n old x < 2 ^ n := by
  have hite : ∀ (c : Prop) [Decidable c] (a b : Nat), a < 2 ^ n → b < 2 ^ n → (if c then a else b) < 2 ^ n := fun c _ a b ha hb => by
    split
    · exact ha
    · exact hb
  simp only [valueOps, List.mem_cons, List.not_mem_nil, or_false] at hp
  rcases hp with rfl | rfl | rfl | rfl | rfl | rfl | rfl | rfl | rfl
  · exact ⟨rfl, hx⟩
  · exact ⟨rfl, Nat.mod_lt _ (Nat.two_pow_pos n)⟩
  · exact ⟨rfl, Nat.and_lt_two_pow _ hx⟩
  · exact ⟨rfl, Nat.or_lt_two_pow ho hx⟩
  · exact ⟨rfl, Nat.xor_lt_two_pow ho hx⟩
  · exact ⟨rfl, hite _ _ _ ho hx⟩
  · exact ⟨congrArg (fun v => (some v, 0)) (signedMax_eq ho hx), hite _ _ _ hx ho⟩
  · exact ⟨congrArg (fun v => (some v, 0)) (Nat.min_def ..), hite _ _ _ ho hx⟩
  · exact ⟨congrArg (fun v => (some v, 0)) (Nat.max_def ..), hite _ _ _ hx ho⟩

theorem nearOp_of_valueOps {p : Nat × (Nat → Nat → Nat → Nat)} (hp : p ∈ valueOps) (s : State) (q : NearReq) :
    s.nearOp p.1 q = s.nearAtomic p.1 q := by
  simp only [valueOps, List.mem_cons, List.not_mem_nil, or_false] at hp
  rcases hp with rfl | rfl | rfl | rfl | rfl | rfl | rfl | rfl | rfl <;> rfl

/-! ### Results are encodings -/

theorem signBit_add_lt {f : Fmt} (hf : Regular f) (neg : Bool) {k : Nat} (hk : k < 2 ^ (f.width - 1)) : signBit f neg + k < 2 ^ f.width := by
  have hw : 2 ^ f.width = 2 * 2 ^ (f.width - 1) := by rw [← pow_succ', hf.width, Nat.add_sub_cancel]
  unfold signBit
  split <;> omega

section
variable {f : Fmt} (hf : Regular f) (hnan : f.nan < 2 ^ (f.width - 1))
include hf hnan

/-- What an overflow or an infinite result delivers lies below the sign bit. -/
theorem infinity_lt (hi : f.hasInf = true) : f.largest + 1 < 2 ^ (f.width - 1) := by
  have h := hf.nan
  rw [if_pos hi] at h
  omega

theorem overflowed_lt (rm : Nat) (sat neg : Bool) : (overflowed f rm sat neg).1 < 2 ^ f.width := by
  have ho : overflowTo f rm sat neg < 2 ^ (f.width - 1) := by
    unfold overflowTo
    split
    · exact largest_lt hf
    · split
      case isTrue hi => exact infinity_lt hf hnan hi
      case isFalse => exact hnan
  have h0 := signBit_add_lt hf false hnan
  unfold overflowed withSign
  split
  · simpa [signBit] using h0
  · exact signBit_add_lt hf neg ho

theorem roundTo_lt {rm : Nat} (hrm : rm < 4) (sat neg : Bool) (m : Nat) (x : Int) : (roundTo f rm sat neg m x).1 < 2 ^ f.width := by
  by_cases hm : m = 0
  · rw [hm, roundTo_zero]
    exact signBit_lt hf neg (Nat.zero_le _)
  · obtain ⟨s, n, r, p, tiny, -, -, e⟩ := roundTo_unit f hrm sat neg hm x
    rw [e]
    split
    case isTrue => exact overflowed_lt hf hnan ..
    case isFalse h => exact signBit_lt hf neg (not_lt.1 (not_or.1 h).2)

theorem packF_lt {rm : Nat} (hrm : rm < 4) (sat : Bool) (v : FVal) : (packF f rm sat v).1 < 2 ^ f.width := by
  have h0 : f.nan < 2 ^ f.width := by simpa [signBit] using signBit_add_lt hf false hnan
  cases v with
  | nan s => exact h0
  | inf neg =>
    show (packInf f sat neg).1 < _
    unfold packInf
    split
    case isTrue hi => exact signBit_add_lt hf neg (infinity_lt hf hnan hi)
    case isFalse =>
      split
      · exact signBit_add_lt hf neg (largest_lt hf)
      · exact h0
  | fin neg m x => exact roundTo_lt hf hnan hrm ..

end

theorem addF_fp32_lt (x y : Nat) : (addF fp32 0 false x y).1 < 2 ^ 32 :=
  packF_lt (regular (by simp [arithmeticFormats])) (by decide) (by norm_num) ..

/-! ### The slot after each operation (R84, R132 to R134) -/

theorem two_pow_atomBits (wide : Bool) : 256 ^ (atomBits wide / 8) = 2 ^ atomBits wide := by cases wide <;> rfl

section
variable {s : State} {q : NearReq} (hc : Clean s) (hq : PlainSlot q)
include hc hq

theorem nearValue_done {p : Nat × (Nat → Nat → Nat → Nat)} (hp : p ∈ valueOps) {n : Nat} (hn : atomBits q.wide = n) :
    NearDone s q (s.nearOp p.1 q) (n / 8) (p.2 n (s.readLe q.addr (n / 8)) (q.x.toNat % 2 ^ n)) (s.readLe q.addr (n / 8)) 0 0 := by
  have hpow : 256 ^ (n / 8) = 2 ^ n := hn ▸ two_pow_atomBits q.wide
  have hold : s.readLe q.addr (n / 8) < 2 ^ n := hpow ▸ readLe_lt ..
  obtain ⟨hval, hlt⟩ := atomApply_of_valueOps hp hold (Nat.mod_lt q.x.toNat (Nat.two_pow_pos n)) (q.y.toNat % 2 ^ n)
  have h := nearAtomic_clean hc hq p.1 hn rfl
  rw [hval, hpow] at h
  dsimp only [Option.getD_some] at h
  rwa [Nat.mod_eq_of_lt hlt, ← nearOp_of_valueOps hp] at h

theorem nearCas_done {n : Nat} (hn : atomBits q.wide = n) : NearDone s q (s.nearOp 0x1 q) (n / 8)
    (if s.readLe q.addr (n / 8) = q.y.toNat % 2 ^ n then q.x.toNat % 2 ^ n else s.readLe q.addr (n / 8)) (s.readLe q.addr (n / 8)) 0 0 := by
  have hpow : 256 ^ (n / 8) = 2 ^ n := hn ▸ two_pow_atomBits q.wide
  have hold : s.readLe q.addr (n / 8) < 2 ^ n := hpow ▸ readLe_lt ..
  have hcas : ∀ old x y : Nat, old < 2 ^ n → x < 2 ^ n → (atomApply 0x1 n old x y).1.getD old % 2 ^ n = (if old = y then x else old) ∧
      (atomApply 0x1 n old x y).2 = 0 := fun old x y ho hx => by
    unfold atomApply
    rw [if_pos rfl]
    split
    · exact ⟨Nat.mod_eq_of_lt hx, rfl⟩
    · exact ⟨Nat.mod_eq_of_lt ho, rfl⟩
  obtain ⟨hv, hfl⟩ := hcas _ _ (q.y.toNat % 2 ^ n) hold (Nat.mod_lt q.x.toNat (Nat.two_pow_pos n))
  have h := nearAtomic_clean hc hq 0x1 hn rfl
  rwa [hpow, hv, hfl] at h

theorem nearFadd_done (hw : q.wide = false) : NearDone s q (s.nearOp 0xA q) 4
    (addF fp32 0 false (s.readLe q.addr 4) (q.x.toNat % 2 ^ 32)).1 (s.readLe q.addr 4) 0
    (addF fp32 0 false (s.readLe q.addr 4) (q.x.toNat % 2 ^ 32)).2 := by
  have h := nearAtomic_clean hc hq 0xA (n := 32) (by rw [hw]; rfl) rfl
  have hv : ∀ old x y : Nat, atomApply 0xA 32 old x y = (some (addF fp32 0 false old x).1, (addF fp32 0 false old x).2) := fun _ _ _ => rfl
  rw [hv] at h
  dsimp only [Option.getD_some] at h
  rwa [show 256 ^ (32 / 8) = 2 ^ 32 from rfl, Nat.mod_eq_of_lt (addF_fp32_lt ..)] at h

theorem nearFxadd_done {f : Nat} (hreg : s.region q.addr = some (f, q.ctx)) : NearDone s q (s.nearOp 0xB q) 16
    (fxAccumulate (s.readLe q.addr 16) q.elem f q.x.toNat q.poison) 0 0 0 := by
  have h := nearFx_clean hc hq hreg
  rwa [Nat.mod_eq_of_lt ((fxAccumulate_lt ..).trans (by norm_num))] at h

end

end Sys2Proof.Machine
end

section
/-! PROOF. O39: what slices do, and how requests enter their queues (R84, R85, R114, R116, R123, R132, R133, R136, R368, R369). -/

namespace Sys2Proof.Claims

open Sys2Proof.Machine

/-! ### Reads (R114) -/

/-- Bytes of one half-line are poisoned where it is. -/
theorem anyPoison_in_half (s : State) {a n : Nat} (hn : 0 < n) (h : a % 64 + n ≤ 64) : s.anyPoison a n = s.poison.contains (a / 64 * 64) := by
  have hr : (a + n - 1) / 64 + 1 - a / 64 = 1 := by omega
  rw [State.anyPoison, halvesOf, hr]
  simp [Nat.mul_comm]

/-- A write names its half-line whole where it has a cell for each of the 64 bytes. -/
theorem fills_iff {w : SliceWrite} {h : Nat} (hh : h % 64 = 0) (hin : ∀ c ∈ w.cells, halfOf c.1 = h) :
    fills w h = true ↔ ∀ k, k < 64 → ∃ c ∈ w.cells, c.1 = h + k := by
  have hcells : cellsIn w h = w.cells := List.filter_eq_self.2 fun c hc => beq_iff_eq.2 (hin c hc)
  have hsub : (distinct (w.cells.map (·.1))).toFinset ⊆ Finset.Ico h (h + 64) := fun a ha => by
    obtain ⟨c, hc, rfl⟩ := List.mem_map.1 (mem_distinct_iff.1 (List.mem_toFinset.1 ha))
    have := hin c hc
    unfold halfOf alignDown at this
    rw [Finset.mem_Ico]
    omega
  have hcard : (Finset.Ico h (h + 64)).card = 64 := by simp
  have hmem : ∀ a, a ∈ (distinct (w.cells.map (·.1))).toFinset ↔ ∃ c ∈ w.cells, c.1 = a := fun a => by
    rw [List.mem_toFinset, mem_distinct_iff, List.mem_map]
  rw [fills, hcells, beq_iff_eq, ← List.toFinset_card_of_nodup (nodup_distinct _)]
  constructor
  · intro hl k hk
    rw [← hmem, Finset.eq_of_subset_of_card_le hsub (by omega), Finset.mem_Ico]
    omega
  · intro hall
    rw [← hcard]
    refine congrArg _ (hsub.antisymm fun a ha => (hmem a).2 ?_)
    rw [Finset.mem_Ico] at ha
    obtain ⟨c, hc, he⟩ := hall (a - h) (by omega)
    exact ⟨c, hc, by omega⟩

section
variable {s : State} (hc : Calm s)
include hc

/-- The end of an event: no cause is taken. -/
theorem settle_of_calm {t : State} (h : t.raises = s.raises ∧ t.logQueue = s.logQueue ∧ t.crews = s.crews) : t.settle = t := by
  obtain ⟨hr, hl, hcr⟩ := h
  exact settle_of_quiet ⟨hr.trans hc.quiet.1, hl.trans hc.quiet.2.1, hcr ▸ hc.quiet.2.2⟩

theorem sliceRead_answers (tag a n : Nat) (hd : isDram a = true) (h : a % 64 + n ≤ 64) : ∃ t r, exec (.sliceRead tag a n) s = .next t ∧
    t.replies = s.replies ++ [r] ∧ r.tag = tag ∧ r.data.length = n ∧ (∀ k, k < n → nth 0 r.data k = s.byte (a + k)) ∧
    (0 < n → r.poison = s.poison.contains (a / 64 * 64)) ∧ { t with replies := s.replies, sram := s.sram } = s := by
  have ht : OnlySram s (s.touchWith a n false false 0) := touchWith_faultless hc.faultless ..
  generalize hu : s.touchWith a n false false 0 = u at ht
  refine ⟨{ u with replies := u.replies ++ [{ tag, data := u.bytes a n, poison := u.anyPoison a n, flags := 0 }] }, _, ?_,
    congrArg (· ++ _) (by rw [ht]), rfl, length_bytes .., fun k hk => ?_, fun hn => ?_, ?_⟩
  · rw [exec_sliceRead, execSliceRead, if_pos hd, happen, State.sliceBytes, State.sliceBytesWith, hu]
    exact congrArg Host.Outcome.next (settle_of_calm hc ⟨by rw [ht], by rw [ht], by rw [ht]⟩)
  · rw [nth_eq_getElem _ (by simpa using hk), ← ht.byte]
    simp [State.bytes]
  · rw [anyPoison_in_half u hn h, ht.poison]
  · rw [ht]

/-! ### Writes (R123, R142) -/

theorem clean_of_calm (hp : s.poison = []) : Clean s := ⟨hc.faultless, hp, hc.group, hc.replies⟩

theorem sliceWrite_commits {w : SliceWrite} {p : List Nat} (hd : ∀ c ∈ w.cells, isDram c.1 = true)
    (h : Committed { s with poison := p } (s.commit w).st w.cells) :
    ∃ t, exec (.sliceWriteCommit w) s = .next t ∧ { t with mem := s.mem, l1 := s.l1, sram := s.sram } = { s with poison := p } ∧
      (∀ a, t.byte a = lastCell w.cells a (s.byte a)) ∧ t.poison = p := by
  have hrest := h.rest
  refine ⟨(s.commit w).st, ?_, by rw [hrest], h.byte, by rw [hrest]⟩
  rw [exec_sliceWriteCommit, execSliceWriteCommit, if_pos (List.all_eq_true.2 hd), happen]
  exact congrArg Host.Outcome.next (settle_of_calm hc ⟨by rw [State.commitWrite, hrest], by rw [State.commitWrite, hrest], by rw [State.commitWrite, hrest]⟩)

theorem sliceWrite_clean {w : SliceWrite} (hd : ∀ c ∈ w.cells, isDram c.1 = true ∧ 0xC00000 ≤ c.1) (hw : w.watched = false) (hp : w.prot = false)
    (hs : s.poison = []) : ∃ t, exec (.sliceWriteCommit w) s = .next t ∧ { t with mem := s.mem, l1 := s.l1, sram := s.sram } = s ∧
      ∀ a, t.byte a = lastCell w.cells a (s.byte a) := by
  have h := (commit_clean (clean_of_calm hc hs) hp hw fun c hm => (hd c hm).2).1
  obtain ⟨t, ht, hrest, hb, -⟩ := sliceWrite_commits hc (p := s.poison) (fun c hm => (hd c hm).1) h
  exact ⟨t, ht, hrest, hb⟩

theorem sliceWrite_poisoned {w : SliceWrite} (hd : ∀ c ∈ w.cells, isDram c.1 = true ∧ 0xC00000 ≤ c.1) (hw : w.watched = false) (hp : w.prot = false)
    {h : Nat} (hs : s.poison = [h]) (hh : h % 64 = 0) (hin : ∀ c ∈ w.cells, c.1 / 64 * 64 = h) :
    ∃ t, exec (.sliceWriteCommit w) s = .next t ∧ (∀ a, t.byte a = lastCell w.cells a (s.byte a)) ∧
      ((∀ k, k < 64 → ∃ c ∈ w.cells, c.1 = h + k) → w.cells ≠ [] → t.poison = []) ∧
      ((∃ k, k < 64 ∧ ∀ c ∈ w.cells, c.1 ≠ h + k) → t.poison = [h]) := by
  have hhalf : ∀ c ∈ w.cells, halfOf c.1 = h := fun c hc => by
    have := hin c hc
    unfold halfOf alignDown
    omega
  have hself : halfOf h = h := by
    unfold halfOf alignDown
    omega
  have hpo : s.poisoned h = true := by simp [State.poisoned, hs, hself]
  obtain ⟨p, hcommit, hpoison⟩ := commit_in_half hc.faultless (hc.group h) hc.replies hp hw (fun c hm => (hd c hm).2) hhalf
  obtain ⟨t, ht, -, hb, htp⟩ := sliceWrite_commits hc (fun c hm => (hd c hm).1) hcommit
  rw [hpo, Bool.true_and, hs] at hpoison
  refine ⟨t, ht, hb, fun hall hne => ?_, fun ⟨k, hk, hno⟩ => ?_⟩
  · have hne' : w.cells.isEmpty = false := List.isEmpty_eq_false_iff.2 hne
    rw [htp, hpoison, (fills_iff hh hhalf).2 hall, hne']
    simp
  · have hnot : fills w h = false := by
      rw [Bool.eq_false_iff, ne_eq, fills_iff hh hhalf]
      exact fun hall => by
        obtain ⟨c, hm, e⟩ := hall k hk
        exact hno c hm e
    rw [htp, hpoison, hnot, Bool.and_false, if_neg Bool.false_ne_true]

end

/-! ### Near-memory operations (R132 to R137) -/

/-- The answer to a near-memory operation. -/
def answerOf (q : NearReq) (r : NearResult) : Reply :=
  { tag := q.tag, data := leBytes 8 r.x.toNat ++ leBytes 8 r.y.toNat, poison := r.poison, flags := w32 r.flags }

/-- The state in which a near-memory operation has answered. -/
def answered (s : State) (op : Nat) (q : NearReq) : State :=
  { (s.nearOp op q).st with replies := (s.nearOp op q).st.replies ++ [answerOf q (s.nearOp op q)] }

theorem nearEvent_eq {s : State} {op : Nat} {q : NearReq} (hd : isDram q.addr = true) :
    nearEvent op q s = .next (answered s op q).settle := by
  rw [nearEvent, if_pos hd, happen]
  rfl

theorem plainSlot {s : State} {q : NearReq} {m : Nat} (hq : Requests s q m) : PlainSlot q := ⟨hq.plain.1, hq.plain.2, hq.dram.2⟩

/-- The events of R132 that write a value, with their codes. -/
theorem nearEvents_code {e : (NearReq → Instr) × (Nat → Nat → Nat → Nat)} (he : e ∈ nearEvents) :
    ∃ p ∈ valueOps, p.2 = e.2 ∧ ∀ q s, exec (e.1 q) s = nearEvent p.1 q s := by
  simp only [nearEvents, List.mem_cons, List.not_mem_nil, or_false] at he
  rcases he with rfl | rfl | rfl | rfl | rfl | rfl | rfl | rfl | rfl
  · exact ⟨(0x0, _), by simp [valueOps], rfl, fun _ _ => rfl⟩
  · exact ⟨(0x2, _), by simp [valueOps], rfl, fun _ _ => rfl⟩
  · exact ⟨(0x3, _), by simp [valueOps], rfl, fun _ _ => rfl⟩
  · exact ⟨(0x4, _), by simp [valueOps], rfl, fun _ _ => rfl⟩
  · exact ⟨(0x5, _), by simp [valueOps], rfl, fun _ _ => rfl⟩
  · exact ⟨(0x6, _), by simp [valueOps], rfl, fun _ _ => rfl⟩
  · exact ⟨(0x7, _), by simp [valueOps], rfl, fun _ _ => rfl⟩
  · exact ⟨(0x8, _), by simp [valueOps], rfl, fun _ _ => rfl⟩
  · exact ⟨(0x9, _), by simp [valueOps], rfl, fun _ _ => rfl⟩

section
variable {s : State} (hc : Calm s) {q : NearReq}
include hc

/-- The event of an operation that its slot's slice performs. -/
theorem nearEvent_answers {op n x old y fl : Nat} {m : Nat} (hq : Requests s q m) (h : NearDone s q (s.nearOp op q) n x old y fl) :
    ∃ t, nearEvent op q s = .next t ∧ Answered s t q q.addr n x old y fl := by
  have hrest := h.rest
  refine ⟨answered s op q, ?_, h.slot, ⟨answerOf q _, congrArg (· ++ _) (by rw [hrest]), rfl, h.poison, ?_, ?_⟩, by rw [answered, hrest]⟩
  · rw [nearEvent_eq hq.dram.1, settle_of_calm hc ⟨by rw [answered, hrest], by rw [answered, hrest], by rw [answered, hrest]⟩]
  · rw [answerOf, h.flags]
  · rw [answerOf, h.x, h.y]

theorem clean_of_requests {m : Nat} (hq : Requests s q m) : Clean s := clean_of_calm hc hq.clean

theorem nearEvents_answer {e : (NearReq → Instr) × (Nat → Nat → Nat → Nat)} (he : e ∈ nearEvents) {n : Nat} (hn : atomBits q.wide = n)
    (hq : Requests s q (n / 8)) : ∃ t, exec (e.1 q) s = .next t ∧
      Answered s t q q.addr (n / 8) (e.2 n (s.readLe q.addr (n / 8)) (q.x.toNat % 2 ^ n)) (s.readLe q.addr (n / 8)) 0 0 := by
  obtain ⟨p, hp, hf, hexec⟩ := nearEvents_code he
  rw [hexec, ← hf]
  exact nearEvent_answers hc hq (nearValue_done (clean_of_requests hc hq) (plainSlot hq) hp hn)

theorem nearCas_answers {n : Nat} (hn : atomBits q.wide = n) (hq : Requests s q (n / 8)) : ∃ t, exec (.nearCas q) s = .next t ∧
    Answered s t q q.addr (n / 8) (if s.readLe q.addr (n / 8) = q.y.toNat % 2 ^ n then q.x.toNat % 2 ^ n else s.readLe q.addr (n / 8))
      (s.readLe q.addr (n / 8)) 0 0 :=
  nearEvent_answers hc hq (nearCas_done (clean_of_requests hc hq) (plainSlot hq) hn)

theorem nearFadd_answers (hw : q.wide = false) (hq : Requests s q 4) : ∃ t, exec (.nearFadd q) s = .next t ∧
    Answered s t q q.addr 4 (addF fp32 0 false (s.readLe q.addr 4) (q.x.toNat % 2 ^ 32)).1 (s.readLe q.addr 4) 0
      (addF fp32 0 false (s.readLe q.addr 4) (q.x.toNat % 2 ^ 32)).2 :=
  nearEvent_answers hc hq (nearFadd_done (clean_of_requests hc hq) (plainSlot hq) hw)

theorem nearFxadd_answers (hq : Requests s q 16) {f : Nat} (hreg : s.region q.addr = some (f, q.ctx)) :
    ∃ t, exec (.nearFxadd q) s = .next t ∧
      Answered s t q q.addr 16 (fxAccumulate (s.readLe q.addr 16) q.elem f q.x.toNat q.poison) 0 0 0 :=
  nearEvent_answers hc hq (nearFxadd_done (clean_of_requests hc hq) (plainSlot hq) hreg)

theorem nearClaim_answers (hq : Requests s q 32) {next end_ min_ div_ : DWord} {len : Nat} (h : IsCounter s q.addr next end_ min_ div_)
    (hl : IsLen next end_ min_ div_ len) : ∃ t, exec (.nearClaim q) s = .next t ∧ IsCounter t q.addr (next + BitVec.ofNat 64 len) end_ min_ div_ ∧
      Answered s t q q.addr 8 (next + BitVec.ofNat 64 len).toNat next.toNat len 0 := by
  obtain ⟨t, ht, ha⟩ := nearEvent_answers hc hq (op := 0xC) (nearClaim_clean (clean_of_requests hc hq) (plainSlot hq) h hl)
  have hkeep : ∀ a, q.addr + 8 ≤ a → t.readLe a 8 = s.readLe a 8 := fun a hle => readLe_congr fun k _ => ha.slot.2 _ (.inr (by omega))
  exact ⟨t, ht, ⟨ha.slot.1, (hkeep _ (by omega)).trans h.end_, (hkeep _ (by omega)).trans h.min_, (hkeep _ (by omega)).trans h.div_⟩, ha⟩

theorem nearRinit_answers (hq : Requests s q 32) : ∃ t, exec (.nearRinit q) s = .next t ∧ IsCounter t q.addr q.x q.y q.z q.w ∧
    (∀ b, b < q.addr ∨ q.addr + 32 ≤ b → t.byte b = s.byte b) ∧ t.replies.length = s.replies.length + 1 := by
  have h : Committed s (s.nearOp 0xD q).st _ := nearInit_clean (clean_of_requests hc hq) (plainSlot hq)
  have hrest := h.rest
  refine ⟨answered s 0xD q, ?_, ?_, ?_, ?_⟩
  · show nearEvent 0xD q s = _
    rw [nearEvent_eq hq.dram.1, settle_of_calm hc ⟨by rw [answered, hrest], by rw [answered, hrest], by rw [answered, hrest]⟩]
  · obtain ⟨h0, h1, h2, h3⟩ := isCounter_of_committed h
    exact ⟨h0, h1, h2, h3⟩
  · exact fun b hb => counter_frame h b hb
  · rw [answered, List.length_append, hrest]
    rfl

end

/-- R84, R85, R114, R123, R132, R133, R136, R368, R369: what the slices of a calm state do. -/
theorem slicesPerformRequests : SlicesPerformRequests := by
  intro s hc
  refine ⟨sliceRead_answers hc, fun w hd hw hp => ⟨sliceWrite_clean hc hd hw hp, fun h hs => sliceWrite_poisoned hc hd hw hp hs⟩, fun q => ?_⟩
  have hn : atomBits q.wide = if q.wide then 64 else 32 := rfl
  exact ⟨fun hq => ⟨fun e he => nearEvents_answer hc he hn hq, nearCas_answers hc hn hq, fun hw => by
      simp only [hw, Bool.false_eq_true, if_false] at hq ⊢
      exact nearFadd_answers hc hw hq⟩,
    fun hq f hreg => nearFxadd_answers hc hq hreg, fun hq next end_ min_ div_ len h hl => nearClaim_answers hc hq h hl, fun hq => nearRinit_answers hc hq⟩

/-! ### The queue of a slice (R116) -/

section
variable {q : SliceQueue} {lag : Bool} {c d : Nat}

/-- Where a class enters, one of it waits and it has room. -/
theorem next_some (h : q.next lag = some c) : q.waits c = true ∧ q.room lag c = true := by
  have hp := List.find?_some h
  exact Bool.and_eq_true_iff.1 hp

theorem length_lt_of_room (h : q.room lag c = true) : q.queue.length < 32 := by
  unfold SliceQueue.room at h
  split at h
  · exact of_decide_eq_true (Bool.and_eq_true_iff.1 h).1
  · have := of_decide_eq_true h
    omega

theorem length_enter_le (q : SliceQueue) (c : Nat) : (q.enter c).queue.length ≤ q.queue.length + 1 := by
  unfold SliceQueue.enter
  split <;> simp

theorem length_fillUp_le (lag : Bool) (n : Nat) (q : SliceQueue) (h : q.queue.length ≤ 32) : (SliceQueue.fillUp lag n q).queue.length ≤ 32 := by
  induction n generalizing q with
  | zero => exact h
  | succ n ih =>
    unfold SliceQueue.fillUp
    split
    · exact h
    next c hc =>
      have hlt := length_lt_of_room (next_some hc).2
      have hle := length_enter_le q c
      exact ih _ (by omega)

/-- The first of its class is the one that leaves the senders' interfaces. -/
theorem eraseP_class {l : List (Nat × Event)} {e : Nat × Event} (h : l.find? (fun x => x.1 == c) = some e) :
    l.eraseP (fun x => x.1 == c) = l.erase e := by
  have he : e.1 = c := by simpa using List.find?_some h
  induction l with
  | nil => rfl
  | cons x xs ih =>
    by_cases hx : x.1 = c
    · obtain rfl : x = e := by simpa [hx] using h
      simp [he]
    · have hne : x ≠ e := fun hxe => hx (hxe ▸ he)
      simp only [List.find?_cons, beq_eq_false_iff_ne.2 hx] at h
      simp [hx, hne, ih h]

theorem enter_some {e : Nat × Event} (h : q.waiting.find? (fun x => x.1 == c) = some e) :
    (q.enter c).queue = q.queue ++ [e.2] ∧ (q.enter c).waiting = q.waiting.erase e := by
  unfold SliceQueue.enter
  rw [h]
  exact ⟨rfl, eraseP_class h⟩

/-- A class that waits and has room comes nearer in the rotation when another enters. -/
theorem rotation_nearer (hl : q.last ≤ 4) (h1 : 1 ≤ c) (h4 : c ≤ 4) (hw : q.waits c = true) (hr : q.room lag c = true)
    (h : q.next lag = some d) (hne : d ≠ c) : d ≤ 4 ∧ (c + 7 - d) % 4 < (c + 7 - q.last) % 4 := by
  obtain ⟨-, i, hi, hd, hbefore⟩ := List.find?_eq_some_iff_getElem.1 h
  have hat : ∀ k (hk : k < 4) (h : k < ((List.range 4).map (fun i => (q.last + i) % 4 + 1) ++ [5]).length),
      ((List.range 4).map (fun i => (q.last + i) % 4 + 1) ++ [5])[k] = (q.last + k) % 4 + 1 := fun k hk h => by
    rw [List.getElem_append_left (by simpa using hk)]
    simp
  have hle : i ≤ (c + 7 - q.last) % 4 := by
    by_contra hlt
    have hno := hbefore ((c + 7 - q.last) % 4) (by omega)
    rw [hat _ (by omega), show (q.last + (c + 7 - q.last) % 4) % 4 + 1 = c by omega, hw, hr] at hno
    cases hno
  rw [hat i (by omega)] at hd
  omega

/-- The scrubber enters with no place of its own only where no class waits. -/
theorem scrubber_alone (h : q.next false = some 5) (e : Nat × Event) (he : e ∈ q.waiting) : e.1 = 5 := by
  have hr : (q.queue.length < 32 && (!q.crowded || (false && q.scrubs < 2))) = true := (next_some h).2
  have hc : q.crowded = false := by simpa using (Bool.and_eq_true_iff.1 hr).2
  simpa using List.any_eq_false.1 hc e he

end

/-- R116: how requests enter the queue of a slice. -/
theorem requestsEnterInRotation : RequestsEnterInRotation := fun q lag =>
  ⟨fun n => length_fillUp_le lag n q, fun _ _ => enter_some, fun _ _ => rotation_nearer, scrubber_alone⟩

/-- Settles O39: a request's event is its commit, since a calm state has no cause to take at its end; and the class that enters is the
first of the rotation that waits and has room. -/
theorem slicesReadWriteAndOperate : Obligations.SlicesReadWriteAndOperate := ⟨slicesPerformRequests, requestsEnterInRotation⟩

end Sys2Proof.Claims
end

section
/-! SUPPORT. The checks of an access at faultless slices (R93, R106 to R109, R229, R385): translation changes TLBs, walkers and the
SRAM of the slices alone. -/

namespace Sys2Proof.Machine

open Sys2Proof.Claims

/-! ### Translation -/

/-- Two states differ in what TLBs, walkers and the SRAM of the slices hold alone. -/
def Translated (s u : State) : Prop := u = { s with tlb := u.tlb, ptrs := u.ptrs, sram := u.sram }

theorem Translated.refl (s : State) : Translated s s := rfl

theorem Translated.trans {s t u : State} (h : Translated s t) (k : Translated t u) : Translated s u := by
  unfold Translated at *
  rw [k, h]

theorem OnlySram.translated {s u : State} (h : OnlySram s u) : Translated s u := by
  unfold Translated
  rw [h]

theorem Translated.faultless {s u : State} (h : Translated s u) (hs : s.Faultless) : u.Faultless := by
  rw [h]
  exact hs

theorem tlbAdd_translated (s : State) (t : TlbEntry) : Translated s (s.tlbAdd t) := rfl

theorem keepPtrs_translated (cl ctx va : Nat) : ∀ (n level table : Nat) (s : State), Translated s (State.keepPtrs cl ctx va n level table s)
  | 0, _, _, s => .refl s
  | n + 1, level, table, s => by
    unfold State.keepPtrs
    dsimp only
    split
    · exact Translated.trans (t := { s with ptrs := _ }) rfl (keepPtrs_translated cl ctx va n ..)
    · exact .refl s

section
variable {s : State} (hs : s.Faultless)
include hs

theorem walkFor_translated (cl ctx va : Nat) : Translated s (s.walkFor cl ctx va).1 := by
  unfold State.walkFor
  split
  · exact .refl s
  · exact (walkReads_faultless va 5 _ _ s hs).translated.trans (keepPtrs_translated ..)

theorem translate_translated (core ctx va : Nat) : Translated s (s.translate core ctx va).1 := by
  have hw := walkFor_translated hs (clusterOf core) ctx va
  unfold State.translate
  split
  · exact .refl s
  · split
    · exact tlbAdd_translated ..
    · split
      next e => exact e ▸ hw
      next e =>
        rw [e] at hw
        exact (hw.trans (tlbAdd_translated ..)).trans (tlbAdd_translated ..)

theorem locate_translated (core ctx need : Nat) (p : Part) : Translated s (s.locate core ctx need p).1 := by
  have ht := translate_translated hs core ctx p.va
  unfold State.locate
  split
  · dsimp only
    split
    · exact ht
    · split <;> exact ht
  · exact .refl s

end

theorem locateAll_translated (core ctx need : Nat) (ps : List Part) : ∀ s : State, s.Faultless → Translated s (s.locateAll core ctx need ps).1 := by
  induction ps with
  | nil => exact fun s _ => .refl s
  | cons p ps ih =>
    intro s hs
    have h := locate_translated hs core ctx need p
    unfold State.locateAll
    dsimp only
    split
    · exact h
    · have hall := h.trans (ih _ (h.faultless hs))
      split <;> exact hall

theorem coalesce_translated {s : State} (hs : s.Faultless) (g : Gang) (need : Nat) (ps : List Part) : Translated s (s.coalesce g need ps).1 := by
  have h := locateAll_translated g.core g.ctx need ps s hs
  unfold State.coalesce
  split
  · dsimp only
    split <;> exact h
  · dsimp only
    split
    · exact .refl s
    · split <;> exact h

/-! ### Checks -/

theorem reach_translated {s u : State} (hs : s.Faultless) {i : Issue} {q : Request} {ls : List Located} (h : s.reach i q = (u, none, ls)) :
    Translated s u := by
  unfold State.reach at h
  split at h
  · split at h
    · cases h
    · cases h
      exact .refl s
  · dsimp only at h
    have hc := coalesce_translated hs i.g q.need (q.elems.flatMap (fun x => partsOf x.lane x.addr q.size))
    split at h <;> cases h
    exact hc

section
variable {s u : State} {i : Issue} {q : Request} {host : List Located → Bool} {poison : Nat → Bool} {es : List Elem} {ls : List Located}

/-- Checks that pass without a fault: what was located, and that no element takes a cause. -/
theorem check_go (h : s.check i q host poison = .go u es ls []) :
    ∃ all, s.reach i q = (u, none, all) ∧ (∀ x ∈ q.elems, q.faultOf all host x = none) ∧ es = q.elems ∧ es.any (fun x => poison x.lane) = false ∧
      ls = all.filter (fun p => es.any (fun x => x.lane == p.part.lane)) := by
  unfold State.check at h
  dsimp only at h
  split at h
  · cases h
  next hr =>
    split at h
    · cases h
    next hp =>
      injection h with h1 h2 h3 h4
      rw [h4] at h2 h3 hp
      have he : es = q.elems := h2.symm.trans (List.filter_eq_self.2 fun _ _ => rfl)
      refine ⟨(s.reach i q).2.2, ?_, fun x hx => ?_, he, ?_, ?_⟩
      · rw [← h1, ← hr]
      · have := List.filterMap_eq_nil_iff.1 h4 x hx
        exact this
      · rw [← h2]
        simpa using hp
      · rw [← h3, ← h2]

/-- Checks that pass for one element, located in one part, pass whatever of the host they ask that this part does not touch. -/
theorem check_single {p : Located} {x : Elem} (hx : q.elems = [x]) (h : s.check i q noHost poison = .go u es [p] []) (hh : host [p] = false) :
    s.check i q host poison = .go u [x] [p] [] ∧ p.part.lane = x.lane := by
  obtain ⟨all, hr, hf, rfl, hpo, hls⟩ := check_go h
  rw [hx] at hpo hls hf
  simp only [List.any_cons, List.any_nil, Bool.or_false] at hpo hls
  have hlane : p.part.lane = x.lane := by
    have hmem : p ∈ all.filter (fun p => x.lane == p.part.lane) := hls ▸ List.mem_singleton_self p
    exact (beq_iff_eq.1 (List.mem_filter.1 hmem).2).symm
  have hmine : all.filter (fun p => p.part.lane == x.lane) = [p] := by
    rw [hls]
    exact List.filter_congr fun y _ => Bool.beq_comm
  have hfault : q.faultOf all host x = none := by
    have hno := hf x (List.mem_singleton_self x)
    unfold Request.faultOf at hno ⊢
    rw [hmine] at hno ⊢
    dsimp only at hno ⊢
    rw [hh]
    exact hno
  refine ⟨?_, hlane⟩
  unfold State.check
  simp only [hr, hx, List.filterMap_cons, List.filterMap_nil, hfault, List.any_nil, Bool.not_false, List.filter_true, List.any_cons, hpo,
    Bool.or_false, Bool.false_eq_true, if_false, ← hls]

end

end Sys2Proof.Machine
end

section
/-! SUPPORT. A scalar atomic on own memory that nothing stands in the way of (R132, R234, R235, R325 to R328, R390): what comes before
the operation at its slice, and how its result lands. -/

namespace Sys2Proof.Machine

open Sys2Proof.Claims

/-! ### Buffers and L1s that hold nothing of the gang's -/

section
variable {s : State} {id : Nat} {g : Gang}

theorem drainLine_of_empty (hg : s.gang id = some g) (hw : g.wcb = []) (line : Nat) : s.drainLine id line = s := by
  simp [State.drainLine, hg, hw]

theorem drainAll_of_empty (hg : s.gang id = some g) (hw : g.wcb = []) : s.drainAll id = s := by
  simp [State.drainAll, hg, hw]

/-- A release with nothing to wait for. -/
theorem release_of_free (hg : s.gang id = some g) (hw : g.wcb = []) (hb : s.releaseBusy g = false) (hu : g.unacked = 0) (scope : Nat) :
    s.release id scope = (s.releaseSlots id, none) := by
  simp [State.release, drainAll_of_empty hg hw, hg, hb, State.surviveBusy, hu]

end

/-- Where no line of a peer's is on its way, no reply is kept from an L1. -/
theorem cancelFills_of_noLines {s : State} (hl : NoLines s) (cl : Nat) (f : LineRead → Nat → Bool) : s.cancelFills cl f = s := by
  have hline : ∀ l ∈ s.loads, ∀ k : LineRead → Nat → LineRead, l.await.map (fun w => { w with line := w.line.map (fun r => k r w.base) }) = l.await :=
    fun l h k => (List.map_congr_left fun w hm => by rw [hl l h w hm, Option.map_none, ← hl l h w hm]).trans (List.map_id' l.await)
  have hloads : ∀ k : LineRead → Nat → LineRead,
      s.loads.map (fun l => { l with await := l.await.map (fun w => { w with line := w.line.map (fun r => k r w.base) }) }) = s.loads :=
    fun k => (List.map_congr_left fun l h => by rw [hline l h]).trans (List.map_id' s.loads)
  exact congrArg (fun l => { s with loads := l }) (hloads fun r b => if (r.cluster == cl && f r b) then { r with allocate := false } else r)

section
variable {s : State} (hl : NoLines s)
include hl

theorem cancelFills_l1 (l : List L1Line) (cl : Nat) (f : LineRead → Nat → Bool) : { s with l1 := l }.cancelFills cl f = { s with l1 := l } :=
  cancelFills_of_noLines (s := { s with l1 := l }) hl cl f

theorem l1DropUnit_of_noLines (cl phys : Nat) : s.l1DropUnit cl phys = { s with l1 := (s.l1DropUnit cl phys).l1 } := by
  unfold State.l1DropUnit
  dsimp only
  rw [cancelFills_l1 hl]

theorem acquire_of_noLines (core scope : Nat) : s.acquire core scope = { s with l1 := (s.acquire core scope).l1 } := by
  unfold State.acquire State.l1Invalidate
  dsimp only
  rw [cancelFills_l1 hl]
  split <;> rfl

end

/-! ### The one lane of a scalar -/

section
variable {v : State} {id : Nat} {g : Gang} {o : AtomOp} {q : Ask} {p : Located} (hg : v.gang id = some g) (hw : g.wcb = []) (hl : NoLines v)
  (hown : dpaModule p.phys = v.mgmt.modid) (hhost : isHost (dpaLocal p.phys) = false)
include hg hw hl hown hhost

theorem slot_single (data : Nat → AtomData) : AtomGather.slot { g := Gather.start v, flags := 0 } id o q [p] data =
    AtomGather.ownLane { g := Gather.start (v.l1DropUnit (clusterOf g.core) p.phys), flags := 0 } g o p (data p.part.lane) := by
  have hdrop := l1DropUnit_of_noLines hl (clusterOf g.core) p.phys
  have hg' : (v.l1DropUnit (clusterOf g.core) p.phys).gang id = some g := by
    rw [hdrop]
    exact hg
  have hm : (v.l1DropUnit (clusterOf g.core) p.phys).mgmt.modid = dpaModule p.phys := by
    rw [hdrop]
    exact hown.symm
  unfold AtomGather.slot
  simp [Gather.start, hg, drainLine_of_empty hg hw, hg', hm, hhost]

theorem atomLanes_single (data : Nat → AtomData) : v.atomLanes id o q [p] data =
    AtomGather.ownLane { g := Gather.start (v.l1DropUnit (clusterOf g.core) p.phys), flags := 0 } g o p (data p.part.lane) := by
  rw [← slot_single hg hw hl hown hhost (q := q)]
  unfold State.atomLanes AtomGather.strongLines AtomGather.line linesOf
  by_cases hs : leafOrd p.leaf = 0 <;> simp [hs, distinct, Gather.start]

end

/-! ### Before the operation -/

/-- The gang as it issues. -/
def issuing (s : State) (i : Issue) : Gang := i.g.setSplit i.k (some (i.sp.issued s.fresh))

/-- An access of an issue is under way: but for its crew, only TLBs, walkers, L1s, the SRAM of the slices and the hash-family slots
have changed. -/
def Underway (s v : State) (i : Issue) : Prop :=
  v = { s.begin i with tlb := v.tlb, ptrs := v.ptrs, sram := v.sram, l1 := v.l1, hashes := v.hashes, crews := v.crews }

theorem Translated.underway {s u : State} {i : Issue} (h : Translated (s.begin i) u) : Underway s u i := by
  unfold Underway
  rw [h]

theorem unreplayable_crews (s : State) (v : Nat) : (s.unreplayable v).crews = unreplayed s v := by
  simp [State.unreplayable, State.updCrew, unreplayed]

/-- The end of a scalar atomic: its flags are raised, and its result lands (R235). -/
def Issue.atomLoad (i : Issue) (o : AtomOp) (p : Located) (reg : Nat) (r : AtomGather) (data : Nat → AtomData) : PendLoad :=
  { (blankLoad i.g.id i.k (if o.op = 0xB then (if r.g.await.isEmpty then 2 else 14) else 0) reg []).from r.g with
    size := if o.wide then 8 else 4, lanes := maskOf [0], faults := [], acquire := i.acquireAt [p]
    near := some (o.op, o.wide, o.elem), operands := r.g.rest.map (fun p => (p.part.lane, (data p.part.lane).x, (data p.part.lane).y))
    ord := i.sp.hints.order, scope := i.sp.hints.scopeOf }

section
variable {s u : State} {i : Issue} {a : Accepts} (ha : Accepted s i a) (hu : Undisturbed s i) (hf : Free s i)
include ha

theorem gang_underway {v : State} (h : Underway s v i) : v.gang i.g.id = some (issuing s i) := by
  have hb : (s.begin i).gang i.g.id = some (issuing s i) := by
    rw [gang_begin, if_pos rfl, (issuer_eq ha.issuer).1]
    rfl
  rw [h]
  exact hb

include hu hf

/-- A release of the gang has nothing to wait for, and leaves only which hash-family slots are released. -/
theorem releaseAtThen_free {v : State} (h : Underway s v i) (at? : Option Nat) :
    ∃ w, Underway s w i ∧ w.crews = v.crews ∧ ∀ go, releaseAtThen i at? v go = go w := by
  cases at? with
  | none => exact ⟨v, h, rfl, fun _ => rfl⟩
  | some c =>
    have hb : v.releaseBusy (issuing s i) = false := by
      rw [h]
      exact hf.1
    have hr := release_of_free (gang_underway ha h) hu.wcb hb hf.2 c
    refine ⟨v.releaseSlots i.g.id, ?_, rfl, fun go => by simp only [releaseAtThen, hr]⟩
    unfold Underway State.releaseSlots
    rw [h]

/-- A scalar atomic whose checks pass performs its lane, and its result lands. -/
theorem atomic_lands {es : List Elem} {p : Located} {o : AtomOp} {va : Nat} {poison : Nat → Bool} (hp : Own s p)
    (hc : (s.begin i).check i (atomicRequest i (scalarElem va) o.size true) noHost poison = .go u es [p] []) (reg : Nat) (data : Nat → AtomData) :
    ∃ v r, p.part.lane = 0 ∧ Underway s v i ∧ v.crews = unreplayed s i.g.crew ∧
      r = AtomGather.ownLane { g := Gather.start v, flags := 0 } (issuing s i) o p (data 0) ∧
      atomic i (s.begin i) o true (scalarElem va) none poison 0 reg data =
        i.endLoad true (r.g.st.updGang i.g.id (fun h => h.raise r.flags)) (i.atomLoad o p reg r data) := by
  obtain ⟨hown, hdram, -⟩ := hp
  have hhost : isHost (dpaLocal p.phys) = false := by
    unfold isDram isHbm isLpd at hdram
    unfold isHost
    simp only [Bool.or_eq_true, Bool.and_eq_true, decide_eq_true_eq] at hdram
    simp only [Bool.and_eq_false_iff, decide_eq_false_iff_not]
    omega
  obtain ⟨hgo, hlane⟩ := check_single (host := (s.begin i).hostRefuses o) rfl hc (by simp [State.hostRefuses, hhost])
  have hgo' : (s.begin i).check i { pad := false, need := needBoth, elems := scalarElem va, size := o.size, limit := none, aligned := true, scalar := true }
      ((s.begin i).hostRefuses o) poison = .go u (scalarElem va) [p] [] := hgo
  obtain ⟨all, hr, -⟩ := check_go hgo
  have htr : Translated (s.begin i) u := reach_translated hu.sound.1 hr
  have hun := htr.underway
  have hm : u.matrixHolds i.g = false := by
    rw [hun]
    exact hu.jobs
  obtain ⟨w, hw, hcrews, hrel⟩ := releaseAtThen_free ha hu hf hun (i.releaseAt [p])
  have hcr : (w.unreplayable i.g.crew).crews = unreplayed s i.g.crew := by
    rw [unreplayable_crews, unreplayed, hcrews, htr]
    rfl
  have hv : Underway s (w.unreplayable i.g.crew) i := by
    unfold Underway State.unreplayable State.updCrew
    rw [hw]
  have hown' : dpaModule p.phys = (w.unreplayable i.g.crew).mgmt.modid := by
    rw [hv]
    exact hown
  have hlines : NoLines (w.unreplayable i.g.crew) := by
    rw [hv]
    exact hu.lines
  refine ⟨(w.unreplayable i.g.crew).l1DropUnit (clusterOf (issuing s i).core) p.phys, _, hlane, ?_, ?_, rfl, ?_⟩
  · rw [l1DropUnit_of_noLines hlines, hv]
    rfl
  · rw [l1DropUnit_of_noLines hlines]
    exact hcr
  · have hlanes := atomLanes_single (q := { i.ask with scope := i.sp.hints.scopeOf }) (o := o) (gang_underway ha hv) hu.wcb hlines hown' hhost data
    rw [hlane] at hlanes
    unfold atomic
    rw [hgo']
    simp only [hm, Bool.false_eq_true, if_false, List.isEmpty_cons, hrel, drainAll_of_empty (gang_underway ha hw) hu.wcb, ite_self, hlanes]
    rfl

end

end Sys2Proof.Machine
end

section
/-! SUPPORT. How the result of a scalar atomic lands, and what the step leaves (R223, R235, R328, R390). -/

namespace Sys2Proof.Machine

open Sys2Proof.Claims

/-! ### The end of the step -/

/-- The step ends with its gang changed by F, but for the stamp of its acquire by what F does; of the rest of the machine only what an
atomic may change has changed. -/
theorem exchanged_of {s x : State} {i : Issue} {F : Gang → Gang} (hi : s.issuer = some i) (hq : s.Quiet) (hid : ∀ g, (F g).id = g.id)
    (hks : KeepsSplits F)
    (hx : x = { (s.begin i).updGang i.g.id F with
      tlb := x.tlb, ptrs := x.ptrs, l1 := x.l1, sram := x.sram, mem := x.mem, hashes := x.hashes, crews := unreplayed s i.g.crew }) :
    ∃ t h, i.finish (.done x) = t ∧ Exchanged s t i h ∧ { h with splits := i.g.splits } = { F i.g with acquired := i.g.acquired } ∧
      ∀ a, t.byte a = x.byte a := by
  obtain ⟨t0, h0, ht0, ⟨hgang, ⟨-, hothers⟩, hhere, hsplits⟩, hh⟩ := performed_updGang hi hq F (i.sp.pc + 4) hid hks
  have hsame : ∀ j, (x.goOn i.g.id i.k (i.sp.pc + 4)).gang j = t0.gang j := fun j => by
    have hend : i.finish (.goto ((s.begin i).updGang i.g.id F) (i.sp.pc + 4)) = ((s.begin i).updGang i.g.id F).goOn i.g.id i.k (i.sp.pc + 4) :=
      settle_of_quiet ⟨hq.1, hq.2⟩
    rw [← ht0, hend, hx]
    rfl
  have hcrews : (x.goOn i.g.id i.k (i.sp.pc + 4)).crews = unreplayed s i.g.crew := by
    show x.crews = _
    rw [hx]
  have hquiet : (x.goOn i.g.id i.k (i.sp.pc + 4)).Quiet := by
    refine ⟨?_, ?_, fun c hc => ?_⟩
    · rw [hx]
      exact hq.1
    · rw [hx]
      exact hq.2.1
    · rw [hcrews] at hc
      obtain ⟨c0, hc0, rfl⟩ := List.mem_map.1 hc
      have := hq.2.2 c0 hc0
      split <;> exact this
  refine ⟨x.goOn i.g.id i.k (i.sp.pc + 4), { h0 with acquired := i.g.acquired }, settle_of_quiet hquiet,
    ⟨⟨h0.acquired, (hsame _).trans hgang⟩, hhere, hsplits, ?_, fun j hj => (hsame j).trans (hothers j hj), hcrews⟩, ?_, fun _ => rfl⟩
  · rw [hx]
    rfl
  · exact congrArg (fun g : Gang => { g with acquired := i.g.acquired }) hh

/-! ### Landing -/

/-- What a load does to its gang as it lands: with the stamp of its acquire, if it is one. -/
def landed (l : PendLoad) (stamp : Nat) (g : Gang) : Gang :=
  match l.acquire with
  | none => g.landLoad l
  | some _ => { g.landLoad l with acquired := stamp }

section
variable {l : PendLoad}

theorem landed_eq (n m : Nat) (g : Gang) : ({ landed l n g with acquired := m } : Gang) = { g.landLoad l with acquired := m } := by
  unfold landed
  split <;> rfl

theorem landed_id (hid : ∀ g : Gang, (g.landLoad l).id = g.id) (n : Nat) (g : Gang) : (landed l n g).id = g.id := by
  unfold landed
  split <;> exact hid g

theorem keepsSplits_landed (hks : KeepsSplits fun g => g.landLoad l) (n : Nat) (fl : Nat) : KeepsSplits fun g => landed l n (g.raise fl) := by
  intro g sp
  have h := hks (g.raise fl) sp
  dsimp only at h
  unfold landed
  split
  · exact h
  · exact congrArg (fun g : Gang => { g with acquired := n }) h

theorem landLoad_eq {w : State} {g : Gang} (hg : w.gang l.gang = some g) (hl : NoLines w) (hid : ∀ g : Gang, (g.landLoad l).id = g.id) :
    w.landLoad l = { w.updGang l.gang (landed l w.fresh) with l1 := (w.landLoad l).l1 } := by
  unfold State.landLoad landed
  rw [hg]
  cases l.acquire with
  | none => rfl
  | some c =>
    dsimp only
    unfold State.acquireBy
    rw [gang_id hg, updGang_updGang _ _ _ hid]
    exact acquire_of_noLines (s := w.updGang l.gang fun g => { g.landLoad l with acquired := w.fresh }) hl g.core c

/-- A result that goes to a scalar. -/
theorem landLoad_scalar (g : Gang) (hk : l.kind = 0) (hlane : l.lanes.getLsbD 0 = true) (hsz : l.size ≠ 16) (hsg : l.signed = false) :
    g.landLoad l = g.setS l.reg (dw (element l.got 0 l.size)) (l.poison.getLsbD 0) := by
  simp [Gang.landLoad, hk, hlane, hsz, hsg]

theorem landLoad_none (g : Gang) (hk : l.kind = 2) : g.landLoad l = g := by simp [Gang.landLoad, hk]

end

/-! ### Bytes that were gathered -/

theorem sget_putBytes (got : Store Byte) (lane : Nat) (b : List Byte) {k : Nat} (h : k < b.length) :
    sget 0 (putBytes got lane 0 b) (gotKey lane k) = nth 0 b k := by
  have key : ∀ n, k < n → sget 0 ((List.range n).foldl (fun m k => sput 0 m (gotKey lane (0 + k)) (nth 0 b k)) got) (gotKey lane k) = nth 0 b k := by
    intro n
    induction n with
    | zero => exact fun hk => absurd hk (Nat.not_lt_zero k)
    | succ n ih =>
      intro hk
      rw [List.range_succ, List.foldl_append, List.foldl_cons, List.foldl_nil, sget_sput]
      unfold gotKey at *
      by_cases hkn : k = n
      · rw [if_pos (by omega), hkn]
      · rw [if_neg (by omega), ih (by omega)]
  exact key b.length h

/-- An element whose bytes were gathered at once is the number they were. -/
theorem element_putBytes (lane n x : Nat) : element (putBytes [] lane 0 (leBytes n x)) lane n = x % 256 ^ n := by
  rw [← ofBytes_leBytes, element]
  refine congrArg ofBytes (List.ext_getElem (by simp) fun k h1 h2 => ?_)
  rw [← nth_eq_getElem 0 h2, List.getElem_map, List.getElem_range, sget_putBytes _ _ _ h2]

end Sys2Proof.Machine
end

section
/-! PROOF. O22: a scalar atomic on own memory whose checks pass (R84, R132, R133, R134, R234, R235). -/

namespace Sys2Proof.Claims

open Sys2Proof.Machine

/-! ### What the gang takes -/

theorem tookOld_setS {g h : Gang} {d x fl : Nat} (hh : { h with splits := g.splits } = (g.raise fl).setS d (dw x) false) : TookOld g h d x fl := by
  obtain ⟨hrest, hvalue, hmarks⟩ := wroteS_setS (g.raise fl) h d (dw x) false hh
  exact ⟨congrArg (fun k : Gang => { k with fst := g.fst }) hrest, hvalue, hmarks, congrArg Gang.fst hrest⟩

theorem raise_zero (g : Gang) : g.raise 0 = g := by simp [Gang.raise, w32]

/-- What the lane has left lands, and the step ends. -/
theorem exchanged_of_landLoad {s v y : State} {i : Issue} {a : Accepts} (ha : Accepted s i a) (hl : NoLines s) (hv : Underway s v i)
    (hcrews : v.crews = unreplayed s i.g.crew) (hy : y = { v with mem := y.mem, sram := y.sram, l1 := y.l1 }) {l : PendLoad} {fl : Nat}
    (hgang : l.gang = i.g.id) {f : Gang → Gang} (hf : ∀ g : Gang, g.landLoad l = f g) (hid : ∀ g, (f g).id = g.id) (hks : KeepsSplits f) :
    ∃ t h, i.finish (.done ((y.updGang i.g.id (fun g => g.raise fl)).landLoad l)) = t ∧ Exchanged s t i h ∧
      { h with splits := i.g.splits } = { f (i.g.raise fl) with acquired := i.g.acquired } ∧ ∀ b, t.byte b = y.byte b := by
  obtain rfl : (fun g => g.landLoad l) = f := funext hf
  have hlines : NoLines (y.updGang i.g.id (fun g => g.raise fl)) := by
    rw [hy, hv]
    exact hl
  have hyg : y.gang i.g.id = some (issuing s i) := by
    have hvg := gang_underway ha hv
    rw [hy]
    exact hvg
  have hg : (y.updGang i.g.id (fun g => g.raise fl)).gang l.gang = some ((issuing s i).raise fl) := by
    rw [hgang, gang_updGang y i.g.id (fun g => g.raise fl) (fun _ => rfl), if_pos rfl, hyg]
    rfl
  have hland := landLoad_eq hg hlines hid
  rw [hgang, updGang_updGang y i.g.id (f := fun g => g.raise fl) _ (fun _ => rfl)] at hland
  generalize (y.updGang i.g.id (fun g => g.raise fl)).landLoad l = x at hland ⊢
  generalize (y.updGang i.g.id (fun g => g.raise fl)).fresh = n at hland
  obtain ⟨t, h, ht, hex, hh, hb⟩ := exchanged_of (x := x) (F := fun g => landed l n (g.raise fl)) ha.issuer ha.quiet
    (fun g => landed_id hid n (g.raise fl)) (keepsSplits_landed hks n fl) (by
      rw [hland, hy, hv, hcrews]
      rfl)
  refine ⟨t, h, ht, hex, hh.trans (landed_eq ..), fun b => (hb b).trans ?_⟩
  rw [hland]
  rfl

theorem landLoad_ends {i : Issue} {w : State} {l : PendLoad} (ha : l.await = []) (hf : l.faults = []) : i.endLoad true w l = .done (w.landLoad l) := by
  have hnone : reported [] = none := rfl
  simp [Issue.endLoad, ha, hf, Issue.ended, hnone]

/-! ### One operation -/

/-- What an operation with an answer has produced. -/
def answerGather (y : State) (o : AtomOp) (old fl : Nat) : AtomGather :=
  { g := { Gather.start y with got := putBytes [] 0 0 (leBytes o.size old) }, flags := fl }

/-- What an operation without an answer has produced. -/
def silentGather (y : State) : AtomGather := { g := Gather.start y, flags := 0 }

section
variable {v : State} {g : Gang} {o : AtomOp} {p : Located} {d : AtomData}

theorem ownLane_answers {n x old y fl : Nat} (hop : o.op ≠ 0xB) (hlane : p.part.lane = 0)
    (h : NearDone v (nearReq g o p d 0) (v.nearOp o.op (nearReq g o p d 0)) n x old y fl) :
    AtomGather.ownLane { g := Gather.start v, flags := 0 } g o p d = answerGather (v.nearOp o.op (nearReq g o p d 0)).st o old fl := by
  simp [AtomGather.ownLane, hop, AtomGather.result, answerGather, Gather.start, hlane, h.x, h.flags, h.poison]

theorem ownLane_silent (hop : o.op = 0xB) :
    AtomGather.ownLane { g := Gather.start v, flags := 0 } g o p d = silentGather (v.nearOp o.op (nearReq g o p d 0)).st := by
  rw [AtomGather.ownLane, if_pos hop]
  rfl

end

theorem landLoad_answerGather {o : AtomOp} {old : Nat} (hop : o.op ≠ 0xB) (hsize : o.size = if o.wide then 8 else 4) (hold : old < 256 ^ o.size)
    (i : Issue) (p : Located) (d : Nat) (y : State) (fl : Nat) (data : Nat → AtomData) (g : Gang) :
    g.landLoad (i.atomLoad o p d (answerGather y o old fl) data) = g.setS d (dw old) false := by
  have hsz : (i.atomLoad o p d (answerGather y o old fl) data).size = o.size := hsize.symm
  have h16 : o.size ≠ 16 := by
    rw [hsize]
    cases o.wide <;> decide
  have hlanes : (maskOf [0]).getLsbD 0 = true := by decide
  have hgot : element (putBytes [] 0 0 (leBytes o.size old)) 0 o.size = old := (element_putBytes ..).trans (Nat.mod_eq_of_lt hold)
  rw [landLoad_scalar g (if_neg hop) hlanes (hsz ▸ h16) rfl, hsz]
  show g.setS d (dw (element (putBytes [] 0 0 (leBytes o.size old)) 0 o.size)) ((0 : Mask).getLsbD 0) = _
  rw [hgot]
  rfl

theorem landLoad_silentGather {o : AtomOp} (hop : o.op = 0xB) (i : Issue) (p : Located) (d : Nat) (y : State) (data : Nat → AtomData) (g : Gang) :
    g.landLoad (i.atomLoad o p d (silentGather y) data) = g :=
  landLoad_none g (if_pos hop)

section
variable {s u : State} {i : Issue} {a : Accepts} {es : List Elem} {p : Located} {o : AtomOp} {va : Nat} {poison : Nat → Bool} (ha : Accepted s i a)
  (hu : Undisturbed s i) (hf : Free s i) (hg : Unguarded s) (hp : Ordinary s p)
  (hc : (s.begin i).check i (atomicRequest i (scalarElem va) o.size true) noHost poison = .go u es [p] [])

theorem byte_underway {v : State} (h : Underway s v i) (b : Nat) : v.byte b = s.byte b := by
  rw [h]
  rfl

theorem plainSlot_nearReq (g : Gang) (d : AtomData) (tag : Nat) (hp : Ordinary s p) : PlainSlot (nearReq g o p d tag) := ⟨hp.watch, hp.prot, hp.above⟩

include hu hg in
theorem clean_underway {v : State} (h : Underway s v i) : Clean v := by
  rw [h]
  exact ⟨hu.sound.1, hg.poison, hg.group, hg.replies⟩

theorem slotBecomes_of {v t y : State} {b n x : Nat} (hv : ∀ k, v.byte k = s.byte k) (h : SlotBecomes v y b n x) (ht : ∀ k, t.byte k = y.byte k) :
    SlotBecomes s t b n x :=
  ⟨(readLe_congr fun _ _ => ht _).trans h.1, fun k hk => (ht k).trans ((h.2 k hk).trans (hv k))⟩

include ha hu hf hg hp hc

/-- An operation with an answer: what it leaves in the slot, and what the gang takes (R234, R235). -/
theorem atomic_answers {n x old y fl : Nat} (hop : o.op ≠ 0xB) (hsize : o.size = if o.wide then 8 else 4) (hold : old < 256 ^ o.size) (d : Nat)
    (data : Nat → AtomData)
    (hnear : ∀ v, Underway s v i → Clean v →
      NearDone v (nearReq (issuing s i) o p (data 0) 0) (v.nearOp o.op (nearReq (issuing s i) o p (data 0) 0)) n x old y fl) :
    ∃ t h, i.finish (atomic i (s.begin i) o true (scalarElem va) none poison 0 d data) = t ∧ Exchanged s t i h ∧ TookOld i.g h d old fl ∧
      SlotBecomes s t (dpaLocal p.phys) n x := by
  obtain ⟨v, r, hlane, hv, hcrews, hr, heq⟩ := atomic_lands ha hu hf hp.own hc d data
  have hdone := hnear v hv (clean_underway hu hg hv)
  have hland := landLoad_answerGather hop hsize hold i p d (v.nearOp o.op (nearReq (issuing s i) o p (data 0) 0)).st fl data
  rw [ownLane_answers hop hlane hdone] at hr
  rw [heq, hr, landLoad_ends rfl rfl]
  obtain ⟨t, h, ht, hex, hh, hb⟩ := exchanged_of_landLoad ha hu.lines hv hcrews hdone.rest (fl := fl) rfl
    hland (fun _ => rfl) (keepsSplits_setS d (dw old) false)
  exact ⟨t, h, ht, hex, tookOld_setS hh, slotBecomes_of (byte_underway hv) hdone.slot hb⟩

/-- An accumulation, which answers nothing. -/
theorem atomic_silent {n x old y fl : Nat} (hop : o.op = 0xB) (d : Nat) (data : Nat → AtomData)
    (hnear : ∀ v, Underway s v i → Clean v →
      NearDone v (nearReq (issuing s i) o p (data 0) 0) (v.nearOp o.op (nearReq (issuing s i) o p (data 0) 0)) n x old y fl) :
    ∃ t h, i.finish (atomic i (s.begin i) o true (scalarElem va) none poison 0 d data) = t ∧ Exchanged s t i h ∧ i.g.Same h ∧
      SlotBecomes s t (dpaLocal p.phys) n x := by
  obtain ⟨v, r, -, hv, hcrews, hr, heq⟩ := atomic_lands ha hu hf hp.own hc d data
  have hdone := hnear v hv (clean_underway hu hg hv)
  have hland := landLoad_silentGather hop i p d (v.nearOp o.op (nearReq (issuing s i) o p (data 0) 0)).st data
  rw [ownLane_silent hop] at hr
  rw [heq, hr, landLoad_ends rfl rfl]
  obtain ⟨t, h, ht, hex, hh, hb⟩ := exchanged_of_landLoad ha hu.lines hv hcrews hdone.rest (fl := 0) rfl
    hland (fun _ => rfl) (fun _ _ => rfl)
  rw [raise_zero] at hh
  exact ⟨t, h, ht, hex, hh, slotBecomes_of (byte_underway hv) hdone.slot hb⟩

end

/-! ### The instructions -/

/-- A poisoned operand of a scalar atomic: its address, its data, and what cas compares with. -/
def atomMark (i : Issue) (d a : BitVec 6) (b : Option (BitVec 6)) : Bool :=
  i.g.smark a.toNat || i.g.smark d.toNat || (match b with | some r => i.g.smark r.toNat | none => false)

/-- What cas compares with; other operations do not look at it. -/
def compared (i : Issue) (b : Option (BitVec 6)) : DWord := match b with | some r => i.g.sreg r.toNat | none => 0

theorem atomBits_eq (w : BitVec 1) : atomBits (w == 1) = if w = 1 then 64 else 32 := by
  unfold atomBits
  by_cases h : w = 1 <;> simp [h]

/-- The bytes of the slot of an atomic with an answer. -/
theorem atomOf_size {k : Nat} (hk : k < 0xB) (w : BitVec 1) :
    (atomOf k w).size = (if w = 1 then 64 else 32) / 8 ∧ (atomOf k w).size = if (atomOf k w).wide then 8 else 4 := by
  have h1 : k ≠ 0xB := by omega
  have h2 : ¬ (k = 0xC || k = 0xD) = true := by
    simp
    omega
  have hsize : (atomOf k w).size = if (atomOf k w).wide then 8 else 4 := by
    show nearBytes k (w == 1) = _
    rw [nearBytes, if_neg h1, if_neg h2]
    rfl
  refine ⟨?_, hsize⟩
  rw [hsize]
  by_cases h : w = 1
  · rw [h]
    rfl
  · rw [if_neg (show ¬ (atomOf k w).wide = true by simpa [atomOf] using h), if_neg h]

/-- The request of a scalar atomic to the slice of its slot. -/
def slotRequest (s : State) (i : Issue) (p : Located) (o : AtomOp) (d : BitVec 6) (b : Option (BitVec 6)) : NearReq :=
  nearReq (issuing s i) o p { x := (i.g.sreg d.toNat).toNat, y := (compared i b).toNat } 0

theorem dw_toNat (x : DWord) : dw x.toNat = x := by simp [dw]

section
variable {s u : State} {i : Issue} {es : List Elem} {p : Located} {d a : BitVec 6} {b : Option (BitVec 6)} {o : AtomOp}

theorem slotRequest_x : (slotRequest s i p o d b).x = i.g.sreg d.toNat := dw_toNat _

theorem slotRequest_y : (slotRequest s i p o d b).y = compared i b := dw_toNat _

variable (ha : Accepted s i { ord := 3 }) (hu : Undisturbed s i) (hf : Free s i) (hg : Unguarded s) (hp : Ordinary s p)
  (hc : (s.begin i).check i (atomicRequest i (scalarElem (i.g.sreg a.toNat).toNat) o.size true) noHost (fun _ => atomMark i d a b) = .go u es [p] [])

include ha in
theorem scalarAtomic_eq : scalarAtomic o d a b s = .next (i.finish (atomic i (s.begin i) o true (scalarElem (i.g.sreg a.toNat).toNat) none
    (fun _ => atomMark i d a b) 0 d.toNat (fun _ => { x := (i.g.sreg d.toNat).toNat, y := (compared i b).toNat }))) :=
  issue_legal ha.issuer ha.hints rfl

include ha hu hf hg hp hc

theorem scalarAtomic_answers {n x old y fl : Nat} (hop : o.op ≠ 0xB) (hsize : o.size = if o.wide then 8 else 4) (hold : old < 256 ^ o.size)
    (hnear : ∀ v, Clean v → v.mem = s.mem →
      NearDone v (slotRequest s i p o d b) (v.nearOp o.op (slotRequest s i p o d b)) n x old y fl) :
    ∃ t h, scalarAtomic o d a b s = .next t ∧ Exchanged s t i h ∧ TookOld i.g h d.toNat old fl ∧ SlotBecomes s t (dpaLocal p.phys) n x := by
  obtain ⟨t, h, ht, hrest⟩ := atomic_answers ha hu hf hg hp hc hop hsize hold d.toNat
    (fun _ => { x := (i.g.sreg d.toNat).toNat, y := (compared i b).toNat }) fun v hv hcl => hnear v hcl (by rw [hv]; rfl)
  exact ⟨t, h, (scalarAtomic_eq ha).trans (congrArg Host.Outcome.next ht), hrest⟩

theorem scalarAtomic_silent {n x old y fl : Nat} (hop : o.op = 0xB)
    (hnear : ∀ v, Clean v → v.mem = s.mem →
      NearDone v (slotRequest s i p o d b) (v.nearOp o.op (slotRequest s i p o d b)) n x old y fl) :
    ∃ t h, scalarAtomic o d a b s = .next t ∧ Exchanged s t i h ∧ i.g.Same h ∧ SlotBecomes s t (dpaLocal p.phys) n x := by
  obtain ⟨t, h, ht, hrest⟩ := atomic_silent ha hu hf hg hp hc hop d.toNat
    (fun _ => { x := (i.g.sreg d.toNat).toNat, y := (compared i b).toNat }) fun v hv hcl => hnear v hcl (by rw [hv]; rfl)
  exact ⟨t, h, (scalarAtomic_eq ha).trans (congrArg Host.Outcome.next ht), hrest⟩

end

/-- Memory alone tells what a slot holds, and what governs it. -/
theorem readLe_of_mem {s v : State} (h : v.mem = s.mem) (k n : Nat) : v.readLe k n = s.readLe k n := by
  refine readLe_congr fun j _ => ?_
  rw [State.byte, h, State.byte]

theorem region_of_mem {s v : State} (h : v.mem = s.mem) (k : Nat) : v.region k = s.region k := by
  unfold State.region
  simp only [readLe_of_mem h]

/-- Operations with a value, with their codes. -/
theorem atomicOps_code {e : (BitVec 6 → BitVec 6 → BitVec 1 → Instr) × (BitVec 6 → BitVec 6 → BitVec 5 → BitVec 1 → BitVec 4 → Instr) ×
    (Nat → Nat → Nat → Nat)} (he : e ∈ atomicOps) :
    ∃ p ∈ valueOps, p.1 < 0xA ∧ p.2 = e.2.2 ∧ ∀ d a w s, exec (e.1 d a w) s = scalarAtomic (atomOf p.1 w) d a none s := by
  simp only [atomicOps, List.mem_cons, List.not_mem_nil, or_false] at he
  rcases he with rfl | rfl | rfl | rfl | rfl | rfl | rfl | rfl | rfl
  · exact ⟨(0x0, _), by simp [valueOps], by decide, rfl, fun _ _ _ _ => rfl⟩
  · exact ⟨(0x2, _), by simp [valueOps], by decide, rfl, fun _ _ _ _ => rfl⟩
  · exact ⟨(0x3, _), by simp [valueOps], by decide, rfl, fun _ _ _ _ => rfl⟩
  · exact ⟨(0x4, _), by simp [valueOps], by decide, rfl, fun _ _ _ _ => rfl⟩
  · exact ⟨(0x5, _), by simp [valueOps], by decide, rfl, fun _ _ _ _ => rfl⟩
  · exact ⟨(0x6, _), by simp [valueOps], by decide, rfl, fun _ _ _ _ => rfl⟩
  · exact ⟨(0x7, _), by simp [valueOps], by decide, rfl, fun _ _ _ _ => rfl⟩
  · exact ⟨(0x8, _), by simp [valueOps], by decide, rfl, fun _ _ _ _ => rfl⟩
  · exact ⟨(0x9, _), by simp [valueOps], by decide, rfl, fun _ _ _ _ => rfl⟩

/-- Accumulations, with their elements. -/
theorem fixedOps_elem {e : (BitVec 6 → BitVec 6 → Instr) × (BitVec 6 → BitVec 6 → BitVec 5 → BitVec 4 → Instr) × Nat} (he : e ∈ fixedOps)
    (d a : BitVec 6) (s : State) : exec (e.1 d a) s = scalarAtomic (fxOf e.2.2) d a none s := by
  simp only [fixedOps, List.mem_cons, List.not_mem_nil, or_false] at he
  rcases he with rfl | rfl | rfl | rfl | rfl <;> rfl

/-- Settles O22: what comes before the operation leaves memory as it is, so the slot and the answer are those of the operation at the
slice. -/
theorem scalarAtomics : Obligations.ScalarAtomics := by
  intro s u i es p d a b w ha hu hf hg hp n m x old passes
  have hq : ∀ {o : AtomOp} {b : Option (BitVec 6)}, PlainSlot (slotRequest s i p o d b) := plainSlot_nearReq _ _ _ hp
  have hold : ∀ {k : Nat}, k < 0xB → old < 256 ^ (atomOf k w).size := fun hk => (atomOf_size hk w).1 ▸ readLe_lt ..
  refine ⟨fun op hop hpass => ?_, fun hpass => ?_, fun hw hpass => ?_, fun op hop f hreg hpass => ?_⟩
  case refine_1 =>
    obtain ⟨k, hk, hlt, hval, hexec⟩ := atomicOps_code hop
    have hk' : k.1 < 0xB := by omega
    obtain ⟨hsize, hwide⟩ := atomOf_size hk' w
    rw [hexec, ← hval]
    refine scalarAtomic_answers (o := atomOf k.1 w) ha hu hf hg hp (hsize ▸ hpass) hk'.ne hwide (hold hk') (y := 0) fun v hcl hm => ?_
    have h := nearValue_done hcl (hq (o := atomOf k.1 w) (b := none)) hk (n := n) (atomBits_eq w)
    rwa [slotRequest_x, readLe_of_mem hm] at h
  case refine_2 =>
    obtain ⟨hsize, hwide⟩ := atomOf_size (k := 1) (by decide) w
    refine scalarAtomic_answers (o := atomOf 1 w) (b := some b) ha hu hf hg hp (hsize ▸ hpass) (show 1 ≠ 0xB by decide) hwide (hold (by decide))
      (y := 0) fun v hcl hm => ?_
    have h := nearCas_done hcl (hq (o := atomOf 1 w) (b := some b)) (n := n) (atomBits_eq w)
    rwa [slotRequest_x, slotRequest_y, readLe_of_mem hm] at h
  case refine_3 =>
    subst hw
    refine scalarAtomic_answers (o := atomOf 10 0) (b := none) ha hu hf hg hp hpass (by decide) rfl (hold (by decide)) (y := 0) fun v hcl hm => ?_
    have h := nearFadd_done hcl (hq (o := atomOf 10 0) (b := none)) rfl
    rw [slotRequest_x, readLe_of_mem hm] at h
    have hn : (if (0 : BitVec 1) = 1 then 64 else 32) = 32 := if_neg (by decide)
    simp only [old, x, n, hn]
    exact h
  case refine_4 =>
    rw [fixedOps_elem hop]
    refine scalarAtomic_silent (o := fxOf op.2.2) (b := none) ha hu hf hg hp hpass rfl (old := 0) (y := 0) (fl := 0) fun v hcl hm => ?_
    have h := nearFxadd_done hcl (hq (o := fxOf op.2.2) (b := none)) ((region_of_mem hm _).trans hreg)
    rwa [slotRequest_x, readLe_of_mem hm] at h

end Sys2Proof.Claims
end

section
/-! PROOF. O25 fails: pages of different ordering kinds can share a frame. The lanes of a vector atomic on the strongly ordered page
are then performed before those on the other, whatever their order (log entry 72), although they name one slot (R234). -/

namespace Sys2Proof.Claims
open Sys2Proof.Machine

/-! ### What a delivered cause leaves -/

/-- A cause that a split's handler takes changes the gang of that split alone (R381). -/
theorem takeCause_of_handler {s : State} {id k c : Nat} {g : Gang} {sp : Split} (hg : s.gang id = some g) (hsp : g.split k = some sp)
    (hc : splitCause c = true) (hv : s.ctxTvec g.ctx ≠ 0) (hm : sp.hm = false) (lanes : Mask) (addr : Nat) :
    s.takeCause id k c lanes addr = s.updGang id (fun h => h.setSplit k (some (sp.enter c lanes addr (s.trapVec g.ctx)))) := by
  simp [State.takeCause, hg, hsp, hc, hv, hm]

/-- An atomic leaves nothing over. -/
theorem ExchangedAt.quiet {s t : State} {i : Issue} {h : Gang} {q : Split} (ht : ExchangedAt s t i h q) (hs : s.Quiet) : t.Quiet := by
  obtain ⟨hraises, hlog, hckpts⟩ := hs
  refine ⟨(congrArg State.raises ht.rest).trans hraises, (congrArg State.logQueue ht.rest).trans hlog, fun c hc => ?_⟩
  have hmem : c ∈ unreplayed s i.g.crew := ht.crews ▸ hc
  obtain ⟨b, hb, rfl⟩ := List.mem_map.1 hmem
  have hnone := hckpts b hb
  split <;> exact hnone

/-- The handler that takes a cause after an atomic finds memory as the atomic has left it. -/
theorem ExchangedAt.byte_trapped {s t : State} {i : Issue} {h : Gang} {q : Split} {c : Nat} (ht : ExchangedAt s t i h q) (hs : s.Quiet)
    (hc : splitCause c = true) (hv : t.ctxTvec h.ctx ≠ 0) (hm : q.hm = false) (lanes : Mask) (addr b : Nat) :
    ((t.takeCause i.g.id i.k c lanes addr).settle).byte b = t.byte b := by
  obtain ⟨n, hg⟩ := ht.gang
  rw [takeCause_of_handler hg ht.here hc hv hm, settle_of_quiet]
  · rfl
  · exact ht.quiet hs

/-! ### Two pages of one frame -/

/-- Context 1 uses the tables of reset, with a handler at cb + 0x100. Its pages at 0x200_0000, release-consistent, and at 0x220_0000,
strongly ordered, have one frame. -/
def sharedFrame : State :=
  State.reset.setCells ((cellsAt 64 (leBytes 8 0x8000000000C00000)) ++ cellsAt 72 (leBytes 8 0x2000000) ++ cellsAt 120 (leBytes 4 0x100) ++
    cellsAt 0xC03080 (leBytes 8 0x20002BB) ++ cellsAt 0xC03088 (leBytes 8 0x200023B))

/-- Three lanes, under a limit in s9. -/
def sharingSplit : Split :=
  { Split.start 0x2000000 7 0 with hints := { Hints.none with words := 1, first := 0x1FFFFFC, bnd := some 9 } }

/-- From the base in s2, the offsets in v1 take lane 0 to a slot by the first page and lane 1 to it by the second; lane 2 is past the
limit. Lanes 0 and 1 hold 1 and 2 in v4. -/
def sharingGang : Gang :=
  { Gang.start 7 0 0 0 1 1 5 32 sharingSplit with
    s := [(2, 0x2000040), (9, 0x200010)], v := [(33, 0x200000), (34, 0x200020), (128, 1), (129, 2)] }

/-- The gang, with a lease of both pages. -/
def sharing : State :=
  { sharedFrame with
    gangs := [sharingGang], crews := [Crew.start 1 1 0 0 0 0 0 0], cur := (7, 0), fresh := 100
    leases := [{ task := 5, die := 0, ctx := 1, ranges := [⟨0x2000000, 0x400000, 3⟩], loose := [] }] }

def sharingIssue : Issue := { g := sharingGang, k := 0, sp := sharingSplit, act := 7 }

/-- The slot of lanes 0 and 1. -/
def sharedSlot : Nat := 0x2000040

theorem quiet_sharing : sharing.Quiet := ⟨rfl, rfl, fun c hc => by rw [List.mem_singleton.1 hc]; rfl⟩

theorem undisturbed_sharing : Undisturbed sharing sharingIssue :=
  ⟨⟨⟨rfl, rfl, fun _ => rfl⟩, fun _ _ => ⟨rfl, rfl⟩⟩, rfl, fun _ hl => (List.not_mem_nil hl).elim, rfl, rfl, rfl⟩

theorem unguarded_sharing : Unguarded sharing := by
  have hvalid : ∀ r ∈ List.range 16, (sharing.group r).valid = false := by decide +kernel
  refine ⟨rfl, fun a => List.find?_eq_none.2 fun x hx => ?_, rfl⟩
  obtain ⟨r, hr, rfl⟩ := List.mem_map.1 hx
  simp [hvalid r hr]

/-- What the access of a swap of 32 bits reaches: lanes 0 and 1 the slot, and lane 2 what lies past the limit. -/
def sharingReach : State × (Option Res × List Located) :=
  (sharing.begin sharingIssue).reach sharingIssue
    (atomicRequest sharingIssue (sharingIssue.elems (activeOf sharingIssue 0) 0 2 1 4) 4 false)

theorem sharingReach_passes : sharingReach = (sharingReach.1, none, sharingReach.2.2) := by
  have hstop : sharingReach.2.1 = none := by decide +kernel
  rw [← hstop]

/-- The lanes within the limit. -/
def sharingLanes : Mask := activeOf sharingIssue 0 &&& ~~~ pastLimit sharingIssue (activeOf sharingIssue 0) 1 0 4 0x200010

theorem stopsAt_sharing : StopsAt sharingIssue (activeOf sharingIssue 0) 2 1 0 4 9 sharingReach.2.2 2
    (fun k => addressMark sharingIssue 0 2 1 k || operandMark sharingIssue 4 1 k) true :=
  ⟨⟨rfl, rfl⟩, by decide, by decide +kernel, by decide⟩

theorem reached_sharing : ∀ p ∈ sharingReach.2.2.filter (fun p => sharingLanes.getLsbD p.part.lane),
    Ordinary sharing p ∧ sharedSlot = dpaLocal p.phys ∧ dpaLocal p.phys % 4 = 0 := by
  have hplain : ∀ p ∈ sharingReach.2.2.filter (fun p => sharingLanes.getLsbD p.part.lane),
      (dpaModule p.phys = sharing.mgmt.modid ∧ isDram (dpaLocal p.phys) = true ∧ dpaLocal p.phys % 128 + p.part.len ≤ 128) ∧
      0xC00000 ≤ dpaLocal p.phys ∧ leafWatch p.leaf = false ∧ leafProt p.leaf = false ∧ sharedSlot = dpaLocal p.phys ∧
      dpaLocal p.phys % 4 = 0 := by decide +kernel
  intro p hp
  obtain ⟨hown, habove, hwatch, hprot, hslot⟩ := hplain p hp
  exact ⟨⟨hown, habove, hwatch, hprot⟩, hslot⟩

/-- What an outcome leaves in the slot. -/
def slotLeft : Outcome → Nat
  | .next t => t.readLe sharedSlot 4
  | _ => 0

/-- Lane 1, whose page is strongly ordered, goes first, and lane 0 has the last word. -/
theorem slotLeft_sharing : slotLeft (exec (.vatswap 4 2 1 0 0) sharing) = 1 := by
  rw [exec_vatswap]
  decide +kernel

/-- Refutes O25: at `sharing` a vatswap leaves the operand of lane 0 in the slot that lanes 0 and 1 name (`slotLeft_sharing`), where in
ascending lane order that of lane 1 is the last. -/
theorem not_accessesStopInOrder : ¬ Obligations.AccessesStopInOrder := by
  intro hstops
  obtain ⟨-, -, hlimit, -⟩ := hstops sharing sharingIssue
  obtain ⟨-, -, hatomics⟩ := hlimit sharingReach.1 sharingReach.2.2 9 2
  obtain ⟨hvalue, -⟩ := hatomics (fun _ => sharedSlot) 4 2 1 0 0 undisturbed_sharing ⟨by decide +kernel, rfl⟩ unguarded_sharing
    ⟨rfl, quiet_sharing, rfl⟩ (by decide)
  obtain ⟨t, h, hexec, hex, hlands, hslots, hframe⟩ := hvalue _ (List.mem_cons_self ..) (by decide)
    ⟨sharingReach_passes, stopsAt_sharing, reached_sharing⟩
  have hctx : h.ctx = 1 := by
    have hwrote : sharingIssue.g.WroteV h _ _ _ _ _ := (if_neg (by decide)).mp hlands
    exact congrArg Gang.ctx hwrote.rest
  have htvec : t.ctxTvec h.ctx ≠ 0 := by
    have hkept : t.readLe 120 4 = sharing.readLe 120 4 := readLe_congr fun k hk => hframe _ fun _ _ _ => .inl (show 120 + k < 0x2000040 by omega)
    rw [hctx]
    exact hkept.trans_ne (by decide +kernel)
  have hleft : t.readLe sharedSlot 4 = 1 := by
    rw [← slotLeft_sharing, hexec]
    exact (readLe_congr fun k _ => hex.byte_trapped quiet_sharing (by decide) htvec rfl _ _ _).symm
  have hlast : t.readLe sharedSlot 4 = 2 := (hslots 0 (by decide) (by decide)).trans (by decide +kernel)
  omega

end Sys2Proof.Claims
end

section
/-! PROOF. O48 fails: a hub whose 1,024 places on chip are taken is passed over (R363), where the statement lets the nearest die
with a free core have the task. -/

namespace Sys2Proof.Claims
open Sys2Proof.Machine

/-- A task of one gang that the resident posted, its lease established, at the hub of die 0. -/
def handedOverTask : HubTask :=
  { id := 70, die := 0, ctx := 0, source := .resident, entry := 0, args := List.replicate 8 0, shape := 1, leaseVa := 0, tdepth := 0, cls := 3,
    arrival := 0, since := 0, lease := .ready [], poster := 0, spilled := none, unwritten := false }

/-- A task that the resident posted at the hub of die 1. -/
def queuedTask (n : Nat) : HubTask := { handedOverTask with id := 100 + n, die := 1, lease := .none }

/-- The islands that hold the cores of die 0 are gated, and the hub of die 1, whose cores are all free, holds 1,024 descriptors. -/
def fullHub : State :=
  { State.reset with
    islands := (List.range 3).map (fun n => (n, { IslSt.zero with req := 6, cur := 6 }))
    tasks := handedOverTask :: (List.range 1024).map queuedTask }

/-- Of the other hubs that of die 1 alone holds descriptors, and has no place left (R363). -/
theorem onChip_fullHub {d : Nat} (hd : d ≠ 0) : fullHub.onChip d = if d = 1 then 1024 else 0 := by
  have hqueued : ∀ n, ((queuedTask n).die == d && (queuedTask n).spilled.isNone &&
      ((queuedTask n).source == .post || (queuedTask n).source == .resident)) = (1 == d) := fun n => by
    simp [queuedTask, handedOverTask]
  have hown : ¬ (handedOverTask.die == d) = true := by simpa [handedOverTask] using hd.symm
  show ((handedOverTask :: (List.range 1024).map queuedTask).filter _).length = _
  rw [List.filter_cons_of_neg (by simp [hown]), List.filter_map, List.length_map]
  simp only [Function.comp_def, hqueued]
  by_cases h1 : d = 1
  · simp [h1]
  · simp [h1, Ne.symm h1]

/-- Die 4 is as near as die 1, and takes the task. -/
theorem takerOf_fullHub : fullHub.takerOf 0 handedOverTask = some 4 := by
  have hdies : otherDies 0 = 1 :: 4 :: (otherDies 0).drop 2 := by decide
  have hfull : fullHub.hubRoom 1 handedOverTask = false := by simp [State.hubRoom, onChip_fullHub, handedOverTask]
  have hfree : fullHub.hubRoom 4 handedOverTask = true := by simp [State.hubRoom, onChip_fullHub]
  have hcore : (fullHub.coreFor 4 handedOverTask).isSome = true := by decide +kernel
  show (otherDies 0).find? (fun e => fullHub.hubRoom e handedOverTask && (fullHub.coreFor e handedOverTask).isSome) = some 4
  rw [hdies, List.find?_cons_of_neg (by simp [hfull]), List.find?_cons_of_pos (by simp [hfree, hcore])]

/-- The task is the one that the hub of die 0 deals with, and none of its own cores admits it. -/
theorem hubChoice_fullHub : (fullHub.hubChoice 0).map (·.1) = some handedOverTask ∧ fullHub.orphan 0 = none ∧
    fullHub.coreFor 0 handedOverTask = none := by decide +kernel

/-- A core of die 1 admits the task. -/
theorem coreFor_fullHub : fullHub.coreFor 1 handedOverTask ≠ none := by decide +kernel

/-- Refutes O48: at `fullHub` the task of die 0 goes to die 4, since the hub of die 1 has no place for it; the statement allows that
only if no core of die 1, which is as near and comes first, admits it. -/
theorem not_hubsPlaceTasks : ¬ Obligations.HubsPlaceTasks := by
  rintro ⟨hconsider, -⟩
  obtain ⟨hchoice, horphan, hcore⟩ := hubChoice_fullHub
  obtain ⟨⟨k, v⟩, hkv, rfl⟩ := Option.map_eq_some_iff.1 hchoice
  have hquiet : fullHub.Quiet := ⟨rfl, rfl, fun c hc => by cases hc⟩
  obtain ⟨-, -, -, -, -, -, hhand, -⟩ := (hconsider fullHub 0 hquiet horphan).2 _ v hkv
  obtain ⟨t, -, -, -, -, -, -, -, -, -, hnearest⟩ := hhand [] 4 rfl (.inr rfl) hcore takerOf_fullHub
  have hfirst : 4 ≤ 1 := (hnearest 1 (by decide) (by decide) coreFor_fullHub).2 (by decide)
  omega

end Sys2Proof.Claims
end

section
/-! SUPPORT. The checks of an access at slices that may find errors (R93, R106 to R109, R385): translation changes TLBs, walkers and
memory's side of the machine alone. -/

namespace Sys2Proof.Machine

/-- Two states differ in what TLBs and walkers hold and on memory's side alone. -/
def Sought (s u : State) : Prop := MemorySide { s with tlb := u.tlb, ptrs := u.ptrs } u

namespace Sought

variable {s t u : State}

theorem refl (s : State) : Sought s s := MemorySide.refl s

theorem trans (h : Sought s t) (k : Sought t u) : Sought s u := by
  unfold Sought MemorySide at *
  rw [k, h]

theorem of_memorySide (h : MemorySide s t) : Sought s t := by
  unfold Sought MemorySide at *
  rw [h]

theorem tlbAdd (h : Sought s t) (e : TlbEntry) : Sought s (t.tlbAdd e) := h.trans (MemorySide.refl _)

theorem keepPtrs (cl ctx va n : Nat) : ∀ (level table : Nat) (s : State), Sought s (State.keepPtrs cl ctx va n level table s) := by
  induction n with
  | zero => exact fun _ _ s => refl s
  | succ n ih =>
    intro level table s
    unfold State.keepPtrs
    dsimp only
    split
    · exact Sought.trans (t := { s with ptrs := _ }) (MemorySide.refl _) (ih ..)
    · exact refl s

theorem walkFor (s : State) (cl ctx va : Nat) : Sought s (s.walkFor cl ctx va).1 := by
  unfold State.walkFor
  split
  · exact refl s
  · exact (of_memorySide ((MemorySide.refl s).walkReads ..)).trans (keepPtrs ..)

theorem translate (s : State) (core ctx va : Nat) : Sought s (s.translate core ctx va).1 := by
  have hw := walkFor s (clusterOf core) ctx va
  unfold State.translate
  split
  · exact refl s
  · split
    · exact (refl s).tlbAdd _
    · split
      next e => exact e ▸ hw
      next e =>
        rw [e] at hw
        exact (hw.tlbAdd _).tlbAdd _

theorem locate (s : State) (core ctx need : Nat) (p : Part) : Sought s (s.locate core ctx need p).1 := by
  have ht := translate s core ctx p.va
  unfold State.locate
  split
  · dsimp only
    split
    · exact ht
    · split <;> exact ht
  · exact refl s

theorem locateAll (core ctx need : Nat) (ps : List Part) : ∀ s : State, Sought s (s.locateAll core ctx need ps).1 := by
  induction ps with
  | nil => exact refl
  | cons p ps ih =>
    intro s
    have h := locate s core ctx need p
    unfold State.locateAll
    dsimp only
    split
    · exact h
    · have hall := h.trans (ih _)
      split <;> exact hall

theorem coalesce (s : State) (g : Gang) (need : Nat) (ps : List Part) : Sought s (s.coalesce g need ps).1 := by
  have h := locateAll g.core g.ctx need ps s
  unfold State.coalesce
  split
  · dsimp only
    split <;> exact h
  · dsimp only
    split
    · exact refl s
    · split <;> exact h

theorem reach {i : Issue} {q : Request} {ls : List Located} (h : s.reach i q = (u, none, ls)) : Sought s u := by
  unfold State.reach at h
  split at h
  · split at h
    · cases h
    · cases h
      exact refl s
  · dsimp only at h
    have hc := coalesce s i.g q.need (q.elems.flatMap (fun x => partsOf x.lane x.addr q.size))
    split at h <;> cases h
    exact hc

theorem gang (h : Sought s u) (id : Nat) : u.gang id = s.gang id := MemorySide.gang h id

theorem matrixHolds (h : Sought s u) (g : Gang) : u.matrixHolds g = s.matrixHolds g := by
  unfold Sought MemorySide at h
  rw [h]
  rfl

end Sought

end Sys2Proof.Machine
end

section
/-! PROOF. O38: claim and rinit (R137, R368 to R370). -/

namespace Sys2Proof.Claims
open Sys2Proof.Machine

/-! ### What comes before the operation -/

/-- The one element of an access to a counter. -/
def counterElem (i : Issue) (a : BitVec 6) : Elem := { lane := 0, off := 0, addr := (i.g.sreg a.toNat).toNat }

/-- Part of what an access reaches lies in the host port window of the module's own. -/
def atHost (s : State) (ls : List Located) : Bool := ls.any (fun q => dpaModule q.phys == s.mgmt.modid && isHost (dpaLocal q.phys))

/-- The requests of claim and rinit to the slice of their counter. -/
def claimRequest (i : Issue) (p : Located) : NearReq := nearReq i.g { op := 0xC, wide := true, elem := 0 } p { x := 0, y := 0 } 0

def initRequest (i : Issue) (b : BitVec 4) (p : Located) : NearReq :=
  { nearReq i.g { op := 0xD, wide := true, elem := 0 } p { x := 0, y := 0 } 0 with
    x := i.g.sreg (4 * b.toNat), y := i.g.sreg (4 * b.toNat + 1), z := i.g.sreg (4 * b.toNat + 2), w := i.g.sreg (4 * b.toNat + 3) }

section
variable {s u : State} {i : Issue} {es : List Elem} {ls : List Located} {p : Located} {a : BitVec 6} {mark : Bool} {go : State → Located → Res}

/-- A claim in own memory (R368). -/
theorem exec_claim_eq (hr : Ready s i) (d : BitVec 5) : ∃ go,
    exec (.claim d a) s = .next (i.finish (counterOp i (s.begin i) a (i.g.smark a.toNat) go)) ∧
    ∀ (v : State) (p : Located), dpaModule p.phys = v.mgmt.modid →
      go v p = .done ((i.putClaim (v.nearOp 0xC (claimRequest i p)).st (2 * d.toNat) (v.nearOp 0xC (claimRequest i p))).acquireBy i.g scopeMod) := by
  rw [exec_claim, execClaim, issue_legal hr.issuer (accepts_of_plain hr.hints) (by rfl)]
  exact ⟨_, rfl, fun v p hp => if_pos hp⟩

/-- An rinit in own memory (R369). -/
theorem exec_rinit_eq (hr : Ready s i) (b : BitVec 4) : ∃ go,
    exec (.rinit a b) s = .next (i.finish (counterOp i (s.begin i) a (initMark i a b) go)) ∧
    ∀ (v : State) (p : Located), dpaModule p.phys = v.mgmt.modid → go v p = .done (v.nearOp 0xD (initRequest i b p)).st := by
  rw [exec_rinit, execRinit, issue_legal hr.issuer (accepts_of_plain hr.hints) (by rfl)]
  exact ⟨_, rfl, fun v p hp => if_pos hp⟩

/-- Where the checks pass, the operation follows its release. -/
theorem counterOp_passes (h : CounterPasses s u i es p a mark) (hm : u.matrixHolds i.g = false) : counterOp i (s.begin i) a mark go =
    releaseAtThen i (some scopeMod) u (fun v => go ((v.l1DropUnit (clusterOf i.g.core) p.phys).unreplayable i.g.crew) p) := by
  unfold counterOp
  generalize hc : (s.begin i).check i _ _ _ = c
  obtain rfl : c = .go u es [p] [] := hc.symm.trans h
  show (if u.matrixHolds i.g = true then _ else _) = _
  rw [hm]
  rfl

/-- A cause of the one element stops it (R229). -/
theorem counterOp_faults {c : Nat} (hc : c ∈ [0x06, 0x08, 0x05, 0x0C]) (hr : (s.begin i).reach i (counterRequest i a) = (u, none, ls))
    (hf : (counterRequest i a).faultOf ls (atHost s) (counterElem i a) = some (0, c, (i.g.sreg a.toNat).toNat)) :
    counterOp i (s.begin i) a mark go = .trap u c i.act (i.g.sreg a.toNat).toNat := by
  have hgo : (s.begin i).check i (counterRequest i a) (atHost s) (fun _ => mark) =
      .go u [] (ls.filter (fun _ => false)) [(0, c, (i.g.sreg a.toNat).toNat)] := by
    have helems : (counterRequest i a).elems = [counterElem i a] := rfl
    have hlane : (counterElem i a).lane = 0 := rfl
    simp [State.check, hr, helems, hf, hlane]
  have hreported : reported [(0, c, (i.g.sreg a.toNat).toNat)] = some (c, maskOf [0], (i.g.sreg a.toNat).toNat) := by
    simp only [List.mem_cons, List.not_mem_nil, or_false] at hc
    rcases hc with rfl | rfl | rfl | rfl <;> rfl
  unfold counterOp
  generalize hk : (s.begin i).check i _ _ _ = k
  obtain rfl := hk.symm.trans hgo
  dsimp only
  rw [hreported]

/-- Both are an access to a counter, each with its own mark. -/
theorem exec_counter (hr : Ready s i) (d : BitVec 5) (b : BitVec 4) : ∀ n ∈ ([.claim d a, .rinit a b] : List Instr),
    ∃ mark go, exec n s = .next (i.finish (counterOp i (s.begin i) a mark go)) := by
  obtain ⟨claimGo, hclaim, -⟩ := exec_claim_eq (a := a) hr d
  obtain ⟨initGo, hinit, -⟩ := exec_rinit_eq (a := a) hr b
  intro n hn
  simp only [List.mem_cons, List.not_mem_nil, or_false] at hn
  rcases hn with rfl | rfl
  · exact ⟨_, claimGo, hclaim⟩
  · exact ⟨_, initGo, hinit⟩

/-- Both raise a cause of their one element. -/
theorem counters_raise {c : Nat} (hc : c ∈ [0x06, 0x08, 0x05, 0x0C]) (hr : Ready s i)
    (hreach : (s.begin i).reach i (counterRequest i a) = (u, none, ls))
    (hf : (counterRequest i a).faultOf ls (atHost s) (counterElem i a) = some (0, c, (i.g.sreg a.toNat).toNat)) (d : BitVec 5) (b : BitVec 4) :
    ∀ n ∈ ([.claim d a, .rinit a b] : List Instr), Raises n s u i c i.act (i.g.sreg a.toNat).toNat := by
  intro n hn
  obtain ⟨mark, go, hexec⟩ := exec_counter hr d b n hn
  rw [Raises, hexec, counterOp_faults hc hreach hf]
  rfl

/-! ### Where they stop -/

/-- The first cause of the one element, of seal, alignment and host, in that order (R385). -/
theorem faultOf_counter (hl : ∀ p ∈ ls, p.part.lane = 0) : (counterRequest i a).faultOf ls (atHost s) (counterElem i a) =
    if ls.any (·.isSealed) then some (0, 0x08, (i.g.sreg a.toNat).toNat)
    else if (i.g.sreg a.toNat).toNat % 32 ≠ 0 then some (0, 0x05, (i.g.sreg a.toNat).toNat)
    else if atHost s ls then some (0, 0x0C, (i.g.sreg a.toNat).toNat) else none := by
  have hmine : ls.filter (fun p => p.part.lane == (counterElem i a).lane) = ls := List.filter_eq_self.2 fun p hp => beq_iff_eq.2 (hl p hp)
  unfold Request.faultOf
  dsimp only
  rw [hmine]
  simp [counterRequest, atomicRequest, counterElem]

/-- The gang has a store that has not committed (R329). -/
theorem release_waits {v : State} {id : Nat} {g : Gang} (hg : v.gang id = some g) (hw : g.wcb = []) (hp : g.pendingAcks ≠ 0) (scope : Nat) :
    v.release id scope = (v, some .drain) := by
  simp [State.release, drainAll_of_empty hg hw, hg, State.releaseBusy, Gang.owes, hp]

/-- The checks pass, and the release waits. -/
theorem counterOp_waits (hr : Ready s i) (hm : s.matrixHolds i.g = false) (hw : i.g.wcb = []) (hp : i.g.pendingAcks ≠ 0)
    (h : CounterPasses s u i es p a mark) : BlocksOn (i.finish (counterOp i (s.begin i) a mark go)) i .drain := by
  obtain ⟨all, hreach, -⟩ := check_go h
  have hs : Sought (s.begin i) u := .reach hreach
  have hgang : u.gang i.g.id = some (issuing s i) := by
    rw [hs.gang, gang_begin, if_pos rfl, (issuer_eq hr.issuer).1]
    rfl
  have hop : counterOp i (s.begin i) a mark go = .wait u .drain := by
    rw [counterOp_passes h ((hs.matrixHolds _).trans hm), releaseAtThen, release_waits hgang hw hp]
  rw [hop]
  have hside : MemorySide ({ s with tlb := u.tlb, ptrs := u.ptrs }.begin i) u := hs
  have hquiet : ({ s with tlb := u.tlb, ptrs := u.ptrs }.begin i).block i.g.id i.k .drain |>.Quiet := ⟨hr.quiet.1, hr.quiet.2⟩
  exact blocksOn_of_memorySide (s := { s with tlb := u.tlb, ptrs := u.ptrs }) hr.issuer (MemorySide.settle (hside.updGang i.g.id _) hquiet)

end

/-- R368 to R370: where claim and rinit stop. -/
theorem countersStop : CountersStop := by
  intro s u i a d b hr
  refine ⟨fun ls hreach hl => ?_, fun es p hm hw hp => ⟨fun h => ?_, fun h => ?_⟩⟩
  case refine_1 =>
    have hfault := faultOf_counter (s := s) (i := i) (a := a) hl
    have hno : (∀ p ∈ ls, p.isSealed = false) → ¬ ls.any (·.isSealed) = true := fun hopen h => by
      obtain ⟨p, hp, hsealed⟩ := List.any_eq_true.1 h
      exact Bool.false_ne_true ((hopen p hp).symm.trans hsealed)
    refine ⟨fun hsealed => ?_, fun hopen hal => ?_, fun hopen hal hhost => ?_⟩
    · rw [if_pos (List.any_eq_true.2 hsealed)] at hfault
      exact counters_raise (by decide) hr hreach hfault d b
    · rw [if_neg (hno hopen), if_pos hal] at hfault
      exact counters_raise (by decide) hr hreach hfault d b
    · obtain ⟨p, hp, hmine, hh⟩ := hhost
      have hat : atHost s ls = true := List.any_eq_true.2 ⟨p, hp, by rw [hmine, hh, beq_self_eq_true]; rfl⟩
      rw [if_neg (hno hopen), if_neg (not_not.2 hal), if_pos hat] at hfault
      exact counters_raise (by decide) hr hreach hfault d b
  case refine_2 =>
    obtain ⟨go, hexec, -⟩ := exec_claim_eq (a := a) hr d
    exact ⟨_, hexec, counterOp_waits hr hm hw hp h⟩
  case refine_3 =>
    obtain ⟨go, hexec, -⟩ := exec_rinit_eq (a := a) hr b
    exact ⟨_, hexec, counterOp_waits hr hm hw hp h⟩

/-! ### What they leave -/

theorem accepted_of_ready {s : State} {i : Issue} (hr : Ready s i) : Accepted s i {} := ⟨hr.issuer, hr.quiet, accepts_of_plain hr.hints⟩

/-- What is installed by a gang is released by its release (R309). -/
theorem released_releaseSlots (s : State) (id : Nat) : ∀ x ∈ (s.releaseSlots id).hashes, x.gang = id → x.released ≠ none := by
  intro x hx hid
  obtain ⟨y, -, rfl⟩ := List.mem_map.1 hx
  split at hid
  case isTrue h => simp [h]
  case isFalse h =>
    intro hnone
    rw [if_neg h] at hnone
    exact h (by simp [hid, hnone])

/-- The end of a step that has left nothing to be taken changes no hash-family slot. -/
theorem finish_done_hashes {s x : State} {i : Issue} {v : Nat} (hq : s.Quiet) (hraises : x.raises = s.raises) (hlog : x.logQueue = s.logQueue)
    (hcrews : x.crews = unreplayed s v) : (i.finish (.done x)).hashes = x.hashes := by
  have hx : (x.goOn i.g.id i.k (i.sp.pc + 4)).Quiet := by
    refine ⟨hraises.trans hq.1, hlog.trans hq.2.1, fun c hc => ?_⟩
    obtain ⟨c0, hc0, rfl⟩ := List.mem_map.1 (hcrews ▸ hc : c ∈ unreplayed s v)
    have := hq.2.2 c0 hc0
    split <;> exact this
  show ((x.goOn i.g.id i.k (i.sp.pc + 4)).settle).hashes = (x.goOn i.g.id i.k (i.sp.pc + 4)).hashes
  rw [settle_of_quiet hx]

section
variable {s u : State} {i : Issue} {es : List Elem} {p : Located} {a : BitVec 6} {mark : Bool}

/-- An operation on a counter of own memory follows its release. -/
theorem counterOp_performs (hr : Ready s i) (hu : Undisturbed s i) (hf : Free s i) (h : CounterPasses s u i es p a mark)
    (go : State → Located → Res) :
    ∃ v, counterOp i (s.begin i) a mark go = go v p ∧ Underway s v i ∧ v.crews = unreplayed s i.g.crew ∧ Releases v i := by
  obtain ⟨all, hreach, -⟩ := check_go h
  have htr : Translated (s.begin i) u := reach_translated hu.sound.1 hreach
  have hun := htr.underway
  have hm : u.matrixHolds i.g = false := by
    rw [hun]
    exact hu.jobs
  have hbusy : u.releaseBusy (issuing s i) = false := by
    rw [hun]
    exact hf.1
  have hrel : u.release i.g.id scopeMod = (u.releaseSlots i.g.id, none) :=
    release_of_free (gang_underway (accepted_of_ready hr) hun) hu.wcb hbusy hf.2 scopeMod
  have hlines : NoLines (u.releaseSlots i.g.id) := by
    unfold State.releaseSlots
    rw [hun]
    exact hu.lines
  have hcrews : u.crews = s.crews := by
    rw [htr]
    rfl
  refine ⟨((u.releaseSlots i.g.id).l1DropUnit (clusterOf i.g.core) p.phys).unreplayable i.g.crew, ?_, ?_, ?_, ?_⟩
  · rw [counterOp_passes h hm, releaseAtThen, hrel]
  · rw [l1DropUnit_of_noLines hlines]
    unfold Underway State.unreplayable State.updCrew State.releaseSlots
    rw [hun]
  · rw [unreplayable_crews, l1DropUnit_of_noLines hlines, unreplayed, unreplayed]
    exact congrArg _ hcrews
  · rw [l1DropUnit_of_noLines hlines]
    exact released_releaseSlots u i.g.id

end

/-- Two registers are written, one after the other, unpoisoned. -/
theorem wrotePair_setS {g h : Gang} {d : Nat} {x y : DWord} (hh : { h with splits := g.splits } = (g.setS d x false).setS (d + 1) y false) :
    (∀ n, h.sreg n = if n = d then x else if n = d + 1 then y else g.sreg n) ∧
      (∀ n, n < 64 → h.smark n = if n = d ∨ n = d + 1 then false else g.smark n) ∧
      { h with s := g.s, sPoison := g.sPoison, splits := g.splits } = g := by
  obtain ⟨-, hvalue, hmarks⟩ := wroteS_setS (g.setS d x false) h (d + 1) y false hh
  refine ⟨fun n => ?_, fun n hn => ?_, ?_⟩
  · rw [hvalue, sreg_setS]
    split
    · rw [if_neg (by omega)]
    · rfl
  · rw [hmarks n hn, smark_setS _ _ _ _ _ hn]
    by_cases h1 : n = d <;> by_cases h2 : n = d + 1 <;> simp [h1, h2]
  · exact congrArg (fun k : Gang => { k with s := g.s, sPoison := g.sPoison }) hh

/-- Where the first field of a counter alone has changed. -/
theorem isCounter_of_slot {s t : State} {m : Nat} {next next' end_ min_ div_ : DWord} (h : IsCounter s m next end_ min_ div_)
    (hs : SlotBecomes s t m 8 next'.toNat) : IsCounter t m next' end_ min_ div_ := by
  have hkeep : ∀ b, m + 8 ≤ b → t.readLe b 8 = s.readLe b 8 := fun b hb => readLe_congr fun k _ => hs.2 _ (.inr (by omega))
  exact ⟨hs.1, (hkeep _ (by omega)).trans h.end_, (hkeep _ (by omega)).trans h.min_, (hkeep _ (by omega)).trans h.div_⟩

/-- What a claim's answer does to its gang, with the stamp of its acquire. -/
def claimed (d : Nat) (r : NearResult) (stamp : Nat) (g : Gang) : Gang :=
  { (g.setS d r.x r.poison).setS (d + 1) r.y r.poison with acquired := stamp }

theorem keepsSplits_claimed (d : Nat) (r : NearResult) (stamp : Nat) : KeepsSplits (claimed d r stamp) := fun _ _ => rfl

theorem claimed_eq {g : Gang} {d : Nat} {r : NearResult} (hpoison : r.poison = false) (stamp : Nat) :
    { claimed d r stamp g with acquired := g.acquired } = (g.setS d r.x false).setS (d + 1) r.y false := by
  rw [claimed, hpoison]
  rfl

theorem putClaim_acquireBy {i : Issue} {y : State} {d : Nat} {r : NearResult} (hl : NoLines y) :
    (i.putClaim y d r).acquireBy i.g scopeMod =
      { y.updGang i.g.id (claimed d r y.fresh) with l1 := ((i.putClaim y d r).acquireBy i.g scopeMod).l1 } := by
  unfold Issue.putClaim State.acquireBy
  rw [updGang_updGang _ _ (f := fun g => (g.setS d r.x r.poison).setS (d + 1) r.y r.poison) _ fun _ => rfl]
  exact acquire_of_noLines (s := y.updGang i.g.id _) hl i.g.core scopeMod

/-- The operation at the slice is done, and the step ends with the gang changed by F. -/
theorem counter_ends {s v y x : State} {i : Issue} {F : Gang → Gang} (hr : Ready s i) (hv : Underway s v i)
    (hcrews : v.crews = unreplayed s i.g.crew) (hrel : Releases v i) (hy : y = { v with mem := y.mem, sram := y.sram, l1 := y.l1 })
    (hid : ∀ g, (F g).id = g.id) (hks : KeepsSplits F) (hx : x = { y.updGang i.g.id F with l1 := x.l1 }) :
    ∃ t h, i.finish (.done x) = t ∧ Exchanged s t i h ∧ Releases t i ∧
      { h with splits := i.g.splits } = { F i.g with acquired := i.g.acquired } ∧ ∀ b, t.byte b = y.byte b := by
  have hrest : x = { (s.begin i).updGang i.g.id F with
      tlb := x.tlb, ptrs := x.ptrs, l1 := x.l1, sram := x.sram, mem := x.mem, hashes := x.hashes, crews := unreplayed s i.g.crew } := by
    rw [hx, hy, hv, hcrews]
    rfl
  obtain ⟨t, h, ht, hex, hh, hb⟩ := exchanged_of hr.issuer hr.quiet hid hks hrest
  refine ⟨t, h, ht, hex, ?_, hh, fun b => (hb b).trans ?_⟩
  · have hhashes : t.hashes = v.hashes := by
      rw [← ht, finish_done_hashes hr.quiet (v := i.g.crew) (by rw [hrest]; rfl) (by rw [hrest]; rfl) (by rw [hrest]), hx, hy]
      rfl
    unfold Releases
    rw [hhashes]
    exact hrel
  · rw [hx]
    rfl

section
variable {s u : State} {i : Issue} {es : List Elem} {p : Located} {a : BitVec 6}
  (hr : Ready s i) (hu : Undisturbed s i) (hf : Free s i) (hg : Unguarded s) (hp : Ordinary s p)
include hr hu hf hg hp

theorem claim_completes (d : BitVec 5) {next end_ min_ div_ : DWord} {len : Nat} (h : CounterPasses s u i es p a (i.g.smark a.toNat))
    (hc : IsCounter s (dpaLocal p.phys) next end_ min_ div_) (hl : IsLen next end_ min_ div_ len) :
    ∃ t h, exec (.claim d a) s = .next t ∧ Exchanged s t i h ∧ Releases t i ∧
      (∀ n, h.sreg n = if n = 2 * d.toNat then next else if n = 2 * d.toNat + 1 then BitVec.ofNat 64 len else i.g.sreg n) ∧
      (∀ n, n < 64 → h.smark n = if n = 2 * d.toNat ∨ n = 2 * d.toNat + 1 then false else i.g.smark n) ∧
      { h with s := i.g.s, sPoison := i.g.sPoison, splits := i.g.splits } = i.g ∧
      IsCounter t (dpaLocal p.phys) (next + BitVec.ofNat 64 len) end_ min_ div_ ∧
      ∀ b, b < dpaLocal p.phys ∨ dpaLocal p.phys + 32 ≤ b → t.byte b = s.byte b := by
  obtain ⟨go, hexec, hgo⟩ := exec_claim_eq (a := a) hr d
  obtain ⟨v, hop, hv, hcrews, hreleased⟩ := counterOp_performs hr hu hf h go
  have hbytes := byte_underway hv
  have hmem : v.mem = s.mem := by
    rw [hv]
    rfl
  have hcv : IsCounter v (claimRequest i p).addr next end_ min_ div_ := by
    obtain ⟨h0, h1, h2, h3⟩ := hc
    exact ⟨(readLe_of_mem hmem ..).trans h0, (readLe_of_mem hmem ..).trans h1, (readLe_of_mem hmem ..).trans h2, (readLe_of_mem hmem ..).trans h3⟩
  have hdone : NearDone v (claimRequest i p) (v.nearOp 0xC (claimRequest i p)) 8 (next + BitVec.ofNat 64 len).toNat next.toNat len 0 :=
    nearClaim_clean (clean_underway hu hg hv) ⟨hp.watch, hp.prot, hp.above⟩ hcv hl
  have hown : dpaModule p.phys = v.mgmt.modid := by
    rw [hv]
    exact hp.own.1
  rw [hop, hgo v p hown] at hexec
  generalize v.nearOp 0xC (claimRequest i p) = r at hexec hdone
  have hlines : NoLines r.st := by
    rw [hdone.rest, hv]
    exact hu.lines
  obtain ⟨t, k, ht, hex, hrel, hk, hb⟩ := counter_ends (y := r.st) (F := claimed (2 * d.toNat) r r.st.fresh) hr hv hcrews hreleased hdone.rest
    (fun _ => rfl) (keepsSplits_claimed (2 * d.toNat) r r.st.fresh) (putClaim_acquireBy (i := i) (d := 2 * d.toNat) (r := r) hlines)
  have hx : r.x = next := BitVec.eq_of_toNat_eq hdone.x
  have hy : r.y = BitVec.ofNat 64 len := by
    rw [← hdone.y, BitVec.ofNat_toNat, BitVec.setWidth_eq]
  have hslot : SlotBecomes s t (dpaLocal p.phys) 8 (next + BitVec.ofNat 64 len).toNat := slotBecomes_of hbytes hdone.slot hb
  obtain ⟨hvalue, hmarks, hframe⟩ := wrotePair_setS (hk.trans (claimed_eq hdone.poison _))
  rw [hx, hy] at hvalue
  exact ⟨t, k, hexec.trans (congrArg _ ht), hex, hrel, hvalue, hmarks, hframe, isCounter_of_slot hc hslot, fun b hb => hslot.2 b (by omega)⟩

theorem rinit_completes (b : BitVec 4) (h : CounterPasses s u i es p a (initMark i a b)) :
    ∃ t h, exec (.rinit a b) s = .next t ∧ Exchanged s t i h ∧ Releases t i ∧ i.g.Same h ∧
      IsCounter t (dpaLocal p.phys) (i.g.sreg (4 * b.toNat)) (i.g.sreg (4 * b.toNat + 1)) (i.g.sreg (4 * b.toNat + 2))
        (i.g.sreg (4 * b.toNat + 3)) ∧ ∀ b, b < dpaLocal p.phys ∨ dpaLocal p.phys + 32 ≤ b → t.byte b = s.byte b := by
  obtain ⟨go, hexec, hgo⟩ := exec_rinit_eq (a := a) hr b
  obtain ⟨v, hop, hv, hcrews, hreleased⟩ := counterOp_performs hr hu hf h go
  have hown : dpaModule p.phys = v.mgmt.modid := by
    rw [hv]
    exact hp.own.1
  have hdone : Committed v (v.nearOp 0xD (initRequest i b p)).st _ :=
    nearInit_clean (clean_underway hu hg hv) (q := initRequest i b p) ⟨hp.watch, hp.prot, hp.above⟩
  rw [hop, hgo v p hown] at hexec
  generalize (v.nearOp 0xD (initRequest i b p)).st = y at hexec hdone
  have hsame : y = { y.updGang i.g.id id with l1 := y.l1 } := by simp [State.updGang]
  obtain ⟨t, k, ht, hex, hrel, hk, hb⟩ := counter_ends (F := id) hr hv hcrews hreleased hdone.rest (fun _ => rfl) (fun _ _ => rfl) hsame
  obtain ⟨h0, h1, h2, h3⟩ := isCounter_of_committed hdone
  have hread : ∀ m n, t.readLe m n = y.readLe m n := fun m n => readLe_congr fun _ _ => hb _
  exact ⟨t, k, hexec.trans (congrArg _ ht), hex, hrel, hk, ⟨(hread ..).trans h0, (hread ..).trans h1, (hread ..).trans h2, (hread ..).trans h3⟩,
    fun c hc => (hb c).trans ((counter_frame hdone c hc).trans (byte_underway hv c))⟩

end

/-- R137, R368, R369: claim and rinit on a counter of own memory. -/
theorem countersComplete : CountersComplete := by
  intro s u i es p a hr hu hf hg hp m _
  exact ⟨fun d next end_ min_ div_ len h hc hl => claim_completes hr hu hf hg hp d h hc hl, fun b => rinit_completes hr hu hf hg hp b⟩

/-- Settles O38: an access to a counter is its checks, its release and its operation, one after the other; the operation is that of O39
at its slice. -/
theorem rangeCounters : Obligations.RangeCounters := ⟨countersComplete, countersStop⟩

end Sys2Proof.Claims
end

section
/-! PROOF. O23 fails by the pages of O25: of two pages of one frame the strongly ordered one has its lanes performed first, whatever
their order (log entry 72), although they name one slot (R234). -/

namespace Sys2Proof.Claims
open Sys2Proof.Machine

/-- The two lanes of `sharingGang` that name the slot, with no hint before their word. -/
def sharersSplit : Split := Split.start 0x2000000 3 0

def sharersGang : Gang := sharingGang.setSplit 0 (some sharersSplit)

def sharers : State := { sharing with gangs := [sharersGang] }

def sharersIssue : Issue := { g := sharersGang, k := 0, sp := sharersSplit, act := 3 }

theorem quiet_sharers : sharers.Quiet := ⟨rfl, rfl, fun c hc => by rw [List.mem_singleton.1 hc]; rfl⟩

theorem undisturbed_sharers : Undisturbed sharers sharersIssue :=
  ⟨⟨⟨rfl, rfl, fun _ => rfl⟩, fun _ _ => ⟨rfl, rfl⟩⟩, rfl, fun _ hl => (List.not_mem_nil hl).elim, rfl, rfl, rfl⟩

theorem groupOf_of_mem {s v : State} (h : v.mem = s.mem) (a : Nat) : v.groupOf a = s.groupOf a := by
  unfold State.groupOf State.group
  simp only [readLe_of_mem h]

theorem unguarded_sharers : Unguarded sharers :=
  ⟨rfl, fun a => (groupOf_of_mem (v := sharers) (s := sharing) rfl a).trans (unguarded_sharing.group a), rfl⟩

/-- The checks of a swap of 32 bits. -/
def sharersChecked : Checked :=
  (sharers.begin sharersIssue).check sharersIssue
    (atomicRequest sharersIssue (sharersIssue.elems (activeOf sharersIssue 0) 0 2 1 4) 4 false) noHost
    (fun l => addressMark sharersIssue 0 2 1 l || operandMark sharersIssue 4 1 l)

/-- Checks that no lane fails. -/
def passesAll : Checked → Bool
  | .go _ _ _ f => f.isEmpty
  | .stop _ => false

/-- What checks have located. -/
def locatedBy : Checked → List Located
  | .go _ _ ls _ => ls
  | .stop _ => []

theorem go_of_passesAll {c : Checked} (h : passesAll c = true) : ∃ u es, c = .go u es (locatedBy c) [] := by
  cases c with
  | stop r => cases h
  | go u es ls f => exact ⟨u, es, by rw [List.isEmpty_iff.1 h]; rfl⟩

theorem sharers_pass : passesAll sharersChecked = true := by decide +kernel

/-- Both lanes have located the slot, in ordinary memory. -/
theorem located_sharers : ∀ p ∈ locatedBy sharersChecked,
    Ordinary sharers p ∧ sharedSlot = dpaLocal p.phys ∧ dpaLocal p.phys % 4 = 0 := by
  have hplain : ∀ p ∈ locatedBy sharersChecked,
      (dpaModule p.phys = sharers.mgmt.modid ∧ isDram (dpaLocal p.phys) = true ∧ dpaLocal p.phys % 128 + p.part.len ≤ 128) ∧
      0xC00000 ≤ dpaLocal p.phys ∧ leafWatch p.leaf = false ∧ leafProt p.leaf = false ∧ sharedSlot = dpaLocal p.phys ∧
      dpaLocal p.phys % 4 = 0 := by decide +kernel
  intro p hp
  obtain ⟨hown, habove, hwatch, hprot, hslot⟩ := hplain p hp
  exact ⟨⟨hown, habove, hwatch, hprot⟩, hslot⟩

/-- Lane 1, whose page is strongly ordered, goes first, and lane 0 has the last word. -/
theorem slotLeft_sharers : slotLeft (exec (.vatswap 4 2 1 0 0) sharers) = 1 := by
  rw [exec_vatswap]
  decide +kernel

/-- Refutes O23: at `sharers` a vatswap leaves the operand of lane 0 in the slot that lanes 0 and 1 name (`slotLeft_sharers`), where in
ascending lane order that of lane 1 is the last. -/
theorem not_vectorAtomics : ¬ Obligations.VectorAtomics := by
  intro hatomics
  obtain ⟨u, es, hgo⟩ := go_of_passesAll sharers_pass
  obtain ⟨hvalue, -⟩ := hatomics sharers u sharersIssue es (locatedBy sharersChecked) (fun _ => sharedSlot) 4 2 1 0 0
    ⟨rfl, quiet_sharers, rfl⟩ undisturbed_sharers ⟨by decide +kernel, rfl⟩ unguarded_sharers (fun p hp => (located_sharers p hp).1)
    (fun p hp => (located_sharers p hp).2.1) (by decide)
  obtain ⟨t, h, hexec, -, -, hslots, -⟩ := hvalue _ (List.mem_cons_self ..) (by decide) ⟨hgo, fun p hp => (located_sharers p hp).2.2⟩
  have hleft : t.readLe sharedSlot 4 = 1 := (congrArg slotLeft hexec).symm.trans slotLeft_sharers
  have hlast : t.readLe sharedSlot 4 = 2 := (hslots 0 (by decide) (by decide)).trans (by decide +kernel)
  omega

end Sys2Proof.Claims
end

section
/-! PROOF. O40 fails: what comes in on a port's plane from another module than the one last heard there changes PEER in the port's
status word (R415), whose bytes in the link table frame the statement keeps (log entry 61). -/

namespace Sys2Proof.Claims
open Sys2Proof.Machine

/-- Port 0 has trained and carries traffic; nothing has been heard on its plane. -/
def trainedPort : State := State.reset.updPort 0 (fun p => { p with up := true, trained := true })

/-- A delta of module 2 for a half-line in which no record of this module places parity. -/
def strayDelta : DeltaMsg := { target := 0xC00000, stripe := 0, pos := 0, tag := 1, src := 2, bytes := [(0, 1)] }

/-- PEER in the status word of port 0. -/
def peerByte : Nat := 0xA00504

/-- A byte of the state that an outcome leaves. -/
def byteLeft (o : Outcome) (a : Nat) : Byte :=
  match o with
  | .next t => t.byte a
  | _ => 0

theorem quiet_trainedPort : trainedPort.Quiet := ⟨rfl, rfl, fun c hc => by cases hc⟩

theorem faultless_trainedPort : trainedPort.Faultless := ⟨rfl, rfl, fun _ => rfl⟩

/-- No record of the link table is in force, and context 0 has no log. -/
theorem unplaced_trainedPort : trainedPort.groupOf strayDelta.target = none ∧ trainedPort.logArea 0 = none := by decide +kernel

/-- The delta is refused, and PEER names the module that has sent it. -/
theorem peerByte_after_delta : byteLeft (exec (.delta strayDelta) trainedPort) peerByte = 2 ∧ trainedPort.byte peerByte = 0 := by
  rw [exec_delta]
  decide +kernel

/-- Refutes O40: at `trainedPort` the refusal of `strayDelta` leaves 2 in PEER of port 0 (`peerByte_after_delta`), which is not of the
lost count of context 0's log and so, by the statement, should have stayed as it was. -/
theorem not_parityScrubbingAndSliceRecords : ¬ Obligations.ParityScrubbingAndSliceRecords := by
  intro h
  obtain ⟨hdelta, -⟩ := h trainedPort quiet_trainedPort
  obtain ⟨-, hrefuse⟩ := hdelta strayDelta rfl faultless_trainedPort
  obtain ⟨hgroup, hlog⟩ := unplaced_trainedPort
  obtain ⟨t, hexec, -, hkept⟩ := hrefuse hgroup hlog
  obtain ⟨hleft, hbefore⟩ := peerByte_after_delta
  have hsame : t.byte peerByte = trainedPort.byte peerByte := hkept peerByte (.inr (by decide))
  rw [hexec] at hleft
  exact absurd ((hleft.symm.trans hsame).trans hbefore) (by decide)

end Sys2Proof.Claims
end
